-- ==== Sys2Proof/Word.lean ====
section
/-! DEFINITION. The word types of the model and their plainest arithmetic: bytes, words, little-endian packing and
bit fields (R7). -/

namespace Sys2Proof

/-- One byte (R7). -/
abbrev Byte := BitVec 8

/-- One 32-bit word of the viaduct, of a register or of a Colot register (R30, R302). -/
abbrev Word := BitVec 32

/-- A status code of the device's one 8-bit status space (R17). -/
abbrev Status := BitVec 8

/-- Bits [lo + len - 1 : lo] of a natural number (R7: bit 0 is the least significant). -/
def bitsOf (x lo len : Nat) : Nat := x / 2 ^ lo % 2 ^ len

/-- One bit of a natural number. -/
def bitOf (x k : Nat) : Bool := x / 2 ^ k % 2 == 1

/-- A Bool as the number 0 or 1. -/
def b2n (b : Bool) : Nat := if b then 1 else 0

/-- The value `x` placed at bit `lo`. -/
def putBits (x lo : Nat) : Nat := x * 2 ^ lo

/-- The least of a value and a saturation limit. -/
def satTo (limit x : Nat) : Nat := if x ≤ limit then x else limit

/-- A value held between two limits: out-of-range values take the nearer limit. -/
def clampTo (lo hi x : Nat) : Nat := if x < lo then lo else if hi < x then hi else x

/-- Division of natural numbers rounded up. -/
def ceilDiv (a b : Nat) : Nat := (a + b - 1) / b

/-- The `n` low bytes of `x`, least significant byte first (R7: little-endian). (DESIGN CHOICE, log entry 10.) -/
def leBytes : Nat → Nat → List Byte
  | 0, _ => []
  | n + 1, x => BitVec.ofNat 8 x :: leBytes n (x / 256)

/-- The number a little-endian byte string spells (R7). -/
def ofLe : List Byte → Nat
  | [] => 0
  | b :: bs => b.toNat + 256 * ofLe bs

/-- The `n` low bytes of `x`, most significant byte first: the order of on-air fields (R7). (DESIGN CHOICE, log entry 10.) -/
def beBytes (n x : Nat) : List Byte := (leBytes n x).reverse

/-- The number a most-significant-first byte string spells. -/
def ofBe (bs : List Byte) : Nat := ofLe bs.reverse

/-- `len` bytes of a byte string from offset `off`, zeros beyond its end. -/
def sliceZ (bs : List Byte) (off len : Nat) : List Byte :=
  let t := (bs.drop off).take len
  t ++ List.replicate (len - t.length) 0

/-- The little-endian number in `len` bytes from offset `off`. -/
def leAt (bs : List Byte) (off len : Nat) : Nat := ofLe (sliceZ bs off len)

/-- A byte string padded with zeros to `n` bytes and cut there. -/
def padTo (n : Nat) (bs : List Byte) : List Byte := sliceZ bs 0 n

end Sys2Proof
end

