-- ==== Sys2Proof/Syntax.lean ====
section
/-! DEFINITION. The commands of the block: one constructor of `Instr` per row of spec/opcode_table.json, with the
operands the row's rule gives it. Commands that stand for an outside event carry what was measured or received. -/

namespace Sys2Proof

/-- An island by its ID: 0 AON, 1 DECK, 2 KEYSTONE, 3 RF, 4 STORE, 5 LINK, 6 + n PIERn (R21). -/
abbrev Island := Fin 14

/-- A bay of the device, 0 to 63 (R5). -/
abbrev Bay := Fin 64

/-- A pier, 0 to 7 (R5). -/
abbrev PierId := Fin 8

/-- A register field of an instruction word (R314). -/
abbrev RegF := BitVec 4

/-- A read of `n` words or a write of the given words in one burst (R30). -/
inductive BurstOp where
  | read (n : Nat)
  | write (ws : List Word)
deriving DecidableEq, Repr

/-- Where a sense request comes from, with what a host START carries (R43, R415). -/
inductive SenseSource where
  | detuning
  | locatedFob
  | tagRead
  | hostStart (ident : List Byte) (seq : Nat)
deriving DecidableEq, Repr

/-- One bit as the uplink decoder decodes it: a value, or a coding violation (R142, R143). -/
inductive UpBit where
  | zero
  | one
  | violated
deriving DecidableEq, Repr

/-- One step of the self-calibration sweep: amplitude in mA and phase in 1/65536 cycle (R117). -/
structure SweepStep where
  amp   : Nat
  phase : Int
deriving DecidableEq, Repr

/-- Parity of a viaduct transaction's two bundles (R376). -/
inductive Parity where
  | good
  | requestBad
  | responseBad
deriving DecidableEq, Repr

/-- Where the bad word of an access lay, or none: the SRAM or MRAM ECC finding of the access (R375, R266). -/
inductive EccFinding where
  | clean
  | corrected
  | uncorrectable
deriving DecidableEq, Repr

/-- What the ranging unit measured for one aerial: S in cm, Q in 1/256 and SNR in dB (R198). -/
structure AerialRange where
  s   : Nat
  q   : Nat
  snr : Nat
deriving DecidableEq, Repr

/-- What one ranging exchange measured: per aerial, and t4 - t1 in 0.25 ns; the PONG and RESULT it received (R193 to
R195, R198). -/
structure PsrMeasure where
  ranges   : List AerialRange
  t4mt1    : Nat
  t4Device : Nat
  pong     : Option (List Byte)
  result   : Option (List Byte)
deriving DecidableEq, Repr

/-- The header of a host's dispatch frame that a request carries (R414). -/
structure HostHdr where
  device : Byte
  bay    : Byte
  seq    : Nat
  eth    : Bool
deriving DecidableEq, Repr

/-- A meter's reply on the bus: a normal reply with its energy, an exception, or one with a bad CRC or address (R421). -/
inductive MeterReply where
  | normal (raw : List Byte) (energy : Nat)
  | exception (raw : List Byte) (code : Byte)
  | bad (raw : List Byte)
deriving DecidableEq, Repr

/-- The two field buses (R374). -/
inductive FieldBus where
  | meter
  | dispenser
deriving DecidableEq, Repr

/-- A bus fault's kind (R374). -/
inductive BusFaultKind where
  | opened
  | contention
  | stuck
deriving DecidableEq, Repr

/-- The two ports of the cascade ring (R394). -/
inductive ZwPort where
  | up
  | down
deriving DecidableEq, Repr

/-- What asks for a freeze: the pin FREEZE_N or the monitor (R439). -/
inductive FreezeSource where
  | pin
  | monitor
deriving DecidableEq, Repr

/-- A ring frame as received: header fields, payload and whether its CRC held (R396, R398). -/
structure RingFrame where
  src     : Fin 16
  dst     : Fin 16
  bcast   : Bool
  hops    : Nat
  first   : Bool
  last    : Bool
  wrapped : Bool
  seq     : Nat
  payload : List Byte
  crcGood : Bool
deriving DecidableEq, Repr

/-- The four causes of an AON reset (R449). -/
inductive ResetCause where
  | power
  | pin
  | brownout
  | lifecycle
deriving DecidableEq, Repr

/-- The strap and test balls as AON samples them in the last cycle of an AON reset (R467). -/
structure Straps where
  id   : Fin 16
  boot : Fin 4
  test : Bool
deriving DecidableEq, Repr

/-- The causes of a warm restart (R380): an SRAM error, the core watchdog, a double fault, or a write. -/
inductive RestartCause where
  | sramEcc
  | watchdog
  | doubleFault
  | written
deriving DecidableEq, Repr

/-- The commands of the block: one constructor per row of spec/opcode_table.json, in the table's order. -/
inductive Instr where
  /-- REGISTER_WRITE (R12). -/
  | registerWrite (ini : Island) (addr data : Word) (strb : BitVec 4)
  /-- LO_READ_LATCH (R29). -/
  | loReadLatch (ini : Island) (addr : Word)
  /-- RC_READ_CLEAR (R10). -/
  | rcReadClear (ini : Island) (addr : Word)
  /-- DEVICE_TIME_STEP (R27). -/
  | deviceTimeStep (cycles : List Nat)
  /-- REFERENCE_START (R27). -/
  | referenceStart
  /-- VIADUCT_BURST (R31). -/
  | viaductBurst (ini : Island) (addr : Word) (op : BurstOp)
  /-- VIADUCT_MESSAGE (R30). -/
  | viaductMessage (ini : Island) (target : Fin 16) (msg : BitVec 128)
  /-- MESSAGE_ENTERS_INBOX (R33). -/
  | messageEntersInbox (target : Island)
  /-- VIADUCT_RESPONSE (R30). -/
  | viaductResponse (ini : Island) (parity : Parity) (ecc : EccFinding)
  /-- SENSE_REQUEST (R43). -/
  | senseRequest (src : SenseSource) (bay : Bay)
  /-- BIRTH (R43). -/
  | birth
  /-- QUEUE_ENTRY_TIMEOUT (R483). -/
  | queueEntryTimeout (bay : Bay) (source : Fin 4)
  /-- SPAN_DISABLE (R43). -/
  | spanDisable (ini : Island)
  /-- AUTH_DEADLINE (R51). -/
  | authDeadline (bay : Bay)
  /-- RELEASE_DEADLINE (R52). -/
  | releaseDeadline (bay : Bay)
  /-- TOKEN_NOT_AFTER (R63). -/
  | tokenNotAfter (bay : Bay)
  /-- INTERIM_INSTANT (R66). -/
  | interimInstant (bay : Bay)
  /-- MAX_DURATION_REACHED (R48). -/
  | maxDurationReached (bay : Bay)
  /-- TOLL_REQ (R89). -/
  | tollReq (ini : Island) (word : Word)
  /-- TOLL_REQUEST_PROCESS (R88). -/
  | tollRequestProcess
  /-- TOLL_CANCEL (R90). -/
  | tollCancel (ini : Island) (handle : Byte)
  /-- FRAME_BOUNDARY (R77). -/
  | frameBoundary
  /-- JOB_MISS (R93). -/
  | jobMiss (handle : Byte) (cls : Fin 32) (resource : Fin 16) (deadline : Nat)
  /-- LF_DRIVE_START (R111). -/
  | lfDriveStart (ini : Island) (pier : PierId) (aerial : Fin 8) (txbits : BitVec 12)
  /-- LF_PING_START (R111). -/
  | lfPingStart (ini : Island) (pier : PierId) (aerial : Fin 8)
  /-- LF_TUNE_START (R117). -/
  | lfTuneStart (ini : Island) (pier : PierId) (aerial : Fin 8)
  /-- LF_CHORD_ARM (R108). -/
  | lfChordArm (ini : Island) (pier : PierId) (aerial : Fin 8)
  /-- LF_CHORD_START (R129). -/
  | lfChordStart (pier : PierId)
  /-- LF_STOP (R113). -/
  | lfStop (ini : Island) (pier : PierId)
  /-- LF_DISABLE (R113). -/
  | lfDisable (ini : Island) (pier : PierId)
  /-- LF_TXD_PUSH (R124). -/
  | lfTxdPush (ini : Island) (pier : PierId) (data : Word)
  /-- DRIVE_CHECK (R115). -/
  | driveCheck (pier : PierId) (i q : BitVec 16)
  /-- UPLINK_WORD (R110). -/
  | uplinkWord (pier : PierId) (bits : BitVec 16) (count : Fin 17) (violation : Bool)
  /-- LF_BURST_END (R114). -/
  | lfBurstEnd (pier : PierId) (regLimit : Bool) (fundMv : Nat) (sweep : List SweepStep)
  /-- LF_AER_CLR (R123). -/
  | lfAerClr (ini : Island) (pier : PierId) (mask : BitVec 8)
  /-- DRIVE_VALID_LOSS (R101). -/
  | driveValidLoss (pier : PierId)
  /-- PING_ROUND (R118). -/
  | pingRound (owner : Option PierId)
  /-- PING_DONE (R119). -/
  | pingDone (bay : Bay) (amp : BitVec 12) (phase : BitVec 9)
  /-- TAG_REPLY (R142). -/
  | tagReply (pier : PierId) (bits : List UpBit)
  /-- TAG_REPLY_TIMEOUT (R141). -/
  | tagReplyTimeout (pier : PierId)
  /-- INVENTORY_RESERVATION_END (R146). -/
  | inventoryReservationEnd (pier : PierId)
  /-- KT_MAC_TIMEOUT (R151). -/
  | ktMacTimeout (pier : PierId)
  /-- RF_CMD_OFF (R162). -/
  | rfCmdOff (ini : Island)
  /-- RF_CMD_STANDBY (R162). -/
  | rfCmdStandby (ini : Island)
  /-- RF_CMD_SYNTH (R159). -/
  | rfCmdSynth (ini : Island) (ch : BitVec 7)
  /-- RF_CMD_TX (R161). -/
  | rfCmdTx (ini : Island) (ch : BitVec 7) (aerial : Fin 4) (pwr : BitVec 6) (rate : Bool)
  /-- RF_CMD_RX (R163). -/
  | rfCmdRx (ini : Island) (ch : BitVec 7) (aerial : Fin 4) (rate : Bool)
  /-- RF_CMD_WAKE (R162). -/
  | rfCmdWake (ini : Island)
  /-- RF_CMD_TEST (R183). -/
  | rfCmdTest (ini : Island) (ch : BitVec 7) (aerial : Fin 4) (pwr : BitVec 6)
  /-- RF_CMD_CAL_ALL (R159). -/
  | rfCmdCalAll (ini : Island)
  /-- RF_DISABLE (R185). -/
  | rfDisable (ini : Island)
  /-- RF_TRANSITION_DONE (R158). -/
  | rfTransitionDone
  /-- SYNTH_LOCK (R161). -/
  | synthLock
  /-- SYNTH_LOCK_TIMEOUT (R160). -/
  | synthLockTimeout
  /-- TX_PACKET_END (R165). -/
  | txPacketEnd
  /-- RX_PACKET (R169). -/
  | rxPacket (len : Byte) (payload : List Byte) (crc : BitVec 24) (rssi : Byte) (time : Nat)
  /-- RX_WINDOW_CLOSE (R173). -/
  | rxWindowClose
  /-- REFLECTION_MEASURE (R182). -/
  | reflectionMeasure (mag : BitVec 6) (short : Bool)
  /-- ANT_CLR (R183). -/
  | antClr (ini : Island) (mask : BitVec 4)
  /-- COEX_GRANT (R177). -/
  | coexGrant
  /-- COEX_WITHDRAW (R178). -/
  | coexWithdraw
  /-- COEX_GRANT_TIMEOUT (R178). -/
  | coexGrantTimeout
  /-- COEX_WAIT_TIMEOUT (R179). -/
  | coexWaitTimeout
  /-- COEX_WINDOW_EDGE (R177). -/
  | coexWindowEdge
  /-- WAKE_PACKET (R176). -/
  | wakePacket (site : BitVec 24) (typ crc : Byte)
  /-- PSR_START (R207). -/
  | psrStart (ini : Island) (word : Word)
  /-- PSR_ABORT (R207). -/
  | psrAbort (ini : Island) (word : Word)
  /-- PSR_LEG (R194). -/
  | psrLeg (leg : Fin 9)
  /-- PSR_EXCHANGE_END (R196). -/
  | psrExchangeEnd (status : Status) (m : PsrMeasure)
  /-- CIPHER_START (R237). -/
  | cipherStart (ini : Island) (ctx : Fin 2) (desc : BitVec 12)
  /-- CIPHER_SUSPEND_AND_START (R229). -/
  | cipherSuspendAndStart (ini : Island) (ctx : Fin 2) (desc : BitVec 12)
  /-- CIPHER_RESUME (R229). -/
  | cipherResume (ini : Island) (ctx : Fin 2)
  /-- CIPHER_ABORT (R229). -/
  | cipherAbort (ini : Island) (ctx : Fin 2)
  /-- CIPHER_BLOCK_BOUNDARY (R229). -/
  | cipherBlockBoundary (accessStatus : Status)
  /-- CIPHER_MESSAGE_END (R212). -/
  | cipherMessageEnd
  /-- LOCK_ACQUIRE (R228). -/
  | lockAcquire (ini : Island)
  /-- LOCK_RELEASE (R228). -/
  | lockRelease (ini : Island)
  /-- STORE_LOCK_REQUEST (R231). -/
  | storeLockRequest
  /-- LOCK_GRANT (R228). -/
  | lockGrant
  /-- HOLD_EXPIRED (R230). -/
  | holdExpired
  /-- SLOT_CLEAR (R217). -/
  | slotClear (ini : Island) (slot : BitVec 7)
  /-- CAISSON_SEAL (R235). -/
  | caissonSeal (ini : Island) (k : Fin 4)
  /-- CAISSON_UNSEAL (R235). -/
  | caissonUnseal (ini : Island) (k : Fin 4)
  /-- CAISSON_ZEROING_DONE (R233). -/
  | caissonZeroingDone (k : Fin 4)
  /-- RNG_ENABLE (R249). -/
  | rngEnable (ini : Island)
  /-- RNG_DISABLE (R264). -/
  | rngDisable (ini : Island)
  /-- RNG_RESEED_CMD (R246). -/
  | rngReseedCmd (ini : Island)
  /-- RNG_RESTART (R251). -/
  | rngRestart (ini : Island)
  /-- RNG_WARMUP_END (R241). -/
  | rngWarmupEnd
  /-- RNG_STARTUP_TEST_END (R243). -/
  | rngStartupTestEnd
  /-- RNG_INSTANTIATE (R249). -/
  | rngInstantiate (seed : BitVec 384)
  /-- RNG_HEALTH_FAIL (R250). -/
  | rngHealthFail (aptTest : Bool)
  /-- RNG_RESEED_DONE (R246). -/
  | rngReseedDone (seed : BitVec 384)
  /-- RNG_PRIVATE_REQUEST (R247). -/
  | rngPrivateRequest (wire : Fin 3) (bytes : Nat)
  /-- RNG_GENERATE (R248). -/
  | rngGenerate
  /-- RNG_DATA_READ (R248). -/
  | rngDataRead (ini : Island)
  /-- HASH256 (R255). -/
  | hash256 (ini : Island) (key : BitVec 3) (desc : BitVec 12)
  /-- HASH384 (R255). -/
  | hash384 (ini : Island) (key : BitVec 3) (desc : BitVec 12)
  /-- SIGN (R257). -/
  | sign (ini : Island) (key : BitVec 3) (desc : BitVec 12)
  /-- VERIFY (R255). -/
  | verify (ini : Island) (key : BitVec 3) (desc : BitVec 12)
  /-- ATTEST (R260). -/
  | attest (ini : Island) (key : BitVec 3) (desc : BitVec 12)
  /-- GEN_ID (R259). -/
  | genId (ini : Island) (key : BitVec 3) (desc : BitVec 12)
  /-- SIGNER_NONCE_DELIVERED (R257). -/
  | signerNonceDelivered
  /-- SIGN_COMMAND_END (R256). -/
  | signCommandEnd
  /-- LEDGER_WRITE_START (R274). -/
  | ledgerWriteStart
  /-- LEDGER_WRITE_DONE (R274). -/
  | ledgerWriteDone (firstReadBack secondReadBack : Bool)
  /-- RING_RECOVERY_DONE (R295). -/
  | ringRecoveryDone (unreadable : List Nat)
  /-- LOOKUP (R283). -/
  | lookup (ident : List Byte)
  /-- LOOKUP_ANSWER (R284). -/
  | lookupAnswer (bay : Bay)
  /-- CRED_ERASE_DONE (R288). -/
  | credEraseDone
  /-- FLASH_OP_DONE (R277). -/
  | flashOpDone (ok : Bool)
  /-- FLASH_TIMEOUT (R280). -/
  | flashTimeout
  /-- JOURNAL_APPEND (R292). -/
  | journalAppend (typ : Byte) (flags : Byte) (siteBay : BitVec 16) (spanId : Word) (time : Nat) (body : List Byte)
  /-- JOURNAL_RECORD_DURABLE (R292). -/
  | journalRecordDurable
  /-- ARCHIVE_MOVE (R296). -/
  | archiveMove
  /-- JRN_ACK_WRITE (R297). -/
  | jrnAckWrite (ini : Island) (hi : Word)
  /-- IMG_OPEN (R339). -/
  | imgOpen (ini : Island) (opened : Bool)
  /-- IMG_HASH (R339). -/
  | imgHash (ini : Island)
  /-- IMG_HASH_DONE (R339). -/
  | imgHashDone (readable : Bool)
  /-- ADD (R317). -/
  | add (c : Island) (rd ra rb : RegF)
  /-- SUB (R317). -/
  | sub (c : Island) (rd ra rb : RegF)
  /-- AND (R317). -/
  | and (c : Island) (rd ra rb : RegF)
  /-- OR (R317). -/
  | or (c : Island) (rd ra rb : RegF)
  /-- XOR (R317). -/
  | xor (c : Island) (rd ra rb : RegF)
  /-- SLL (R317). -/
  | sll (c : Island) (rd ra rb : RegF)
  /-- SRL (R317). -/
  | srl (c : Island) (rd ra rb : RegF)
  /-- SRA (R317). -/
  | sra (c : Island) (rd ra rb : RegF)
  /-- SLT (R317). -/
  | slt (c : Island) (rd ra rb : RegF)
  /-- SLTU (R317). -/
  | sltu (c : Island) (rd ra rb : RegF)
  /-- MUL (R317). -/
  | mul (c : Island) (rd ra rb : RegF)
  /-- MULH (R317). -/
  | mulh (c : Island) (rd ra rb : RegF)
  /-- MULHU (R317). -/
  | mulhu (c : Island) (rd ra rb : RegF)
  /-- DIV (R317). -/
  | div (c : Island) (rd ra rb : RegF)
  /-- DIVU (R317). -/
  | divu (c : Island) (rd ra rb : RegF)
  /-- REM (R317). -/
  | rem (c : Island) (rd ra rb : RegF)
  /-- REMU (R317). -/
  | remu (c : Island) (rd ra rb : RegF)
  /-- MIN (R317). -/
  | min (c : Island) (rd ra rb : RegF)
  /-- MAX (R317). -/
  | max (c : Island) (rd ra rb : RegF)
  /-- MINU (R317). -/
  | minu (c : Island) (rd ra rb : RegF)
  /-- MAXU (R317). -/
  | maxu (c : Island) (rd ra rb : RegF)
  /-- CLZ (R317). -/
  | clz (c : Island) (rd ra rb : RegF)
  /-- BSWAP (R317). -/
  | bswap (c : Island) (rd ra rb : RegF)
  /-- RDS (R318). -/
  | rds (c : Island) (rd ra rb : RegF)
  /-- WRS (R318). -/
  | wrs (c : Island) (rd ra rb : RegF)
  /-- RETI (R318). -/
  | reti (c : Island) (rd ra rb : RegF)
  /-- WFI (R318). -/
  | wfi (c : Island) (rd ra rb : RegF)
  /-- FENCE (R313). -/
  | fence (c : Island) (rd ra rb : RegF)
  /-- ADDI (R316). -/
  | addi (c : Island) (rd ra z : RegF) (imm : BitVec 14)
  /-- ANDI (R316). -/
  | andi (c : Island) (rd ra z : RegF) (imm : BitVec 14)
  /-- ORI (R316). -/
  | ori (c : Island) (rd ra z : RegF) (imm : BitVec 14)
  /-- XORI (R316). -/
  | xori (c : Island) (rd ra z : RegF) (imm : BitVec 14)
  /-- SLLI (R316). -/
  | slli (c : Island) (rd ra z : RegF) (imm : BitVec 14)
  /-- SRLI (R316). -/
  | srli (c : Island) (rd ra z : RegF) (imm : BitVec 14)
  /-- SRAI (R316). -/
  | srai (c : Island) (rd ra z : RegF) (imm : BitVec 14)
  /-- SLTI (R316). -/
  | slti (c : Island) (rd ra z : RegF) (imm : BitVec 14)
  /-- SLTIU (R316). -/
  | sltiu (c : Island) (rd ra z : RegF) (imm : BitVec 14)
  /-- LHI (R316). -/
  | lhi (c : Island) (rd z : RegF) (imm : BitVec 18)
  /-- LDW (R316). -/
  | ldw (c : Island) (rd ra z : RegF) (imm : BitVec 14) (ecc : EccFinding)
  /-- LDH (R316). -/
  | ldh (c : Island) (rd ra z : RegF) (imm : BitVec 14) (ecc : EccFinding)
  /-- LDHU (R316). -/
  | ldhu (c : Island) (rd ra z : RegF) (imm : BitVec 14) (ecc : EccFinding)
  /-- LDB (R316). -/
  | ldb (c : Island) (rd ra z : RegF) (imm : BitVec 14) (ecc : EccFinding)
  /-- LDBU (R316). -/
  | ldbu (c : Island) (rd ra z : RegF) (imm : BitVec 14) (ecc : EccFinding)
  /-- STW (R316). -/
  | stw (c : Island) (rd ra z : RegF) (imm : BitVec 14)
  /-- STH (R316). -/
  | sth (c : Island) (rd ra z : RegF) (imm : BitVec 14)
  /-- STB (R316). -/
  | stb (c : Island) (rd ra z : RegF) (imm : BitVec 14)
  /-- LDQ (R316). -/
  | ldq (c : Island) (rd ra z : RegF) (imm : BitVec 14) (ecc : EccFinding)
  /-- STQ (R316). -/
  | stq (c : Island) (rd ra z : RegF) (imm : BitVec 14)
  /-- BEQ (R316). -/
  | beq (c : Island) (ra rb z : RegF) (off : BitVec 14)
  /-- BNE (R316). -/
  | bne (c : Island) (ra rb z : RegF) (off : BitVec 14)
  /-- BLT (R316). -/
  | blt (c : Island) (ra rb z : RegF) (off : BitVec 14)
  /-- BGE (R316). -/
  | bge (c : Island) (ra rb z : RegF) (off : BitVec 14)
  /-- BLTU (R316). -/
  | bltu (c : Island) (ra rb z : RegF) (off : BitVec 14)
  /-- BGEU (R316). -/
  | bgeu (c : Island) (ra rb z : RegF) (off : BitVec 14)
  /-- J (R316). -/
  | j (c : Island) (off : BitVec 26)
  /-- JAL (R316). -/
  | jal (c : Island) (off : BitVec 26)
  /-- JALR (R316). -/
  | jalr (c : Island) (rd ra z : RegF) (imm : BitVec 14)
  /-- TRAP (R316). -/
  | trap (c : Island) (rd ra z : RegF) (imm : BitVec 14)
  /-- VSEND (R319). -/
  | vsend (c : Island) (rd rq t : RegF) (z : BitVec 10)
  /-- VPOST (R319). -/
  | vpost (c : Island) (rd rq t : RegF) (z : BitVec 10)
  /-- VSENDR (R319). -/
  | vsendr (c : Island) (rd rq t : RegF) (z : BitVec 10)
  /-- VPOSTR (R319). -/
  | vpostr (c : Island) (rd rq t : RegF) (z : BitVec 10)
  /-- VRECV (R319). -/
  | vrecv (c : Island) (rd rq t : RegF) (z : BitVec 10)
  /-- VCOUNT (R319). -/
  | vcount (c : Island) (rd rq t : RegF) (z : BitVec 10)
  /-- TWAIT (R321). -/
  | twait (c : Island) (tr ra rc : RegF) (off : BitVec 10)
  /-- TEMIT (R321). -/
  | temit (c : Island) (tr ra rc : RegF) (off : BitVec 10)
  /-- TSEND (R321). -/
  | tsend (c : Island) (tr ra rc : RegF) (off : BitVec 10)
  /-- TALARM (R322). -/
  | talarm (c : Island) (tr ra rc : RegF) (off : BitVec 10)
  /-- TCANCEL (R321). -/
  | tcancel (c : Island) (tr ra rc : RegF) (off : BitVec 10)
  /-- TIMED_ACTION (R320). -/
  | timedAction (c : Island)
  /-- ALARM_FIRE (R322). -/
  | alarmFire (c : Island)
  /-- WFI_WAKE (R318). -/
  | wfiWake (c : Island)
  /-- INTERRUPT_ENTRY (R326). -/
  | interruptEntry (c : Island)
  /-- IMPRECISE_STATUS_TRAP (R312). -/
  | impreciseStatusTrap (c : Island)
  /-- CORE_HOLD (R333). -/
  | coreHold (ini : Island) (island : Island)
  /-- CORE_RELEASE (R333). -/
  | coreRelease (ini : Island) (island : Island)
  /-- CORE_LOCK (R333). -/
  | coreLock (ini : Island) (island : Island)
  /-- ISLAND_LOAD (R334). -/
  | islandLoad (island : Island)
  /-- HOOK_BUDGET_EXPIRY (R344). -/
  | hookBudgetExpiry (hook : Fin 8) (bay : Bay)
  /-- MSG_SENSE (R342). -/
  | msgSense (bay : Bay) (time : Nat)
  /-- MSG_WAKE_HELLO (R342). -/
  | msgWakeHello (site : BitVec 24)
  /-- MSG_CHORD_ARM (R342). -/
  | msgChordArm (pier : PierId) (bay : Byte) (tag : Byte) (drive : BitVec 24) (header : BitVec 6) (t0 : Nat)
  /-- MSG_TAGREAD (R342). -/
  | msgTagread (bay : Bay) (tag : Byte) (drive : Word) (ktFirst openId : Bool)
  /-- MSG_TAGWRITE (R342). -/
  | msgTagwrite (bay : Bay) (tag : Byte) (drive : Word) (uid : Nat)
  /-- MSG_TUNE (R342). -/
  | msgTune (bay : Bay) (tag : Byte)
  /-- MSG_STOP (R342). -/
  | msgStop (bay : Bay) (tag : Byte)
  /-- MSG_DETUNE (R342). -/
  | msgDetune (bay : Bay) (time : Nat)
  /-- MSG_TAG_RESULT (R342). -/
  | msgTagResult (bay : Bay) (tag : Byte) (status : Status) (kind : Fin 3) (found : Nat) (lowest : Nat)
  /-- MSG_TAG_MORE (R342). -/
  | msgTagMore (bay : Bay) (tag : Byte) (ident : Nat)
  /-- MSG_BURST_RESULT (R342). -/
  | msgBurstResult (bay : Bay) (tag : Byte) (status : Status) (mode : Fin 4) (outcome : Fin 4)
  /-- MSG_AUTH_START (R342). -/
  | msgAuthStart (bay : Bay) (tag : Byte) (kind : Fin 3) (ident : Nat)
  /-- MSG_TOKEN (R342). -/
  | msgToken (bay : Bay) (tag : Byte) (addr : Word)
  /-- MSG_SIGN_HEAD (R342). -/
  | msgSignHead (tag : Byte) (seq : Nat)
  /-- MSG_AUTH_RESULT (R342). -/
  | msgAuthResult (bay : Bay) (tag : Byte) (status : Status)
  /-- MSG_TOKEN_READY (R342). -/
  | msgTokenReady (bay : Bay) (tag : Byte) (status : Status) (counter : Nat)
  /-- MSG_SIGNED (R342). -/
  | msgSigned (tag : Byte) (status : Status) (seq : Nat)
  /-- MSG_KT_CHALLENGE (R342). -/
  | msgKtChallenge (bay : Bay) (tag : Byte) (rc : Word)
  /-- MSG_KT_MAC (R342). -/
  | msgKtMac (bay : Bay) (tag : Byte) (mac : Word)
  /-- MSG_KT_REPLY (R342). -/
  | msgKtReply (bay : Bay) (tag : Byte) (r : Word) (uid : Nat)
  /-- MSG_KT_OPENED (R342). -/
  | msgKtOpened (bay : Bay) (tag : Byte) (tw : BitVec 16) (uid : Nat)
  /-- MSG_CHALLENGE (R342). -/
  | msgChallenge (bay : Bay) (tag : Byte) (offset : Word)
  /-- MSG_MASK_READY (R342). -/
  | msgMaskReady (bay : Bay) (tag : Byte) (offset : Word)
  /-- MSG_RESPONSE (R342). -/
  | msgResponse (bay : Bay) (tag : Byte) (status : Status) (offset : Word)
  /-- MSG_RESULT (R342). -/
  | msgResult (bay : Bay) (tag : Byte) (status : Status) (offset : Word)
  /-- MSG_CHORD_REPORTS (R342). -/
  | msgChordReports (bay : Byte) (tag : Byte) (status : Status) (kept : Nat) (offset : Word)
  /-- MSG_FOB_HELLO (R342). -/
  | msgFobHello (wakeCtr : Word) (fobId : Nat)
  /-- MSG_PSR_DONE (R342). -/
  | msgPsrDone (bay : Bay) (tag : Byte) (status : Status) (offset : Word)
  /-- MSG_CHORD_LISTEN (R342). -/
  | msgChordListen (tag : Byte) (t0 : Nat)
  /-- MSG_RANGE (R342). -/
  | msgRange (bay : Bay) (tag : Byte) (primary use : Byte)
  /-- PWR_ON (R350). -/
  | pwrOn (ini : Island) (island : Fin 16) (tag : Fin 16)
  /-- PWR_OFF (R350). -/
  | pwrOff (ini : Island) (island : Fin 16) (tag : Fin 16)
  /-- PWR_LEVEL (R350). -/
  | pwrLevel (ini : Island) (island : Fin 16) (level : Fin 4) (tag : Fin 16)
  /-- POWER_COMMAND_SERVE (R350). -/
  | powerCommandServe
  /-- PWR_REPLY_ACCEPT (R355). -/
  | pwrReplyAccept (ini : Island)
  /-- PWR_REPLY_DELAY (R355). -/
  | pwrReplyDelay (ini : Island) (n : BitVec 7)
  /-- PWR_REPLY_REFUSE (R355). -/
  | pwrReplyRefuse (ini : Island) (reason : Fin 8)
  /-- QUERY_NO_REPLY (R355). -/
  | queryNoReply (island : Island)
  /-- QUERY_REPEAT (R355). -/
  | queryRepeat (island : Island)
  /-- ISLAND_START_DONE (R350). -/
  | islandStartDone (island : Island)
  /-- ISLAND_STOP_DONE (R36). -/
  | islandStopDone (island : Island)
  /-- LEVEL_CHANGE_DONE (R353). -/
  | levelChangeDone (island : Island)
  /-- PARK_REQUEST (R357). -/
  | parkRequest (ini : Island)
  /-- PARK_COMMIT (R358). -/
  | parkCommit (refCycles : Fin 48)
  /-- WAKE_SOURCE (R359). -/
  | wakeSource (bit : Fin 8)
  /-- WAKE_EVENT (R360). -/
  | wakeEvent
  /-- PARK_RESUME (R360). -/
  | parkResume (refValid : Bool)
  /-- ALARM_ARM (R359). -/
  | alarmArm (ini : Island) (hi : Word)
  /-- GOVERNOR_UPDATE (R364). -/
  | governorUpdate (tj : Int) (hvDie : Bool) (pCore pPing : Nat)
  /-- LF_CURRENT_LIMIT (R370). -/
  | lfCurrentLimit (pier : PierId)
  /-- LF_SHORT (R370). -/
  | lfShort (pier : PierId) (bay : Bay) (victim peak : Byte)
  /-- VIN_UNDERVOLTAGE (R370). -/
  | vinUndervoltage (vin : BitVec 12)
  /-- VINLF_UNDERVOLTAGE (R370). -/
  | vinlfUndervoltage
  /-- VINLF_UV_CLEAR (R370). -/
  | vinlfUvClear
  /-- OVERVOLTAGE (R370). -/
  | overvoltage (vin : BitVec 12)
  /-- OVERVOLTAGE_CLEAR (R370). -/
  | overvoltageClear (vin : BitVec 12)
  /-- REVERSED_INPUT (R371). -/
  | reversedInput
  /-- OVER_TEMPERATURE (R372). -/
  | overTemperature (hvDie : Bool)
  /-- THERMAL_STOP_END (R372). -/
  | thermalStopEnd
  /-- CRYSTAL_48_FAIL (R373). -/
  | crystal48Fail (refCycles : Fin 48)
  /-- CLOCK_STOP_END (R373). -/
  | clockStopEnd
  /-- CRYSTAL_32_FAIL (R370). -/
  | crystal32Fail
  /-- BUS_FAULT (R374). -/
  | busFault (bus : FieldBus) (kind : BusFaultKind)
  /-- VIADUCT_WATCHDOG (R377). -/
  | viaductWatchdog (ini : Island)
  /-- CORE_WATCHDOG (R378). -/
  | coreWatchdog (c : Island)
  /-- WDOG_KICK (R378). -/
  | wdogKick (ini : Island) (island : Island) (kick : Bool)
  /-- RESTART_WRITE (R380). -/
  | restartWrite (ini : Island) (island : Fin 16)
  /-- WARM_RESTART (R381). -/
  | warmRestart (island : Island)
  /-- RST_LIMIT_CLEAR (R384). -/
  | rstLimitClear (ini : Island) (mask : BitVec 14)
  /-- PARAPET_LOG_POP (R392). -/
  | parapetLogPop (ini : Island)
  /-- LINK_UP (R395). -/
  | linkUp (port : ZwPort) (idOk partOk : Bool)
  /-- LINK_DOWN (R395). -/
  | linkDown (port : ZwPort)
  /-- SYNC (R403). -/
  | sync (port : ZwPort) (siteNs : Nat) (mhops : Nat) (arrivalNs : Nat)
  /-- PDELAY_REQ (R403). -/
  | pdelayReq (port : ZwPort) (id : Fin 16) (part : BitVec 16) (t1 t2 : Nat)
  /-- PDELAY_RESP (R403). -/
  | pdelayResp (port : ZwPort) (id : Fin 16) (part : BitVec 16) (t2 t3 t4 : Nat)
  /-- DISPATCH_UP (R409). -/
  | dispatchUp (port : ZwPort) (frame : RingFrame)
  /-- DISPATCH_DOWN (R409). -/
  | dispatchDown (port : ZwPort) (frame : RingFrame)
  /-- TIMEMAP (R405). -/
  | timemap (port : ZwPort) (frame : RingFrame)
  /-- PDELAY_TIMER (R403). -/
  | pdelayTimer
  /-- SYNC_TIMER (R403). -/
  | syncTimer
  /-- SYNC_LOSS (R404). -/
  | syncLoss
  /-- TIMEMAP_REPEAT (R405). -/
  | timemapRepeat
  /-- HELD_FRAME_EXPIRY (R401). -/
  | heldFrameExpiry
  /-- HOST_START (R484). -/
  | hostStart (h : HostHdr) (ident : List Byte)
  /-- HOST_STOP (R50). -/
  | hostStop (h : HostHdr) (spanId : Word)
  /-- HOST_CANCEL (R50). -/
  | hostCancel (h : HostHdr) (spanId : Word)
  /-- HOST_REG_READ (R415). -/
  | hostRegRead (h : HostHdr) (addr : Word) (count : Nat)
  /-- HOST_REG_WRITE (R415). -/
  | hostRegWrite (h : HostHdr) (addr : Word) (ws : List Word)
  /-- HOST_JRN_READ (R299). -/
  | hostJrnRead (h : HostHdr) (first count : Nat)
  /-- HOST_JRN_ACK (R297). -/
  | hostJrnAck (h : HostHdr) (seq : Nat)
  /-- HOST_TIME_SET (R415). -/
  | hostTimeSet (h : HostHdr) (utc : Nat)
  /-- HOST_DB_CHUNK (R288). -/
  | hostDbChunk (h : HostHdr) (chunk : List Byte)
  /-- HOST_DB_COMMIT (R289). -/
  | hostDbCommit (h : HostHdr) (version : Nat)
  /-- HOST_POLICY (R271). -/
  | hostPolicy (h : HostHdr) (set : List Byte)
  /-- HOST_IMAGE_DATA (R415). -/
  | hostImageData (h : HostHdr) (offset : Nat) (data : List Byte)
  /-- HOST_IMAGE_COMMIT (R339). -/
  | hostImageCommit (h : HostHdr)
  /-- HOST_ATTEST (R260). -/
  | hostAttest (h : HostHdr) (nonce : List Byte)
  /-- HOST_CERT (R261). -/
  | hostCert (h : HostHdr)
  /-- HOST_RANGE (R415). -/
  | hostRange (h : HostHdr) (cls primary use : Byte) (fobId : Nat)
  /-- HOST_TAGWRITE (R154). -/
  | hostTagwrite (h : HostHdr) (uid : Nat) (data : List Byte)
  /-- HOST_TUNE (R415). -/
  | hostTune (h : HostHdr)
  /-- HOST_INTEGRATOR_FRAME (R345). -/
  | hostIntegratorFrame (h : HostHdr) (typ : BitVec 5) (body : List Byte) (hookStatus : Status) (hookReply : List Byte)
  /-- SPI_STATUS (R418). -/
  | spiStatus
  /-- SPI_WRITE (R418). -/
  | spiWrite (frame : List Byte)
  /-- SPI_READ (R418). -/
  | spiRead (clocked : Nat)
  /-- ETH_FRAME (R419). -/
  | ethFrame (mac : BitVec 48) (msg : BitVec 16) (frag : Byte) (last : Bool) (data : List Byte)
  /-- ETH_REASSEMBLY_TIMEOUT (R419). -/
  | ethReassemblyTimeout
  /-- METER_LATCH (R422). -/
  | meterLatch
  /-- METER_READ (R421). -/
  | meterRead (bay : Bay)
  /-- METER_REPLY (R421). -/
  | meterReply (bay : Bay) (reply : MeterReply)
  /-- METER_TIMEOUT (R420). -/
  | meterTimeout (bay : Bay)
  /-- DISP_TOKEN (R423). -/
  | dispToken (bay : Bay)
  /-- TOKEN_LAST_BYTE (R48). -/
  | tokenLastByte (bay : Bay)
  /-- DISP_BEACON (R424). -/
  | dispBeacon
  /-- DISP_POLL (R424). -/
  | dispPoll (bay : Bay)
  /-- DISP_STOP (R65). -/
  | dispStop (bay : Bay)
  /-- DISP_REPORT (R424). -/
  | dispReport (bay : Bay) (report : Fin 3) (code : Byte) (counter : Nat)
  /-- DISP_NONE (R423). -/
  | dispNone (bay : Bay)
  /-- DISP_REPLY_TIMEOUT (R424). -/
  | dispReplyTimeout (bay : Bay)
  /-- SNAPSHOT_STROBE (R434). -/
  | snapshotStrobe
  /-- COUNTER_HI_WRITE (R431). -/
  | counterHiWrite (ini : Island) (addr data : Word)
  /-- DUMP_ENABLE (R438). -/
  | dumpEnable (ini : Island)
  /-- FREEZE_REQUEST (R439). -/
  | freezeRequest (src : FreezeSource)
  /-- FREEZE_RELEASE (R441). -/
  | freezeRelease
  /-- MON_INFO (R444). -/
  | monInfo
  /-- MON_READ (R444). -/
  | monRead (addr : Word) (count : Nat)
  /-- MON_WRITE (R444). -/
  | monWrite (addr : Word) (ws : List Word)
  /-- MON_FREEZE (R439). -/
  | monFreeze
  /-- MON_RELEASE (R444). -/
  | monRelease
  /-- MON_CORE (R444). -/
  | monCore (island : Byte)
  /-- MON_INFLIGHT (R444). -/
  | monInflight
  /-- MON_CHALLENGE (R446). -/
  | monChallenge
  /-- MON_UNLOCK (R446). -/
  | monUnlock (sig : List Byte)
  /-- MON_LOCK (R446). -/
  | monLock
  /-- MON_FRAME_GAP (R443). -/
  | monFrameGap
  /-- UNLOCK_TIMEOUT (R446). -/
  | unlockTimeout
  /-- MON_LOAD (R452). -/
  | monLoad (bank : Byte) (offset : Nat) (data : List Byte)
  /-- MON_BOOT (R452). -/
  | monBoot (bank : Byte)
  /-- AON_RESET (R449). -/
  | aonReset (cause : ResetCause) (straps : Straps)
  /-- LC_SUBMIT (R462). -/
  | lcSubmit (ini : Island)
  /-- LC_CLOSE (R461). -/
  | lcClose (ini : Island)
  /-- SESSION_TIMEOUT (R461). -/
  | sessionTimeout
  /-- VIN_UNDERVOLTAGE_CLEAR (R370). -/
  | vinUndervoltageClear (vin : BitVec 12)
  /-- CRYSTAL_32_RESTORED (R370). -/
  | crystal32Restored
  /-- MDIO_ACCESS_DONE (R426). -/
  | mdioAccessDone (data : BitVec 16)
  /-- TEST_CARRIER_END (R183). -/
  | testCarrierEnd
  /-- PMC_OVERFLOW (R427). -/
  | pmcOverflow (island : Island) (k : Fin 8) (occurrences : Nat)
deriving DecidableEq, Repr

end Sys2Proof
end

