-- ==== Sys2Proof/Machine/Operands.lean ====
section
/-! DEFINITION. The operand forms of Colot: the encodings of the instruction formats (R314), the immediates and the
arithmetic of the ALU group (R316, R317). -/

namespace Sys2Proof.Machine

/-! ## Instruction words (R314) -/

/-- Format RR: rd, ra, rb, func. -/
def wordRR (op : BitVec 6) (rd ra rb : RegF) (func : BitVec 14) : Word := op ++ rd ++ ra ++ rb ++ func

/-- Format RI: rd, ra, a zero field, imm14. -/
def wordRI (op : BitVec 6) (rd ra z : RegF) (imm : BitVec 14) : Word := op ++ rd ++ ra ++ z ++ imm

/-- Format RI for lhi: rd, a zero field, imm18. -/
def wordLhi (op : BitVec 6) (rd z : RegF) (imm : BitVec 18) : Word := op ++ rd ++ z ++ imm

/-- Format J: imm26. -/
def wordJ (op : BitVec 6) (imm : BitVec 26) : Word := op ++ imm

/-- Format T: sub, tr, ra, rc, off10. -/
def wordT (sub tr ra rc : RegF) (off : BitVec 10) : Word := (0x28 : BitVec 6) ++ sub ++ tr ++ ra ++ rc ++ off

/-- Format V: rd, rq, t, sub, a zero field. -/
def wordV (rd rq t sub : RegF) (z : BitVec 10) : Word := (0x30 : BitVec 6) ++ rd ++ rq ++ t ++ sub ++ z

/-- A register that names a quad: g4, g8 or g12 (R315). -/
def isQuad (r : RegF) : Bool := r == 4 || r == 8 || r == 12

/-- A register that names a time pair: g2, g4, g6, g8, g10, g12 or g14 (R315). -/
def isPair (r : RegF) : Bool := r != 0 && r.getLsbD 0 == false

/-! ## Immediates -/

/-- imm14 sign-extended (R316). -/
def sext14 (i : BitVec 14) : Word := i.signExtend 32

/-- imm14 zero-extended (R316). -/
def zext14 (i : BitVec 14) : Word := i.setWidth 32

/-- Four times a sign-extended 14-bit offset (R316). -/
def branchOffset (o : BitVec 14) : Word := o.signExtend 32 <<< 2

/-- Four times a sign-extended 26-bit offset (R316). -/
def jumpOffset (o : BitVec 26) : Word := o.signExtend 32 <<< 2

/-- Four times a sign-extended 10-bit offset (R321). -/
def timedOffset (o : BitVec 10) : Word := o.signExtend 32 <<< 2

/-! ## The ALU group (R317) -/

/-- A shift amount: the low five bits. -/
def shamt (b : Word) : Nat := b.toNat % 32

/-- 1 for true, 0 for false. -/
def boolWord (b : Bool) : Word := if b then 1 else 0

/-- Bits [63:32] of the signed product. -/
def mulHigh (a b : Word) : Word := ((a.signExtend 64 * b.signExtend 64) >>> 32).setWidth 32

/-- Bits [63:32] of the unsigned product. -/
def mulHighU (a b : Word) : Word := ((a.setWidth 64 * b.setWidth 64) >>> 32).setWidth 32

/-- Whether a signed division overflows: the most negative number by −1. -/
def divOverflow (a b : Word) : Bool := a == 0x80000000 && b == 0xFFFFFFFF

/-- The quotient of div: 0 by zero, saturated on overflow. -/
def divS (a b : Word) : Word := if b = 0 then 0 else if divOverflow a b then 0x7FFFFFFF else BitVec.ofInt 32 (a.toInt.tdiv b.toInt)

/-- The quotient of divu: 0 by zero. -/
def divU (a b : Word) : Word := if b = 0 then 0 else BitVec.ofNat 32 (a.toNat / b.toNat)

/-- The remainder of div, with the sign of the dividend: the dividend by zero, 0 on overflow. -/
def remS (a b : Word) : Word := if b = 0 then a else if divOverflow a b then 0 else BitVec.ofInt 32 (a.toInt.tmod b.toInt)

/-- The remainder of divu: the dividend by zero. -/
def remU (a b : Word) : Word := if b = 0 then a else BitVec.ofNat 32 (a.toNat % b.toNat)

/-- The smaller, signed. -/
def minS (a b : Word) : Word := if a.slt b then a else b

/-- The larger, signed. -/
def maxS (a b : Word) : Word := if a.slt b then b else a

/-- The smaller, unsigned. -/
def minU (a b : Word) : Word := if a.ult b then a else b

/-- The larger, unsigned. -/
def maxU (a b : Word) : Word := if a.ult b then b else a

/-- Leading zeros counted from bit n − 1 downwards. -/
def clzFrom (a : Word) : Nat → Nat
  | 0 => 0
  | n + 1 => if a.getLsbD n then 0 else 1 + clzFrom a n

/-- The count of leading zero bits, 0 to 32. -/
def clzWord (a : Word) : Word := BitVec.ofNat 32 (clzFrom a 32)

/-- The four bytes in reverse order. -/
def bswapWord (a : Word) : Word :=
  a.extractLsb' 0 8 ++ a.extractLsb' 8 8 ++ a.extractLsb' 16 8 ++ a.extractLsb' 24 8

/-! ## Loads of less than a word (R306) -/

/-- The byte or halfword a load takes from the word it read: `lane` is the address's low two bits. -/
def loadLane (size : Nat) (signed : Bool) (lane : Nat) (w : Word) : Word :=
  let v := w >>> (8 * lane)
  if size == 1 then (if signed then (v.setWidth 8).signExtend 32 else (v.setWidth 8).setWidth 32)
  else if size == 2 then (if signed then (v.setWidth 16).signExtend 32 else (v.setWidth 16).setWidth 32)
  else w

/-- The byte strobes of a store of `size` bytes at `lane`. -/
def storeStrobes (size lane : Nat) : Nat := (2 ^ size - 1) * 2 ^ lane

/-- The word a store of less than a word places on the bus, its bytes in their lanes. -/
def storeLane (lane : Nat) (w : Word) : Nat := (w.toNat * 2 ^ (8 * lane)) % 2 ^ 32

end Sys2Proof.Machine
end

