-- ==== Sys2Proof/WellFormed.lean ====
section
/-! DEFINITION. Which commands are well formed: every operand fits the field or the list that carries it. -/

namespace Sys2Proof

/-- A value of a 64-bit field. -/
def u64 (n : Nat) : Bool := decide (n < 2 ^ 64)

/-- A burst moves 2 to 16 words (R31). -/
def burstWf : BurstOp → Bool
  | .read n => decide (2 ≤ n) && decide (n ≤ 16)
  | .write ws => decide (2 ≤ ws.length) && decide (ws.length ≤ 16)

/-- A host START carries an identifier of 16 bytes and a 32-bit SEQ (R414, R415). -/
def sourceWf : SenseSource → Bool
  | .hostStart ident q => decide (ident.length = 16) && decide (q < 2 ^ 32)
  | _ => true

/-- A host's SEQ has 32 bits (R414). -/
def headerWf (h : HostHdr) : Bool := decide (h.seq < 2 ^ 32)

/-- A ring frame: HOPS up to 32, a 16-bit SEQ, a payload of at most 1,024 bytes (R396 to R398). -/
def frameWf (f : RingFrame) : Bool := decide (f.hops ≤ 32) && decide (f.seq < 65536) && decide (f.payload.length ≤ 1024)

/-- A private wire's request has one of its sizes (R247). -/
def wireWf (wire : Fin 3) (n : Nat) : Bool :=
  match wire.val with
  | 0 => n == 4 || n == 16
  | 1 => n == 32 || n == 48
  | _ => n == 12 || n == 32 || n == 48

/-- A measured exchange has at most four aerials, in range (R198). -/
def measureWf (m : PsrMeasure) : Bool :=
  decide (m.ranges.length ≤ 4) && m.ranges.all (fun r => decide (r.s < 65536) && decide (r.q < 256) && decide (r.snr < 256))

/-- A meter's energy has 64 bits (R420). -/
def meterWf : MeterReply → Bool
  | .normal _ e => u64 e
  | _ => true

/-- Whether a command is well formed. -/
def Instr.wellFormed (i : Instr) : Bool :=
  match i with
  | .registerWrite _ _ _ _ => true
  | .loReadLatch _ _ => true
  | .rcReadClear _ _ => true
  | .deviceTimeStep cycles => decide (cycles.length ≤ 14)
  | .referenceStart => true
  | .viaductBurst _ _ op => burstWf op
  | .viaductMessage _ _ _ => true
  | .messageEntersInbox _ => true
  | .viaductResponse _ _ _ => true
  | .senseRequest src _ => sourceWf src
  | .birth => true
  | .queueEntryTimeout _ _ => true
  | .spanDisable _ => true
  | .authDeadline _ => true
  | .releaseDeadline _ => true
  | .tokenNotAfter _ => true
  | .interimInstant _ => true
  | .maxDurationReached _ => true
  | .tollReq _ _ => true
  | .tollRequestProcess => true
  | .tollCancel _ _ => true
  | .frameBoundary => true
  | .jobMiss _ _ _ deadline => u64 deadline
  | .lfDriveStart _ _ _ _ => true
  | .lfPingStart _ _ _ => true
  | .lfTuneStart _ _ _ => true
  | .lfChordArm _ _ _ => true
  | .lfChordStart _ => true
  | .lfStop _ _ => true
  | .lfDisable _ _ => true
  | .lfTxdPush _ _ _ => true
  | .driveCheck _ _ _ => true
  | .uplinkWord _ _ _ _ => true
  | .lfBurstEnd _ _ _ sweep => decide (sweep.length ≤ 25)
  | .lfAerClr _ _ _ => true
  | .driveValidLoss _ => true
  | .pingRound _ => true
  | .pingDone _ _ _ => true
  | .tagReply _ _ => true
  | .tagReplyTimeout _ => true
  | .inventoryReservationEnd _ => true
  | .ktMacTimeout _ => true
  | .rfCmdOff _ => true
  | .rfCmdStandby _ => true
  | .rfCmdSynth _ _ => true
  | .rfCmdTx _ _ _ _ _ => true
  | .rfCmdRx _ _ _ _ => true
  | .rfCmdWake _ => true
  | .rfCmdTest _ _ _ _ => true
  | .rfCmdCalAll _ => true
  | .rfDisable _ => true
  | .rfTransitionDone => true
  | .synthLock => true
  | .synthLockTimeout => true
  | .txPacketEnd => true
  | .rxPacket _ payload _ _ time => decide (payload.length ≤ 255) && u64 time
  | .rxWindowClose => true
  | .reflectionMeasure _ _ => true
  | .antClr _ _ => true
  | .coexGrant => true
  | .coexWithdraw => true
  | .coexGrantTimeout => true
  | .coexWaitTimeout => true
  | .coexWindowEdge => true
  | .wakePacket _ _ _ => true
  | .psrStart _ _ => true
  | .psrAbort _ _ => true
  | .psrLeg _ => true
  | .psrExchangeEnd _ m => measureWf m
  | .cipherStart _ _ _ => true
  | .cipherSuspendAndStart _ _ _ => true
  | .cipherResume _ _ => true
  | .cipherAbort _ _ => true
  | .cipherBlockBoundary _ => true
  | .cipherMessageEnd => true
  | .lockAcquire _ => true
  | .lockRelease _ => true
  | .storeLockRequest => true
  | .lockGrant => true
  | .holdExpired => true
  | .slotClear _ _ => true
  | .caissonSeal _ _ => true
  | .caissonUnseal _ _ => true
  | .caissonZeroingDone _ => true
  | .rngEnable _ => true
  | .rngDisable _ => true
  | .rngReseedCmd _ => true
  | .rngRestart _ => true
  | .rngWarmupEnd => true
  | .rngStartupTestEnd => true
  | .rngInstantiate _ => true
  | .rngHealthFail _ => true
  | .rngReseedDone _ => true
  | .rngPrivateRequest wire bytes => wireWf wire bytes
  | .rngGenerate => true
  | .rngDataRead _ => true
  | .hash256 _ _ _ => true
  | .hash384 _ _ _ => true
  | .sign _ _ _ => true
  | .verify _ _ _ => true
  | .attest _ _ _ => true
  | .genId _ _ _ => true
  | .signerNonceDelivered => true
  | .signCommandEnd => true
  | .ledgerWriteStart => true
  | .ledgerWriteDone _ _ => true
  | .ringRecoveryDone unreadable => unreadable.all (fun n => decide (n < 4096))
  | .lookup ident => decide (ident.length = 16)
  | .lookupAnswer _ => true
  | .credEraseDone => true
  | .flashOpDone _ => true
  | .flashTimeout => true
  | .journalAppend _ _ _ _ time body => u64 time && decide (body.length ≤ 104)
  | .journalRecordDurable => true
  | .archiveMove => true
  | .jrnAckWrite _ _ => true
  | .imgOpen _ _ => true
  | .imgHash _ => true
  | .imgHashDone _ => true
  | .add _ _ _ _ => true
  | .sub _ _ _ _ => true
  | .and _ _ _ _ => true
  | .or _ _ _ _ => true
  | .xor _ _ _ _ => true
  | .sll _ _ _ _ => true
  | .srl _ _ _ _ => true
  | .sra _ _ _ _ => true
  | .slt _ _ _ _ => true
  | .sltu _ _ _ _ => true
  | .mul _ _ _ _ => true
  | .mulh _ _ _ _ => true
  | .mulhu _ _ _ _ => true
  | .div _ _ _ _ => true
  | .divu _ _ _ _ => true
  | .rem _ _ _ _ => true
  | .remu _ _ _ _ => true
  | .min _ _ _ _ => true
  | .max _ _ _ _ => true
  | .minu _ _ _ _ => true
  | .maxu _ _ _ _ => true
  | .clz _ _ _ _ => true
  | .bswap _ _ _ _ => true
  | .rds _ _ _ _ => true
  | .wrs _ _ _ _ => true
  | .reti _ _ _ _ => true
  | .wfi _ _ _ _ => true
  | .fence _ _ _ _ => true
  | .addi _ _ _ _ _ => true
  | .andi _ _ _ _ _ => true
  | .ori _ _ _ _ _ => true
  | .xori _ _ _ _ _ => true
  | .slli _ _ _ _ _ => true
  | .srli _ _ _ _ _ => true
  | .srai _ _ _ _ _ => true
  | .slti _ _ _ _ _ => true
  | .sltiu _ _ _ _ _ => true
  | .lhi _ _ _ _ => true
  | .ldw _ _ _ _ _ _ => true
  | .ldh _ _ _ _ _ _ => true
  | .ldhu _ _ _ _ _ _ => true
  | .ldb _ _ _ _ _ _ => true
  | .ldbu _ _ _ _ _ _ => true
  | .stw _ _ _ _ _ => true
  | .sth _ _ _ _ _ => true
  | .stb _ _ _ _ _ => true
  | .ldq _ _ _ _ _ _ => true
  | .stq _ _ _ _ _ => true
  | .beq _ _ _ _ _ => true
  | .bne _ _ _ _ _ => true
  | .blt _ _ _ _ _ => true
  | .bge _ _ _ _ _ => true
  | .bltu _ _ _ _ _ => true
  | .bgeu _ _ _ _ _ => true
  | .j _ _ => true
  | .jal _ _ => true
  | .jalr _ _ _ _ _ => true
  | .trap _ _ _ _ _ => true
  | .vsend _ _ _ _ _ => true
  | .vpost _ _ _ _ _ => true
  | .vsendr _ _ _ _ _ => true
  | .vpostr _ _ _ _ _ => true
  | .vrecv _ _ _ _ _ => true
  | .vcount _ _ _ _ _ => true
  | .twait _ _ _ _ _ => true
  | .temit _ _ _ _ _ => true
  | .tsend _ _ _ _ _ => true
  | .talarm _ _ _ _ _ => true
  | .tcancel _ _ _ _ _ => true
  | .timedAction _ => true
  | .alarmFire _ => true
  | .wfiWake _ => true
  | .interruptEntry _ => true
  | .impreciseStatusTrap _ => true
  | .coreHold _ _ => true
  | .coreRelease _ _ => true
  | .coreLock _ _ => true
  | .islandLoad _ => true
  | .hookBudgetExpiry _ _ => true
  | .msgSense _ time => u64 time
  | .msgWakeHello _ => true
  | .msgChordArm _ _ _ _ _ t0 => u64 t0
  | .msgTagread _ _ _ _ _ => true
  | .msgTagwrite _ _ _ uid => u64 uid
  | .msgTune _ _ => true
  | .msgStop _ _ => true
  | .msgDetune _ time => u64 time
  | .msgTagResult _ _ _ _ found lowest => decide (found < 256) && u64 lowest
  | .msgTagMore _ _ ident => u64 ident
  | .msgBurstResult _ _ _ _ _ => true
  | .msgAuthStart _ _ _ ident => u64 ident
  | .msgToken _ _ _ => true
  | .msgSignHead _ seq => u64 seq
  | .msgAuthResult _ _ _ => true
  | .msgTokenReady _ _ _ counter => u64 counter
  | .msgSigned _ _ seq => u64 seq
  | .msgKtChallenge _ _ _ => true
  | .msgKtMac _ _ _ => true
  | .msgKtReply _ _ _ uid => u64 uid
  | .msgKtOpened _ _ _ uid => u64 uid
  | .msgChallenge _ _ _ => true
  | .msgMaskReady _ _ _ => true
  | .msgResponse _ _ _ _ => true
  | .msgResult _ _ _ _ => true
  | .msgChordReports _ _ _ kept _ => decide (kept < 256)
  | .msgFobHello _ fobId => u64 fobId
  | .msgPsrDone _ _ _ _ => true
  | .msgChordListen _ t0 => u64 t0
  | .msgRange _ _ _ _ => true
  | .pwrOn _ _ _ => true
  | .pwrOff _ _ _ => true
  | .pwrLevel _ _ _ _ => true
  | .powerCommandServe => true
  | .pwrReplyAccept _ => true
  | .pwrReplyDelay _ _ => true
  | .pwrReplyRefuse _ _ => true
  | .queryNoReply _ => true
  | .queryRepeat _ => true
  | .islandStartDone _ => true
  | .islandStopDone _ => true
  | .levelChangeDone _ => true
  | .parkRequest _ => true
  | .parkCommit _ => true
  | .wakeSource _ => true
  | .wakeEvent => true
  | .parkResume _ => true
  | .alarmArm _ _ => true
  | .governorUpdate _ _ _ _ => true
  | .lfCurrentLimit _ => true
  | .lfShort _ _ _ _ => true
  | .vinUndervoltage _ => true
  | .vinlfUndervoltage => true
  | .vinlfUvClear => true
  | .overvoltage _ => true
  | .overvoltageClear _ => true
  | .reversedInput => true
  | .overTemperature _ => true
  | .thermalStopEnd => true
  | .crystal48Fail _ => true
  | .clockStopEnd => true
  | .crystal32Fail => true
  | .busFault _ _ => true
  | .viaductWatchdog _ => true
  | .coreWatchdog _ => true
  | .wdogKick _ _ _ => true
  | .restartWrite _ _ => true
  | .warmRestart _ => true
  | .rstLimitClear _ _ => true
  | .parapetLogPop _ => true
  | .linkUp _ _ _ => true
  | .linkDown _ => true
  | .sync _ _ mhops _ => decide (mhops < 256)
  | .pdelayReq _ _ _ _ _ => true
  | .pdelayResp _ _ _ _ _ _ => true
  | .dispatchUp _ frame => frameWf frame
  | .dispatchDown _ frame => frameWf frame
  | .timemap _ frame => frameWf frame
  | .pdelayTimer => true
  | .syncTimer => true
  | .syncLoss => true
  | .timemapRepeat => true
  | .heldFrameExpiry => true
  | .hostStart h ident => headerWf h && decide (ident.length = 16)
  | .hostStop h _ => headerWf h
  | .hostCancel h _ => headerWf h
  | .hostRegRead h _ count => headerWf h && decide (count < 65536)
  | .hostRegWrite h _ ws => headerWf h && decide (ws.length ≤ 256)
  | .hostJrnRead h first count => headerWf h && u64 first && decide (count < 256)
  | .hostJrnAck h seq => headerWf h && u64 seq
  | .hostTimeSet h utc => headerWf h && u64 utc
  | .hostDbChunk h chunk => headerWf h && decide (chunk.length = 16560)
  | .hostDbCommit h version => headerWf h && u64 version
  | .hostPolicy h set => headerWf h && decide (set.length = 16384)
  | .hostImageData h offset data => headerWf h && decide (offset < 2 ^ 32) && decide (data.length ≤ 65531)
  | .hostImageCommit h => headerWf h
  | .hostAttest h nonce => headerWf h && decide (nonce.length = 16)
  | .hostCert h => headerWf h
  | .hostRange h _ _ _ fobId => headerWf h && u64 fobId
  | .hostTagwrite h uid data => headerWf h && u64 uid && decide (data.length = 32)
  | .hostTune h => headerWf h
  | .hostIntegratorFrame h _ body _ hookReply => headerWf h && decide (body.length < 65536) && decide (hookReply.length < 65536)
  | .spiStatus => true
  | .spiWrite frame => decide (frame.length < 65536)
  | .spiRead _ => true
  | .ethFrame _ _ _ _ data => decide (data.length ≤ 1496)
  | .ethReassemblyTimeout => true
  | .meterLatch => true
  | .meterRead _ => true
  | .meterReply _ reply => meterWf reply
  | .meterTimeout _ => true
  | .dispToken _ => true
  | .tokenLastByte _ => true
  | .dispBeacon => true
  | .dispPoll _ => true
  | .dispStop _ => true
  | .dispReport _ _ _ counter => u64 counter
  | .dispNone _ => true
  | .dispReplyTimeout _ => true
  | .snapshotStrobe => true
  | .counterHiWrite _ _ _ => true
  | .dumpEnable _ => true
  | .freezeRequest _ => true
  | .freezeRelease => true
  | .monInfo => true
  | .monRead _ count => decide (count < 256)
  | .monWrite _ ws => decide (ws.length < 256)
  | .monFreeze => true
  | .monRelease => true
  | .monCore _ => true
  | .monInflight => true
  | .monChallenge => true
  | .monUnlock sig => decide (sig.length ≤ 96)
  | .monLock => true
  | .monFrameGap => true
  | .unlockTimeout => true
  | .monLoad _ offset _ => decide (offset < 2 ^ 32)
  | .monBoot _ => true
  | .aonReset _ _ => true
  | .lcSubmit _ => true
  | .lcClose _ => true
  | .sessionTimeout => true
  | .vinUndervoltageClear _ => true
  | .crystal32Restored => true
  | .mdioAccessDone _ => true
  | .testCarrierEnd => true
  | .pmcOverflow _ _ _ => true

end Sys2Proof
end

