-- ==== Sys2Proof/Decode.lean ====
section
/-! DEFINITION. The words that spell commands. No row of the table has bits; the Colot instructions have their words of
R314 to R321, which are decoded and encoded here. -/

namespace Sys2Proof

/-- The command that a word of the table spells: no row gives bits. (DEDUCED, log entry 11.) -/
def decodeTableWord (_nbits _w : Nat) : Option Instr := none

/-- The word of a Colot instruction and the island whose core runs it (R314 to R321); none for every other command.
(DEDUCED, log entry 11.) -/
def encodeColot (i : Instr) : Option (Island × Word) :=
  match i with
  | .registerWrite _ _ _ _ => none
  | .loReadLatch _ _ => none
  | .rcReadClear _ _ => none
  | .deviceTimeStep _ => none
  | .referenceStart => none
  | .viaductBurst _ _ _ => none
  | .viaductMessage _ _ _ => none
  | .messageEntersInbox _ => none
  | .viaductResponse _ _ _ => none
  | .senseRequest _ _ => none
  | .birth => none
  | .queueEntryTimeout _ _ => none
  | .spanDisable _ => none
  | .authDeadline _ => none
  | .releaseDeadline _ => none
  | .tokenNotAfter _ => none
  | .interimInstant _ => none
  | .maxDurationReached _ => none
  | .tollReq _ _ => none
  | .tollRequestProcess => none
  | .tollCancel _ _ => none
  | .frameBoundary => none
  | .jobMiss _ _ _ _ => none
  | .lfDriveStart _ _ _ _ => none
  | .lfPingStart _ _ _ => none
  | .lfTuneStart _ _ _ => none
  | .lfChordArm _ _ _ => none
  | .lfChordStart _ => none
  | .lfStop _ _ => none
  | .lfDisable _ _ => none
  | .lfTxdPush _ _ _ => none
  | .driveCheck _ _ _ => none
  | .uplinkWord _ _ _ _ => none
  | .lfBurstEnd _ _ _ _ => none
  | .lfAerClr _ _ _ => none
  | .driveValidLoss _ => none
  | .pingRound _ => none
  | .pingDone _ _ _ => none
  | .tagReply _ _ => none
  | .tagReplyTimeout _ => none
  | .inventoryReservationEnd _ => none
  | .ktMacTimeout _ => none
  | .rfCmdOff _ => none
  | .rfCmdStandby _ => none
  | .rfCmdSynth _ _ => none
  | .rfCmdTx _ _ _ _ _ => none
  | .rfCmdRx _ _ _ _ => none
  | .rfCmdWake _ => none
  | .rfCmdTest _ _ _ _ => none
  | .rfCmdCalAll _ => none
  | .rfDisable _ => none
  | .rfTransitionDone => none
  | .synthLock => none
  | .synthLockTimeout => none
  | .txPacketEnd => none
  | .rxPacket _ _ _ _ _ => none
  | .rxWindowClose => none
  | .reflectionMeasure _ _ => none
  | .antClr _ _ => none
  | .coexGrant => none
  | .coexWithdraw => none
  | .coexGrantTimeout => none
  | .coexWaitTimeout => none
  | .coexWindowEdge => none
  | .wakePacket _ _ _ => none
  | .psrStart _ _ => none
  | .psrAbort _ _ => none
  | .psrLeg _ => none
  | .psrExchangeEnd _ _ => none
  | .cipherStart _ _ _ => none
  | .cipherSuspendAndStart _ _ _ => none
  | .cipherResume _ _ => none
  | .cipherAbort _ _ => none
  | .cipherBlockBoundary _ => none
  | .cipherMessageEnd => none
  | .lockAcquire _ => none
  | .lockRelease _ => none
  | .storeLockRequest => none
  | .lockGrant => none
  | .holdExpired => none
  | .slotClear _ _ => none
  | .caissonSeal _ _ => none
  | .caissonUnseal _ _ => none
  | .caissonZeroingDone _ => none
  | .rngEnable _ => none
  | .rngDisable _ => none
  | .rngReseedCmd _ => none
  | .rngRestart _ => none
  | .rngWarmupEnd => none
  | .rngStartupTestEnd => none
  | .rngInstantiate _ => none
  | .rngHealthFail _ => none
  | .rngReseedDone _ => none
  | .rngPrivateRequest _ _ => none
  | .rngGenerate => none
  | .rngDataRead _ => none
  | .hash256 _ _ _ => none
  | .hash384 _ _ _ => none
  | .sign _ _ _ => none
  | .verify _ _ _ => none
  | .attest _ _ _ => none
  | .genId _ _ _ => none
  | .signerNonceDelivered => none
  | .signCommandEnd => none
  | .ledgerWriteStart => none
  | .ledgerWriteDone _ _ => none
  | .ringRecoveryDone _ => none
  | .lookup _ => none
  | .lookupAnswer _ => none
  | .credEraseDone => none
  | .flashOpDone _ => none
  | .flashTimeout => none
  | .journalAppend _ _ _ _ _ _ => none
  | .journalRecordDurable => none
  | .archiveMove => none
  | .jrnAckWrite _ _ => none
  | .imgOpen _ _ => none
  | .imgHash _ => none
  | .imgHashDone _ => none
  | .add c rd ra rb => some (c, Machine.wordRR 0x00 rd ra rb 0x000)
  | .sub c rd ra rb => some (c, Machine.wordRR 0x00 rd ra rb 0x001)
  | .and c rd ra rb => some (c, Machine.wordRR 0x00 rd ra rb 0x002)
  | .or c rd ra rb => some (c, Machine.wordRR 0x00 rd ra rb 0x003)
  | .xor c rd ra rb => some (c, Machine.wordRR 0x00 rd ra rb 0x004)
  | .sll c rd ra rb => some (c, Machine.wordRR 0x00 rd ra rb 0x005)
  | .srl c rd ra rb => some (c, Machine.wordRR 0x00 rd ra rb 0x006)
  | .sra c rd ra rb => some (c, Machine.wordRR 0x00 rd ra rb 0x007)
  | .slt c rd ra rb => some (c, Machine.wordRR 0x00 rd ra rb 0x008)
  | .sltu c rd ra rb => some (c, Machine.wordRR 0x00 rd ra rb 0x009)
  | .mul c rd ra rb => some (c, Machine.wordRR 0x00 rd ra rb 0x00A)
  | .mulh c rd ra rb => some (c, Machine.wordRR 0x00 rd ra rb 0x00B)
  | .mulhu c rd ra rb => some (c, Machine.wordRR 0x00 rd ra rb 0x00C)
  | .div c rd ra rb => some (c, Machine.wordRR 0x00 rd ra rb 0x00D)
  | .divu c rd ra rb => some (c, Machine.wordRR 0x00 rd ra rb 0x00E)
  | .rem c rd ra rb => some (c, Machine.wordRR 0x00 rd ra rb 0x00F)
  | .remu c rd ra rb => some (c, Machine.wordRR 0x00 rd ra rb 0x010)
  | .min c rd ra rb => some (c, Machine.wordRR 0x00 rd ra rb 0x011)
  | .max c rd ra rb => some (c, Machine.wordRR 0x00 rd ra rb 0x012)
  | .minu c rd ra rb => some (c, Machine.wordRR 0x00 rd ra rb 0x013)
  | .maxu c rd ra rb => some (c, Machine.wordRR 0x00 rd ra rb 0x014)
  | .clz c rd ra rb => some (c, Machine.wordRR 0x00 rd ra rb 0x015)
  | .bswap c rd ra rb => some (c, Machine.wordRR 0x00 rd ra rb 0x016)
  | .rds c rd ra rb => some (c, Machine.wordRR 0x01 rd ra rb 0x000)
  | .wrs c rd ra rb => some (c, Machine.wordRR 0x01 rd ra rb 0x001)
  | .reti c rd ra rb => some (c, Machine.wordRR 0x01 rd ra rb 0x002)
  | .wfi c rd ra rb => some (c, Machine.wordRR 0x01 rd ra rb 0x003)
  | .fence c rd ra rb => some (c, Machine.wordRR 0x01 rd ra rb 0x004)
  | .addi c rd ra z imm => some (c, Machine.wordRI 0x02 rd ra z imm)
  | .andi c rd ra z imm => some (c, Machine.wordRI 0x03 rd ra z imm)
  | .ori c rd ra z imm => some (c, Machine.wordRI 0x04 rd ra z imm)
  | .xori c rd ra z imm => some (c, Machine.wordRI 0x05 rd ra z imm)
  | .slli c rd ra z imm => some (c, Machine.wordRI 0x06 rd ra z imm)
  | .srli c rd ra z imm => some (c, Machine.wordRI 0x07 rd ra z imm)
  | .srai c rd ra z imm => some (c, Machine.wordRI 0x08 rd ra z imm)
  | .slti c rd ra z imm => some (c, Machine.wordRI 0x09 rd ra z imm)
  | .sltiu c rd ra z imm => some (c, Machine.wordRI 0x0A rd ra z imm)
  | .lhi c rd z imm => some (c, Machine.wordLhi 0x0B rd z imm)
  | .ldw c rd ra z imm _ => some (c, Machine.wordRI 0x0C rd ra z imm)
  | .ldh c rd ra z imm _ => some (c, Machine.wordRI 0x0D rd ra z imm)
  | .ldhu c rd ra z imm _ => some (c, Machine.wordRI 0x0E rd ra z imm)
  | .ldb c rd ra z imm _ => some (c, Machine.wordRI 0x0F rd ra z imm)
  | .ldbu c rd ra z imm _ => some (c, Machine.wordRI 0x10 rd ra z imm)
  | .stw c rd ra z imm => some (c, Machine.wordRI 0x11 rd ra z imm)
  | .sth c rd ra z imm => some (c, Machine.wordRI 0x12 rd ra z imm)
  | .stb c rd ra z imm => some (c, Machine.wordRI 0x13 rd ra z imm)
  | .ldq c rd ra z imm _ => some (c, Machine.wordRI 0x14 rd ra z imm)
  | .stq c rd ra z imm => some (c, Machine.wordRI 0x15 rd ra z imm)
  | .beq c ra rb z off => some (c, Machine.wordRI 0x18 ra rb z off)
  | .bne c ra rb z off => some (c, Machine.wordRI 0x19 ra rb z off)
  | .blt c ra rb z off => some (c, Machine.wordRI 0x1A ra rb z off)
  | .bge c ra rb z off => some (c, Machine.wordRI 0x1B ra rb z off)
  | .bltu c ra rb z off => some (c, Machine.wordRI 0x1C ra rb z off)
  | .bgeu c ra rb z off => some (c, Machine.wordRI 0x1D ra rb z off)
  | .j c off => some (c, Machine.wordJ 0x20 off)
  | .jal c off => some (c, Machine.wordJ 0x21 off)
  | .jalr c rd ra z imm => some (c, Machine.wordRI 0x22 rd ra z imm)
  | .trap c rd ra z imm => some (c, Machine.wordRI 0x23 rd ra z imm)
  | .vsend c rd rq t z => some (c, Machine.wordV rd rq t 0 z)
  | .vpost c rd rq t z => some (c, Machine.wordV rd rq t 1 z)
  | .vsendr c rd rq t z => some (c, Machine.wordV rd rq t 2 z)
  | .vpostr c rd rq t z => some (c, Machine.wordV rd rq t 3 z)
  | .vrecv c rd rq t z => some (c, Machine.wordV rd rq t 4 z)
  | .vcount c rd rq t z => some (c, Machine.wordV rd rq t 5 z)
  | .twait c tr ra rc off => some (c, Machine.wordT 0 tr ra rc off)
  | .temit c tr ra rc off => some (c, Machine.wordT 1 tr ra rc off)
  | .tsend c tr ra rc off => some (c, Machine.wordT 2 tr ra rc off)
  | .talarm c tr ra rc off => some (c, Machine.wordT 3 tr ra rc off)
  | .tcancel c tr ra rc off => some (c, Machine.wordT 4 tr ra rc off)
  | .timedAction _ => none
  | .alarmFire _ => none
  | .wfiWake _ => none
  | .interruptEntry _ => none
  | .impreciseStatusTrap _ => none
  | .coreHold _ _ => none
  | .coreRelease _ _ => none
  | .coreLock _ _ => none
  | .islandLoad _ => none
  | .hookBudgetExpiry _ _ => none
  | .msgSense _ _ => none
  | .msgWakeHello _ => none
  | .msgChordArm _ _ _ _ _ _ => none
  | .msgTagread _ _ _ _ _ => none
  | .msgTagwrite _ _ _ _ => none
  | .msgTune _ _ => none
  | .msgStop _ _ => none
  | .msgDetune _ _ => none
  | .msgTagResult _ _ _ _ _ _ => none
  | .msgTagMore _ _ _ => none
  | .msgBurstResult _ _ _ _ _ => none
  | .msgAuthStart _ _ _ _ => none
  | .msgToken _ _ _ => none
  | .msgSignHead _ _ => none
  | .msgAuthResult _ _ _ => none
  | .msgTokenReady _ _ _ _ => none
  | .msgSigned _ _ _ => none
  | .msgKtChallenge _ _ _ => none
  | .msgKtMac _ _ _ => none
  | .msgKtReply _ _ _ _ => none
  | .msgKtOpened _ _ _ _ => none
  | .msgChallenge _ _ _ => none
  | .msgMaskReady _ _ _ => none
  | .msgResponse _ _ _ _ => none
  | .msgResult _ _ _ _ => none
  | .msgChordReports _ _ _ _ _ => none
  | .msgFobHello _ _ => none
  | .msgPsrDone _ _ _ _ => none
  | .msgChordListen _ _ => none
  | .msgRange _ _ _ _ => none
  | .pwrOn _ _ _ => none
  | .pwrOff _ _ _ => none
  | .pwrLevel _ _ _ _ => none
  | .powerCommandServe => none
  | .pwrReplyAccept _ => none
  | .pwrReplyDelay _ _ => none
  | .pwrReplyRefuse _ _ => none
  | .queryNoReply _ => none
  | .queryRepeat _ => none
  | .islandStartDone _ => none
  | .islandStopDone _ => none
  | .levelChangeDone _ => none
  | .parkRequest _ => none
  | .parkCommit _ => none
  | .wakeSource _ => none
  | .wakeEvent => none
  | .parkResume _ => none
  | .alarmArm _ _ => none
  | .governorUpdate _ _ _ _ => none
  | .lfCurrentLimit _ => none
  | .lfShort _ _ _ _ => none
  | .vinUndervoltage _ => none
  | .vinlfUndervoltage => none
  | .vinlfUvClear => none
  | .overvoltage _ => none
  | .overvoltageClear _ => none
  | .reversedInput => none
  | .overTemperature _ => none
  | .thermalStopEnd => none
  | .crystal48Fail _ => none
  | .clockStopEnd => none
  | .crystal32Fail => none
  | .busFault _ _ => none
  | .viaductWatchdog _ => none
  | .coreWatchdog _ => none
  | .wdogKick _ _ _ => none
  | .restartWrite _ _ => none
  | .warmRestart _ => none
  | .rstLimitClear _ _ => none
  | .parapetLogPop _ => none
  | .linkUp _ _ _ => none
  | .linkDown _ => none
  | .sync _ _ _ _ => none
  | .pdelayReq _ _ _ _ _ => none
  | .pdelayResp _ _ _ _ _ _ => none
  | .dispatchUp _ _ => none
  | .dispatchDown _ _ => none
  | .timemap _ _ => none
  | .pdelayTimer => none
  | .syncTimer => none
  | .syncLoss => none
  | .timemapRepeat => none
  | .heldFrameExpiry => none
  | .hostStart _ _ => none
  | .hostStop _ _ => none
  | .hostCancel _ _ => none
  | .hostRegRead _ _ _ => none
  | .hostRegWrite _ _ _ => none
  | .hostJrnRead _ _ _ => none
  | .hostJrnAck _ _ => none
  | .hostTimeSet _ _ => none
  | .hostDbChunk _ _ => none
  | .hostDbCommit _ _ => none
  | .hostPolicy _ _ => none
  | .hostImageData _ _ _ => none
  | .hostImageCommit _ => none
  | .hostAttest _ _ => none
  | .hostCert _ => none
  | .hostRange _ _ _ _ _ => none
  | .hostTagwrite _ _ _ => none
  | .hostTune _ => none
  | .hostIntegratorFrame _ _ _ _ _ => none
  | .spiStatus => none
  | .spiWrite _ => none
  | .spiRead _ => none
  | .ethFrame _ _ _ _ _ => none
  | .ethReassemblyTimeout => none
  | .meterLatch => none
  | .meterRead _ => none
  | .meterReply _ _ => none
  | .meterTimeout _ => none
  | .dispToken _ => none
  | .tokenLastByte _ => none
  | .dispBeacon => none
  | .dispPoll _ => none
  | .dispStop _ => none
  | .dispReport _ _ _ _ => none
  | .dispNone _ => none
  | .dispReplyTimeout _ => none
  | .snapshotStrobe => none
  | .counterHiWrite _ _ _ => none
  | .dumpEnable _ => none
  | .freezeRequest _ => none
  | .freezeRelease => none
  | .monInfo => none
  | .monRead _ _ => none
  | .monWrite _ _ => none
  | .monFreeze => none
  | .monRelease => none
  | .monCore _ => none
  | .monInflight => none
  | .monChallenge => none
  | .monUnlock _ => none
  | .monLock => none
  | .monFrameGap => none
  | .unlockTimeout => none
  | .monLoad _ _ _ => none
  | .monBoot _ => none
  | .aonReset _ _ => none
  | .lcSubmit _ => none
  | .lcClose _ => none
  | .sessionTimeout => none
  | .vinUndervoltageClear _ => none
  | .crystal32Restored => none
  | .mdioAccessDone _ => none
  | .testCarrierEnd => none
  | .pmcOverflow _ _ _ => none

/-- The ECC finding that a load's access carries; every other command carries none. -/
def colotEcc (i : Instr) : EccFinding :=
  match i with
  | .ldw _ _ _ _ _ e => e
  | .ldh _ _ _ _ _ e => e
  | .ldhu _ _ _ _ _ e => e
  | .ldb _ _ _ _ _ e => e
  | .ldbu _ _ _ _ _ e => e
  | .ldq _ _ _ _ _ e => e
  | _ => .clean

/-- Format RR by func: the ALU group or the SYS group (R317, R318). -/
def decodeRR (sys : Bool) (c : Island) (rd ra rb : RegF) (func : BitVec 14) : Option Instr :=
  match sys, func.toNat with
  | false, 0 => some (.add c rd ra rb)
  | false, 1 => some (.sub c rd ra rb)
  | false, 2 => some (.and c rd ra rb)
  | false, 3 => some (.or c rd ra rb)
  | false, 4 => some (.xor c rd ra rb)
  | false, 5 => some (.sll c rd ra rb)
  | false, 6 => some (.srl c rd ra rb)
  | false, 7 => some (.sra c rd ra rb)
  | false, 8 => some (.slt c rd ra rb)
  | false, 9 => some (.sltu c rd ra rb)
  | false, 10 => some (.mul c rd ra rb)
  | false, 11 => some (.mulh c rd ra rb)
  | false, 12 => some (.mulhu c rd ra rb)
  | false, 13 => some (.div c rd ra rb)
  | false, 14 => some (.divu c rd ra rb)
  | false, 15 => some (.rem c rd ra rb)
  | false, 16 => some (.remu c rd ra rb)
  | false, 17 => some (.min c rd ra rb)
  | false, 18 => some (.max c rd ra rb)
  | false, 19 => some (.minu c rd ra rb)
  | false, 20 => some (.maxu c rd ra rb)
  | false, 21 => some (.clz c rd ra rb)
  | false, 22 => some (.bswap c rd ra rb)
  | true, 0 => some (.rds c rd ra rb)
  | true, 1 => some (.wrs c rd ra rb)
  | true, 2 => some (.reti c rd ra rb)
  | true, 3 => some (.wfi c rd ra rb)
  | true, 4 => some (.fence c rd ra rb)
  | _, _ => none

/-- The T group by sub (R321). -/
def decodeT (c : Island) (sub tr ra rc : RegF) (off : BitVec 10) : Option Instr :=
  match sub.toNat with
  | 0 => some (.twait c tr ra rc off)
  | 1 => some (.temit c tr ra rc off)
  | 2 => some (.tsend c tr ra rc off)
  | 3 => some (.talarm c tr ra rc off)
  | 4 => some (.tcancel c tr ra rc off)
  | _ => none

/-- The V group by sub (R319). -/
def decodeV (c : Island) (rd rq t sub : RegF) (z : BitVec 10) : Option Instr :=
  match sub.toNat with
  | 0 => some (.vsend c rd rq t z)
  | 1 => some (.vpost c rd rq t z)
  | 2 => some (.vsendr c rd rq t z)
  | 3 => some (.vpostr c rd rq t z)
  | 4 => some (.vrecv c rd rq t z)
  | 5 => some (.vcount c rd rq t z)
  | _ => none

/-- The instruction that a word spells on the core of island c (R314 to R321), a load with the ECC finding of its access;
none for a word whose opcode, func or sub is not listed, which is ILLEGAL (R315). (DEDUCED, log entry 11.) -/
def decodeColot (c : Island) (ecc : EccFinding) (w : Word) : Option Instr :=
  let a : RegF := w.extractLsb' 22 4
  let b : RegF := w.extractLsb' 18 4
  let d : RegF := w.extractLsb' 14 4
  let sub : RegF := w.extractLsb' 10 4
  let imm : BitVec 14 := w.extractLsb' 0 14
  let off : BitVec 10 := w.extractLsb' 0 10
  match (w.extractLsb' 26 6).toNat with
  | 0x00 => decodeRR false c a b d imm
  | 0x01 => decodeRR true c a b d imm
  | 0x02 => some (.addi c a b d imm)
  | 0x03 => some (.andi c a b d imm)
  | 0x04 => some (.ori c a b d imm)
  | 0x05 => some (.xori c a b d imm)
  | 0x06 => some (.slli c a b d imm)
  | 0x07 => some (.srli c a b d imm)
  | 0x08 => some (.srai c a b d imm)
  | 0x09 => some (.slti c a b d imm)
  | 0x0A => some (.sltiu c a b d imm)
  | 0x0B => some (.lhi c a b (w.extractLsb' 0 18))
  | 0x0C => some (.ldw c a b d imm ecc)
  | 0x0D => some (.ldh c a b d imm ecc)
  | 0x0E => some (.ldhu c a b d imm ecc)
  | 0x0F => some (.ldb c a b d imm ecc)
  | 0x10 => some (.ldbu c a b d imm ecc)
  | 0x11 => some (.stw c a b d imm)
  | 0x12 => some (.sth c a b d imm)
  | 0x13 => some (.stb c a b d imm)
  | 0x14 => some (.ldq c a b d imm ecc)
  | 0x15 => some (.stq c a b d imm)
  | 0x18 => some (.beq c a b d imm)
  | 0x19 => some (.bne c a b d imm)
  | 0x1A => some (.blt c a b d imm)
  | 0x1B => some (.bge c a b d imm)
  | 0x1C => some (.bltu c a b d imm)
  | 0x1D => some (.bgeu c a b d imm)
  | 0x20 => some (.j c (w.extractLsb' 0 26))
  | 0x21 => some (.jal c (w.extractLsb' 0 26))
  | 0x22 => some (.jalr c a b d imm)
  | 0x23 => some (.trap c a b d imm)
  | 0x28 => decodeT c a b d sub off
  | 0x30 => decodeV c a b d sub off
  | _ => none

end Sys2Proof
end

