-- ==== Sys2Proof/Machine/Crypto.lean ====
section
/-! DEFINITION. The standard algorithms the spec names (R140, R169, R176, R209, R245, R255, R257, R273): CRCs, AES with GCM and
XTS, SHA-256 and SHA-384, HMAC, CTR_DRBG and ECDSA. What each computes is its standard's (FIPS 180-4, 186-5, 197; SP
800-38D, 800-38E, 800-90A; RFC 6979). (PRESUMED, log entry 9.) -/

namespace Sys2Proof.Machine

/-! ## CRCs -/

/-- One bit of a CRC, most significant bit first: `w` bits wide, polynomial `poly`. -/
def crcBit (w poly crc : Nat) (b : Bool) : Nat :=
  let top := (crc / 2 ^ (w - 1)) % 2 == 1
  let sh := (crc * 2) % 2 ^ w
  if top != b then sh ^^^ poly else sh

/-- A CRC over bits, most significant bit first. -/
def crcBits (w poly init : Nat) (bs : List Bool) : Nat := bs.foldl (crcBit w poly) init

/-- A byte's bits, most significant first. -/
def byteBits (b : Byte) : List Bool := (List.range 8).map (fun i => b.getLsbD (7 - i))

/-- The low n bits of a number, most significant first. -/
def natBits (n x : Nat) : List Bool := (List.range n).map (fun i => bitOf x (n - 1 - i))

/-- The number that bits spell, most significant first. -/
def bitsNat (bs : List Bool) : Nat := bs.foldl (fun a b => 2 * a + b2n b) 0

/-- CRC-24 of RFC 4880 (R169). -/
def crc24 (bs : List Byte) : Nat := crcBits 24 0x864CFB 0xB704CE (bs.flatMap byteBits)

/-- CRC-32C, reflected, initial value and final XOR all ones (R273). -/
def crc32c (bs : List Byte) : Nat :=
  let step (crc : Nat) (b : Bool) : Nat := if (crc % 2 == 1) != b then (crc / 2) ^^^ 0x82F63B78 else crc / 2
  (bs.foldl (fun c b => (byteBits b).reverse.foldl step c) 0xFFFFFFFF) ^^^ 0xFFFFFFFF

/-! ## AES (FIPS 197) -/

/-- The S-box. -/
def aesSbox : List Byte :=
   [0x63, 0x7C, 0x77, 0x7B, 0xF2, 0x6B, 0x6F, 0xC5, 0x30, 0x01, 0x67, 0x2B, 0xFE, 0xD7, 0xAB, 0x76] ++
   [0xCA, 0x82, 0xC9, 0x7D, 0xFA, 0x59, 0x47, 0xF0, 0xAD, 0xD4, 0xA2, 0xAF, 0x9C, 0xA4, 0x72, 0xC0] ++
   [0xB7, 0xFD, 0x93, 0x26, 0x36, 0x3F, 0xF7, 0xCC, 0x34, 0xA5, 0xE5, 0xF1, 0x71, 0xD8, 0x31, 0x15] ++
   [0x04, 0xC7, 0x23, 0xC3, 0x18, 0x96, 0x05, 0x9A, 0x07, 0x12, 0x80, 0xE2, 0xEB, 0x27, 0xB2, 0x75] ++
   [0x09, 0x83, 0x2C, 0x1A, 0x1B, 0x6E, 0x5A, 0xA0, 0x52, 0x3B, 0xD6, 0xB3, 0x29, 0xE3, 0x2F, 0x84] ++
   [0x53, 0xD1, 0x00, 0xED, 0x20, 0xFC, 0xB1, 0x5B, 0x6A, 0xCB, 0xBE, 0x39, 0x4A, 0x4C, 0x58, 0xCF] ++
   [0xD0, 0xEF, 0xAA, 0xFB, 0x43, 0x4D, 0x33, 0x85, 0x45, 0xF9, 0x02, 0x7F, 0x50, 0x3C, 0x9F, 0xA8] ++
   [0x51, 0xA3, 0x40, 0x8F, 0x92, 0x9D, 0x38, 0xF5, 0xBC, 0xB6, 0xDA, 0x21, 0x10, 0xFF, 0xF3, 0xD2] ++
   [0xCD, 0x0C, 0x13, 0xEC, 0x5F, 0x97, 0x44, 0x17, 0xC4, 0xA7, 0x7E, 0x3D, 0x64, 0x5D, 0x19, 0x73] ++
   [0x60, 0x81, 0x4F, 0xDC, 0x22, 0x2A, 0x90, 0x88, 0x46, 0xEE, 0xB8, 0x14, 0xDE, 0x5E, 0x0B, 0xDB] ++
   [0xE0, 0x32, 0x3A, 0x0A, 0x49, 0x06, 0x24, 0x5C, 0xC2, 0xD3, 0xAC, 0x62, 0x91, 0x95, 0xE4, 0x79] ++
   [0xE7, 0xC8, 0x37, 0x6D, 0x8D, 0xD5, 0x4E, 0xA9, 0x6C, 0x56, 0xF4, 0xEA, 0x65, 0x7A, 0xAE, 0x08] ++
   [0xBA, 0x78, 0x25, 0x2E, 0x1C, 0xA6, 0xB4, 0xC6, 0xE8, 0xDD, 0x74, 0x1F, 0x4B, 0xBD, 0x8B, 0x8A] ++
   [0x70, 0x3E, 0xB5, 0x66, 0x48, 0x03, 0xF6, 0x0E, 0x61, 0x35, 0x57, 0xB9, 0x86, 0xC1, 0x1D, 0x9E] ++
   [0xE1, 0xF8, 0x98, 0x11, 0x69, 0xD9, 0x8E, 0x94, 0x9B, 0x1E, 0x87, 0xE9, 0xCE, 0x55, 0x28, 0xDF] ++
   [0x8C, 0xA1, 0x89, 0x0D, 0xBF, 0xE6, 0x42, 0x68, 0x41, 0x99, 0x2D, 0x0F, 0xB0, 0x54, 0xBB, 0x16]

/-- SubBytes of one byte. -/
def subByte (b : Byte) : Byte := aesSbox.getD b.toNat 0

/-- Multiplication by x in GF(2^8). -/
def xtime (b : Byte) : Byte := if b.getLsbD 7 then (b <<< 1) ^^^ 0x1B else b <<< 1

/-- Multiplication in GF(2^8), over the low n bits of the second factor. -/
def gmulBits (a b : Byte) : Nat → Byte
  | 0 => 0
  | n + 1 => gmulBits a b n ^^^ (if b.getLsbD n then (List.range n).foldl (fun x _ => xtime x) a else 0)

/-- Multiplication in GF(2^8). -/
def gmul (a b : Byte) : Byte := gmulBits a b 8

/-- Bytewise exclusive or. -/
def xorBytes (a b : List Byte) : List Byte := List.zipWith (fun x y => x ^^^ y) a b

/-- Key expansion: `n` more words from the words so far, newest first; `i` is the next word's index. -/
def aesExpand (nk : Nat) : Nat → Nat → Byte → List (List Byte) → List (List Byte)
  | 0, _, _, ws => ws
  | n + 1, i, rcon, ws =>
    let prev := ws.getD 0 []
    let base := ws.getD (nk - 1) []
    let rot := (prev.drop 1 ++ prev.take 1).map subByte
    let t :=
      if i % nk = 0 then xorBytes rot [rcon, 0, 0, 0]
      else if 6 < nk ∧ i % nk = 4 then prev.map subByte
      else prev
    aesExpand nk n (i + 1) (if i % nk = 0 then xtime rcon else rcon) (xorBytes base t :: ws)

/-- A key's words, 4 bytes each. -/
def keyWords (key : List Byte) : Nat → List (List Byte)
  | 0 => []
  | n + 1 => key.take 4 :: keyWords (key.drop 4) n

/-- The round keys, 16 bytes each, for a key of 16, 24 or 32 bytes. -/
def aesRoundKeys (key : List Byte) : List (List Byte) :=
  let nk := key.length / 4
  let nr := nk + 6
  let ws := (aesExpand nk (4 * (nr + 1) - nk) nk 1 (keyWords key nk).reverse).reverse
  (List.range (nr + 1)).map (fun r => ((ws.drop (4 * r)).take 4).flatten)

/-- ShiftRows on the state in column order. -/
def shiftRows (b : List Byte) : List Byte := (List.range 16).map (fun i => b.getD ((i + 4 * (i % 4)) % 16) 0)

/-- Inverse ShiftRows. -/
def invShiftRows (b : List Byte) : List Byte := (List.range 16).map (fun i => b.getD ((i + 16 - 4 * (i % 4)) % 16) 0)

/-- MixColumns with the coefficient row (c0, c1, c2, c3). -/
def mixColumns (c : List Byte) (b : List Byte) : List Byte :=
  (List.range 16).map (fun i =>
    let col := i / 4 * 4
    (List.range 4).foldl (fun a j => a ^^^ gmul (b.getD (col + j) 0) (c.getD ((j + 4 - i % 4) % 4) 0)) 0)

/-- AES encryption of one block under round keys. -/
def aesEncryptRk (rks : List (List Byte)) (blk : List Byte) : List Byte :=
  match rks with
  | [] => blk
  | k0 :: rest =>
    let n := rest.length
    (rest.foldl (fun (st : List Byte × Nat) k =>
      let b := shiftRows (st.1.map subByte)
      let b := if st.2 + 1 = n then b else mixColumns [2, 3, 1, 1] b
      (xorBytes b k, st.2 + 1)) (xorBytes blk k0, 0)).1

/-- AES encryption of one block. -/
def aesEncrypt (key blk : List Byte) : List Byte := aesEncryptRk (aesRoundKeys key) blk

/-- The inverse S-box. -/
def aesInvSbox : List Byte :=
   [0x52, 0x09, 0x6A, 0xD5, 0x30, 0x36, 0xA5, 0x38, 0xBF, 0x40, 0xA3, 0x9E, 0x81, 0xF3, 0xD7, 0xFB] ++
   [0x7C, 0xE3, 0x39, 0x82, 0x9B, 0x2F, 0xFF, 0x87, 0x34, 0x8E, 0x43, 0x44, 0xC4, 0xDE, 0xE9, 0xCB] ++
   [0x54, 0x7B, 0x94, 0x32, 0xA6, 0xC2, 0x23, 0x3D, 0xEE, 0x4C, 0x95, 0x0B, 0x42, 0xFA, 0xC3, 0x4E] ++
   [0x08, 0x2E, 0xA1, 0x66, 0x28, 0xD9, 0x24, 0xB2, 0x76, 0x5B, 0xA2, 0x49, 0x6D, 0x8B, 0xD1, 0x25] ++
   [0x72, 0xF8, 0xF6, 0x64, 0x86, 0x68, 0x98, 0x16, 0xD4, 0xA4, 0x5C, 0xCC, 0x5D, 0x65, 0xB6, 0x92] ++
   [0x6C, 0x70, 0x48, 0x50, 0xFD, 0xED, 0xB9, 0xDA, 0x5E, 0x15, 0x46, 0x57, 0xA7, 0x8D, 0x9D, 0x84] ++
   [0x90, 0xD8, 0xAB, 0x00, 0x8C, 0xBC, 0xD3, 0x0A, 0xF7, 0xE4, 0x58, 0x05, 0xB8, 0xB3, 0x45, 0x06] ++
   [0xD0, 0x2C, 0x1E, 0x8F, 0xCA, 0x3F, 0x0F, 0x02, 0xC1, 0xAF, 0xBD, 0x03, 0x01, 0x13, 0x8A, 0x6B] ++
   [0x3A, 0x91, 0x11, 0x41, 0x4F, 0x67, 0xDC, 0xEA, 0x97, 0xF2, 0xCF, 0xCE, 0xF0, 0xB4, 0xE6, 0x73] ++
   [0x96, 0xAC, 0x74, 0x22, 0xE7, 0xAD, 0x35, 0x85, 0xE2, 0xF9, 0x37, 0xE8, 0x1C, 0x75, 0xDF, 0x6E] ++
   [0x47, 0xF1, 0x1A, 0x71, 0x1D, 0x29, 0xC5, 0x89, 0x6F, 0xB7, 0x62, 0x0E, 0xAA, 0x18, 0xBE, 0x1B] ++
   [0xFC, 0x56, 0x3E, 0x4B, 0xC6, 0xD2, 0x79, 0x20, 0x9A, 0xDB, 0xC0, 0xFE, 0x78, 0xCD, 0x5A, 0xF4] ++
   [0x1F, 0xDD, 0xA8, 0x33, 0x88, 0x07, 0xC7, 0x31, 0xB1, 0x12, 0x10, 0x59, 0x27, 0x80, 0xEC, 0x5F] ++
   [0x60, 0x51, 0x7F, 0xA9, 0x19, 0xB5, 0x4A, 0x0D, 0x2D, 0xE5, 0x7A, 0x9F, 0x93, 0xC9, 0x9C, 0xEF] ++
   [0xA0, 0xE0, 0x3B, 0x4D, 0xAE, 0x2A, 0xF5, 0xB0, 0xC8, 0xEB, 0xBB, 0x3C, 0x83, 0x53, 0x99, 0x61] ++
   [0x17, 0x2B, 0x04, 0x7E, 0xBA, 0x77, 0xD6, 0x26, 0xE1, 0x69, 0x14, 0x63, 0x55, 0x21, 0x0C, 0x7D]

/-- AES decryption of one block. -/
def aesDecrypt (key blk : List Byte) : List Byte :=
  match (aesRoundKeys key).reverse with
  | [] => blk
  | k0 :: rest =>
    let n := rest.length
    (rest.foldl (fun (st : List Byte × Nat) k =>
      let b := xorBytes ((invShiftRows st.1).map (fun x => aesInvSbox.getD x.toNat 0)) k
      (if st.2 + 1 = n then b else mixColumns [14, 11, 13, 9] b, st.2 + 1)) (xorBytes blk k0, 0)).1

/-! ## GCM (SP 800-38D) -/

/-- A block as the number GCM multiplies, byte 0 the most significant. -/
def blockNat (b : List Byte) : Nat := ofBe (padTo 16 b)

/-- Multiplication in GF(2^128) as GCM defines it: `x`'s bit 127 − i, from i on. -/
def ghashMul (x : Nat) : Nat → Nat → Nat → Nat
  | 0, _, z => z
  | n + 1, v, z =>
    let z := if bitOf x n then z ^^^ v else z
    let v' := if v % 2 = 1 then (v / 2) ^^^ (0xE1 * 2 ^ 120) else v / 2
    ghashMul x n v' z

/-- Whole blocks of a byte string, the last zero-padded. -/
def blocks16 : Nat → List Byte → List (List Byte)
  | 0, _ => []
  | n + 1, bs => if bs.isEmpty then [] else padTo 16 (bs.take 16) :: blocks16 n (bs.drop 16)

/-- GHASH of additional data and ciphertext under H. -/
def ghash (h : Nat) (aad ct : List Byte) : Nat :=
  let bl := blocks16 (aad.length + 1) aad ++ blocks16 (ct.length + 1) ct ++ [beBytes 8 (8 * aad.length) ++ beBytes 8 (8 * ct.length)]
  bl.foldl (fun y b => ghashMul (y ^^^ blockNat b) 128 h 0) 0

/-- The counter stream of GCM from J0 = IV || 1 for a 12-byte IV: `n` blocks from count c. -/
def gcmStream (rks : List (List Byte)) (iv : List Byte) : Nat → Nat → List Byte
  | 0, _ => []
  | n + 1, c => aesEncryptRk rks (iv ++ beBytes 4 c) ++ gcmStream rks iv n (c + 1)

/-- GCM's transformation of data under a 12-byte IV (encryption and decryption are the same). -/
def gcmCrypt (key iv data : List Byte) : List Byte := xorBytes data (gcmStream (aesRoundKeys key) iv (data.length / 16 + 1) 2)

/-- The 16-byte GCM tag over additional data and ciphertext. -/
def gcmTag (key iv aad ct : List Byte) : List Byte :=
  let rks := aesRoundKeys key
  let h := blockNat (aesEncryptRk rks (List.replicate 16 0))
  xorBytes (aesEncryptRk rks (iv ++ beBytes 4 1)) (beBytes 16 (ghash h aad ct))

/-! ## XTS (SP 800-38E) -/

/-- The next block's tweak: multiplication by x. -/
def xtsNext (t : Nat) : Nat := if bitOf t 127 then (2 * t % 2 ^ 128) ^^^ 0x87 else 2 * t

/-- XTS over whole blocks from tweak t; `f` is the block cipher of the first half key. -/
def xtsBlocks (f : List Byte → List Byte) : Nat → Nat → List Byte → List Byte
  | 0, _, _ => []
  | n + 1, t, bs =>
    if bs.isEmpty then []
    else xorBytes (f (xorBytes (padTo 16 (bs.take 16)) (leBytes 16 t))) (leBytes 16 t) ++ xtsBlocks f n (xtsNext t) (bs.drop 16)

/-- The first tweak of a data unit. -/
def xtsTweak (key : List Byte) (unit : Nat) : Nat := ofLe (aesEncrypt (key.drop (key.length / 2)) (leBytes 16 unit))

/-- XTS encryption of a data unit under a key pair. -/
def xtsEncrypt (key : List Byte) (unit : Nat) (bs : List Byte) : List Byte :=
  let rks := aesRoundKeys (key.take (key.length / 2))
  xtsBlocks (aesEncryptRk rks) (bs.length / 16 + 1) (xtsTweak key unit) bs

/-- XTS decryption of a data unit under a key pair. -/
def xtsDecrypt (key : List Byte) (unit : Nat) (bs : List Byte) : List Byte :=
  xtsBlocks (aesDecrypt (key.take (key.length / 2))) (bs.length / 16 + 1) (xtsTweak key unit) bs

/-! ## SHA-2 (FIPS 180-4) -/

/-- The SHA-256 constants. -/
def sha256K : List (BitVec 32) :=
   [0x428A2F98, 0x71374491, 0xB5C0FBCF, 0xE9B5DBA5, 0x3956C25B, 0x59F111F1, 0x923F82A4, 0xAB1C5ED5] ++
   [0xD807AA98, 0x12835B01, 0x243185BE, 0x550C7DC3, 0x72BE5D74, 0x80DEB1FE, 0x9BDC06A7, 0xC19BF174] ++
   [0xE49B69C1, 0xEFBE4786, 0x0FC19DC6, 0x240CA1CC, 0x2DE92C6F, 0x4A7484AA, 0x5CB0A9DC, 0x76F988DA] ++
   [0x983E5152, 0xA831C66D, 0xB00327C8, 0xBF597FC7, 0xC6E00BF3, 0xD5A79147, 0x06CA6351, 0x14292967] ++
   [0x27B70A85, 0x2E1B2138, 0x4D2C6DFC, 0x53380D13, 0x650A7354, 0x766A0ABB, 0x81C2C92E, 0x92722C85] ++
   [0xA2BFE8A1, 0xA81A664B, 0xC24B8B70, 0xC76C51A3, 0xD192E819, 0xD6990624, 0xF40E3585, 0x106AA070] ++
   [0x19A4C116, 0x1E376C08, 0x2748774C, 0x34B0BCB5, 0x391C0CB3, 0x4ED8AA4A, 0x5B9CCA4F, 0x682E6FF3] ++
   [0x748F82EE, 0x78A5636F, 0x84C87814, 0x8CC70208, 0x90BEFFFA, 0xA4506CEB, 0xBEF9A3F7, 0xC67178F2]

/-- The SHA-512 constants. -/
def sha512K : List (BitVec 64) :=
   [0x428A2F98D728AE22, 0x7137449123EF65CD, 0xB5C0FBCFEC4D3B2F, 0xE9B5DBA58189DBBC] ++
   [0x3956C25BF348B538, 0x59F111F1B605D019, 0x923F82A4AF194F9B, 0xAB1C5ED5DA6D8118] ++
   [0xD807AA98A3030242, 0x12835B0145706FBE, 0x243185BE4EE4B28C, 0x550C7DC3D5FFB4E2] ++
   [0x72BE5D74F27B896F, 0x80DEB1FE3B1696B1, 0x9BDC06A725C71235, 0xC19BF174CF692694] ++
   [0xE49B69C19EF14AD2, 0xEFBE4786384F25E3, 0x0FC19DC68B8CD5B5, 0x240CA1CC77AC9C65] ++
   [0x2DE92C6F592B0275, 0x4A7484AA6EA6E483, 0x5CB0A9DCBD41FBD4, 0x76F988DA831153B5] ++
   [0x983E5152EE66DFAB, 0xA831C66D2DB43210, 0xB00327C898FB213F, 0xBF597FC7BEEF0EE4] ++
   [0xC6E00BF33DA88FC2, 0xD5A79147930AA725, 0x06CA6351E003826F, 0x142929670A0E6E70] ++
   [0x27B70A8546D22FFC, 0x2E1B21385C26C926, 0x4D2C6DFC5AC42AED, 0x53380D139D95B3DF] ++
   [0x650A73548BAF63DE, 0x766A0ABB3C77B2A8, 0x81C2C92E47EDAEE6, 0x92722C851482353B] ++
   [0xA2BFE8A14CF10364, 0xA81A664BBC423001, 0xC24B8B70D0F89791, 0xC76C51A30654BE30] ++
   [0xD192E819D6EF5218, 0xD69906245565A910, 0xF40E35855771202A, 0x106AA07032BBD1B8] ++
   [0x19A4C116B8D2D0C8, 0x1E376C085141AB53, 0x2748774CDF8EEB99, 0x34B0BCB5E19B48A8] ++
   [0x391C0CB3C5C95A63, 0x4ED8AA4AE3418ACB, 0x5B9CCA4F7763E373, 0x682E6FF3D6B2B8A3] ++
   [0x748F82EE5DEFB2FC, 0x78A5636F43172F60, 0x84C87814A1F0AB72, 0x8CC702081A6439EC] ++
   [0x90BEFFFA23631E28, 0xA4506CEBDE82BDE9, 0xBEF9A3F7B2C67915, 0xC67178F2E372532B] ++
   [0xCA273ECEEA26619C, 0xD186B8C721C0C207, 0xEADA7DD6CDE0EB1E, 0xF57D4F7FEE6ED178] ++
   [0x06F067AA72176FBA, 0x0A637DC5A2C898A6, 0x113F9804BEF90DAE, 0x1B710B35131C471B] ++
   [0x28DB77F523047D84, 0x32CAAB7B40C72493, 0x3C9EBE0A15C9BEBC, 0x431D67C49C100D4C] ++
   [0x4CC5D4BECB3E42B6, 0x597F299CFC657E2A, 0x5FCB6FAB3AD6FAEC, 0x6C44198C4A475817]

/-- The functions and constants of a SHA-2 word size. -/
structure Sha2 (w : Nat) where
  k  : List (BitVec w)
  s0 : Nat × Nat × Nat
  s1 : Nat × Nat × Nat
  b0 : Nat × Nat × Nat
  b1 : Nat × Nat × Nat

/-- SHA-256's. -/
def sha256P : Sha2 32 := ⟨sha256K, (7, 18, 3), (17, 19, 10), (2, 13, 22), (6, 11, 25)⟩

/-- SHA-512's, which SHA-384 uses. -/
def sha512P : Sha2 64 := ⟨sha512K, (1, 8, 7), (19, 61, 6), (28, 34, 39), (14, 18, 41)⟩

/-- A small sigma: two rotations and a shift. -/
def smallSigma {w : Nat} (p : Nat × Nat × Nat) (x : BitVec w) : BitVec w := x.rotateRight p.1 ^^^ x.rotateRight p.2.1 ^^^ (x >>> p.2.2)

/-- A big sigma: three rotations. -/
def bigSigma {w : Nat} (p : Nat × Nat × Nat) (x : BitVec w) : BitVec w := x.rotateRight p.1 ^^^ x.rotateRight p.2.1 ^^^ x.rotateRight p.2.2

/-- The rounds of a block: the last 16 schedule words, oldest first, and the eight working words. -/
def shaRounds {w : Nat} (p : Sha2 w) : List (BitVec w) → List (BitVec w) → List (BitVec w) → List (BitVec w)
  | [], _, v => v
  | k :: ks, win, v =>
    let wt := win.getD 0 0
    let a := v.getD 0 0
    let b := v.getD 1 0
    let c := v.getD 2 0
    let e := v.getD 4 0
    let f := v.getD 5 0
    let g := v.getD 6 0
    let t1 := v.getD 7 0 + bigSigma p.b1 e + ((e &&& f) ^^^ (~~~e &&& g)) + k + wt
    let t2 := bigSigma p.b0 a + ((a &&& b) ^^^ (a &&& c) ^^^ (b &&& c))
    let next := smallSigma p.s1 (win.getD 14 0) + win.getD 9 0 + smallSigma p.s0 (win.getD 1 0) + win.getD 0 0
    shaRounds p ks (win.drop 1 ++ [next]) [t1 + t2, a, b, c, v.getD 3 0 + t1, e, f, g]

/-- Words of a block, most significant byte first. -/
def beWords (w : Nat) : Nat → List Byte → List (BitVec w)
  | 0, _ => []
  | n + 1, bs => BitVec.ofNat w (ofBe (bs.take (w / 8))) :: beWords w n (bs.drop (w / 8))

/-- The hash over whole padded blocks of 16 words. -/
def shaBlocks {w : Nat} (p : Sha2 w) : Nat → List Byte → List (BitVec w) → List (BitVec w)
  | 0, _, h => h
  | n + 1, bs, h =>
    let ws := beWords w 16 (bs.take (2 * w))
    shaBlocks p n (bs.drop (2 * w)) (List.zipWith (· + ·) h (shaRounds p p.k ws h))

/-- A message with its padding: the block is `2 * w` bytes, its length field `w / 4` bytes. -/
def shaPad (w : Nat) (bs : List Byte) : List Byte :=
  let blk := 2 * w
  let lf := w / 4
  let z := (2 * blk - 1 - lf - bs.length % blk) % blk
  bs ++ 0x80 :: List.replicate z 0 ++ beBytes lf (8 * bs.length)

/-- SHA-256 of a byte string. -/
def sha256 (bs : List Byte) : List Byte :=
  let m := shaPad 32 bs
  ((shaBlocks sha256P (m.length / 64) m [0x6A09E667, 0xBB67AE85, 0x3C6EF372, 0xA54FF53A, 0x510E527F, 0x9B05688C, 0x1F83D9AB, 0x5BE0CD19]).map (fun x => beBytes 4 x.toNat)).flatten

/-- SHA-384 of a byte string. -/
def sha384 (bs : List Byte) : List Byte :=
  let m := shaPad 64 bs
  (((shaBlocks sha512P (m.length / 128) m [0xCBBB9D5DC1059ED8, 0x629A292A367CD507, 0x9159015A3070DD17, 0x152FECD8F70E5939, 0x67332667FFC00B31, 0x8EB44A8768581511, 0xDB0C2E0D64F98FA7, 0x47B5481DBEFA4FA4]).map (fun x => beBytes 8 x.toNat)).flatten).take 48

/-- The hash of a curve: SHA-256 for P-256, SHA-384 for P-384. -/
def curveHash (p384 : Bool) (bs : List Byte) : List Byte := if p384 then sha384 bs else sha256 bs

/-- HMAC over a curve's hash. -/
def hmac (p384 : Bool) (key msg : List Byte) : List Byte :=
  let blk := if p384 then 128 else 64
  let k := padTo blk (if blk < key.length then curveHash p384 key else key)
  curveHash p384 (k.map (· ^^^ 0x5C) ++ curveHash p384 (k.map (· ^^^ 0x36) ++ msg))

/-! ## ECDSA (FIPS 186-5) -/

/-- A curve y² = x³ − 3x + b over a prime field. -/
structure Curve where
  p  : Nat
  b  : Nat
  n  : Nat
  gx : Nat
  gy : Nat
  size : Nat

/-- NIST P-256. -/
def p256 : Curve where
  p := 0xFFFFFFFF00000001000000000000000000000000FFFFFFFFFFFFFFFFFFFFFFFF
  b := 0x5AC635D8AA3A93E7B3EBBD55769886BC651D06B0CC53B0F63BCE3C3E27D2604B
  n := 0xFFFFFFFF00000000FFFFFFFFFFFFFFFFBCE6FAADA7179E84F3B9CAC2FC632551
  gx := 0x6B17D1F2E12C4247F8BCE6E563A440F277037D812DEB33A0F4A13945D898C296
  gy := 0x4FE342E2FE1A7F9B8EE7EB4A7C0F9E162BCE33576B315ECECBB6406837BF51F5
  size := 32

/-- NIST P-384. -/
def p384 : Curve where
  p := 0xFFFFFFFFFFFFFFFFFFFFFFFFFFFFFFFFFFFFFFFFFFFFFFFFFFFFFFFFFFFFFFFEFFFFFFFF0000000000000000FFFFFFFF
  b := 0xB3312FA7E23EE7E4988E056BE3F82D19181D9C6EFE8141120314088F5013875AC656398D8A2ED19D2A85C8EDD3EC2AEF
  n := 0xFFFFFFFFFFFFFFFFFFFFFFFFFFFFFFFFFFFFFFFFFFFFFFFFC7634D81F4372DDF581A0DB248B0A77AECEC196ACCC52973
  gx := 0xAA87CA22BE8B05378EB1C71EF320AD746E1D3B628BA79B9859F741E082542A385502F25DBF55296C3A545E3872760AB7
  gy := 0x3617DE4A96262C6F5D9E98BF9292DC29F8F41DBD289A147CE9DA3113B5F0B8C00A60B1CE1D7E819D7A431D7C90EA0E5F
  size := 48

/-- The curve by its code: 0 P-256, 1 P-384. -/
def curveOf (c : Nat) : Curve := if c = 1 then p384 else p256

/-- a^e mod m over the low n bits of e. -/
def powMod (m a e : Nat) : Nat → Nat
  | 0 => 1 % m
  | n + 1 =>
    let r := powMod m a (e / 2) n
    let q := r * r % m
    if e % 2 = 1 then q * a % m else q

/-- The inverse of a modulo a prime. -/
def invMod (m a : Nat) : Nat := powMod m (a % m) (m - 2) 384

/-- Point addition; `none` is the point at infinity. -/
def ecAdd (c : Curve) (p q : Option (Nat × Nat)) : Option (Nat × Nat) :=
  match p, q with
  | none, q => q
  | p, none => p
  | some (x1, y1), some (x2, y2) =>
    if x1 = x2 ∧ (y1 + y2) % c.p = 0 then none
    else
      let l := if x1 = x2 then (3 * x1 * x1 + (c.p - 3)) % c.p * invMod c.p (2 * y1) % c.p
               else (y2 + (c.p - y1)) % c.p * invMod c.p (x2 + (c.p - x1)) % c.p
      let x3 := (l * l + (c.p - x1) + (c.p - x2)) % c.p
      some (x3, (l * (x1 + (c.p - x3)) + (c.p - y1)) % c.p)

/-- k times a point over the low n bits of k. -/
def ecMul (c : Curve) (k : Nat) (p : Option (Nat × Nat)) : Nat → Option (Nat × Nat)
  | 0 => none
  | n + 1 =>
    let h := ecMul c (k / 2) p n
    let d := ecAdd c h h
    if k % 2 = 1 then ecAdd c d p else d

/-- k times a point. -/
def ecTimes (c : Curve) (k : Nat) (p : Option (Nat × Nat)) : Option (Nat × Nat) := ecMul c k p (8 * c.size)

/-- Whether a point lies on the curve. -/
def onCurve (c : Curve) (x y : Nat) : Bool :=
  decide (x < c.p) && decide (y < c.p) && y * y % c.p == (x * x % c.p * x + (c.p - 3) * x + c.b) % c.p

/-- A digest as the number ECDSA signs: its leftmost bits, as many as n has. -/
def digestNat (c : Curve) (d : List Byte) : Nat := ofBe (d.take c.size)

/-- Verification of a signature (r, s) over a digest. -/
def ecdsaVerify (c : Curve) (qx qy : Nat) (digest : List Byte) (r s : Nat) : Bool :=
  if r = 0 ∨ c.n ≤ r ∨ s = 0 ∨ c.n ≤ s ∨ onCurve c qx qy = false then false
  else
    let w := invMod c.n s
    let u1 := digestNat c digest * w % c.n
    let u2 := r * w % c.n
    match ecAdd c (ecTimes c u1 (some (c.gx, c.gy))) (ecTimes c u2 (some (qx, qy))) with
    | none => false
    | some (x, _) => x % c.n == r

/-- The signature of a digest under private key d with nonce k. -/
def ecdsaSignWith (c : Curve) (d k : Nat) (digest : List Byte) : Nat × Nat :=
  match ecTimes c k (some (c.gx, c.gy)) with
  | none => (0, 0)
  | some (x, _) =>
    let r := x % c.n
    (r, invMod c.n k * (digestNat c digest + r * d) % c.n)

/-- The next acceptable nonce of RFC 6979 from K and V, within a number of tries. -/
def rfcNonce (c : Curve) (p3 : Bool) : Nat → List Byte → List Byte → Nat
  | 0, _, _ => 1
  | n + 1, k, v =>
    let v := hmac p3 k v
    let x := ofBe (v.take c.size)
    if x ≠ 0 ∧ x < c.n then x
    else
      let k := hmac p3 k (v ++ [0])
      rfcNonce c p3 n k (hmac p3 k v)

/-- The nonce of RFC 6979 for key d and a digest, with additional data k′ (section 3.6). -/
def rfc6979 (c : Curve) (d : Nat) (digest extra : List Byte) : Nat :=
  let p3 := c.size == 48
  let hl := c.size
  let seed := beBytes c.size d ++ beBytes c.size (digestNat c digest % c.n) ++ extra
  let v := List.replicate hl (1 : Byte)
  let k := hmac p3 (List.replicate hl 0) (v ++ 0 :: seed)
  let v := hmac p3 k v
  let k := hmac p3 k (v ++ 1 :: seed)
  rfcNonce c p3 64 k (hmac p3 k v)

/-! ## CTR_DRBG with AES-256 and the derivation function (SP 800-90A) -/

/-- The working state of the DRBG: Key and V. -/
structure Drbg where
  key : List Byte
  v   : List Byte
deriving DecidableEq, Repr

/-- A counter block plus one. -/
def incBlock (v : List Byte) : List Byte := beBytes 16 ((ofBe v + 1) % 2 ^ 128)

/-- `n` output blocks and the counter after them. -/
def drbgBlocks (rks : List (List Byte)) : Nat → List Byte → List Byte × List Byte
  | 0, v => ([], v)
  | n + 1, v =>
    let v := incBlock v
    let r := drbgBlocks rks n v
    (aesEncryptRk rks v ++ r.1, r.2)

/-- CTR_DRBG_Update. -/
def drbgUpdate (d : Drbg) (data : List Byte) : Drbg :=
  let t := xorBytes (drbgBlocks (aesRoundKeys d.key) 3 d.v).1 (padTo 48 data)
  { key := t.take 32, v := t.drop 32 }

/-- BCC of the derivation function: CBC-MAC over whole blocks. -/
def drbgBcc (rks : List (List Byte)) : Nat → List Byte → List Byte → List Byte
  | 0, c, _ => c
  | n + 1, c, bs => if bs.isEmpty then c else drbgBcc rks n (aesEncryptRk rks (xorBytes c (padTo 16 (bs.take 16)))) (bs.drop 16)

/-- Block_Cipher_df to 48 bytes. -/
def drbgDf (input : List Byte) : List Byte :=
  let s := beBytes 4 input.length ++ beBytes 4 48 ++ input ++ [0x80]
  let rks := aesRoundKeys ((List.range 32).map (fun i => BitVec.ofNat 8 i))
  let t := ((List.range 3).map (fun i => drbgBcc rks (s.length + 2) (List.replicate 16 0) (beBytes 4 i ++ List.replicate 12 0 ++ s))).flatten
  let k2 := aesRoundKeys (t.take 32)
  let x0 := t.drop 32
  let x1 := aesEncryptRk k2 x0
  let x2 := aesEncryptRk k2 x1
  x1 ++ x2 ++ aesEncryptRk k2 x2

/-- CTR_DRBG_Instantiate from entropy and a personalisation string (no separate nonce given). -/
def drbgInstantiate (entropy pers : List Byte) : Drbg :=
  drbgUpdate { key := List.replicate 32 0, v := List.replicate 16 0 } (drbgDf (entropy ++ pers))

/-- CTR_DRBG_Reseed from entropy. -/
def drbgReseed (d : Drbg) (entropy : List Byte) : Drbg := drbgUpdate d (drbgDf entropy)

/-- CTR_DRBG_Generate: `n` bytes and the state after them. -/
def drbgGenerate (d : Drbg) (n : Nat) : List Byte × Drbg :=
  let r := drbgBlocks (aesRoundKeys d.key) (ceilDiv n 16) d.v
  (r.1.take n, drbgUpdate { d with v := r.2 } (List.replicate 48 0))

end Sys2Proof.Machine
end

