-- ==== Sys2Proof/Config.lean ====
section
/-! DEFINITION. What one part or one environment fixes and the values the spec leaves open: constants without a body,
so that no proof can see what they are. -/

namespace Sys2Proof.Config

/-- The part's 16-byte SERIAL (R260), fixed at the factory. (DESIGN CHOICE, log entry 8.) -/
opaque serial : BitVec 128

/-- The part's key-encryption key of R218, known to no program. (DESIGN CHOICE, log entry 8.) -/
opaque kek : BitVec 256

/-- Quipor's P-256 public key of signer slot 2 (R254), as x in the high and y in the low half. (DESIGN CHOICE, log entry 8.) -/
opaque quiporKey : BitVec 512

/-- The boot ROM's words, indexed by byte offset (R331); the spec gives no contents. (DESIGN CHOICE, log entry 8.) -/
opaque bootRom : Nat → BitVec 32

/-- The trimmed SLICES, BIAS and DRV bits of power table entry i at reset (R166, R185). (DESIGN CHOICE, log entry 8.) -/
opaque powerTrim : Nat → BitVec 16

/-- The bytes LINK's host buffer holds for one host frame (R418); the spec gives no size. (DESIGN CHOICE, log entry 8.) -/
opaque hostBuffer : Nat

/-- What PROX_BAYn_RTT.EXCESS shows for an excess, in 0.25 ns, that 16 bits cannot hold (R208 states nothing).
(DESIGN CHOICE, log entry 33.) -/
opaque excessOverflow : Int → BitVec 16

/-- A value the spec leaves undefined or unstated: the n-th one used.
(DESIGN CHOICE, log entry 7; DESIGN CHOICE, log entry 30.) -/
opaque freeValue : Nat → Nat

end Sys2Proof.Config
end

