-- ==== Sys2Proof/Machine/State.lean ====
section
/-! DEFINITION. The state of the block as plain data: every register, queue, buffer, counter, mode and pin the spec
gives it, in one structure per part of the device, and the state right after reset. -/

namespace Sys2Proof.Machine

/-- A sparse map by key in one canonical form: keys strictly rising, no entry at its key's default value. -/
abbrev SMap (α : Type) := List (Nat × α)

/-- Memory: (address, byte) pairs in canonical form (R41); what an unlisted address reads as is `memDefault`. -/
abbrev Memory := List Host.Cell

/-- A step never stops with a fault: every event the spec describes has an effect or does not occur. The type has no
constructor (safe: nothing is ruled out). (DEDUCED, log entry 46.) -/
inductive Fault where
deriving DecidableEq, Repr

/-- Why a step refuses a command. (DEDUCED, log entry 46.) -/
inductive Refusal where
  /-- Raised by `exec` alone, for a command whose meaning is not written (safe: no effect is claimed for it). -/
  | notModelled (mnemonic : String)
deriving DecidableEq, Repr

/-! ## Islands, device time and the viaduct (01_architecture.md) -/

/-- An island's power state (R40): 0b00 OFF, 0b01 STARTING, 0b10 RUN, 0b11 STOPPING. -/
inductive PState where
  | off | starting | run | stopping
deriving DecidableEq, Repr

/-- What the master counter counts from (R27, R370): the 48 MHz reference, the 32.768 kHz crystal under the PARK rule,
or 4 cycles of the 4 MHz time base once the crystal has failed. -/
inductive TimeSrc where
  | reference | crystal | rc4M
deriving DecidableEq, Repr

/-- Device time (R27 to R29). -/
structure TimeState where
  /-- The master counter in µs. -/
  us     : Nat
  /-- Under the PARK rule, the elapsed part of the next microsecond in units of 1/1536 µs. -/
  frac   : Nat
  /-- Under the reference rule, the reference cycles from the last step to the next one. -/
  toStep : Nat
  src    : TimeSrc
  /-- The 32.768 kHz crystal condition of R370. -/
  xtal32Failed : Bool
  /-- Each island's local copy (R28). -/
  copies : Vector Nat 14
deriving DecidableEq, Repr

/-- A 16-byte message in an inbox, with its source island (R319). -/
structure InboxEntry where
  msg : BitVec 128
  src : Nat
deriving DecidableEq, Repr

/-- What a core does with the response of its transaction (R310, R311). -/
inductive TxnDst where
  | load (rd : RegF) (size : Nat) (signed : Bool) (lane : Nat)
  | quad (rd : RegF)
  | status (rd : RegF)
  | posted
deriving DecidableEq, Repr

/-- What a transaction asks for (R30). -/
inductive TxnOp where
  | read (n : Nat)
  | write (ws : List Nat) (strb : Nat)
  | message (target : Nat) (msg : BitVec 128)
deriving DecidableEq, Repr

/-- One outstanding transaction of an initiator port, oldest first in its list (R32). -/
structure Txn where
  op     : TxnOp
  addr   : Nat
  burst  : Bool
  dst    : TxnDst
  issued : Nat
  /-- A message that waits at its target port because the inbox is full (R33). -/
  held   : Bool
deriving DecidableEq, Repr

/-- The data and status last returned to an initiator (R30). -/
structure Resp where
  data   : List Nat
  status : Status
deriving DecidableEq, Repr

/-- A message issued as a whole transaction that waits at a full inbox (R33). -/
structure HeldMsg where
  src   : Nat
  msg   : BitVec 128
  since : Nat
deriving DecidableEq, Repr

/-- The viaduct and the abutments (R30 to R39). -/
structure ViaState where
  inbox  : Vector (List InboxEntry) 14
  held   : Vector (List HeldMsg) 14
  txns   : Vector (List Txn) 14
  resp   : Vector Resp 14
  /-- Each island's CFG_STATUS.WERR and CFG_WERR_ADDR (R16). -/
  werr     : Vector Bool 14
  werrAddr : Vector Nat 14
  offCount : Nat
  offAddr  : Nat
  offSrc   : Nat
deriving DecidableEq, Repr

/-! ## Cores (11_colot_isa.md, 12_island_programs.md) -/

/-- What a timed instruction does at its time (R321). -/
inductive TimedAct where
  | twait
  | temit (addr data : Word)
  | tsend (target : Nat) (msg : BitVec 128)
deriving DecidableEq, Repr

/-- What a core waits for before its next instruction (R310, R313, R318, R320). -/
inductive CoreWait where
  | none
  | wfi
  | fence
  | resp
  | timed (t : Nat) (act : TimedAct)
deriving DecidableEq, Repr

/-- One Colot core (R302 to R304, R322, R333, R378). -/
structure Core where
  /-- g0 to g15, the main bank at 12 to 15; entry 0 stays 0. -/
  regs : Vector Word 16
  /-- g12 to g15 of the trap bank. -/
  trapBank : Vector Word 4
  pc  : Word
  spc : Word
  ie : Bool
  pie : Bool
  it : Bool
  late : Bool
  dz : Bool
  pbank : Bool
  active : Bool
  /-- stime_hi. -/
  timeHi : Word
  scause : Word
  svec : Word
  maskLines : BitVec 16
  maskSt : Bool
  sval : Word
  statLast : Status
  statFirst : Status
  /-- The armed alarm's time, and line 1 (R322). -/
  alarm : Option Nat
  alarmPend : Bool
  wait : CoreWait
  /-- A pending imprecise STATUS trap with its sval (R312). -/
  imprecise : Option Word
  hold : Bool
  halted : Bool
  lock : Bool
  /-- CORE_CTRL.CODE in 64 B units, and CORE_ENTRY. -/
  code : Nat
  entry : Word
  /-- The core watchdog's remaining µs once kicked (R378). -/
  wdogLeft : Option Nat
deriving DecidableEq, Repr

/-- A core right after AON reset or a warm restart of its island (R302, R303, R333). (DESIGN CHOICE, log entry 4.) -/
def Core.reset : Core where
  regs := Vector.replicate 16 0
  trapBank := Vector.replicate 4 0
  pc := 0
  spc := 0
  ie := false
  pie := false
  it := false
  late := false
  dz := false
  pbank := false
  active := false
  timeHi := 0
  scause := 0
  svec := 0
  maskLines := 0
  maskSt := false
  sval := 0
  statLast := 0
  statFirst := 0
  alarm := none
  alarmPend := false
  wait := .none
  imprecise := none
  hold := true
  halted := true
  lock := false
  code := 0
  entry := 0
  wdogLeft := none

/-! ## Power, PARK and the governor (13_power_and_park.md) -/

/-- The operation of a power command (R350). -/
inductive PwrOp where
  | level | on | off
deriving DecidableEq, Repr

/-- A power command (R349, R367). -/
structure PwrCmd where
  op     : PwrOp
  island : Nat
  level  : Nat
  tag    : Nat
  writer : Nat
deriving DecidableEq, Repr

/-- Where the command being served stands. -/
inductive PwrPhase where
  | querying | starting | stopping | changing
deriving DecidableEq, Repr

/-- The command being served, with the time of its first query (R355). -/
structure Serving where
  cmd   : PwrCmd
  first : Nat
  phase : PwrPhase
deriving DecidableEq, Repr

/-- One result of AON.PWR_RES. -/
structure PwrResult where
  status : Status
  reason : Nat
  island : Nat
  tag    : Nat
deriving DecidableEq, Repr

/-- Where an island's query stands (R355, R356). -/
inductive QPhase where
  | idle
  | awaiting (since : Nat)
  | delayed (until_ : Nat)
  | accepted
deriving DecidableEq, Repr

/-- An island's AON.PWR_QUERY: KIND 0 NONE, 1 LEVEL, 2 OFF, 3 PARK (R367). -/
structure Query where
  kind    : Nat
  level   : Nat
  outcome : Nat
  phase   : QPhase
deriving DecidableEq, Repr

/-- The power controller (R349 to R356). -/
structure PowerState where
  st      : Vector PState 14
  level   : Vector Nat 14
  queue   : List PwrCmd
  serving : Option Serving
  results : List PwrResult
  query   : Vector Query 14
  /-- Floor raises under way, with their target levels (R354). -/
  raising : Vector (Option Nat) 14
deriving DecidableEq, Repr

/-- AON.PARK_CTRL.STATE (R367). -/
inductive ParkPhase where
  | idle | querying | stopping | parked | waking
deriving DecidableEq, Repr

/-- PARK and the wake sources (R357 to R362). -/
structure ParkState where
  phase    : ParkPhase
  last     : Status
  refuser  : Nat
  reason   : Nat
  /-- Device time of the first query of the entry. -/
  first    : Nat
  entries  : Nat
  aborts   : Nat
  wakePend : Nat
  wakeLast : Nat
  /-- Device time of the last wake event, and whether it has come since the commit. -/
  wakeTime : Nat
  woken    : Bool
  /-- The armed ALARM (R359). -/
  alarm    : Option Nat
  /-- The bay whose confirmation fired PING, with its time (R360). -/
  pingBay  : Option (Nat × Nat)
  /-- The SITE of the wake packet that fired WURX (R360). -/
  wurxSite : Option Nat
  /-- A freeze request made after commit, which acts at the resume (R362). -/
  freezeAtResume : Bool
deriving DecidableEq, Repr

/-- The thermal governor (R364, R368). TJ is signed. -/
structure ThermState where
  budget : Nat
  tj     : Int
  hvDie  : Bool
  pCore  : Nat
deriving DecidableEq, Repr

/-! ## Parapet and recovery (14_faults_and_recovery.md) -/

/-- One entry of AON.PARAPET_LOG, with the DETAIL its FAULT record carries (R369, R392). -/
structure LogEntry where
  code    : Status
  island  : Nat
  unit    : Nat
  time    : Nat
  overrun : Bool
  detail  : List Byte
deriving DecidableEq, Repr

/-- The parapet, the supply conditions and the warm restarts (R369 to R384). -/
structure ParapetState where
  pend      : Nat
  log       : List LogEntry
  reversed  : Bool
  /-- The non-volatile reversal cell of the high-voltage die (R371). -/
  reversalCell : Bool
  uvVin     : Bool
  uvVinlf   : Bool
  ov        : Bool
  vin       : Nat
  /-- The over-temperature condition of the logic and of the high-voltage die (R370). -/
  hotLogic  : Bool
  hotHv     : Bool
  thermalStop : Bool
  clockStop : Bool
  /-- The kind of the bus fault of R374, 0 for none, meter bus and dispenser bus. -/
  mFault    : Nat
  dFault    : Nat
  eccCorr   : Nat
  eccUncorr : Nat
  viaParity : Nat
  viaTimeout : Nat
  rstIsland : Nat
  rstCause  : Status
  rstCount  : Nat
  rstLimit  : Nat
  /-- Device times of each island's warm restarts, newest first (R384). -/
  rstTimes  : Vector (List Nat) 14
  /-- Restarts waiting, and the one under way, each an island and its cause (R382). -/
  rstQueue  : List (Nat × Status)
  restarting : Option (Nat × Status)
deriving DecidableEq, Repr

/-! ## Counters, freeze and the monitor (17_observability_and_freeze.md) -/

/-- One island's counters and their last snapshot (R427, R434). -/
structure PerfState where
  cyc : Nat
  pmc : Vector Nat 8
  ovf : Nat
  snapCyc : Nat
  snapPmc : Vector Nat 8
  snapOvf : Nat
deriving DecidableEq, Repr

/-- The dump engine (R435, R436, R438). -/
structure DumpState where
  seq     : Nat
  wptr    : Nat
  rptr    : Nat
  recPend : Bool
  records : Nat
  dropped : Nat
deriving DecidableEq, Repr

/-- Freeze (R439 to R441). -/
structure FreezeState where
  pin    : Bool
  mon    : Bool
  frozen : Bool
  start  : Nat
deriving DecidableEq, Repr

/-- One answer of the monitor: the command, its STATUS and its payload (R443). -/
structure MonAnswer where
  cmd    : Nat
  status : Status
  data   : List Byte
deriving DecidableEq, Repr

/-- The Relor monitor (R443 to R448). -/
structure MonState where
  unlocked  : Bool
  /-- The nonce drawn and the time it was drawn. -/
  nonce     : Option (List Byte × Nat)
  failures  : Nat
  rateUntil : Nat
  last      : Status
  lastCmd   : Nat
  /-- What the UART has sent, oldest first. -/
  sent      : List MonAnswer
deriving DecidableEq, Repr

/-! ## Start-up and lifecycle (18_startup_and_lifecycle.md) -/

/-- BOOT_STATUS.STAGE (R462). -/
inductive BootStage where
  | rom | verify | load | deck | ready | loader
deriving DecidableEq, Repr

/-- What the boot ROM waits for before the next step of R451: STORE and the keystone, the keys of a CLAIM, an order's
ledger write, or nothing more. -/
inductive BootWait where
  | start
  | claimKey
  | ledger (target : Nat)
  | over
deriving DecidableEq, Repr

/-- The boot ROM, the straps and the provisioning session (R449 to R462, R467). -/
structure BootState where
  stage    : BootStage
  bank     : Nat
  fallback : Bool
  /-- The time the open provisioning session opened. -/
  session  : Option Nat
  cause    : Nat
  lcLast   : Status
  /-- The time a submitted order resets AON (R449). -/
  submitAt : Option Nat
  strapId  : Nat
  strapBoot : Nat
  strapTest : Bool
  /-- The image's IMAGE_DIGEST as booted (R337). -/
  digest   : List Byte
  imageVersion : Nat
  /-- A CLAIM under way (R459): the identity curve, the operator curve (true P-384) and OPKEY. -/
  claiming : Option (Bool × Bool × List Byte)
  wait     : BootWait
deriving DecidableEq, Repr

/-! ## Requests and what waits for a record -/

/-- Where a frame goes: SPI, an Ethernet MAC, or the ring's master (R419, R409). -/
inductive HostDest where
  | spi
  | eth (mac : Option Nat)
  | ring
deriving DecidableEq, Repr

/-- A host request that awaits its answer (R414, R416). -/
structure HostReq where
  typ  : Nat
  bay  : Nat
  seq  : Nat
  dest : HostDest
deriving DecidableEq, Repr

/-- What the deck does once a journal record it asked for is durable (R48, R387, R390, R415). (DEDUCED, log entry 42.) -/
inductive JAfter where
  | nothing
  /-- A span transition: the anchor, then the event (its code, DETAIL and status). -/
  | span (bay spanId state : Nat) (ev : Option (Nat × Nat × List Byte × Status))
  | capture (bay spanId kind : Nat) (status meterStatus : Status) (energy : Nat)
  | close (bay spanId : Nat)
  | timeSet (req : Option HostReq) (handle : Option Nat) (utc device : Nat)
  | recovery (island : Nat) (cause : Status) (lost aborted : Nat)
  | fault (code : Status) (island unit time : Nat) (detail : List Byte)
  | tagWrite (req : HostReq) (handle : Nat) (outcome : Nat) (status : Status)
  /-- A LIFECYCLE record and its SIG are durable: the ledger takes the new state, a CLAIM counted (R459). -/
  | lifecycle (state : Nat) (claimed : Bool)
  /-- A second event of a bay, sent after what the record itself gives (R385): its span and state, then the event. -/
  | andEvent (act : JAfter) (bay spanId state : Nat) (ev : Nat × Nat × List Byte × Status)
  /-- The SIG record of the record that owed the inner action, with the signature's status (R294). -/
  | signed (status : Status) (act : JAfter)
deriving DecidableEq, Repr

/-! ## Store, credential table and journal (10_store_and_journal.md) -/

/-- A ledger image's fields (R272). -/
structure Ledger where
  generation : Nat
  spanHwm    : Nat
  claimCount : Nat
  bootCount  : Nat
  policySet  : Nat
  credArea   : Nat
  credValid  : Bool
  imageBank  : Nat
  lifecycle  : Nat
  tailSeq    : Nat
  tailChain  : List Byte
  ackSeq     : Nat
  arcSeq     : Nat
  policyVersion : Nat
  credVersion   : Nat
  credSeed   : Nat
  tsBoot     : Nat
  tsUtc      : Nat
  tsDevice   : Nat
  tsCount    : Nat
  hwm        : Vector Nat 72
deriving DecidableEq, Repr

/-- A change of the ledger that waits for a write or is carried by one (R274). -/
inductive LedgerChange where
  | hwm (entry value : Nat)
  | spanHwm (value : Nat)
  | policy (set version : Nat) (digest : List Byte)
  | cred (area version seed entries : Nat)
  | credInvalid
  | imageBank (bank : Nat)
  | bootCount
  | lifecycle (state : Nat) (claimed : Bool)
  | tail (seq : Nat) (chain : List Byte)
  | ack (seq : Nat)
  | arc (seq : Nat)
  | archiveEmpty (seq : Nat) (chain : List Byte)
  | dropTail (first last : Nat) (chain : List Byte)
  | timeSet (utc device : Nat)
deriving DecidableEq, Repr

/-- A ledger write under way: the image, its changes, and whether it is the second try (R274). -/
structure LedgerWrite where
  bank    : Nat
  image   : Ledger
  changes : List LedgerChange
  again   : Bool
deriving DecidableEq, Repr

/-- A journal record without its SEQ (R290). -/
structure JRecord where
  typ     : Nat
  signed  : Bool
  siteBay : Nat
  spanId  : Nat
  time    : Nat
  body    : List Byte
  after   : JAfter
deriving DecidableEq, Repr

/-- FLASH_STATUS.STATE (R301). -/
inductive FlashState where
  | absent | ready | failed | formatting
deriving DecidableEq, Repr

/-- A flash operation under way (R277): a view read, a page program of chunk data or of archived records, an erase. -/
inductive FlashOp where
  | chunk (chunk : Nat) (body : List Byte) (frame : Nat)
  | archive (first count : Nat)
  | eraseArea (area : Nat)
  | format
deriving DecidableEq, Repr

/-- The credential update of the current VERSION (R288, R289). -/
structure CredUpdate where
  version : Nat
  seed    : Nat
  entries : Nat
  written : Nat
  failed  : Bool
deriving DecidableEq, Repr

/-- A lookup under way, with the area and seed that were active when it began (R283, R285). -/
structure Lookup where
  ident : List Byte
  area  : Nat
  seed  : Nat
  valid : Bool
deriving DecidableEq, Repr

/-- STORE's own logic (R272 to R301, R339, R486). -/
structure StoreState where
  /-- The winner as STORE took it, its bank, and whether a bank was valid. -/
  taken    : Bool
  bank     : Nat
  ledger   : Ledger
  fault    : Bool
  changes  : List LedgerChange
  write    : Option LedgerWrite
  /-- The journal: SEQ and chain of the last durable record, READY, the records submitted and not yet durable (kept by
  their requesters), whether the first of them stands in its ring slot without its SEQ word (R292), and whether the last
  durable record still owes its SIG record (R294). -/
  head     : Nat
  chain    : List Byte
  ready    : Bool
  queue    : List JRecord
  opened   : Bool
  sigOwed  : Option JAfter
  gaps     : Nat
  archiving : Bool
  /-- Flash: what is fitted in MiB (0 none), its state, last status, timeouts in a row, and the operation under way. -/
  fitted   : Nat
  flash    : FlashState
  flashLast : Status
  timeouts : Nat
  flashOp  : Option FlashOp
  /-- Archive records since whose writing the slot has been erased: the lowest SEQ still held by the archive. -/
  arcFloor : Nat
  update   : Option CredUpdate
  erasing  : Bool
  lookups  : List Lookup
  /-- Tags of the credential cache's lines, most recently used first (R285). -/
  cache    : List Nat
  imgOpen   : Bool
  imgBusy   : Bool
  imgDone   : Bool
  imgStatus : Status
  imgDigest : List Byte
deriving DecidableEq, Repr

/-! ## LF bay array and its protocols (04_lf_bay_array.md, 05_lf_air_protocols.md) -/

/-- A word of the uplink FIFO (R124). -/
structure RxWord where
  bits      : Nat
  count     : Nat
  violation : Bool
  overrun   : Bool
deriving DecidableEq, Repr

/-- A commanded burst or an armed chord (R111 to R115). -/
structure Burst where
  aerial : Nat
  mode   : Nat
  txbits : Nat
  /-- T0 of a chord that has not started. -/
  armed  : Option Nat
  /-- Device time of the burst's start, and the words of LF_TXD it has taken. -/
  start  : Nat
  taken  : Nat
  overcurrent : Bool
  opened : Bool
  stopped : Bool
  clamped : Bool
deriving DecidableEq, Repr

/-- A tag command on the air (R139). -/
inductive TagCmd where
  | req
  | split (t : Nat)
  | resume (t : Nat)
deriving DecidableEq, Repr

/-- Where a tag exchange stands (R144, R148, R150 to R152). -/
inductive TagPhase where
  | waitRc
  | ktReq
  | inventory (cmd : TagCmd)
  | open_ (sel : Bool)
  | waitMac (tw : Nat)
  | writing
  | done
deriving DecidableEq, Repr

/-- What the pier program reads or writes (R144, R149, R153, R154). -/
structure TagJob where
  bay    : Nat
  tag    : Nat
  phase  : TagPhase
  openId : Bool
  retried : Bool
  stack  : List (Nat × List Bool)
  pre    : List Bool
  found  : List Nat
  status : Status
  kind   : Nat
  uid    : Nat
  data   : List Byte
  outcome : Nat
  pcrc   : Nat
  /-- Whether it writes, and whether it is the page check of R154; the identifiers not yet reported; and the device time
  of the last reply or of the KT_WRITE's start. -/
  write  : Bool
  check  : Bool
  more   : List Nat
  since  : Nat
deriving DecidableEq, Repr

/-- One ping group's round (R118, R119): the positions still to come, a confirming position first, the slots left, a
confirming ping carried over to the next round, and each position's detections in a row. -/
structure PingGroup where
  slots : List Nat
  left  : Nat
  carry : Option Nat
  hits  : Vector Nat 8
deriving DecidableEq, Repr

/-- An empty ping group. -/
def PingGroup.reset : PingGroup := ⟨[], 0, none, Vector.replicate 8 0⟩

/-- One pier (R100 to R124). -/
structure Pier where
  burst   : Option Burst
  last    : Status
  aerial  : Nat
  mode    : Nat
  tx      : List Nat
  rx      : List RxWord
  overrun : Bool
  iqI     : BitVec 16
  iqQ     : BitVec 16
  tuneF   : Vector Nat 8
  tuneQ   : Vector Nat 8
  event   : Nat
  ping    : PingGroup
  job     : Option TagJob
deriving DecidableEq, Repr

/-- A pier after a reset of its island (R124): the FIFOs are empty. -/
def Pier.reset : Pier where
  burst := none
  last := 0
  aerial := 0
  mode := 0
  tx := []
  rx := []
  overrun := false
  iqI := 0
  iqQ := 0
  tuneF := Vector.replicate 8 0
  tuneQ := Vector.replicate 8 0
  event := 0
  ping := PingGroup.reset
  job := none

/-- An aerial's state: 0 OK, 1 STRIKE, 2 FAULT, 3 UNTESTED, and its strikes (R123, R183). -/
structure Aerial where
  state   : Nat
  strikes : Nat
deriving DecidableEq, Repr

/-- The high-voltage die's aerial states and the AON ping engine (R122, R123, R125). -/
structure LfState where
  piers   : Vector Pier 8
  aerials : Vector Aerial 64
  engine  : Vector PingGroup 8
  pingEvent : Nat
  /-- Device time of each bay's last confirmed detuning (R133). -/
  detuned : Vector (Option Nat) 64
  /-- A group whose drive-valid strobe has stopped: its nine bridges are high-impedance (R101). -/
  released : Vector Bool 8
deriving DecidableEq, Repr

/-! ## The 2.4 GHz radio and ranging (06_rf_island.md, 07_proximity_verdict.md) -/

/-- A radio command (R185): OP 2 SYNTH, 3 TX, 4 RX, 6 TEST, 7 CAL_ALL. -/
structure RfCmd where
  op     : Nat
  ch     : Nat
  aerial : Nat
  pwr    : Nat
  rate   : Bool
deriving DecidableEq, Repr

/-- RF.STATUS.STATE (R157). -/
inductive RfMode where
  | off | standby | synth | tx | rx | wake
deriving DecidableEq, Repr

/-- What the transceiver is doing (R158 to R163). -/
inductive RfPhase where
  | idle
  /-- A transition of R158 whose end is this mode, with no calibration. -/
  | moving (target : RfMode)
  | calibrating (ch : Nat)
  /-- Waiting for COEX_GNT before it goes on air or searches. -/
  | waitGrant
  /-- On air, searching or testing. -/
  | active
deriving DecidableEq, Repr

/-- The transceiver, its aerials, coexistence and the wake receiver (R157 to R186). -/
structure RfState where
  mode   : RfMode
  phase  : RfPhase
  cur    : Option RfCmd
  held   : Option RfCmd
  ch     : Nat
  locked : Bool
  rfsel  : Nat
  last   : Status
  /-- The status the command under way has earned so far (0x64, 0x6A). -/
  earned : Status
  /-- Stored coarse codes with the die temperature at which each was stored (R159). -/
  cal    : SMap Int
  /-- The packet on air, LEN then payload. -/
  air    : List Byte
  rxLen  : Nat
  rxRssi : Nat
  rxStatus : Status
  rxAerial : Nat
  rxTime : Nat
  req    : Bool
  pri    : Bool
  gnt    : Bool
  denied : Nat
  preempted : Nat
  ants   : Vector Aerial 4
  reflMag : Nat
  reflShort : Bool
  reflAerial : Nat
  reflValid : Bool
  event  : Nat
  /-- The search window's end is given by reports: the chord the radio listens to, with its kept reports (R135, R173). -/
  listen : Option (Nat × Nat × List (List Byte))
  wurxHello : Nat
  wurxBad : Nat
  wurxSite : Nat
  wurxTyp : Nat
deriving DecidableEq, Repr

/-- A ranging exchange (R194 to R196, R207). -/
structure PsrState where
  busy : Bool
  leg  : Nat
  last : Status
  owed : Bool
  bay  : Nat
  tag  : Nat
  /-- What the last exchange measured: per aerial, S in cm, Q in 1/256 and SNR in dB; t4 - t1; t4. -/
  s    : Vector Nat 4
  q    : Vector Nat 4
  snr  : Vector Nat 4
  t4mt1 : Nat
  t4   : Nat
  pong : Option (List Byte)
  result : Option (List Byte)
deriving DecidableEq, Repr

/-- DECK.PROX_BAYn (R208). -/
structure ProxRes where
  verdict : Nat
  reason  : Status
  evidence : Nat
  aerOk   : Nat
  d       : Vector Nat 4
  excess  : Nat
  margin  : Nat
deriving DecidableEq, Repr

/-! ## Cipher engine, randomness and signer (08_cipher_engine.md, 09_randomness_and_identity.md) -/

/-- SLOTi_INFO.STATE (R217). -/
inductive SlotSt where
  | empty | loaded | derived | spent
deriving DecidableEq, Repr

/-- One key slot (R215 to R227). -/
structure Slot where
  st     : SlotSt
  key    : List Byte
  policy : Nat
  keyId  : Nat
  limit  : Nat
  ctr    : Nat
  /-- STORE has delivered the high-water mark since the keystone started, and that mark. -/
  ready  : Bool
  hwm    : Nat
  /-- A reservation of the slot is pending; its last one failed. -/
  resv   : Bool
deriving DecidableEq, Repr

/-- An empty slot. -/
def Slot.reset : Slot := ⟨.empty, [], 0, 0, 0, 0, false, 0, false⟩

/-- The lock's owners (R228). -/
inductive Owner where
  | keys | store
deriving DecidableEq, Repr

/-- A context's state (R228). -/
inductive CtxSt where
  | free | active | suspended
deriving DecidableEq, Repr

/-- A descriptor as read (R236). -/
structure Desc where
  op : Nat
  slot : Nat
  dest : Nat
  flags : Nat
  aadLen : Nat
  limit : Nat
  ctrOff : Nat
  dataLen : Nat
  ivPtr : Nat
  aadPtr : Nat
  inPtr : Nat
  outPtr : Nat
  tagPtr : Nat
deriving DecidableEq, Repr

/-- One context (R228 to R232). -/
structure Ctx where
  st     : CtxSt
  owner  : Owner
  desc   : Desc
  /-- The counter value consumed, a wait for a reservation, and the suspensions and resumptions so far. -/
  value  : Option Nat
  waits  : Bool
  switches : Nat
  /-- An access failure or an abort to act at the next boundary, and the caisson the message writes into. -/
  fail   : Status
  abort  : Bool
  caisson : Option Nat
  /-- What the message's end writes, computed at its last block: output, tag and status. -/
  status : Status
  done   : Bool
  units  : Nat
deriving DecidableEq, Repr

/-- One caisson (R233 to R235); base and length are registers. -/
structure Caisson where
  isSealed : Bool
  busy    : Bool
  zeroing : Bool
  written : Nat
  /-- The message whose report waits for the zeroing: its context and status. -/
  report  : Option (Nat × Status)
deriving DecidableEq, Repr

/-- The cipher engine (R209 to R240). -/
structure CipherState where
  slots : Vector Slot 96
  ctx   : Vector Ctx 2
  /-- The holder of the lock, the waiting requests and the owner served last. -/
  lock  : Option Owner
  waitKeys : Bool
  waitStore : Bool
  lastServed : Owner
  /-- A SUSPEND_AND_START pending for the next boundary: context and descriptor. -/
  pendingStart : Option (Nat × Desc)
  expiring : Bool
  event : Nat
  caissons : Vector Caisson 4
deriving DecidableEq, Repr

/-- RNG_STATUS.STATE (R249). -/
inductive RngSt where
  | unseeded | ready | recovering | halted
deriving DecidableEq, Repr

/-- RNG_STATUS.PHASE (R264). -/
inductive RngPhase where
  | warmup | startup | collect | steady
deriving DecidableEq, Repr

/-- The end of a private request: its status and bytes. -/
structure WireEnd where
  status : Status
  data   : List Byte
deriving DecidableEq, Repr

/-- The DRBG's working state (R245). -/
structure DrbgSt where
  key : BitVec 256
  v   : BitVec 128
deriving DecidableEq, Repr

/-- The noise source and the DRBG (R241 to R253). Wires: 0 challenge, 1 signer, 2 key generation. -/
structure RngState where
  running : Bool
  st     : RngSt
  phase  : RngPhase
  fails  : Nat
  drbg   : Option DrbgSt
  served : Nat
  /-- A reseed has been asked for and collects. -/
  reseed : Bool
  fifo   : List Nat
  waits  : Vector (Option Nat) 3
  ends   : Vector (Option WireEnd) 3
  event  : Nat
  failures : Nat
  reseeds  : Nat
deriving DecidableEq, Repr

/-- A signer slot's key (R254): its curve (false P-256), the private key or 0, and the public point. -/
structure SignKey where
  p384 : Bool
  d    : Nat
  x    : Nat
  y    : Nat
deriving DecidableEq, Repr

/-- Whose a signer command is: a write to SIGN_CMD, or the keystone program's own for the SIG record of a TAG and SEQ
(R342) or for a host's ATTEST (R415). -/
inductive SignUse where
  | command
  | sig (tag seq : Nat)
  | attest (req : HostReq) (nonce : List Byte)
deriving DecidableEq, Repr

/-- The command the signer runs (R255 to R259). -/
structure SignJob where
  op    : Nat
  key   : Nat
  desc  : Nat
  /-- k' once delivered, and the wire's failing end. -/
  nonce : Option (List Byte)
  fail  : Status
  /-- Whose command it is. -/
  use   : SignUse
deriving DecidableEq, Repr

/-- The signer (R254 to R261). -/
structure SignerState where
  keys   : Vector (Option SignKey) 4
  job    : Option SignJob
  status : Status
  done   : Bool
deriving DecidableEq, Repr

/-- What the keystone program holds for a bay's authentication (R147 to R151, R172, R191 to R193). -/
structure AuthJob where
  tag  : Nat
  kind : Nat
  id   : Nat
  spanId : Nat
  ch   : List Byte
  rc   : Nat
  r    : Nat
  wakeCtr : Nat
  fobId : Nat
  rxTime : Nat
  ks   : Option (List Byte)
  ms   : List Byte
  plain : List Byte
  /-- The challenge payload as sent and the response payload as received. -/
  sent : List Byte
  /-- What the authentication has come to, and 0x07 once a RESULT failed its tag (R172, R193). -/
  st   : Option Status
  res  : Status
deriving DecidableEq, Repr

/-! ## Host frames (16_host_and_field_ports.md) -/

/-- A device frame (R414). -/
structure Frame where
  typ    : Nat
  bay    : Nat
  status : Status
  cls    : Nat
  seq    : Nat
  ref    : Nat
  body   : List Byte
  dest   : HostDest
  /-- The bytes of another device's frame that the master passes on (R409), else empty. -/
  raw    : List Byte
deriving DecidableEq, Repr

/-! ## Spans (02_span_service.md) -/

/-- A queue entry (R43, R45). -/
structure QEntry where
  source : Nat
  bay    : Nat
  stamp  : Nat
  ident  : List Byte
  req    : Option HostReq
deriving DecidableEq, Repr

/-- A capture under way: kind 0 start, 1 interim, 2 closing; its latch has left or its read runs (R66, R421). -/
structure Capture where
  kind    : Nat
  reqTime : Nat
  stamp   : Option Nat
  reading : Bool
deriving DecidableEq, Repr

/-- A live token: its counter and NOT_AFTER (R63). -/
structure Token where
  counter  : Nat
  notAfter : Nat
deriving DecidableEq, Repr

/-- A STOP not yet answered: its COUNTER and the sends left (R65). -/
structure StopReq where
  counter : Nat
  left    : Nat
deriving DecidableEq, Repr

/-- One bay's span and what stays with the bay (R43 to R73). States are the codes of the table, 0 IDLE to 11 ABORTED. -/
structure Span where
  state    : Nat
  id       : Nat
  status   : Status
  evidence : Nat
  kind     : Nat
  source   : Nat
  ident    : List Byte
  report   : List Byte
  chordT0  : Nat
  present  : Nat
  fired    : Nat
  verdict  : Nat
  reason   : Status
  cls      : Nat
  tariff   : Nat
  account  : List Byte
  policy   : List Byte
  clsPolicy : List Byte
  req      : Nat
  authLeft : Option Nat
  relLeft  : Option Nat
  lastFail : Status
  handle   : Option Nat
  base     : Nat
  notAfter : Nat
  counter  : Nat
  /-- The token is built, waits for the earlier one's end, or is being sent. -/
  token    : List Byte
  /-- The AUTHENTICATED record and its anchor are durable (R387); the keystone has built the token. -/
  authDurable : Bool
  built    : Bool
  sending  : Bool
  interim  : Nat
  maxDur   : Nat
  relAt    : Nat
  relSeq   : Nat
  nextInterim : Option Nat
  closeReason : Nat
  startSeq : Nat
  endSeq   : Nat
  eStart   : Nat
  eEnd     : Nat
  captures : Nat
  caps     : List Capture
  accepted : Bool
  evAuth   : Option Nat
  evLf     : Option Nat
deriving DecidableEq, Repr

/-- A bay with no span. -/
def Span.reset : Span where
  state := 0
  id := 0
  status := 0
  evidence := 0
  kind := 0
  source := 0
  ident := []
  report := []
  chordT0 := 0
  present := 0
  fired := 0
  verdict := 0xFF
  reason := 0
  cls := 0xFF
  tariff := 0
  account := []
  policy := []
  clsPolicy := []
  req := 0
  authLeft := none
  relLeft := none
  lastFail := 0
  handle := none
  base := 0
  notAfter := 0
  counter := 0
  token := []
  authDurable := false
  built := false
  sending := false
  interim := 0
  maxDur := 0
  relAt := 0
  relSeq := 0
  nextInterim := none
  closeReason := 0
  startSeq := 0
  endSeq := 0xFFFFFFFFFFFFFFFF
  eStart := 0xFFFFFFFFFFFFFFFF
  eEnd := 0xFFFFFFFFFFFFFFFF
  captures := 0
  caps := []
  accepted := false
  evAuth := none
  evLf := none

/-- What the deck asked the gate for, by request TAG (R82, R84). -/
inductive JobKind where
  | entry (bay : Nat)
  | renew (bay : Nat)
  | chordSweep (n : Nat)
  | timeSet (req : Option HostReq) (utc device : Nat)
  | dbChunk (req : HostReq) (chunk : List Byte)
  | policy (req : HostReq) (set : List Byte)
  | dbCommit (req : HostReq)
  | attest (req : HostReq) (nonce : List Byte)
  | imageVerify (req : HostReq)
  | archive
  | range (req : HostReq) (primary use fobId : Nat)
  | tagWrite (req : HostReq) (uid : Nat) (data : List Byte) (check : Bool)
  | tune (req : HostReq)
  | park
  | lookup (req : Option HostReq)
deriving DecidableEq, Repr

/-- A deck job: waiting for the gate's answer, or running under a handle. -/
structure Job where
  tag    : Nat
  kind   : JobKind
  handle : Option Nat
deriving DecidableEq, Repr

/-- A search sweep (R133, R138): the answered chords' present piers and reports, each pier's order, and the present piers
of the chord under way. -/
structure Sweep where
  chords  : List (Nat × List (List Byte))
  orders  : List (List Nat)
  present : Nat
deriving DecidableEq, Repr

/-- The span service (R43 to R73, R138). -/
structure SpanState where
  bays   : Vector Span 64
  tokens : Vector (Option Token) 64
  /-- NOT_AFTER of each bay's last token of the previous boot, 0 for none to reckon with (R454). -/
  oldNotAfter : Vector Nat 64
  stops  : Vector (Option StopReq) 64
  /-- The last report of each bay's dispenser: REPORT and COUNTER (R424). -/
  reports : Vector (Option (Nat × Nat)) 64
  retry  : Vector Nat 64
  queue  : List QEntry
  drops  : Nat
  merged : Nat
  lastId : Nat
  jobs   : List Job
  nextTag : Nat
  sweep  : Option Sweep
  /-- Frames owed once their journal record is durable, in record order. -/
  rebuilt : Bool
  prox   : Vector ProxRes 64
  auth   : Vector (Option AuthJob) 64
deriving DecidableEq, Repr

/-! ## The toll gate (03_toll_gate.md) -/

/-- A reservation of one stage: its first frame, its frames, and its demand on the sixteen resources (R79). -/
structure Resv where
  handle : Nat
  cls    : Nat
  first  : Nat
  frames : Nat
  demand : Vector Nat 16
deriving DecidableEq, Repr

/-- A bearing stage's latched budget, jobs and demand (R85). -/
structure Bearing where
  bay    : Nat
  handle : Nat
  cls    : Nat
  stage  : Nat
  budget : Nat
  jobs   : Nat
  demand : Vector Nat 16
deriving DecidableEq, Repr

/-- An answer in DECK.TOLL_ANS (R99). -/
structure TollAnswer where
  status : Status
  tag    : Nat
  handle : Nat
  first  : Nat
  last   : Nat
  time   : Nat
deriving DecidableEq, Repr

/-- The toll gate (R74 to R99). -/
structure TollState where
  reqs     : List Nat
  answers  : List TollAnswer
  resvs    : List Resv
  bearings : List Bearing
  handles  : List Nat
  parking  : Option Nat
  /-- The frame the gate last opened. -/
  frame    : Nat
  refused  : Nat
  missed   : Nat
deriving DecidableEq, Repr

/-! ## LINK and the ring (15_cascade.md, 16_host_and_field_ports.md) -/

/-- A message being reassembled (R419). -/
structure Reasm where
  mac   : Nat
  msg   : Nat
  next  : Nat
  data  : List Byte
  since : Nat
deriving DecidableEq, Repr

/-- A frame LINK holds for the deck while the deck is not in RUN (R388). -/
inductive FieldFrame where
  | meter (bay : Nat) (reply : MeterReply)
  | report (bay report code counter : Nat)
deriving DecidableEq, Repr

/-- Something the device has put on a wire or on the air, in order. (DESIGN CHOICE, log entry 13.) -/
inductive Sent where
  | frame (f : Frame)
  | sync (up : Bool) (siteNs mhops : Nat)
  | pdelayReq (up : Bool) (t1 : Nat)
  | pdelayResp (up : Bool) (t2 t3 : Nat)
  | ring (up : Bool) (typ : Nat) (f : RingFrame)
  | meterLatch (stamp : Nat)
  | meterRead (addr : Nat)
  | disp (addr typ : Nat) (payload : List Byte)
  | packet (ch aerial : Nat) (bytes : List Byte)
  /-- What an SPI transaction returned: SPI_STAT, and the bytes clocked out after it (R418). -/
  | spi (stat : Nat) (bytes : List Byte)
deriving DecidableEq, Repr

/-- LINK's host and field ports (R414 to R426). -/
structure LinkState where
  seqNext : Nat
  queued  : List Frame
  sentCount : Nat
  /-- The last 8 accepted SEQs, newest first, with the status of the first answer once given (R416). -/
  seqs    : List (Nat × Option Status)
  waiting : List HostReq
  lastMac : Option Nat
  reasm   : List Reasm
  dropped : Nat
  bad     : Nat
  ethBusy : Bool
  mdio    : Option Bool
  /-- Meter and dispenser bus: the bay whose reply window runs. -/
  mRead   : Option Nat
  dPoll   : Option Nat
  dBusy   : Bool
  mTimeout : Nat
  dNoReply : Nat
  lastBeacon : Option Nat
  polled  : Vector Nat 64
  held    : List FieldFrame
  heldLost : Nat
  resync  : Bool
  lost    : Nat
deriving DecidableEq, Repr

/-- One ring port (R395, R403). -/
structure Port where
  up     : Bool
  delay  : Int
  mhops  : Nat
  t1     : Option Nat
deriving DecidableEq, Repr

/-- A ring frame held for a neighbour whose link is down (R401). -/
structure HeldRing where
  toUp  : Bool
  frame : RingFrame
  since : Nat
deriving DecidableEq, Repr

/-- The cascade (R394 to R413). -/
structure ZwState where
  upPort   : Port
  downPort : Port
  conflict : Bool
  synced   : Bool
  everSynced : Bool
  hops     : Nat
  ofs      : Int
  good     : Nat
  lastSync : Option Nat
  followUp : Bool
  held     : List HeldRing
  seq      : Nat
  lastSeq  : Vector (Option Nat) 16
  partialMsg : Option (Nat × Nat × List Byte)
  crc      : Nat
  downs    : Nat
  heldDrop : Nat
deriving DecidableEq, Repr

/-! ## The state -/

/-- The state of the block. -/
structure State where
  time   : TimeState
  via    : ViaState
  cores  : Vector Core 14
  power  : PowerState
  park   : ParkState
  therm  : ThermState
  par    : ParapetState
  perf   : Vector PerfState 14
  dump   : DumpState
  freeze : FreezeState
  mon    : MonState
  boot   : BootState
  store  : StoreState
  lf     : LfState
  rf     : RfState
  psr    : PsrState
  cipher : CipherState
  rng    : RngState
  signer : SignerState
  span   : SpanState
  toll   : TollState
  link   : LinkState
  zw     : ZwState
  /-- Register fields the device stores as written, by viaduct address (R9, R12, R13). -/
  cfg     : SMap Nat
  /-- The values of the S fields in effect, by viaduct address (R13). -/
  latched : SMap Nat
  /-- HI words latched for an initiator by its read of LO, and LO words latched by a write, keyed initiator × 2^32 +
  address (R29, R431). -/
  shadow  : SMap Nat
  wshadow : SMap Nat
  mem     : Memory
  /-- What the device has put on its wires and on the air, oldest first. -/
  sent    : List Sent
  /-- The commands that wait, first in first out (the model's own). -/
  pending : List Instr
  /-- How many open values have been used (the model's own). -/
  free    : Nat
deriving DecidableEq, Repr

/-! ## Reset (R449) -/

/-- Device time right after AON reset (R27): zero, counted from the crystal. -/
def TimeState.reset : TimeState where
  us := 0
  frac := 0
  toStep := 48
  src := .crystal
  xtal32Failed := false
  copies := Vector.replicate 14 0

/-- The viaduct after AON reset. -/
def ViaState.reset : ViaState where
  inbox := Vector.replicate 14 []
  held := Vector.replicate 14 []
  txns := Vector.replicate 14 []
  resp := Vector.replicate 14 ⟨[], 0⟩
  werr := Vector.replicate 14 false
  werrAddr := Vector.replicate 14 0
  offCount := 0
  offAddr := 0
  offSrc := 0

/-- The power controller after AON reset: only AON runs; levels P3, RF at P1 (R367). -/
def PowerState.reset : PowerState where
  st := (Vector.replicate 14 PState.off).set 0 .run
  level := (Vector.replicate 14 3).set 3 1
  queue := []
  serving := none
  results := []
  query := Vector.replicate 14 ⟨0, 0, 0, .idle⟩
  raising := Vector.replicate 14 none

/-- PARK after AON reset. -/
def ParkState.reset : ParkState where
  phase := .idle
  last := 0
  refuser := 0
  reason := 0
  first := 0
  entries := 0
  aborts := 0
  wakePend := 0
  wakeLast := 0
  wakeTime := 0
  woken := false
  alarm := none
  pingBay := none
  wurxSite := none
  freezeAtResume := false

/-- The governor after AON reset: BUDGET is 0 until its first publication (R99). -/
def ThermState.reset : ThermState := ⟨0, 0, false, 0⟩

/-- The parapet after AON reset. -/
def ParapetState.reset : ParapetState where
  pend := 0
  log := []
  reversed := false
  reversalCell := false
  uvVin := false
  uvVinlf := false
  ov := false
  vin := 0
  hotLogic := false
  hotHv := false
  thermalStop := false
  clockStop := false
  mFault := 0
  dFault := 0
  eccCorr := 0
  eccUncorr := 0
  viaParity := 0
  viaTimeout := 0
  rstIsland := 0
  rstCause := 0
  rstCount := 0
  rstLimit := 0
  rstTimes := Vector.replicate 14 []
  rstQueue := []
  restarting := none

/-- One island's counters after AON reset. -/
def PerfState.reset : PerfState := ⟨0, Vector.replicate 8 0, 0, 0, Vector.replicate 8 0, 0⟩

/-- The dump engine after AON reset. -/
def DumpState.reset : DumpState := ⟨0, 0, 0, false, 0, 0⟩

/-- The monitor after AON reset. -/
def MonState.reset : MonState := ⟨false, none, 0, 0, 0, 0, []⟩

/-- The boot ROM after a power-on reset with straps 0 (R449, R462). (DESIGN CHOICE, log entry 5.) -/
def BootState.reset : BootState where
  stage := .rom
  bank := 0
  fallback := false
  session := none
  cause := 0
  lcLast := 0
  submitAt := none
  strapId := 0
  strapBoot := 0
  strapTest := false
  digest := []
  imageVersion := 0
  claiming := none
  wait := .start

/-- A ledger with nothing in it. (DESIGN CHOICE, log entry 5.) -/
def Ledger.blank : Ledger where
  generation := 0
  spanHwm := 0
  claimCount := 0
  bootCount := 0
  policySet := 0
  credArea := 0
  credValid := false
  imageBank := 0
  lifecycle := 0
  tailSeq := 0
  tailChain := List.replicate 32 0
  ackSeq := 0
  arcSeq := 0
  policyVersion := 0
  credVersion := 0
  credSeed := 0
  tsBoot := 0
  tsUtc := 0
  tsDevice := 0
  tsCount := 0
  hwm := Vector.replicate 72 0

/-- STORE before its first start. (DESIGN CHOICE, log entry 5.) -/
def StoreState.reset : StoreState where
  taken := false
  bank := 0
  ledger := Ledger.blank
  fault := false
  changes := []
  write := none
  head := 0
  chain := List.replicate 32 0
  ready := false
  queue := []
  opened := false
  sigOwed := none
  gaps := 0
  archiving := false
  fitted := 256
  flash := .absent
  flashLast := 0
  timeouts := 0
  flashOp := none
  arcFloor := 0
  update := none
  erasing := false
  lookups := []
  cache := []
  imgOpen := false
  imgBusy := false
  imgDone := false
  imgStatus := 0
  imgDigest := List.replicate 32 0

/-- The LF array after AON reset: every aerial UNTESTED (R123). -/
def LfState.reset : LfState where
  piers := Vector.replicate 8 Pier.reset
  aerials := Vector.replicate 64 ⟨3, 0⟩
  engine := Vector.replicate 8 PingGroup.reset
  pingEvent := 0
  detuned := Vector.replicate 64 none
  released := Vector.replicate 8 false

/-- The radio after AON reset: OFF, every aerial UNTESTED (R157, R183). -/
def RfState.reset : RfState where
  mode := .off
  phase := .idle
  cur := none
  held := none
  ch := 0
  locked := false
  rfsel := 0
  last := 0
  earned := 0
  cal := []
  air := []
  rxLen := 0
  rxRssi := 0
  rxStatus := 0
  rxAerial := 0
  rxTime := 0
  req := false
  pri := false
  gnt := false
  denied := 0
  preempted := 0
  ants := Vector.replicate 4 ⟨3, 0⟩
  reflMag := 0
  reflShort := false
  reflAerial := 0
  reflValid := false
  event := 0
  listen := none
  wurxHello := 0
  wurxBad := 0
  wurxSite := 0
  wurxTyp := 0

/-- The ranging unit after AON reset. -/
def PsrState.reset : PsrState where
  busy := false
  leg := 0
  last := 0
  owed := false
  bay := 0
  tag := 0
  s := Vector.replicate 4 0
  q := Vector.replicate 4 0
  snr := Vector.replicate 4 0
  t4mt1 := 0
  t4 := 0
  pong := none
  result := none

/-- A bay with no verdict: distances 0xFFFF (R208). -/
def ProxRes.reset : ProxRes := ⟨0, 0, 0, 0, Vector.replicate 4 0xFFFF, 0, 0⟩

/-- A descriptor of zeros. -/
def Desc.zero : Desc := ⟨0, 0, 0, 0, 0, 0, 0, 0, 0, 0, 0, 0, 0⟩

/-- A FREE context. -/
def Ctx.reset : Ctx := ⟨.free, .keys, Desc.zero, none, false, 0, 0, false, none, 0, false, 0⟩

/-- The cipher engine after AON reset. -/
def CipherState.reset : CipherState where
  slots := Vector.replicate 96 Slot.reset
  ctx := Vector.replicate 2 Ctx.reset
  lock := none
  waitKeys := false
  waitStore := false
  lastServed := .store
  pendingStart := none
  expiring := false
  event := 0
  caissons := Vector.replicate 4 ⟨false, false, false, 0, none⟩

/-- The RNG after AON reset. -/
def RngState.reset : RngState where
  running := false
  st := .unseeded
  phase := .warmup
  fails := 0
  drbg := none
  served := 0
  reseed := false
  fifo := []
  waits := Vector.replicate 3 none
  ends := Vector.replicate 3 none
  event := 0
  failures := 0
  reseeds := 0

/-- The signer after AON reset: every slot empty. -/
def SignerState.reset : SignerState := ⟨Vector.replicate 4 none, none, 0, false⟩

/-- The span service after AON reset. -/
def SpanState.reset : SpanState where
  bays := Vector.replicate 64 Span.reset
  tokens := Vector.replicate 64 none
  oldNotAfter := Vector.replicate 64 0
  stops := Vector.replicate 64 none
  reports := Vector.replicate 64 none
  retry := Vector.replicate 64 0
  queue := []
  drops := 0
  merged := 0
  lastId := 0
  jobs := []
  nextTag := 0
  sweep := none
  rebuilt := false
  prox := Vector.replicate 64 ProxRes.reset
  auth := Vector.replicate 64 none

/-- The toll gate after AON reset: the calendar is empty. -/
def TollState.reset : TollState := ⟨[], [], [], [], [], none, 0, 0, 0⟩

/-- LINK after AON reset. -/
def LinkState.reset : LinkState where
  seqNext := 0
  queued := []
  sentCount := 0
  seqs := []
  waiting := []
  lastMac := none
  reasm := []
  dropped := 0
  bad := 0
  ethBusy := false
  mdio := none
  mRead := none
  dPoll := none
  dBusy := false
  mTimeout := 0
  dNoReply := 0
  lastBeacon := none
  polled := Vector.replicate 64 0
  held := []
  heldLost := 0
  resync := false
  lost := 0

/-- The cascade after AON reset: both links down. -/
def ZwState.reset : ZwState where
  upPort := ⟨false, 0, 255, none⟩
  downPort := ⟨false, 0, 255, none⟩
  conflict := false
  synced := false
  everSynced := false
  hops := 0
  ofs := 0
  good := 0
  lastSync := none
  followUp := false
  held := []
  seq := 0
  lastSeq := Vector.replicate 16 none
  partialMsg := none
  crc := 0
  downs := 0
  heldDrop := 0

/-- The machine right after AON reset (R449): AON runs, every other island is off, and no memory byte differs from what
unwritten memory reads as. (DESIGN CHOICE, log entry 4; DESIGN CHOICE, log entry 5.) -/
def State.reset : State where
  time := TimeState.reset
  via := ViaState.reset
  cores := Vector.replicate 14 Core.reset
  power := PowerState.reset
  park := ParkState.reset
  therm := ThermState.reset
  par := ParapetState.reset
  perf := Vector.replicate 14 PerfState.reset
  dump := DumpState.reset
  freeze := ⟨false, false, false, 0⟩
  mon := MonState.reset
  boot := BootState.reset
  store := StoreState.reset
  lf := LfState.reset
  rf := RfState.reset
  psr := PsrState.reset
  cipher := CipherState.reset
  rng := RngState.reset
  signer := SignerState.reset
  span := SpanState.reset
  toll := TollState.reset
  link := LinkState.reset
  zw := ZwState.reset
  cfg := []
  latched := []
  shadow := []
  wshadow := []
  mem := []
  sent := []
  pending := []
  free := 0

end Sys2Proof.Machine
end

