-- ==== Sys2Proof/Machine/Flags.lean ====
section
/-! DEFINITION. The fielded special registers of a core as words (R304): sflags, smask, sstat, sbank and sid, and the
division flag. -/

namespace Sys2Proof.Machine

/-- sflags: IE, PIE, IT, LATE, DZ, PBANK in bits 0 to 5. -/
def Core.sflags (k : Core) : Word :=
  BitVec.ofNat 32 (b2n k.ie + 2 * b2n k.pie + 4 * b2n k.it + 8 * b2n k.late + 16 * b2n k.dz + 32 * b2n k.pbank)

/-- A wrs to sflags. -/
def Core.setSflags (k : Core) (w : Word) : Core :=
  { k with ie := w.getLsbD 0, pie := w.getLsbD 1, it := w.getLsbD 2, late := w.getLsbD 3, dz := w.getLsbD 4, pbank := w.getLsbD 5 }

/-- smask: LINES in [15:0], ST in bit 16. -/
def Core.smask (k : Core) : Word := BitVec.ofNat 32 (k.maskLines.toNat + 65536 * b2n k.maskSt)

/-- A wrs to smask. -/
def Core.setSmask (k : Core) (w : Word) : Core := { k with maskLines := w.setWidth 16, maskSt := w.getLsbD 16 }

/-- sstat with `out` transactions outstanding. -/
def Core.sstat (k : Core) (out : Nat) : Word :=
  BitVec.ofNat 32 (k.statLast.toNat + 256 * k.statFirst.toNat + 65536 * out)

/-- The status of an access that completed, recorded in sstat (R311). -/
def Core.recordStatus (k : Core) (st : Status) : Core :=
  { k with statLast := st, statFirst := if k.statFirst = 0 then st else k.statFirst }

/-- sid of the core of island c: ISLAND, VARIANT and VERSION. -/
def sidWord (c : Nat) : Word :=
  BitVec.ofNat 32 (c + 16 * (if c = 1 then 0 else if c = 2 then 1 else 2) + 256)

/-- DZ after a division: set by a zero divisor or a signed overflow, otherwise unchanged (R317). -/
def divFlag (signed : Bool) (a b : Word) (dz : Bool) : Bool :=
  dz || b == 0 || (signed && a == 0x80000000 && b == 0xFFFFFFFF)

end Sys2Proof.Machine
end

