-- ==== Sys2Proof/Machine/SMap.lean ====
section
/-! DEFINITION. Sparse maps and vectors: reading with a default and writing in canonical form, by structural recursion. -/

namespace Sys2Proof.Machine

/-- What the map holds at key `k`, or the default `d`. -/
def SMap.get {α : Type} (d : α) (k : Nat) : SMap α → α
  | [] => d
  | (k', v) :: m => if k' = k then v else if k < k' then d else SMap.get d k m

/-- The map with `v` at key `k`, where `d` is the key's default: an entry equal to its default is left out. -/
def SMap.set {α : Type} [DecidableEq α] (d : α) (k : Nat) (v : α) : SMap α → SMap α
  | [] => if v = d then [] else [(k, v)]
  | (k', v') :: m =>
    if k' = k then (if v = d then m else (k, v) :: m)
    else if k < k' then (if v = d then (k', v') :: m else (k, v) :: (k', v') :: m)
    else (k', v') :: SMap.set d k v m

/-- The map without the keys from `lo` to below `hi`. -/
def SMap.clearRange {α : Type} (lo hi : Nat) (m : SMap α) : SMap α := m.filter (fun e => decide (e.1 < lo ∨ hi ≤ e.1))

/-- The vector's entry, or `d` beyond its end. -/
def vget {α : Type} {n : Nat} (d : α) (v : Vector α n) (i : Nat) : α := (v[i]?).getD d

/-- The vector with entry `i` replaced, unchanged where there is none. -/
def vset {α : Type} {n : Nat} (v : Vector α n) (i : Nat) (x : α) : Vector α n := v.setIfInBounds i x

end Sys2Proof.Machine
end

