-- ==== Sys2Proof/Machine/RegMap.lean ====
section
/-! DEFINITION. The register map: every register of the spec's register tables, where it lies in its island's window, and
for the fields whose written value the device stores, their change classes and reset values (R9 to R12). -/

namespace Sys2Proof.Machine

/-- The registers, one name per register table row of the spec (an array is one name with an index). -/
inductive Reg where
  | cfgStatus | cfgWerrAddr | coreCtrl | coreEntry | wdog | wdogKick | offAccessCount | offAccessAddr | offAccessSrc 
  | islandState | dtimeLo | dtimeHi | pingCtrl | pingThr | pingMask | pingEvent | pingPbase | pingRbase | wurxCfg 
  | wurxSite | wurxCount | wurxLast | pwrCmd | pwrRes | islandLevel | resumeMask | resumeLvl | pwrQuery | pwrReply 
  | parkCtrl | wakeEn | wakePend | wakeLast | parkWakeLo | parkWakeHi | alarmLo | alarmHi | parkCount | thermCfg 
  | thermStatus | parapetPend | parapetFaultEn | parapetLog | parapetLogTime | restart | rstCause | rstLimit 
  | eccCount | viaCount | supplyStatus | dumpPeriod | monCfg | monStatus | bootStatus | lcCtrl | lcBuf | spanCtrl 
  | spanStatus | spanQueueDrop | spanMerged | spanLastId | spanBayState | spanBayId | spanBayNaLo | spanBayNaHi 
  | tollCtrl | tollFloor | tollBuscap | tollLfi | tollLfe | tollReqR | tollAns | tollAnsX | tollAnsTime | tollCancelR 
  | tollCount | tollPeek | tollClass | proxRes | proxDist01 | proxDist23 | proxRtt | dumpCfg | dumpBase | dumpLen 
  | dumpWptr | dumpRptr | dumpStatus | dumpCount | cipherLock | cipherHold | cipherCmd | cipherRes | cipherEvent 
  | slotCtrl | ctrResv | caissonBase | caissonLen | caissonCtrl | caissonWritten | rngCtrl | rngStatus | rngData 
  | rngHealth | rngEvent | rngCount | rngPers | rngPersLen | signCmd | signRes | signKeyInfo | slotInfo | slotCtrLo 
  | slotCtrHi | slotKeyId | rfCtrl | rfCmd | rfStatus | autoReturn | synthCfg | calValid | bfp | bfpAa | rxWin 
  | txPtr | rxPtr | rxInfo | rxTimeLo | rxTimeHi | pwrMax | pwrTable | coexCfg | coexPeriod | coexWin | coexPhase 
  | coexWait | coexCount | antState | antClrR | reflThr | reflLast | rfEvent | psrCtrl | psrStatus | ledgerStatus 
  | ledgerGenLo | ledgerGenHi | jrnStatus | jrnHeadLo | jrnHeadHi | jrnAckLo | jrnAckHi | jrnGapCount | flashStatus 
  | credStatus | imgCtrl | imgDigest | hostCfg | hostStatus | hostCount | seqNext | ethType | ethMacLo | ethMacHi 
  | mdio | mbusCfg | mbusDiv | mbusReg | dbusCfg | dbusDiv | dbusBeacon | busStatus | busCount | zwCfg | zwStatus 
  | zwTurn | siteOfsLo | siteOfsHi | siteTimeLo | siteTimeHi | zwCount | lfCtrl | lfFreq | lfDrive | lfMod | lfCmd 
  | lfLen | lfStatus | lfTxd | lfRxd | lfIq | lfPing | lfPthr | lfTuneF | lfTuneQ | lfAer | lfAerClrR | lfEvent | chordCfg 
  | chordT0Lo | chordT0Hi | perfCtrl | perfOvf | perfSel | cycLo | cycHi | pmcLo | pmcHi | snapOvf | snapCycLo 
  | snapCycHi | snapPmcLo | snapPmcHi 
deriving DecidableEq, Repr

/-- Which islands have a register: every one, those with a loadable core, the piers, or one island. -/
inductive RegOwner where
  | every | cores | piers
  | only (i : Nat)
deriving DecidableEq, Repr

/-- One register of the map: `rw` the bits the device stores as written, of these `h` the H and `s` the S fields, and
`reset` their value at reset. Bits outside `rw` are held in the state of their block. -/
structure RegRow where
  reg    : Reg
  owner  : RegOwner
  off    : Nat
  stride : Nat
  count  : Nat
  rw     : Nat
  h      : Nat
  s      : Nat
  reset  : Nat
deriving DecidableEq, Repr


/-- The registers that every island or every core island holds (R16, R333, R393, R437). -/
def everyRows : List RegRow := [
  ⟨.cfgStatus, .every, 0, 4, 1, 0, 0, 0, 0⟩,
  ⟨.cfgWerrAddr, .every, 0x4, 4, 1, 0, 0, 0, 0⟩,
  ⟨.coreCtrl, .cores, 0x40, 4, 1, 0, 0, 0, 0⟩,
  ⟨.coreEntry, .cores, 0x44, 4, 1, 0, 0, 0, 0⟩,
  ⟨.wdog, .cores, 0x48, 4, 1, 0xFFFFFF, 0, 0, 0⟩,
  ⟨.wdogKick, .cores, 0x4C, 4, 1, 0, 0, 0, 0⟩,
  ⟨.perfCtrl, .every, 0xF0000, 4, 1, 0x1FFFF, 0, 0, 0x1⟩,
  ⟨.perfOvf, .every, 0xF0004, 4, 1, 0, 0, 0, 0⟩,
  ⟨.perfSel, .every, 0xF0010, 4, 8, 0x3FF, 0, 0, 0⟩,
  ⟨.cycLo, .every, 0xF0040, 4, 1, 0, 0, 0, 0⟩,
  ⟨.cycHi, .every, 0xF0044, 4, 1, 0, 0, 0, 0⟩,
  ⟨.pmcLo, .every, 0xF0050, 8, 8, 0, 0, 0, 0⟩,
  ⟨.pmcHi, .every, 0xF0054, 8, 8, 0, 0, 0, 0⟩,
  ⟨.snapOvf, .every, 0xF0104, 4, 1, 0, 0, 0, 0⟩,
  ⟨.snapCycLo, .every, 0xF0140, 4, 1, 0, 0, 0, 0⟩,
  ⟨.snapCycHi, .every, 0xF0144, 4, 1, 0, 0, 0, 0⟩,
  ⟨.snapPmcLo, .every, 0xF0150, 8, 8, 0, 0, 0, 0⟩,
  ⟨.snapPmcHi, .every, 0xF0154, 8, 8, 0, 0, 0, 0⟩]

/-- The AON (R29, R39, R40, R125, R186, R367, R368, R392, R438, R448, R462). -/
def aonRows : List RegRow := [
  ⟨.offAccessCount, .only 0, 0x10, 4, 1, 0, 0, 0, 0⟩,
  ⟨.offAccessAddr, .only 0, 0x14, 4, 1, 0, 0, 0, 0⟩,
  ⟨.offAccessSrc, .only 0, 0x18, 4, 1, 0, 0, 0, 0⟩,
  ⟨.islandState, .only 0, 0x20, 4, 1, 0, 0, 0, 0⟩,
  ⟨.dtimeLo, .only 0, 0x28, 4, 1, 0, 0, 0, 0⟩,
  ⟨.dtimeHi, .only 0, 0x2C, 4, 1, 0, 0, 0, 0⟩,
  ⟨.pingCtrl, .only 0, 0x400, 4, 1, 0xFFFFFD, 0xFC, 0x3FFF00, 0x420481⟩,
  ⟨.pingThr, .only 0, 0x404, 4, 1, 0x7FFFF, 0, 0, 0x40C10⟩,
  ⟨.pingMask, .only 0, 0x408, 4, 2, 0xFFFFFFFF, 0, 0, 0xFFFFFFFF⟩,
  ⟨.pingEvent, .only 0, 0x410, 4, 2, 0, 0, 0, 0⟩,
  ⟨.pingPbase, .only 0, 0x500, 4, 64, 0x801FFFFF, 0, 0, 0⟩,
  ⟨.pingRbase, .only 0, 0x600, 4, 64, 0x801FFFFF, 0, 0, 0⟩,
  ⟨.wurxCfg, .only 0, 0x700, 4, 1, 0x1FF, 0xFE, 0, 0x51⟩,
  ⟨.wurxSite, .only 0, 0x704, 4, 1, 0xFFFFFF, 0, 0, 0⟩,
  ⟨.wurxCount, .only 0, 0x708, 4, 1, 0, 0, 0, 0⟩,
  ⟨.wurxLast, .only 0, 0x70C, 4, 1, 0, 0, 0, 0⟩,
  ⟨.pwrCmd, .only 0, 0x800, 4, 1, 0, 0, 0, 0⟩,
  ⟨.pwrRes, .only 0, 0x804, 4, 1, 0, 0, 0, 0⟩,
  ⟨.islandLevel, .only 0, 0x808, 4, 1, 0, 0, 0, 0⟩,
  ⟨.resumeMask, .only 0, 0x80C, 4, 1, 0x3FFC, 0, 0, 0⟩,
  ⟨.resumeLvl, .only 0, 0x810, 4, 1, 0xFFFFFFC, 0, 0, 0xFFFFF7C⟩,
  ⟨.pwrQuery, .only 0, 0x814, 4, 1, 0, 0, 0, 0⟩,
  ⟨.pwrReply, .only 0, 0x818, 4, 1, 0, 0, 0, 0⟩,
  ⟨.parkCtrl, .only 0, 0x820, 4, 1, 0, 0, 0, 0⟩,
  ⟨.wakeEn, .only 0, 0x824, 4, 1, 0x4F, 0, 0, 0x4F⟩,
  ⟨.wakePend, .only 0, 0x828, 4, 1, 0, 0, 0, 0⟩,
  ⟨.wakeLast, .only 0, 0x82C, 4, 1, 0, 0, 0, 0⟩,
  ⟨.parkWakeLo, .only 0, 0x830, 4, 1, 0, 0, 0, 0⟩,
  ⟨.parkWakeHi, .only 0, 0x834, 4, 1, 0, 0, 0, 0⟩,
  ⟨.alarmLo, .only 0, 0x838, 4, 1, 0xFFFFFFFF, 0, 0, 0xFFFFFFFF⟩,
  ⟨.alarmHi, .only 0, 0x83C, 4, 1, 0xFFFFFFFF, 0, 0, 0xFFFFFFFF⟩,
  ⟨.parkCount, .only 0, 0x840, 4, 1, 0, 0, 0, 0⟩,
  ⟨.thermCfg, .only 0, 0x850, 4, 1, 0xFFFFFFFF, 0, 0xFFFFFFFF, 0x694B0BB8⟩,
  ⟨.thermStatus, .only 0, 0x854, 4, 1, 0, 0, 0, 0⟩,
  ⟨.parapetPend, .only 0, 0x900, 4, 1, 0, 0, 0, 0⟩,
  ⟨.parapetFaultEn, .only 0, 0x904, 4, 1, 0x7FFF, 0, 0, 0x7FFF⟩,
  ⟨.parapetLog, .only 0, 0x908, 4, 1, 0, 0, 0, 0⟩,
  ⟨.parapetLogTime, .only 0, 0x90C, 4, 1, 0, 0, 0, 0⟩,
  ⟨.restart, .only 0, 0x910, 4, 1, 0, 0, 0, 0⟩,
  ⟨.rstCause, .only 0, 0x914, 4, 1, 0, 0, 0, 0⟩,
  ⟨.rstLimit, .only 0, 0x918, 4, 1, 0, 0, 0, 0⟩,
  ⟨.eccCount, .only 0, 0x91C, 4, 1, 0, 0, 0, 0⟩,
  ⟨.viaCount, .only 0, 0x920, 4, 1, 0, 0, 0, 0⟩,
  ⟨.supplyStatus, .only 0, 0x924, 4, 1, 0, 0, 0, 0⟩,
  ⟨.dumpPeriod, .only 0, 0xA00, 4, 1, 0xFFFFFF, 0, 0xFFFFFF, 0⟩,
  ⟨.monCfg, .only 0, 0xA10, 4, 1, 0x1FF, 0, 0x1FF, 0x1A1⟩,
  ⟨.monStatus, .only 0, 0xA14, 4, 1, 0, 0, 0, 0⟩,
  ⟨.bootStatus, .only 0, 0xB00, 4, 1, 0, 0, 0, 0⟩,
  ⟨.lcCtrl, .only 0, 0xB04, 4, 1, 0, 0, 0, 0⟩,
  ⟨.lcBuf, .only 0, 0xB40, 4, 64, 0xFFFFFFFF, 0, 0, 0⟩]

/-- The DECK (R73, R81, R99, R208, R438). -/
def deckRows : List RegRow := [
  ⟨.spanCtrl, .only 1, 0x100, 4, 1, 0xFFF3, 0, 0, 0x1F42⟩,
  ⟨.spanStatus, .only 1, 0x104, 4, 1, 0, 0, 0, 0⟩,
  ⟨.spanQueueDrop, .only 1, 0x108, 4, 1, 0, 0, 0, 0⟩,
  ⟨.spanMerged, .only 1, 0x10C, 4, 1, 0, 0, 0, 0⟩,
  ⟨.spanLastId, .only 1, 0x110, 4, 1, 0, 0, 0, 0⟩,
  ⟨.spanBayState, .only 1, 0x200, 16, 64, 0, 0, 0, 0⟩,
  ⟨.spanBayId, .only 1, 0x204, 16, 64, 0, 0, 0, 0⟩,
  ⟨.spanBayNaLo, .only 1, 0x208, 16, 64, 0, 0, 0, 0⟩,
  ⟨.spanBayNaHi, .only 1, 0x20C, 16, 64, 0, 0, 0, 0⟩,
  ⟨.tollCtrl, .only 1, 0x800, 4, 1, 0x1, 0, 0, 0⟩,
  ⟨.tollFloor, .only 1, 0x804, 4, 1, 0x7FF, 0, 0x7FF, 0x7FF⟩,
  ⟨.tollBuscap, .only 1, 0x808, 4, 1, 0xFFFFFF, 0, 0xFFFFFF, 0xC0000⟩,
  ⟨.tollLfi, .only 1, 0x80C, 4, 2, 0xFFFFFFFF, 0, 0xFFFFFFFF, 0xFAFAFAFA⟩,
  ⟨.tollLfe, .only 1, 0x814, 4, 1, 0, 0, 0, 0⟩,
  ⟨.tollReqR, .only 1, 0x820, 4, 1, 0, 0, 0, 0⟩,
  ⟨.tollAns, .only 1, 0x824, 4, 1, 0, 0, 0, 0⟩,
  ⟨.tollAnsX, .only 1, 0x828, 4, 1, 0, 0, 0, 0⟩,
  ⟨.tollAnsTime, .only 1, 0x82C, 4, 1, 0, 0, 0, 0⟩,
  ⟨.tollCancelR, .only 1, 0x830, 4, 1, 0, 0, 0, 0⟩,
  ⟨.tollCount, .only 1, 0x834, 4, 1, 0, 0, 0, 0⟩,
  ⟨.tollPeek, .only 1, 0x838, 4, 1, 0xFFFF, 0, 0, 0⟩,
  ⟨.tollClass, .only 1, 0x1000, 4, 1024, 0xFFFFFFFF, 0, 0xFFFFFFFF, 0⟩,
  ⟨.proxRes, .only 1, 0x2000, 16, 64, 0, 0, 0, 0⟩,
  ⟨.proxDist01, .only 1, 0x2004, 16, 64, 0, 0, 0, 0⟩,
  ⟨.proxDist23, .only 1, 0x2008, 16, 64, 0, 0, 0, 0⟩,
  ⟨.proxRtt, .only 1, 0x200C, 16, 64, 0, 0, 0, 0⟩,
  ⟨.dumpCfg, .only 1, 0x3000, 4, 1, 0x3FFF0003, 0x3FFF0002, 0, 0x3FFF0000⟩,
  ⟨.dumpBase, .only 1, 0x3004, 4, 1, 0xFFFC0, 0xFFFC0, 0, 0⟩,
  ⟨.dumpLen, .only 1, 0x3008, 4, 1, 0x7FFF, 0x7FFF, 0, 0x40⟩,
  ⟨.dumpWptr, .only 1, 0x300C, 4, 1, 0, 0, 0, 0⟩,
  ⟨.dumpRptr, .only 1, 0x3010, 4, 1, 0, 0, 0, 0⟩,
  ⟨.dumpStatus, .only 1, 0x3014, 4, 1, 0, 0, 0, 0⟩,
  ⟨.dumpCount, .only 1, 0x3018, 4, 1, 0, 0, 0, 0⟩]

/-- The KEYS (R240, R264). -/
def keysRows : List RegRow := [
  ⟨.cipherLock, .only 2, 0x100, 4, 1, 0, 0, 0, 0⟩,
  ⟨.cipherHold, .only 2, 0x104, 4, 1, 0xFFFF, 0, 0xFFFF, 0x100⟩,
  ⟨.cipherCmd, .only 2, 0x108, 4, 1, 0, 0, 0, 0⟩,
  ⟨.cipherRes, .only 2, 0x110, 4, 2, 0, 0, 0, 0⟩,
  ⟨.cipherEvent, .only 2, 0x118, 4, 1, 0, 0, 0, 0⟩,
  ⟨.slotCtrl, .only 2, 0x120, 4, 1, 0, 0, 0, 0⟩,
  ⟨.ctrResv, .only 2, 0x124, 4, 1, 0xFFFF, 0, 0, 0x400⟩,
  ⟨.caissonBase, .only 2, 0x200, 16, 4, 0xFF000, 0xFF000, 0, 0⟩,
  ⟨.caissonLen, .only 2, 0x204, 16, 4, 0x1FF, 0x1FF, 0, 0⟩,
  ⟨.caissonCtrl, .only 2, 0x208, 16, 4, 0, 0, 0, 0⟩,
  ⟨.caissonWritten, .only 2, 0x20C, 16, 4, 0, 0, 0, 0⟩,
  ⟨.rngCtrl, .only 2, 0x300, 4, 1, 0xFFFF01F9, 0x38, 0xFFFF01C0, 0x10000009⟩,
  ⟨.rngStatus, .only 2, 0x304, 4, 1, 0, 0, 0, 0⟩,
  ⟨.rngData, .only 2, 0x308, 4, 1, 0, 0, 0, 0⟩,
  ⟨.rngHealth, .only 2, 0x30C, 4, 1, 0x3FFFF, 0x3FFFF, 0, 0x31B29⟩,
  ⟨.rngEvent, .only 2, 0x310, 4, 1, 0, 0, 0, 0⟩,
  ⟨.rngCount, .only 2, 0x314, 4, 1, 0, 0, 0, 0⟩,
  ⟨.rngPers, .only 2, 0x320, 4, 12, 0xFFFFFFFF, 0, 0xFFFFFFFF, 0⟩,
  ⟨.rngPersLen, .only 2, 0x350, 4, 1, 0x3F, 0, 0x3F, 0⟩,
  ⟨.signCmd, .only 2, 0x400, 4, 1, 0, 0, 0, 0⟩,
  ⟨.signRes, .only 2, 0x404, 4, 1, 0, 0, 0, 0⟩,
  ⟨.signKeyInfo, .only 2, 0x410, 4, 4, 0, 0, 0, 0⟩,
  ⟨.slotInfo, .only 2, 0x1000, 16, 96, 0, 0, 0, 0⟩,
  ⟨.slotCtrLo, .only 2, 0x1004, 16, 96, 0, 0, 0, 0⟩,
  ⟨.slotCtrHi, .only 2, 0x1008, 16, 96, 0, 0, 0, 0⟩,
  ⟨.slotKeyId, .only 2, 0x100C, 16, 96, 0, 0, 0, 0⟩]

/-- The RF (R185, R207). -/
def rfRows : List RegRow := [
  ⟨.rfCtrl, .only 3, 0x100, 4, 1, 0x1, 0, 0, 0⟩,
  ⟨.rfCmd, .only 3, 0x104, 4, 1, 0, 0, 0, 0⟩,
  ⟨.rfStatus, .only 3, 0x108, 4, 1, 0, 0, 0, 0⟩,
  ⟨.autoReturn, .only 3, 0x10C, 4, 1, 0xF, 0, 0xF, 0⟩,
  ⟨.synthCfg, .only 3, 0x110, 4, 1, 0x3F, 0, 0, 0x10⟩,
  ⟨.calValid, .only 3, 0x114, 4, 3, 0, 0, 0, 0⟩,
  ⟨.bfp, .only 3, 0x120, 4, 1, 0xFF, 0xFF, 0, 0x1A⟩,
  ⟨.bfpAa, .only 3, 0x124, 4, 1, 0xFFFFFFFF, 0xFFFFFFFF, 0, 0x6E5A19C3⟩,
  ⟨.rxWin, .only 3, 0x128, 4, 1, 0xFFFF, 0, 0xFFFF, 0⟩,
  ⟨.txPtr, .only 3, 0x130, 4, 1, 0x7FFF, 0, 0x7FFF, 0⟩,
  ⟨.rxPtr, .only 3, 0x134, 4, 1, 0x7FFF, 0, 0x7FFF, 0⟩,
  ⟨.rxInfo, .only 3, 0x138, 4, 1, 0, 0, 0, 0⟩,
  ⟨.rxTimeLo, .only 3, 0x13C, 4, 1, 0, 0, 0, 0⟩,
  ⟨.rxTimeHi, .only 3, 0x140, 4, 1, 0, 0, 0, 0⟩,
  ⟨.pwrMax, .only 3, 0x144, 4, 1, 0x3F, 0, 0, 0x3C⟩,
  ⟨.pwrTable, .only 3, 0x200, 4, 64, 0xFFFFFF, 0, 0xFFFFFF, 0⟩,
  ⟨.coexCfg, .only 3, 0x300, 4, 1, 0xFF01, 0, 0xFF01, 0⟩,
  ⟨.coexPeriod, .only 3, 0x304, 4, 1, 0xFFFFF, 0, 0xFFFFF, 0⟩,
  ⟨.coexWin, .only 3, 0x308, 4, 1, 0xFFFFF, 0, 0xFFFFF, 0⟩,
  ⟨.coexPhase, .only 3, 0x30C, 4, 1, 0xFFFFF, 0, 0xFFFFF, 0⟩,
  ⟨.coexWait, .only 3, 0x310, 4, 1, 0xFFFF, 0, 0, 0x3E8⟩,
  ⟨.coexCount, .only 3, 0x314, 4, 1, 0, 0, 0, 0⟩,
  ⟨.antState, .only 3, 0x400, 4, 1, 0, 0, 0, 0⟩,
  ⟨.antClrR, .only 3, 0x404, 4, 1, 0, 0, 0, 0⟩,
  ⟨.reflThr, .only 3, 0x408, 4, 1, 0x3F, 0, 0, 0x20⟩,
  ⟨.reflLast, .only 3, 0x40C, 4, 1, 0, 0, 0, 0⟩,
  ⟨.rfEvent, .only 3, 0x410, 4, 1, 0, 0, 0, 0⟩,
  ⟨.psrCtrl, .only 3, 0x500, 4, 1, 0x3FFF3FFC, 0, 0x3FFF3FFC, 0x1410⟩,
  ⟨.psrStatus, .only 3, 0x504, 4, 1, 0, 0, 0, 0⟩]

/-- The STORE (R301, R339). -/
def storeRows : List RegRow := [
  ⟨.ledgerStatus, .only 4, 0x100, 4, 1, 0, 0, 0, 0⟩,
  ⟨.ledgerGenLo, .only 4, 0x104, 4, 1, 0, 0, 0, 0⟩,
  ⟨.ledgerGenHi, .only 4, 0x108, 4, 1, 0, 0, 0, 0⟩,
  ⟨.jrnStatus, .only 4, 0x110, 4, 1, 0, 0, 0, 0⟩,
  ⟨.jrnHeadLo, .only 4, 0x114, 4, 1, 0, 0, 0, 0⟩,
  ⟨.jrnHeadHi, .only 4, 0x118, 4, 1, 0, 0, 0, 0⟩,
  ⟨.jrnAckLo, .only 4, 0x11C, 4, 1, 0, 0, 0, 0⟩,
  ⟨.jrnAckHi, .only 4, 0x120, 4, 1, 0, 0, 0, 0⟩,
  ⟨.jrnGapCount, .only 4, 0x124, 4, 1, 0, 0, 0, 0⟩,
  ⟨.flashStatus, .only 4, 0x130, 4, 1, 0, 0, 0, 0⟩,
  ⟨.credStatus, .only 4, 0x140, 4, 1, 0, 0, 0, 0⟩,
  ⟨.imgCtrl, .only 4, 0x150, 4, 1, 0, 0, 0, 0⟩,
  ⟨.imgDigest, .only 4, 0x160, 4, 8, 0, 0, 0, 0⟩]

/-- The LINK (R413, R426). -/
def linkRows : List RegRow := [
  ⟨.hostCfg, .only 5, 0x100, 4, 1, 0x7, 0, 0, 0x1⟩,
  ⟨.hostStatus, .only 5, 0x104, 4, 1, 0, 0, 0, 0⟩,
  ⟨.hostCount, .only 5, 0x108, 4, 1, 0, 0, 0, 0⟩,
  ⟨.seqNext, .only 5, 0x10C, 4, 1, 0, 0, 0, 0⟩,
  ⟨.ethType, .only 5, 0x200, 4, 1, 0xFFFF, 0xFFFF, 0, 0x88B5⟩,
  ⟨.ethMacLo, .only 5, 0x204, 4, 1, 0xFFFFFFFF, 0xFFFFFFFF, 0, 0⟩,
  ⟨.ethMacHi, .only 5, 0x208, 4, 1, 0xFFFF, 0xFFFF, 0, 0⟩,
  ⟨.mdio, .only 5, 0x20C, 4, 1, 0x3FFFFFF, 0, 0, 0⟩,
  ⟨.mbusCfg, .only 5, 0x300, 4, 1, 0xFF07, 0xFF06, 0, 0x3200⟩,
  ⟨.mbusDiv, .only 5, 0x304, 4, 1, 0xFFFF, 0xFFFF, 0, 0x30⟩,
  ⟨.mbusReg, .only 5, 0x308, 4, 1, 0xFFFFFFFF, 0xFFFFFFFF, 0, 0x1000000⟩,
  ⟨.dbusCfg, .only 5, 0x400, 4, 1, 0x3FFFF01, 0x3FFFF00, 0, 0x641400⟩,
  ⟨.dbusDiv, .only 5, 0x404, 4, 1, 0xFFFF, 0xFFFF, 0, 0x30⟩,
  ⟨.dbusBeacon, .only 5, 0x408, 4, 1, 0x3FF, 0, 0x3FF, 0x1F4⟩,
  ⟨.busStatus, .only 5, 0x500, 4, 1, 0, 0, 0, 0⟩,
  ⟨.busCount, .only 5, 0x504, 4, 1, 0, 0, 0, 0⟩,
  ⟨.zwCfg, .only 5, 0x600, 4, 1, 0xF01, 0xF01, 0, 0⟩,
  ⟨.zwStatus, .only 5, 0x604, 4, 1, 0, 0, 0, 0⟩,
  ⟨.zwTurn, .only 5, 0x608, 4, 1, 0xFFFFF, 0, 0xFFFFF, 0x20000⟩,
  ⟨.siteOfsLo, .only 5, 0x610, 4, 1, 0, 0, 0, 0⟩,
  ⟨.siteOfsHi, .only 5, 0x614, 4, 1, 0, 0, 0, 0⟩,
  ⟨.siteTimeLo, .only 5, 0x618, 4, 1, 0, 0, 0, 0⟩,
  ⟨.siteTimeHi, .only 5, 0x61C, 4, 1, 0, 0, 0, 0⟩,
  ⟨.zwCount, .only 5, 0x620, 4, 1, 0, 0, 0, 0⟩]

/-- The PIERn (R124). -/
def pierRows : List RegRow := [
  ⟨.lfCtrl, .piers, 0x100, 4, 1, 0x1, 0, 0, 0⟩,
  ⟨.lfFreq, .piers, 0x104, 4, 1, 0x3FFFFF, 0x3FFFFF, 0, 0x1E8480⟩,
  ⟨.lfDrive, .piers, 0x108, 4, 1, 0x7FFFFF, 0, 0x7FFFFF, 0x48FA19⟩,
  ⟨.lfMod, .piers, 0x10C, 4, 1, 0x7, 0, 0x7, 0⟩,
  ⟨.lfCmd, .piers, 0x110, 4, 1, 0, 0, 0, 0⟩,
  ⟨.lfLen, .piers, 0x114, 4, 1, 0xFFFF, 0, 0xFFFF, 0⟩,
  ⟨.lfStatus, .piers, 0x118, 4, 1, 0, 0, 0, 0⟩,
  ⟨.lfTxd, .piers, 0x11C, 4, 1, 0, 0, 0, 0⟩,
  ⟨.lfRxd, .piers, 0x120, 4, 1, 0, 0, 0, 0⟩,
  ⟨.lfIq, .piers, 0x124, 4, 1, 0, 0, 0, 0⟩,
  ⟨.lfPing, .piers, 0x130, 4, 1, 0xFF03FFFD, 0, 0xFFFC, 0xFF010810⟩,
  ⟨.lfPthr, .piers, 0x134, 4, 1, 0x7FFFF, 0, 0, 0x40C10⟩,
  ⟨.lfTuneF, .piers, 0x140, 8, 8, 0, 0, 0, 0⟩,
  ⟨.lfTuneQ, .piers, 0x144, 8, 8, 0, 0, 0, 0⟩,
  ⟨.lfAer, .piers, 0x180, 4, 1, 0, 0, 0, 0⟩,
  ⟨.lfAerClrR, .piers, 0x184, 4, 1, 0, 0, 0, 0⟩,
  ⟨.lfEvent, .piers, 0x188, 4, 1, 0, 0, 0, 0⟩,
  ⟨.chordCfg, .piers, 0x190, 4, 1, 0x7, 0, 0x7, 0⟩,
  ⟨.chordT0Lo, .piers, 0x194, 4, 1, 0xFFFFFFFF, 0, 0xFFFFFFFF, 0⟩,
  ⟨.chordT0Hi, .piers, 0x198, 4, 1, 0xFFFFFFFF, 0, 0xFFFFFFFF, 0⟩]

/-- Whether island `i` has the registers of an owner. -/
def RegOwner.has (o : RegOwner) (i : Nat) : Bool :=
  match o with
  | .every => true
  | .cores => i == 1 || i == 2 || i == 3 || decide (6 ≤ i)
  | .piers => decide (6 ≤ i)
  | .only j => i == j

/-- The rows that can lie in island `i`'s window. -/
def rowsOf (i : Nat) : List RegRow :=
  everyRows ++ (match i with
    | 0 => aonRows | 1 => deckRows | 2 => keysRows | 3 => rfRows | 4 => storeRows | 5 => linkRows | _ => pierRows)

/-- Whether a word offset lies on an element of a row. -/
def RegRow.covers (r : RegRow) (off : Nat) : Bool :=
  decide (r.off ≤ off) && (off - r.off) % r.stride == 0 && decide ((off - r.off) / r.stride < r.count)

/-- The row and index of the register at a word offset of island `i`'s window, or none (R11). -/
def findReg (i off : Nat) : Option (RegRow × Nat) :=
  match (rowsOf i).find? (fun r => r.owner.has i && r.covers off) with
  | some r => some (r, (off - r.off) / r.stride)
  | none => none

/-- The row of a register. -/
def rowFor (i : Nat) (r : Reg) : RegRow :=
  ((rowsOf i).find? (fun x => x.reg == r)).getD ⟨r, .every, 0, 4, 1, 0, 0, 0, 0⟩

/-- An island's window base (R21). -/
def islandBase (i : Nat) : Nat := 0x40000000 + i * 0x01000000

/-- The viaduct address of element `k` of a register in island `i`'s window. -/
def regAddr (i : Nat) (r : Reg) (k : Nat) : Nat := islandBase i + (rowFor i r).off + (rowFor i r).stride * k

/-! ## Reset words of the arrays whose elements differ, and what a register stores -/

/-- A default stage of a toll class (R83): FRAMES, GAP_OR_BUDGET, PIERS, OWN_PIER, AIR, RF, CIPH, SIGN, MRAM, FLASH,
METER, DISP. -/
structure StageDef where
  frames : Nat
  gap : Nat
  piers : Nat
  own : Nat
  air : Nat
  rf : Nat
  ciph : Nat
  sign : Nat
  mram : Nat
  flash : Nat
  meter : Nat
  disp : Nat

/-- A default class (R82, R83): bearing, JOBS, DEADLINE, its range, and its stages. -/
structure ClassDef where
  bearing : Nat
  jobs : Nat
  deadline : Nat
  lo : Nat
  hi : Nat
  stages : List StageDef

/-- The predefined classes 0 to 15 (R82, R83). -/
def classDefs : List ClassDef := [
  ⟨0, 0, 40, 20, 200, [⟨12, 0, 255, 0, 1000, 0, 0, 0, 0, 0, 0, 0⟩, ⟨2, 0, 0, 0, 0, 800, 0, 0, 0, 0, 0, 0⟩]⟩,
  ⟨0, 0, 60, 20, 500, [⟨40, 0, 0, 1, 1000, 0, 0, 0, 0, 0, 0, 0⟩]⟩,
  ⟨0, 0, 5, 2, 50, [⟨1, 0, 0, 0, 0, 0, 0, 1, 1, 0, 0, 0⟩]⟩,
  ⟨0, 0, 200, 50, 1000, [⟨2, 0, 0, 0, 0, 700, 96, 0, 0, 0, 0, 0⟩, ⟨9, 0, 0, 0, 0, 900, 48, 0, 0, 0, 0, 0⟩,
    ⟨1, 0, 0, 0, 0, 0, 64, 4, 4, 1, 0, 0⟩]⟩,
  ⟨1, 1, 20, 20, 20, [⟨1, 20, 0, 0, 0, 0, 8, 1, 1, 0, 0, 64⟩]⟩,
  ⟨1, 2, 100, 100, 100, [⟨1, 60, 0, 0, 0, 0, 0, 0, 0, 0, 32, 0⟩, ⟨1, 40, 0, 0, 0, 0, 0, 1, 1, 0, 0, 0⟩]⟩,
  ⟨1, 1, 150, 150, 150, [⟨1, 50, 0, 0, 0, 0, 0, 62, 2, 0, 0, 0⟩]⟩,
  ⟨0, 0, 5, 2, 50, [⟨1, 0, 0, 0, 0, 0, 64, 0, 0, 1, 0, 0⟩]⟩,
  ⟨0, 0, 50, 20, 500, [⟨2, 0, 0, 0, 0, 700, 96, 0, 0, 0, 0, 0⟩, ⟨9, 0, 0, 0, 0, 900, 48, 0, 0, 0, 0, 0⟩]⟩,
  ⟨0, 0, 200, 100, 1000, [⟨80, 0, 0, 1, 1000, 0, 0, 0, 0, 0, 0, 0⟩]⟩,
  ⟨0, 0, 20, 5, 200, [⟨1, 0, 0, 0, 0, 0, 0, 62, 2, 0, 0, 0⟩]⟩,
  ⟨0, 0, 2000, 500, 2047, [⟨1, 0, 0, 0, 0, 0, 0, 110, 0, 0, 0, 0⟩, ⟨16, 0, 0, 0, 0, 0, 256, 0, 0, 10, 0, 0⟩]⟩,
  ⟨0, 0, 10, 10, 10, [⟨1, 0, 0, 0, 0, 0, 0, 0, 0, 0, 0, 0⟩]⟩,
  ⟨0, 0, 100, 30, 1000, [⟨20, 0, 0, 1, 1000, 0, 0, 0, 0, 0, 0, 0⟩]⟩,
  ⟨0, 0, 500, 100, 2000, [⟨4, 0, 0, 0, 0, 0, 0, 0, 0, 10, 0, 0⟩]⟩,
  ⟨0, 0, 100, 20, 1000, [⟨2, 0, 0, 0, 0, 0, 0, 130, 0, 0, 0, 0⟩]⟩]

/-- Word `w` (0 to 3) of a stage record (R81). -/
def StageDef.word (d : StageDef) : Nat → Nat
  | 0 => d.frames + 2 ^ 8 * d.gap + 2 ^ 16 * d.piers + 2 ^ 24 * d.own
  | 1 => d.air + 2 ^ 16 * d.rf
  | 2 => d.ciph + 2 ^ 16 * d.sign
  | _ => d.mram + 2 ^ 8 * d.flash + 2 ^ 16 * d.meter + 2 ^ 24 * d.disp

/-- Word `w` (0 to 31) of a class entry (R81). -/
def ClassDef.word (c : ClassDef) (w : Nat) : Nat :=
  if w = 0 then 1 + 2 * c.bearing + 2 ^ 8 * c.stages.length + 2 ^ 16 * c.deadline
  else if w = 1 then c.lo + 2 ^ 16 * c.hi
  else if w = 2 then c.jobs
  else if w = 3 then 0
  else match c.stages[(w - 4) / 4]? with
    | some d => d.word ((w - 4) % 4)
    | none => 0

/-- The NOMINAL field of power table entry i in 0.25 dBm, as a signed byte (R166). -/
def pwrNominal (i : Nat) : Nat :=
  if i ≤ 19 then (256 + 4 * i - 120) % 256 else if i ≤ 60 then (256 + 2 * (i - 20) - 40) % 256 else 40

/-- Element k of a register right after reset. -/
def resetWord (r : Reg) (row : RegRow) (k : Nat) : Nat :=
  match r with
  | .tollClass => match classDefs[k / 32]? with
    | some c => c.word (k % 32)
    | none => 0
  | .pwrTable => (Config.powerTrim k).toNat + 2 ^ 16 * pwrNominal k
  | _ => row.reset

/-- The bits of element k that a write may change: DEADLINE_MIN, DEADLINE_MAX and BEARING of classes 0 to 15 are
read-only (R81). -/
def writeMask (r : Reg) (row : RegRow) (k : Nat) : Nat :=
  if r = .tollClass ∧ k < 512 then (if k % 32 = 0 then 0xFFFFFFFD else if k % 32 = 1 then 0 else row.rw) else row.rw

/-- The word with `len` bits at `lo` replaced. -/
def setField (w lo len v : Nat) : Nat :=
  w % 2 ^ lo + (v % 2 ^ len) * 2 ^ lo + w / 2 ^ (lo + len) * 2 ^ (lo + len)

/-- A word with one field held between limits. -/
def clampField (w lo len a b : Nat) : Nat := setField w lo len (clampTo a b (bitsOf w lo len))

/-- The value a register stores for a written value: out-of-range fields take the values their tables name. -/
def storedWord (r : Reg) (w : Nat) : Nat :=
  match r with
  | .lfFreq => clampField w 0 22 1600000 2400000
  | .pingCtrl => clampField w 2 6 27 40
  | .ctrResv => clampField w 0 16 64 0xFFFF
  | .rngCtrl => if 4 ≤ bitsOf w 3 3 then setField w 3 3 1 else w
  | .rngHealth => clampField (clampField w 0 8 8 255) 8 10 513 1023
  | .rngPersLen => clampField w 0 6 0 48
  | .mbusCfg => clampField (if bitsOf w 1 2 = 3 then setField w 1 2 0 else w) 8 8 10 255
  | .mbusDiv => clampField w 0 16 48 0xFFFF
  | .dbusDiv => clampField w 0 16 12 0xFFFF
  | .dbusCfg => clampField (clampField w 8 8 2 255) 16 10 10 500
  | .dbusBeacon => clampField w 0 10 100 1000
  | .zwTurn => clampField w 12 8 20 255
  | .dumpPeriod => if 1 ≤ bitsOf w 0 24 then clampField w 0 24 10 10000000 else w
  | .dumpLen => clampField w 0 15 29 0x7FFF
  | .resumeLvl => if 2 ≤ bitsOf w 6 2 then setField w 6 2 1 else w
  | .thermCfg => clampField w 24 8 60 124
  | .monCfg => clampField w 0 9 16 417
  | _ => w


/-- The island, row and index of the register at a viaduct address, where a register window holds one (R11, R41). -/
def decodeReg (addr : Nat) : Option (Nat × RegRow × Nat) :=
  let isl := (addr - 0x40000000) / 0x01000000
  let off := (addr - 0x40000000) % 0x01000000
  if 0x40000000 ≤ addr ∧ isl < 14 ∧ off < 0x100000 then
    match findReg isl off with
    | some (row, k) => some (isl, row, k)
    | none => none
  else none

end Sys2Proof.Machine
end

