-- ==== Sys2Proof/Machine/Ops.lean ====
section
/-! DEFINITION. The named operations over the state: islands and cores, register fields, memory, messages, counters,
events and open values. -/

namespace Sys2Proof.Machine

/-! ## One block of the state updated -/

/-- The state with its viaduct updated. -/
def modVia (f : ViaState → ViaState) (s : State) : State := { s with via := f s.via }
/-- The state with its power controller updated. -/
def modPower (f : PowerState → PowerState) (s : State) : State := { s with power := f s.power }
/-- The state with PARK updated. -/
def modPark (f : ParkState → ParkState) (s : State) : State := { s with park := f s.park }
/-- The state with the governor updated. -/
def modTherm (f : ThermState → ThermState) (s : State) : State := { s with therm := f s.therm }
/-- The state with the parapet updated. -/
def modPar (f : ParapetState → ParapetState) (s : State) : State := { s with par := f s.par }
/-- The state with device time updated. -/
def modTime (f : TimeState → TimeState) (s : State) : State := { s with time := f s.time }
/-- The state with the dump engine updated. -/
def modDump (f : DumpState → DumpState) (s : State) : State := { s with dump := f s.dump }
/-- The state with the monitor updated. -/
def modMon (f : MonState → MonState) (s : State) : State := { s with mon := f s.mon }
/-- The state with the boot block updated. -/
def modBoot (f : BootState → BootState) (s : State) : State := { s with boot := f s.boot }
/-- The state with STORE updated. -/
def modStore (f : StoreState → StoreState) (s : State) : State := { s with store := f s.store }
/-- The state with the LF array updated. -/
def modLf (f : LfState → LfState) (s : State) : State := { s with lf := f s.lf }
/-- The state with the radio updated. -/
def modRf (f : RfState → RfState) (s : State) : State := { s with rf := f s.rf }
/-- The state with the ranging unit updated. -/
def modPsr (f : PsrState → PsrState) (s : State) : State := { s with psr := f s.psr }
/-- The state with the cipher engine updated. -/
def modCipher (f : CipherState → CipherState) (s : State) : State := { s with cipher := f s.cipher }
/-- The state with the RNG updated. -/
def modRng (f : RngState → RngState) (s : State) : State := { s with rng := f s.rng }
/-- The state with the signer updated. -/
def modSigner (f : SignerState → SignerState) (s : State) : State := { s with signer := f s.signer }
/-- The state with the span service updated. -/
def modSpan (f : SpanState → SpanState) (s : State) : State := { s with span := f s.span }
/-- The state with the toll gate updated. -/
def modToll (f : TollState → TollState) (s : State) : State := { s with toll := f s.toll }
/-- The state with LINK updated. -/
def modLink (f : LinkState → LinkState) (s : State) : State := { s with link := f s.link }
/-- The state with the cascade updated. -/
def modZw (f : ZwState → ZwState) (s : State) : State := { s with zw := f s.zw }

/-- Something leaves the device on a wire or on the air. (DESIGN CHOICE, log entry 13.) -/
def emit (x : Sent) (s : State) : State := { s with sent := s.sent ++ [x] }

/-! ## Open values -/

/-- The next value the spec leaves open. -/
def freeValue (s : State) : Nat := Config.freeValue s.free

/-- One open value has been used. (DESIGN CHOICE, log entry 7.) -/
def useFree (s : State) : State := { s with free := s.free + 1 }

/-! ## Islands -/

/-- An island's power state (R40); AON always runs. -/
def pstate (s : State) (i : Nat) : PState := if i = 0 then .run else vget .off s.power.st i

/-- Whether an island is in RUN. -/
def isRun (s : State) (i : Nat) : Bool := pstate s i == .run

/-- Whether an island runs and is not frozen (R35, R440). (DESIGN CHOICE, log entry 3.) -/
def canAct (s : State) (i : Nat) : Bool := isRun s i && (i == 0 || !s.freeze.frozen)

/-- The code of a power state (R40). -/
def pstateCode : PState → Nat
  | .off => 0
  | .starting => 1
  | .run => 2
  | .stopping => 3

/-- An island's power state replaced. -/
def setPState (i : Nat) (p : PState) (s : State) : State := modPower (fun w => { w with st := vset w.st i p }) s

/-- An island's performance level, or its start level while it is off (R367). -/
def getLevel (s : State) (i : Nat) : Nat := vget 3 s.power.level i

/-- The islands by ID. -/
def allIslands : List Nat := List.range 14

/-- The islands with a loadable core: DECK, KEYSTONE, RF and the piers (R331). -/
def hasCore (i : Nat) : Bool := i == 1 || i == 2 || i == 3 || (decide (6 ≤ i) && decide (i < 14))

/-- An island's device time (R28). -/
def localTime (s : State) (i : Nat) : Nat := if i = 0 then s.time.us else vget 0 s.time.copies i

/-! ## Cores -/

/-- Island i's core. -/
def getCore (s : State) (i : Nat) : Core := vget Core.reset s.cores i

/-- Island i's core replaced. -/
def setCore (i : Nat) (k : Core) (s : State) : State := { s with cores := vset s.cores i k }

/-- Island i's core updated. -/
def modCore (i : Nat) (f : Core → Core) (s : State) : State := setCore i (f (getCore s i)) s

/-- An island's outstanding transactions (R32). -/
def outstanding (s : State) (i : Nat) : Nat := (vget [] s.via.txns i).length

/-- The Colot-D and Colot-K divide; Colot-P does not (R330). -/
def hasDivision (i : Nat) : Bool := i == 1 || i == 2

/-! ## Register fields -/

/-- A register's stored word, or its reset value. -/
def regValue (s : State) (i : Nat) (r : Reg) (k : Nat) : Nat :=
  let w := SMap.get (resetWord r (rowFor i r) k) (regAddr i r k) s.cfg
  if r = .wakeEn then w ||| 0xB0 else if r = .resumeMask then w ||| 2 else w

/-- A register's stored word replaced. -/
def putReg (s : State) (i : Nat) (r : Reg) (k w : Nat) : State :=
  { s with cfg := SMap.set (resetWord r (rowFor i r) k) (regAddr i r k) w s.cfg }

/-- The S fields in effect, with every other field as stored (R13). -/
def regInForce (s : State) (i : Nat) (r : Reg) (k : Nat) : Nat :=
  let row := rowFor i r
  let w := regValue s i r k
  (w - (w &&& row.s)) + (SMap.get (resetWord r row k) (regAddr i r k) s.latched &&& row.s)

/-- A block boundary: the last value written to the S fields takes effect (R13). -/
def latchReg (s : State) (i : Nat) (r : Reg) (k : Nat) : State :=
  { s with latched := SMap.set (resetWord r (rowFor i r) k) (regAddr i r k) (regValue s i r k) s.latched }

/-- A bit field of a register as stored. -/
def regField (s : State) (i : Nat) (r : Reg) (k lo len : Nat) : Nat := bitsOf (regValue s i r k) lo len

/-- A bit field of a register in force. -/
def liveField (s : State) (i : Nat) (r : Reg) (k lo len : Nat) : Nat := bitsOf (regInForce s i r k) lo len

/-- A shadow's key: its initiator and address (R29). -/
def shadowKey (ini addr : Nat) : Nat := ini * 2 ^ 32 + addr

/-- The word latched for an initiator at a register (R29). -/
def latchShadow (ini i : Nat) (r : Reg) (k v : Nat) (s : State) : State :=
  { s with shadow := SMap.set 0 (shadowKey ini (regAddr i r k)) v s.shadow }

/-- The word an initiator reads from its shadow (R29). -/
def readShadow (s : State) (ini i : Nat) (r : Reg) (k : Nat) : Nat := SMap.get 0 (shadowKey ini (regAddr i r k)) s.shadow

/-! ## Memory -/

/-- The key of byte `o` of raw flash: above every viaduct address. (DESIGN CHOICE, log entry 6.) -/
def flashBase : Nat := 0x100000000

/-- Deck SRAM. -/
def deckSram : Nat := 0x20000000

/-- Keystone SRAM on the engine's local path (R42). -/
def keysSram : Nat := 0x42800000

/-- RF SRAM. -/
def rfSram : Nat := 0x43800000

/-- What an unlisted byte reads as: erased flash reads 0xFF, every other byte 0. (DESIGN CHOICE, log entry 6.) -/
def memDefault (a : Nat) : Byte := if flashBase ≤ a then 0xFF else 0

/-- The byte the memory holds at a key. (DESIGN CHOICE, log entry 6.) -/
def Memory.read : Memory → Nat → Byte
  | [], a => memDefault a
  | (k, b) :: m, a => if k = a then b else if a < k then memDefault a else Memory.read m a

/-- The memory with one byte written, in canonical form: an entry equal to what an unlisted address reads as is left
out. -/
def Memory.write : Memory → Nat → Byte → Memory
  | [], a, v => if v = memDefault a then [] else [(a, v)]
  | (k, b) :: m, a, v =>
    if k = a then (if v = memDefault a then m else (a, v) :: m)
    else if a < k then (if v = memDefault a then (k, b) :: m else (a, v) :: (k, b) :: m)
    else (k, b) :: Memory.write m a v

/-- Every key of the memory is above `a`. -/
def Memory.above (a : Nat) : Memory → Bool
  | [] => true
  | (k, _) :: _ => decide (a < k)

/-- The canonical form: keys strictly rising, no entry at what an unlisted address reads as. -/
def Memory.wf : Memory → Bool
  | [] => true
  | (k, b) :: m => decide (b ≠ memDefault k) && Memory.above k m && Memory.wf m

/-- The memory with a run of bytes written from a key. -/
def Memory.writeBytes : Memory → Nat → List Byte → Memory
  | m, _, [] => m
  | m, a, b :: bs => Memory.writeBytes (Memory.write m a b) (a + 1) bs

/-- The memory without the bytes from lo to below hi: each then reads as an unlisted address. -/
def Memory.clear (lo hi : Nat) : Memory → Memory
  | [] => []
  | (k, b) :: m => if lo ≤ k ∧ k < hi then Memory.clear lo hi m else (k, b) :: Memory.clear lo hi m

/-- `n` bytes of memory from a key. -/
def memReadBytes (s : State) (a n : Nat) : List Byte := (List.range n).map (fun i => Memory.read s.mem (a + i))

/-- Bytes written to memory from a key. -/
def memWriteBytes (a : Nat) (bs : List Byte) (s : State) : State := { s with mem := Memory.writeBytes s.mem a bs }

/-- Memory cleared over a range of keys. -/
def memClear (lo hi : Nat) (s : State) : State := { s with mem := Memory.clear lo hi s.mem }

/-! ## Counters (R427 to R429) -/

/-- Island i's counters. -/
def getPerf (s : State) (i : Nat) : PerfState := vget PerfState.reset s.perf i

/-- Island i's counters updated. -/
def modPerf (i : Nat) (f : PerfState → PerfState) (s : State) : State := { s with perf := vset s.perf i (f (getPerf s i)) }

/-- Whether counter k of island i counts now (R427). -/
def pmcCounts (s : State) (i k : Nat) : Bool := bitOf (regValue s i .perfCtrl 0) (1 + k) && isRun s i && !s.freeze.frozen

/-- One counter advanced by `n`, with its wrap and overflow flag (R427). -/
def pmcAdd (k n : Nat) (p : PerfState) : PerfState :=
  let v := vget 0 p.pmc k + n
  { p with pmc := vset p.pmc k (v % 2 ^ 48), ovf := if 2 ^ 48 ≤ v then p.ovf ||| 2 ^ k else p.ovf }

/-- `n` occurrences of event `ev` in island i: every counter that counts that event advances. -/
def countEvent (i ev n : Nat) (s : State) : State :=
  (List.range 8).foldl (fun s k =>
    if pmcCounts s i k && regField s i .perfSel k 0 10 == ev then modPerf i (pmcAdd k n) s else s) s

/-! ## Messages (R30, R33, R319) -/

/-- An island's inbox, oldest first. -/
def inboxOf (s : State) (i : Nat) : List InboxEntry := vget [] s.via.inbox i

/-- An island's inbox replaced. -/
def setInbox (i : Nat) (q : List InboxEntry) (s : State) : State := modVia (fun v => { v with inbox := vset v.inbox i q }) s

/-- A message enters an inbox (R33). -/
def enterInbox (i : Nat) (msg : BitVec 128) (src : Nat) (s : State) : State :=
  countEvent i 0x008 1 (setInbox i (inboxOf s i ++ [⟨msg, src⟩]) s)

/-! ## Accesses to an island's registers (R30, R35, R39) -/

/-- What an initiator's last transaction returned. -/
def setResp (ini : Nat) (data : List Nat) (st : Status) (s : State) : State :=
  modVia (fun v => { v with resp := vset v.resp ini ⟨data, st⟩ }) s

/-- An answer under R35 is counted and, from a count of zero, latched (R39). -/
def noteOff (ini addr : Nat) (write burst message : Bool) (s : State) : State :=
  let s := if s.via.offCount = 0 then
      modVia (fun v => { v with offAddr := addr, offSrc := ini % 16 + 16 * b2n write + 32 * b2n burst + 64 * b2n message }) s
    else s
  countEvent 0 0x040 1 (modVia (fun v => { v with offCount := satTo 0xFFFFFFFF (v.offCount + 1) }) s)

/-- The island a transaction is addressed to when it carries a message. -/
def Txn.msgTarget (t : Txn) : Option Nat :=
  match t.op with
  | .message target _ => some target
  | _ => none

/-- Whether a message waits at island i's target port because its inbox is full: nothing else is served there (R33). -/
def portBlocked (s : State) (i : Nat) : Bool :=
  !(vget [] s.via.held i).isEmpty || s.via.txns.toList.any (fun l => l.any (fun t => t.held && t.msgTarget == some i))

/-- The counts of a transaction that `ini` issues and island i serves; an island reaches its own window locally. -/
def countIssue (ini i : Nat) (s : State) : State := if ini = i then s else countEvent ini 0x005 1 s

/-- The count of a transaction that island i serves for `ini`. -/
def countServe (ini i : Nat) (s : State) : State := if ini = i then s else countEvent i 0x006 1 s

/-- An access that ended with a status other than 0x00 is counted at its initiator. -/
def countStatus (ini : Nat) (st : Status) (s : State) : State := if st = 0 then s else countEvent ini 0x00A 1 s

/-- Whether `ini` can make an access that island i's port serves now: the initiator runs, and no held message keeps the
port (R33). (DESIGN CHOICE, log entry 3.) -/
def canReach (s : State) (ini i : Nat) : Bool := canAct s ini && (ini == i || !portBlocked s i)

/-- A register write of its own row: the abutment answers an island that is off or frozen (R35), else the action is
done and its status returned. -/
def islandWrite (ini i : Nat) (r : Reg) (act : State → Status × State) (s : State) : State :=
  if canReach s ini i then
    let s := countIssue ini i s
    if canAct s i then
      let x := act (countServe ini i s)
      setResp ini [] x.1 (countStatus ini x.1 x.2)
    else setResp ini [] 0x03 (countStatus ini 0x03 (noteOff ini (regAddr i r 0) true false false s))
  else s

/-- A register read of its own row. -/
def islandRead (ini i : Nat) (r : Reg) (act : State → Nat × State) (s : State) : State :=
  if canReach s ini i then
    let s := countIssue ini i s
    if canAct s i then
      let x := act (countServe ini i s)
      setResp ini [x.1] 0x00 x.2
    else setResp ini [0] 0x03 (countStatus ini 0x03 (noteOff ini (regAddr i r 0) false false false s))
  else s

/-- A register write to AON. -/
def aonWrite (ini : Nat) (r : Reg) (act : State → Status × State) (s : State) : State := islandWrite ini 0 r act s

/-- A register read of AON. -/
def aonRead (ini : Nat) (r : Reg) (act : State → Nat × State) (s : State) : State := islandRead ini 0 r act s

/-! ## Wake sources, restarts and the parapet -/

/-- A wake source fires: its bit is set (R359). -/
def fireWake (bit : Nat) (s : State) : State := modPark (fun k => { k with wakePend := k.wakePend ||| 2 ^ bit }) s

/-- The sources whose firing can wake (R359): WAKE_EN with bits 4, 5 and 7 reading 1. -/
def wakeEnable (s : State) : Nat := regValue s 0 .wakeEn 0 % 256

/-- Whether island i is being restarted. (DEDUCED, log entry 23.) -/
def beingRestarted (p : ParapetState) (i : Nat) : Bool := match p.restarting with | some (j, _) => j == i | none => false

/-- A warm restart is asked for: it waits behind the ones before it, and one that names an island already being restarted
merges with that restart (R382). (DEDUCED, log entry 23.) -/
def requestRestart (i : Nat) (cause : Status) (s : State) : State :=
  modPar (fun p => { p with rstQueue := if beingRestarted p i then p.rstQueue else p.rstQueue ++ [(i, cause)] }) s

/-- The 8-entry parapet log takes an event; a full log drops it and marks its newest entry (R369, R392). -/
def logPush (e : LogEntry) (l : List LogEntry) : List LogEntry :=
  if l.length < 8 then l ++ [e]
  else match l.reverse with
    | [] => l
    | x :: xs => ({ x with overrun := true } :: xs).reverse

/-- A parapet event: its code's pending bit, its log entry, the count, and the PARAPET wake source (R359, R369, R391,
R392). -/
def parapetEvent (code : Status) (island unit : Nat) (detail : List Byte) (s : State) : State :=
  fireWake 5 (countEvent 0 0x043 1 (modPar (fun p =>
    { p with pend := p.pend ||| 2 ^ (code.toNat - 0xD0), log := logPush ⟨code, island, unit, s.time.us, false, detail⟩ p.log }) s))

/-- SERIAL in byte order (R260). -/
def serialBytes : List Byte := leBytes 16 Config.serial.toNat

/-- The site bay of a device bay (R6). -/
def siteBay (s : State) (bay : Nat) : Nat := s.boot.strapId * 64 + bay

/-- The lifecycle state: 0 FACTORY, 1 DEVELOP, 2 CLAIMED, 3 RETIRED (R260). -/
def lifecycle (s : State) : Nat := s.store.ledger.lifecycle

end Sys2Proof.Machine
end

