-- ==== Sys2Proof/Machine/Store.lean ====
section
/-! DEFINITION. STORE's own operations: ledger images and writes, the journal ring, flash, the credential table and the
policy sets (10_store_and_journal.md). (PRESUMED, log entry 9.) -/

namespace Sys2Proof.Machine

/-! ## Ledger images (R272, R273) -/

/-- SEL of a ledger image. -/
def Ledger.sel (l : Ledger) : Nat :=
  l.policySet + 2 * l.credArea + 4 * b2n l.credValid + 8 * l.imageBank + 256 * l.lifecycle

/-- Bytes 0 to 1,019 of a ledger image. -/
def Ledger.body (l : Ledger) : List Byte :=
  [0x51, 0x4C, 0x44, 0x31] ++ leBytes 2 1024 ++ leBytes 2 1 ++ leBytes 8 l.generation ++ leBytes 4 l.spanHwm ++
  leBytes 4 l.claimCount ++ leBytes 4 l.bootCount ++ leBytes 4 l.sel ++ leBytes 8 l.tailSeq ++ padTo 32 l.tailChain ++
  leBytes 8 l.ackSeq ++ leBytes 8 l.arcSeq ++ leBytes 8 l.policyVersion ++ leBytes 8 l.credVersion ++
  leBytes 4 l.credSeed ++ leBytes 4 l.tsBoot ++ leBytes 8 l.tsUtc ++ leBytes 8 l.tsDevice ++ leBytes 4 l.tsCount ++
  List.replicate 60 0 ++ (l.hwm.toList.map (leBytes 8)).flatten ++ List.replicate 252 0

/-- A whole ledger image with its CRC-32C. -/
def Ledger.bytes (l : Ledger) : List Byte := l.body ++ leBytes 4 (crc32c l.body)

/-- The image that 1,024 bytes hold, if they are a valid bank (R273). -/
def parseLedger (bs : List Byte) : Option Ledger :=
  if sliceZ bs 0 4 = [0x51, 0x4C, 0x44, 0x31] ∧ leAt bs 4 2 = 1024 ∧ leAt bs 6 2 = 1 ∧ leAt bs 1020 4 = crc32c (sliceZ bs 0 1020) then
    let sel := leAt bs 28 4
    some {
      generation := leAt bs 8 8, spanHwm := leAt bs 16 4, claimCount := leAt bs 20 4, bootCount := leAt bs 24 4
      policySet := bitsOf sel 0 1, credArea := bitsOf sel 1 1, credValid := bitOf sel 2, imageBank := bitsOf sel 3 1
      lifecycle := bitsOf sel 8 8, tailSeq := leAt bs 32 8, tailChain := sliceZ bs 40 32, ackSeq := leAt bs 72 8
      arcSeq := leAt bs 80 8, policyVersion := leAt bs 88 8, credVersion := leAt bs 96 8, credSeed := leAt bs 104 4
      tsBoot := leAt bs 108 4, tsUtc := leAt bs 112 8, tsDevice := leAt bs 120 8, tsCount := leAt bs 128 4
      hwm := Vector.ofFn (fun i => leAt bs (192 + 8 * i.val) 8) }
  else none

/-- Where a ledger bank lies (R265). -/
def ledgerBase (bank : Nat) : Nat := 0x1C0000 + 0x2000 * bank

/-- The valid bank with the higher GENERATION, bank A if they are equal (R273). -/
def ledgerWinner (s : State) : Option (Nat × Ledger) :=
  match parseLedger (memReadBytes s (ledgerBase 0) 1024), parseLedger (memReadBytes s (ledgerBase 1) 1024) with
  | some a, some b => if a.generation < b.generation then some (1, b) else some (0, a)
  | some a, none => some (0, a)
  | none, some b => some (1, b)
  | none, none => none

/-- A change applied to an image (R274). -/
def applyChange (c : LedgerChange) (l : Ledger) : Ledger :=
  match c with
  | .hwm e v => { l with hwm := vset l.hwm e v }
  | .spanHwm v => { l with spanHwm := v }
  | .policy set v _ => { l with policySet := set, policyVersion := v }
  | .cred area v seed _ => { l with credArea := area, credValid := true, credVersion := v, credSeed := seed }
  | .credInvalid => { l with credValid := false }
  | .imageBank b => { l with imageBank := b }
  | .bootCount => { l with bootCount := l.bootCount + 1 }
  | .lifecycle st claimed => { l with lifecycle := st, claimCount := l.claimCount + b2n claimed }
  | .tail n ch => { l with tailSeq := n, tailChain := ch }
  | .ack n => { l with ackSeq := n }
  | .arc n => { l with arcSeq := n }
  | .archiveEmpty n ch => { l with tailSeq := n, tailChain := ch, arcSeq := n, ackSeq := n, credValid := false }
  | .dropTail _ last ch => { l with tailSeq := last, tailChain := ch }
  | .timeSet utc dev => { l with tsBoot := l.bootCount, tsUtc := utc, tsDevice := dev, tsCount := l.tsCount + 1 }

/-- A change is requested: it waits for the next ledger write (R274). -/
def requestChange (c : LedgerChange) (s : State) : State :=
  modStore (fun t => { t with changes := t.changes ++ [c] }) s

/-- LEDGER_WRITE_START (R274): at a frame boundary with changes waiting and no write under way, the write of the bank
that is not the winner starts. The bank's bytes change when it ends. -/
def ledgerWriteStart (s : State) : State :=
  if isRun s 4 ∧ s.freeze.frozen = false ∧ s.time.us % 1000 = 0 ∧ s.store.taken ∧ s.store.write = none ∧ s.store.changes ≠ [] then
    let t := s.store
    let img := t.changes.foldl (fun l c => applyChange c l) { t.ledger with generation := t.ledger.generation + 1 }
    countEvent 4 0x041 1 (modStore (fun t => { t with changes := [], write := some { bank := 1 - t.bank, image := img, changes := t.changes, again := false } }) s)
  else s

/-! ## The journal ring (R290 to R299) -/

/-- The ring slot of record n. -/
def ringSlot (n : Nat) : Nat := 0x140000 + 128 * (n % 4096)

/-- The 128 bytes of a record with SEQ n. -/
def JRecord.bytes (r : JRecord) (n : Nat) : List Byte :=
  leBytes 8 n ++ leBytes 1 r.typ ++ leBytes 1 (b2n r.signed) ++ leBytes 2 r.siteBay ++ leBytes 4 r.spanId ++
    leBytes 8 r.time ++ padTo 104 r.body

/-- SEQ of a record whose SEQ word is not yet written (R292). -/
def seqOpen : Nat := 2 ^ 64 - 1

/-- The chain value after a record (R291). -/
def chainNext (c : List Byte) (rec_ : List Byte) : List Byte := sha256 (c ++ rec_)

/-- The records held in the ring, by the ledger as STORE took it. -/
def ringOccupancy (s : State) : Nat := s.store.head - s.store.ledger.tailSeq

/-- The chain over the ring's records from SEQ n on, `k` of them. -/
def chainOver (s : State) (n : Nat) (c : List Byte) : Nat → List Byte
  | 0 => c
  | k + 1 => chainOver s (n + 1) (chainNext c (memReadBytes s (ringSlot n) 128)) k

/-- The change that advances the tail to SEQ n, with the chain value after it (R297). -/
def tailChange (n : Nat) (s : State) : LedgerChange :=
  .tail n (chainOver s (s.store.ledger.tailSeq + 1) s.store.ledger.tailChain (n - s.store.ledger.tailSeq))

/-- Whether a tail advance already waits or is being written. -/
def tailPending (s : State) : Bool :=
  let f : LedgerChange → Bool := fun c => match c with
    | .tail _ _ => true
    | .dropTail _ _ _ => true
    | .archiveEmpty _ _ => true
    | _ => false
  s.store.changes.any f || (match s.store.write with | some w => w.changes.any f | none => false)

/-- The tail advances over every record acknowledged or archived (R297). -/
def advanceTail (s : State) : State :=
  let n := min s.store.head (max s.store.ledger.arcSeq s.store.ledger.ackSeq)
  if s.store.ledger.tailSeq < n ∧ tailPending s = false then requestChange (tailChange n s) s else s

/-- With 3,840 records held and no tail advance to come, the oldest 256 are dropped (R298). -/
def ringOverflow (s : State) : State :=
  let l := s.store.ledger
  if 3840 ≤ ringOccupancy s ∧ max l.arcSeq l.ackSeq ≤ l.tailSeq ∧ tailPending s = false then
    requestChange (.dropTail (l.tailSeq + 1) (l.tailSeq + 256) (chainOver s (l.tailSeq + 1) l.tailChain 256)) s
  else s

/-- The first submitted record is written to its slot with SEQ all ones, once STORE is ready, the slot is free and no SIG
record is owed in its place (R292, R294, R297). -/
def openRecord (s : State) : State :=
  match s.store.queue with
  | [] => s
  | r :: _ =>
    if isRun s 4 ∧ s.freeze.frozen = false ∧ s.store.ready ∧ s.store.opened = false ∧ (s.store.sigOwed = none ∨ r.typ = 0x05) ∧ ringOccupancy s < 4096 then
      countEvent 4 0x040 1 (modStore (fun t => { t with opened := true }) (memWriteBytes (ringSlot (s.store.head + 1)) (r.bytes seqOpen) s))
    else s

/-- A record is submitted. A SIG record stands before the others, directly after the record it signs (R294). -/
def submitRecord (r : JRecord) (s : State) : State :=
  openRecord (ringOverflow (modStore (fun t => { t with queue :=
    if r.typ = 0x05 then (if t.opened then t.queue.take 1 ++ r :: t.queue.drop 1 else r :: t.queue) else t.queue ++ [r] }) s))

/-- A record of the device, outside any bay. -/
def deviceRecord (typ : Nat) (signed : Bool) (s : State) (body : List Byte) : JRecord :=
  { typ := typ, signed := signed, siteBay := 0xFFFF, spanId := 0, time := s.time.us, body := body, after := .nothing }

/-- A FAULT record (R293, R369). -/
def faultRecord (s : State) (code island unit time : Nat) (detail : List Byte) : JRecord :=
  { deviceRecord 0x0D false s (leBytes 1 code ++ leBytes 1 island ++ leBytes 1 unit ++ [0] ++ padTo 16 detail) with time := time }

/-- The deck journals a FAULT record, and sends its FAULT frame once the record is durable (R369, R415). -/
def deckFault (code : Status) (island unit time : Nat) (detail : List Byte) (s : State) : State :=
  submitRecord { faultRecord s code.toNat island unit time detail with after := .fault code island unit time (padTo 16 detail) } s

/-- A GAP record (R293). -/
def gapRecord (s : State) (cause first last : Nat) (chain : List Byte) : JRecord :=
  deviceRecord 0x08 true s (leBytes 1 cause ++ List.replicate 7 0 ++ leBytes 8 first ++ leBytes 8 last ++ padTo 32 chain)

/-- A SIG record for the record before it (R293, R294). -/
def sigRecord (s : State) (curve : Nat) (st : Status) (sig : List Byte) (act : JAfter) : JRecord :=
  { typ := 0x05, signed := false, siteBay := 0xFFFF, spanId := 0, time := s.time.us,
    body := leBytes 1 curve ++ [st] ++ List.replicate 6 0 ++ padTo 96 sig, after := .signed st act }

/-- A GAP record is appended and counted. -/
def appendGap (cause first last : Nat) (chain : List Byte) (s : State) : State :=
  submitRecord (gapRecord s cause first last chain) (modStore (fun t => { t with gaps := satTo 0xFFFFFFFF (t.gaps + 1) }) s)

/-- The SEQ word of the written record is stored: the record is durable and heads the chain (R291, R292). -/
def recordDurable (s : State) : State :=
  match s.store.queue with
  | r :: rest =>
    if s.store.opened ∧ isRun s 4 ∧ s.freeze.frozen = false then
      let n := s.store.head + 1
      let s := memWriteBytes (ringSlot n) (leBytes 8 n) s
      let base := if r.typ = 0x01 then List.replicate 32 0 else s.store.chain
      countEvent 4 0x042 1 (modStore (fun t => { t with
        head := n, chain := chainNext base (r.bytes n), queue := rest, opened := false, sigOwed := if r.signed then some r.after else none }) s)
    else s
  | [] => s

/-- The walk of R295 from SEQ n: it stops at the first slot whose SEQ is not the expected one. It gives the head, the
chain and the unreadable records found. -/
def recoverWalk (s : State) (unreadable : List Nat) : Nat → Nat → List Byte → Nat × List Byte × List Nat
  | 0, n, c => (n - 1, c, [])
  | k + 1, n, c =>
    if leAt (memReadBytes s (ringSlot n) 8) 0 8 = n then
      if n ∈ unreadable then
        let r := recoverWalk s unreadable k (n + 1) (List.replicate 32 0)
        (r.1, r.2.1, n :: r.2.2)
      else recoverWalk s unreadable k (n + 1) (chainNext c (memReadBytes s (ringSlot n) 128))
    else (n - 1, c, [])

/-- The ring recovery ends: head, chain and READY, and a GAP record for each unreadable record (R295, R486). -/
def recoverRing (unreadable : List Nat) (s : State) : State :=
  if isRun s 4 ∧ s.freeze.frozen = false ∧ s.store.ready = false then
    let l := s.store.ledger
    let r := recoverWalk s unreadable 4096 (l.tailSeq + 1) l.tailChain
    let s := modStore (fun t => { t with head := r.1, chain := r.2.1, ready := true, opened := false }) s
    openRecord (r.2.2.foldl (fun s n => appendGap 2 n n (List.replicate 32 0) s) s)
  else s

/-- The archive's record count ARC (R278). -/
def archiveSlots (s : State) : Nat := min 1048576 ((s.store.fitted * 1048576 - 0x2090000) / 65536 * 512)

/-- Record n as a read gives it: from the ring, or from the archive, or 0xAC (R299). -/
def readRecord (s : State) (n : Nat) : List Byte × Status :=
  let t := s.store
  if t.ledger.tailSeq < n ∧ n ≤ t.head then (memReadBytes s (ringSlot n) 128, 0x00)
  else if t.flash = .ready ∧ n ≤ t.ledger.arcSeq ∧ t.arcFloor ≤ n then
    (memReadBytes s (flashBase + 0x2090000 + 128 * (n % archiveSlots s)) 128, 0x00)
  else (List.replicate 128 0, 0xAC)

/-! ## Rebuilding the ledger (R276) -/

/-- Whether ring slot i is readable, with its SEQ (R276). -/
def slotSeq (s : State) (unreadable : List Nat) (i : Nat) : Option Nat :=
  let n := leAt (memReadBytes s (0x140000 + 128 * i) 8) 0 8
  if n ≠ seqOpen ∧ n % 4096 = i ∧ n ∉ unreadable ∧ n ≠ 0 then some n else none

/-- The highest readable SEQ among slots below k, 0 for none. -/
def ringHead (s : State) : Nat → Nat
  | 0 => 0
  | k + 1 => max ((slotSeq s [] k).getD 0) (ringHead s k)

/-- The lowest SEQ of the unbroken run of readable records that ends at n. -/
def runStart (s : State) : Nat → Nat → Nat
  | 0, n => n
  | k + 1, n => if 1 < n ∧ slotSeq s [] ((n - 1) % 4096) = some (n - 1) then runStart s k (n - 1) else n

/-- The largest value `f` gives over the run's records of a type, or 0. -/
def runMax (s : State) (typ : Option Nat) (f : List Byte → Nat) (n : Nat) : Nat → Nat
  | 0 => 0
  | k + 1 =>
    let b := memReadBytes s (ringSlot n) 128
    let v := if typ = none ∨ typ = some (leAt b 8 1) then f b else 0
    max v (runMax s typ f (n + 1) k)

/-- Whether a policy set passes step 3 of R271, but for the VERSION rule, with its VERSION. -/
def policySetOk (bs : List Byte) : Bool :=
  sliceZ bs 0 4 == [0x51, 0x50, 0x53, 0x31] && leAt bs 4 1 == 1 && decide (leAt bs 5 1 ≤ 1) && leAt bs 6 2 == 0 &&
  (sliceZ bs 16 16 == serialBytes || sliceZ bs 16 16 == List.replicate 16 0) && ((bs.drop 0xDA0).take (0x4000 - 0xDA0)).all (fun b => b == 0)

/-- The image of R276, with TAIL_SEQ from the unbroken run that ends at the ring's head. `booted` is the bank booted.
(DESIGN CHOICE, log entry 24.) -/
def rebuiltLedger (booted : Nat) (s : State) : Ledger :=
  let head := ringHead s 4096
  let first := if head = 0 then 1 else runStart s 4096 head
  let len := if head = 0 then 0 else head + 1 - first
  let ver (set : Nat) : Nat :=
    let bs := memReadBytes s (0x1C4000 + 0x4000 * set) 0x4000
    if policySetOk bs then leAt bs 8 8 else 0
  let spanMax := runMax s none (fun b => leAt b 12 4) first len
  { Ledger.blank with
    generation := 1
    tailSeq := first - 1
    ackSeq := first - 1
    arcSeq := first - 1
    bootCount := runMax s (some 0x02) (fun b => leAt b 24 4) first len + 1
    claimCount := runMax s (some 0x01) (fun b => leAt b 40 4) first len
    spanHwm := satTo 0xFFFFFFFF (spanMax + 0x100000)
    policySet := if ver 0 < ver 1 then 1 else 0
    policyVersion := max (ver 0) (ver 1)
    credVersion := runMax s (some 0x0F) (fun b => leAt b 24 8) first len
    imageBank := booted
    lifecycle := if (memReadBytes s 0x1CF080 128).any (fun b => b != 0) then 3 else 0 }

/-! ## Flash and the archive (R277 to R280, R296) -/

/-- The flash header: MAGIC, SERIAL, ARC (R278). -/
def flashHeader (s : State) : List Byte := [0x51, 0x46, 0x48, 0x31] ++ serialBytes ++ leBytes 4 (archiveSlots s)

/-- Whether the header read at start-up is valid and the part's own (R279). -/
def flashHeaderOk (s : State) : Bool := memReadBytes s flashBase 24 == flashHeader s

/-- The status that flash in its state gives a read, 0x00 when it is ready (R280). -/
def flashReadStatus (s : State) : Status :=
  match s.store.flash with
  | .absent => 0xA3
  | .failed => 0xA4
  | _ => 0x00

/-- Where credential area a lies in flash (R278). -/
def credBase (a : Nat) : Nat := 0x10000 + 0x1040000 * a


/-- The end of a ledger write (R274): on a good read-back, the first or the second, the written bank becomes the winner;
two bad ones set FAULT and leave the winner. -/
def ledgerWriteEnd (w : LedgerWrite) (good : Bool) (s : State) : State :=
  if good then
    countEvent 4 0x040 8 (memWriteBytes (ledgerBase w.bank) w.image.bytes
      (modStore (fun t => { t with bank := w.bank, ledger := w.image, write := none, fault := false }) s))
  else modStore (fun t => { t with fault := true, write := none }) s

/-- Every entry of STORE to RUN (R486): the winner, flash with its header, and the recovery still to come. -/
def storeStart (s : State) : State :=
  let s := match ledgerWinner s with
    | some (b, l) => modStore (fun t => { t with taken := true, bank := b, ledger := l, fault := false }) s
    | none => modStore (fun t => { t with taken := false, fault := true }) s
  let s := modStore (fun t => { t with ready := false, opened := false, flashOp := none, timeouts := 0, flash := if t.fitted = 0 then .absent else .ready }) s
  if s.store.flash = .ready ∧ flashHeaderOk s = false then
    modStore (fun t => { t with flash := .formatting, flashOp := some .format }) s
  else s

/-- What STORE loses when it leaves RUN (R285, R289, R486): its copies, the cache, the update map and every operation. -/
def storeLeave (s : State) : State :=
  modStore (fun t => { t with taken := false, ready := false, opened := false, write := none, changes := [], flashOp := none, update := none, erasing := false, lookups := [], cache := [], archiving := false, imgBusy := false, imgOpen := false, flash := .absent }) s

/-- A new flash header written: the archive counts as empty and CRED_VALID is cleared (R279). -/
def flashFormatted (s : State) : State :=
  let l := s.store.ledger
  requestChange (.archiveEmpty l.tailSeq l.tailChain) (requestChange .credInvalid
    (memWriteBytes flashBase (flashHeader s) (modStore (fun t => { t with flash := .ready, arcFloor := l.tailSeq + 1 }) s)))

/-! ## The XTS path and the flash view (R278, R279, R284) -/

/-- The XTS key of store slot 80, when STORE may use it (R215, R278). (DESIGN CHOICE, log entry 24.) -/
def storeKey (s : State) : Option (List Byte) :=
  let k := vget Slot.reset s.cipher.slots 80
  if k.st = .empty ∨ bitOf k.policy 7 = false ∨ bitOf k.policy 13 = false then none else some k.key

/-- The 4,096 B data unit that holds a flash offset, decrypted; none without a key. -/
def flashUnit (s : State) (off : Nat) : Option (List Byte) :=
  (storeKey s).map (fun k => xtsDecrypt k (off / 4096) (memReadBytes s (flashBase + off / 4096 * 4096) 4096))

/-- Whether a flash offset lies in a credential area. -/
def inCredArea (off : Nat) : Bool := decide (0x10000 ≤ off) && decide (off < 0x2090000)

/-- Four bytes of the decrypted flash view at an aligned offset (R279, R280, R41). -/
def viewWord (s : State) (off : Nat) : Nat × Status :=
  if flashReadStatus s ≠ 0 then (0, flashReadStatus s)
  else if s.store.fitted * 0x100000 ≤ off then (0, 0x17)
  else if inCredArea off then
    match flashUnit s off with
    | some u => (leAt u (off % 4096) 4, 0)
    | none => (0, 0x82)
  else (leAt (memReadBytes s (flashBase + off) 4) 0 4, 0)

/-! ## Lookups (R281 to R286) -/

/-- The bucket of an identifier under a seed (R283). -/
def credBucket (seed : Nat) (ident : List Byte) : Nat := leAt (sha256 (leBytes 4 seed ++ ident)) 0 2

/-- The first matching entry of a bucket's entries in a data unit (R283). -/
def bucketFind (u : List Byte) (ident : List Byte) (o : Nat) : Nat → Option (List Byte)
  | 0 => none
  | k + 1 =>
    let e := sliceZ u o 64
    if bitOf (leAt e 17 1) 0 ∧ leAt e 17 1 < 4 ∧ leAt e 16 1 < 16 ∧ leAt e 18 2 = 0 ∧ sliceZ e 44 20 = List.replicate 20 0 ∧ sliceZ e 0 16 = ident then some e
    else bucketFind u ident (o + 64) k

/-- The result of a lookup over an area (R283): the entry or a status. -/
def lookupEntry (s : State) (l : Lookup) : Status × List Byte :=
  if l.valid = false then (0xA6, [])
  else if flashReadStatus s ≠ 0 then (flashReadStatus s, [])
  else
    let b := credBucket l.seed l.ident
    match flashUnit s (credBase l.area + 4 * b) with
    | none => (0x82, [])
    | some iu =>
      let w := leAt iu (4 * b % 4096) 4
      let start := bitsOf w 0 18
      let count := bitsOf w 18 5
      let eo := credBase l.area + 0x40000 + 64 * start
      if 2 ^ 23 ≤ w ∨ 16 < count ∨ count = 0 ∨ 64 < start % 64 + count then (0x24, [])
      else match flashUnit s eo with
        | none => (0x82, [])
        | some eu => match bucketFind eu l.ident (eo % 4096) count with
          | some e => (0x00, e)
          | none => (0x24, [])

/-- The tags of the cache lines a lookup touches: its index line and its bucket (R285). -/
def lookupTags (l : Lookup) : List Nat := [2 * (l.area * 65536 + credBucket l.seed l.ident) / 16, 2 * (l.area * 65536 + credBucket l.seed l.ident) + 1]

/-- The cache after a lookup: its lines most recently used, 4,096 kept (R285). -/
def cacheUse (l : Lookup) (c : List Nat) : List Nat := (lookupTags l ++ c.filter (fun x => !(lookupTags l).contains x)).take 4096

/-- A lookup begins on the area and seed in force (R283, R285). -/
def newLookup (s : State) (ident : List Byte) : Lookup :=
  { ident := padTo 16 ident, area := s.store.ledger.credArea, seed := s.store.ledger.credSeed, valid := s.store.ledger.credValid }

/-- UTC seconds now, when the mapping holds (R272, R286). TS_UTC counts µs. -/
def utcNow (s : State) : Option Nat :=
  let l := s.store.ledger
  if l.tsBoot = l.bootCount then some ((l.tsUtc + (s.time.us - l.tsDevice)) / 1000000) else none

/-- Whether an entry is usable: not blocked, and within its limits (R286). -/
def entryUsable (s : State) (e : List Byte) : Bool :=
  let from_ := leAt e 20 4
  let until_ := leAt e 24 4
  !bitOf (leAt e 17 1) 1 && (match utcNow s with
    | some t => decide (from_ ≤ t) && (until_ == 0xFFFFFFFF || decide (t < until_))
    | none => from_ == 0 && until_ == 0xFFFFFFFF)

/-! ## Credential updates (R287 to R289) -/

/-- Where chunk c lies in an area. -/
def chunkOffset (area c : Nat) : Nat := credBase area + 16384 * c

/-- The body of a chunk as four encrypted data units (R288). -/
def chunkCipher (k : List Byte) (off : Nat) (body : List Byte) : List Byte :=
  (List.range 4).flatMap (fun i => xtsEncrypt k (off / 4096 + i) (sliceZ body (4096 * i) 4096))

/-- How many bits are set among the first `n` bits of a mask. -/
def bitCount (m : Nat) : Nat → Nat
  | 0 => 0
  | n + 1 => bitCount m n + b2n (bitOf m n)

/-- Chunks written for the current VERSION. -/
def chunksWritten (s : State) : Nat :=
  match s.store.update with
  | some u => bitCount u.written 1040
  | none => 0

/-! ## Images (R335 to R339) -/

/-- Where an image bank lies. -/
def imageBase (bank : Nat) : Nat := 0xA0000 * bank

/-- The bytes IMAGE_DIGEST covers (R337). -/
def imageDigest (s : State) (bank : Nat) : List Byte :=
  let len := leAt (memReadBytes s (imageBase bank + 16) 4) 0 4
  sha256 (memReadBytes s (imageBase bank) 48 ++ memReadBytes s (imageBase bank + 144) (len - 144))

/-- Whether a bank's LENGTH is in range (R335). -/
def imageLengthOk (s : State) (bank : Nat) : Bool :=
  let len := leAt (memReadBytes s (imageBase bank + 16) 4) 0 4
  decide (256 ≤ len) && decide (len ≤ 655360) && len % 64 == 0

/-- The bank that updates write (R339). -/
def inactiveBank (s : State) : Nat := 1 - s.store.ledger.imageBank

/-- A write of OPEN (R339). -/
def imgOpenWrite (opened : Bool) (s : State) : Status × State :=
  if opened then
    if s.store.imgBusy then (0x02, s) else (0x00, modStore (fun t => { t with imgOpen := true, imgDone := false }) s)
  else (0x00, modStore (fun t => { t with imgOpen := false }) s)

/-- A write of HASH (R339). -/
def imgHashWrite (s : State) : Status × State :=
  if s.store.imgOpen ∨ s.store.imgBusy then (0x02, s)
  else if imageLengthOk s (inactiveBank s) then (0x00, modStore (fun t => { t with imgBusy := true, imgDone := false }) s)
  else (0x00, modStore (fun t => { t with imgDone := true, imgStatus := 0x02 }) s)

/-- The hash ends (R339). -/
def imgHashEnd (readable : Bool) (s : State) : State :=
  modStore (fun t => { t with imgBusy := false, imgDone := true, imgStatus := if readable then 0x00 else 0xA0
                              imgDigest := if readable then imageDigest s (inactiveBank s) else t.imgDigest }) s

/-- A commit of JRN_ACK (R297). -/
def jrnAckCommit (n : Nat) (s : State) : Status × State :=
  if s.store.head < n then (0xAB, s)
  else if n ≤ s.store.ledger.ackSeq then (0x00, s)
  else (0x00, requestChange (.ack n) s)

/-- The status of a viaduct write to MRAM (R268). -/
def mramWriteStatus (s : State) (ini a : Nat) : Status :=
  let ok : Bool :=
    if a < 0xA0000 then ini == 1 && s.store.imgOpen && inactiveBank s == 0
    else if a < 0x140000 then ini == 1 && s.store.imgOpen && inactiveBank s == 1
    else if a < 0x1CC000 then false
    else if a < 0x1CF400 then ini == 2
    else if a < 0x1D0000 then ini == 2 && lifecycle s == 0
    else if a < 0x1D0400 then false
    else ini == 1
  if ok then 0x00 else 0xA1

/-- The active policy set's base (R269). -/
def policyBase (s : State) : Nat := 0x1C4000 + 0x4000 * s.store.ledger.policySet

end Sys2Proof.Machine
end

