-- ==== Sys2Proof/Machine/Lf.lean ====
section
/-! DEFINITION. The LF bay array: bursts, their refusals and endings, the drive check, the sweep, the uplink FIFO, aerial
states and detuning pings (04_lf_bay_array.md). (PRESUMED, log entry 9; DESIGN CHOICE, log entry 12.) -/

namespace Sys2Proof.Machine

/-- Pier p. -/
def getPier (s : State) (p : Nat) : Pier := vget Pier.reset s.lf.piers p

/-- Pier p updated. -/
def modPier (p : Nat) (f : Pier → Pier) (s : State) : State := modLf (fun l => { l with piers := vset l.piers p (f (getPier s p)) }) s

/-- The bay of position k on pier p (R5). -/
def bayOf (p k : Nat) : Nat := 8 * p + k

/-- A bay's aerial. -/
def getAerial (s : State) (bay : Nat) : Aerial := vget ⟨3, 0⟩ s.lf.aerials bay

/-- A bay's aerial replaced. -/
def setAerial (bay : Nat) (a : Aerial) (s : State) : State := modLf (fun l => { l with aerials := vset l.aerials bay a }) s

/-- Whether a bay's LF aerial is in FAULT (R123). -/
def aerialFault (s : State) (bay : Nat) : Bool := (getAerial s bay).state == 2

/-- An aerial after a burst or ping: a failed one (0x40, 0x41, 0x42) strikes it, the third in a row puts it in FAULT; any
other clears its strikes. FAULT is left only by a clear (R123, R183). -/
def Aerial.after (a : Aerial) (failed : Bool) : Aerial :=
  if a.state = 2 then a
  else if failed then (if 2 ≤ a.strikes then ⟨2, 3⟩ else ⟨1, a.strikes + 1⟩)
  else ⟨0, 0⟩

/-- A burst or ping on a bay's aerial has ended: its state moves, and entry into FAULT sets LF_EVENT.FAULT and is
journalled by the span service (R123, R369). -/
def aerialAfter (bay : Nat) (failed : Bool) (s : State) : State :=
  let a := getAerial s bay
  let b := a.after failed
  let s := setAerial bay b s
  if a.state ≠ 2 ∧ b.state = 2 then
    let s := modPier (bay / 8) (fun p => { p with event := p.event ||| 2 ^ (16 + bay % 8) }) s
    if canAct s 1 then deckFault 0x0D (6 + bay / 8) bay s.time.us [] s else s
  else s

/-! ## Starting and stopping bursts (R108, R111 to R114) -/

/-- LF_CTRL.ENABLE of pier p. -/
def lfEnabled (s : State) (p : Nat) : Bool := bitOf (regValue s (6 + p) .lfCtrl 0) 0

/-- T0 as last written (R108). -/
def chordT0 (s : State) (p : Nat) : Nat := regValue s (6 + p) .chordT0Lo 0 + 2 ^ 32 * regValue s (6 + p) .chordT0Hi 0

/-- The checks of R111 in order. -/
def lfStartStatus (s : State) (p k mode : Nat) : Status :=
  if (getPier s p).burst ≠ none then 0x45
  else if 4 ≤ mode ∨ lfEnabled s p = false ∨ s.par.thermalStop ∨ s.par.clockStop then 0x02
  else if aerialFault s (bayOf p k) then 0x0D
  else if s.par.uvVinlf then 0x44
  else if mode = 3 ∧ chordT0 s p < s.time.us + 300 then 0x49
  else 0x00

/-- A ping under way is aborted: its aerial is pinged in the next round, in its place (R112). -/
def abortPing (p : Nat) (s : State) : State :=
  modPier p (fun q => { q with ping := { q.ping with slots := q.ping.slots.drop 1, left := q.ping.left - 1 } }) s

/-- The S fields that latch at the start of a burst (R124). -/
def latchBurst (p mode : Nat) (s : State) : State :=
  let s := latchReg (latchReg (latchReg s (6 + p) .lfDrive 0) (6 + p) .lfMod 0) (6 + p) .lfLen 0
  if mode = 2 then latchReg s (6 + p) .lfPing 0 else s

/-- Whether the drive in force asks for more than LIMIT (R104). -/
def overLimit (s : State) (p : Nat) : Bool :=
  decide (bitsOf (regInForce s (6 + p) .lfDrive 0) 8 8 < max 1 (bitsOf (regInForce s (6 + p) .lfDrive 0) 0 8))

/-- The burst's drive begins: its S fields latch, a ping is aborted and the burst is counted (R112, R124, R429). -/
def beginBurst (p : Nat) (b : Burst) (s : State) : State :=
  let s := latchBurst p b.mode (abortPing p s)
  countEvent (6 + p) 0x040 1 (modPier p (fun q => { q with
    burst := some { b with armed := none, start := s.time.us, clamped := (b.mode == 0 || b.mode == 3) && overLimit s p }
    aerial := b.aerial, mode := b.mode }) s)

/-- A new burst on aerial k. -/
def Burst.fresh (k mode txbits : Nat) (armed : Option Nat) : Burst :=
  ⟨k, mode, txbits, armed, 0, 0, false, false, false, false⟩

/-- A START write (R111): a refusal, an armed chord, or a burst that begins. -/
def lfStart (p k mode txbits : Nat) (s : State) : Status × State :=
  let st := lfStartStatus s p k mode
  if st ≠ 0 then (st, s)
  else if mode = 3 then
    (0x00, modPier p (fun q => { q with burst := some (Burst.fresh k 3 0 (some (chordT0 s p))), aerial := k, mode := 3 })
      (latchReg (latchReg (latchReg s (6 + p) .chordCfg 0) (6 + p) .chordT0Lo 0) (6 + p) .chordT0Hi 0))
  else (0x00, beginBurst p (Burst.fresh k mode txbits none) s)

/-- Carrier cycles of pier p since a device time. -/
def carrierCycles (s : State) (p since : Nat) : Nat := (s.time.us - since) * regValue s (6 + p) .lfFreq 0 / 16000000

/-- The outcome of a write whose burst ends now (R153): 0 NOT_STARTED up to the KT_WRITE code bits, 1 DATA_LOST up to its
last CRC half-bit, 2 PROGRAM_INTERRUPTED after it. -/
def writeOutcome (s : State) (p : Nat) (j : TagJob) : Nat :=
  match j.phase with
  | .writing => if carrierCycles s p j.since < 64 then 0 else if carrierCycles s p j.since < 4928 then 1 else 2
  | _ => 0

/-- A tag exchange under way ends with its burst (R146, R153). -/
def tagBurstEnded (p : Nat) (st : Status) (s : State) : State :=
  match (getPier s p).job with
  | none => s
  | some j =>
    if j.phase = .done then s
    else modPier p (fun q => { q with job := some { j with
      phase := .done, status := st, outcome := writeOutcome s p j, more := (j.found.drop 1) } }) s

/-- A burst's end is written: LAST, DONE, and the aerial's state (R114, R123). -/
def burstEnded (p : Nat) (st : Status) (s : State) : State :=
  match (getPier s p).burst with
  | none => s
  | some b =>
    let s := tagBurstEnded p st (modPier p (fun q => { q with burst := none, last := st, event := q.event ||| 1 }) s)
    if b.armed = none then aerialAfter (bayOf p b.aerial) (st == 0x40 || st == 0x41 || st == 0x42) s else s

/-- STOP (R113): an armed chord is disarmed with 0x48; a running burst gets its ending sequence. -/
def lfStop (p : Nat) (s : State) : State :=
  match (getPier s p).burst with
  | none => s
  | some b =>
    if b.armed ≠ none then burstEnded p 0x48 s
    else modPier p (fun q => { q with burst := some { b with stopped := true } }) s

/-- A write of LF_CTRL.ENABLE (R113, R124). (DESIGN CHOICE, log entry 45.) -/
def lfEnableWrite (p : Nat) (on : Bool) (s : State) : State :=
  let s := putReg s (6 + p) .lfCtrl 0 (b2n on)
  if on then s else lfStop p { s with lf := { s.lf with piers := vset s.lf.piers p { getPier s p with ping := { (getPier s p).ping with slots := [], left := 0 } } } }

/-! ## Downlink FIFO (R107, R124, R346) -/

/-- Words of LF_TXD the running DRIVE burst has taken by now: after the 128-cycle lead-in, one bit lasts 32 or 16 carrier
cycles. -/
def txTaken (s : State) (p : Nat) (b : Burst) : Nat :=
  let cycles := (s.time.us - b.start) * (regValue s (6 + p) .lfFreq 0) / 16000000
  let bit := if bitOf (regInForce s (6 + p) .lfMod 0) 0 then 16 else 32
  if cycles < 128 then 0 else ceilDiv (min b.txbits ((cycles - 128) / bit + 1)) 32

/-- The words taken so far leave the FIFO; a FIFO that has run empty before TXBITS stops the burst (R124). -/
def settleTx (p : Nat) (s : State) : State :=
  match (getPier s p).burst with
  | none => s
  | some b =>
    if b.armed ≠ none ∨ b.mode ≠ 0 ∨ b.stopped then s
    else
      let n := txTaken s p b - b.taken
      let q := getPier s p
      if n ≤ q.tx.length then modPier p (fun q => { q with tx := q.tx.drop n, burst := some { b with taken := b.taken + n } }) s
      else modPier p (fun q => { q with tx := [], burst := some { b with taken := b.taken + q.tx.length, stopped := true } }) s

/-- A write to LF_TXD: a full FIFO of 32 words discards it with 0x45 (R124). -/
def lfTxdPush (p w : Nat) (s : State) : Status × State :=
  let s := settleTx p s
  if 32 ≤ (getPier s p).tx.length then (0x45, s) else (0x00, modPier p (fun q => { q with tx := q.tx ++ [w] }) s)

/-- A read of LF_RXD pops the oldest word (R124). -/
def lfRxdPop (p : Nat) (s : State) : Nat × State :=
  match (getPier s p).rx with
  | [] => (0, s)
  | x :: rest => (x.bits + 2 ^ 16 * x.count + 2 ^ 21 * b2n x.violation + 2 ^ 22 * b2n x.overrun, modPier p (fun q => { q with rx := rest }) s)

/-- LF_AER_CLR (R123). -/
def lfAerClear (p mask : Nat) (s : State) : State :=
  (List.range 8).foldl (fun s k => if bitOf mask k then setAerial (bayOf p k) ⟨3, 0⟩ s else s) s

/-! ## Endings (R114, R115, R117) -/

/-- The drive check fails: amplitude below 4 mA, or phase outside ±60° (R115). -/
def driveFails (i q : Int) : Bool := decide (i * i + q * q < 16) || !(decide (0 ≤ i) && decide (q * q ≤ 3 * i * i))

/-- Frequency of sweep step i in 1/16 Hz (R117). -/
def sweepFreq (freq i : Nat) : Nat := freq * (88 + i) / 100

/-- The first step whose phase and whose next step's phase bracket zero. -/
def sweepCross : List SweepStep → Nat → Option (Nat × SweepStep × SweepStep)
  | a :: b :: rest, i =>
    if (a.phase ≤ 0 ∧ 0 ≤ b.phase) ∨ (0 ≤ a.phase ∧ b.phase ≤ 0) then some (i, a, b) else sweepCross (b :: rest) (i + 1)
  | _, _ => none

/-- The results of a sweep: F0 in 1/16 Hz, Q in 1/16 and loop resistance in 1/16 Ω (R117). The phases are in 1/65536
cycle, so the slope is 2π/65536 radians per unit; 411,775 / 65,536 stands for 2π. -/
def sweepResult (freq fundMv : Nat) (steps : List SweepStep) : Option (Nat × Nat × Nat) :=
  match sweepCross steps 0 with
  | none => none
  | some (i, a, b) =>
    let fa := sweepFreq freq i
    let fb := sweepFreq freq (i + 1)
    let d := (b.phase - a.phase).natAbs
    let na := a.phase.natAbs
    let f0 := if d = 0 then fa else fa + (fb - fa) * na / d
    let amp := if d = 0 then a.amp else ((a.amp * (d - na) + b.amp * na) / d)
    let q := f0 * 16 * d * 411775 / (2 * (fb - fa) * 65536 * 65536)
    some (f0, satTo 1023 q, if amp = 0 then 0 else satTo 4095 (fundMv * 16 / amp))

/-- Whether the phase at the carrier lies beyond ±26.6°, 4,842 units of 1/65536 cycle: step 12 is the carrier (R117). -/
def sweepMistuned (steps : List SweepStep) : Bool :=
  match steps[12]? with
  | some x => decide (4842 < x.phase.natAbs)
  | none => false

/-- The status a burst ends with, the first of R114 that applies. -/
def endStatus (b : Burst) (regLimit open_ noRes mistuned clamped : Bool) : Status :=
  if b.overcurrent then 0x41 else if b.opened || open_ then 0x40 else if noRes then 0x42 else if b.stopped then 0x48
  else if regLimit then 0x46 else if mistuned then 0x43 else if b.clamped || clamped then 0x47 else 0x00

/-- LF_BURST_END (R114, R117). -/
def lfBurstEnd (p : Nat) (regLimit : Bool) (fundMv : Nat) (sweep : List SweepStep) (s : State) : State :=
  let s := settleTx p s
  match (getPier s p).burst with
  | none => s
  | some b =>
    if b.armed ≠ none then s
    else if b.mode = 2 then
      let limit := 4 * liveField s (6 + p) .lfDrive 0 8 8
      let res := sweepResult (regValue s (6 + p) .lfFreq 0) fundMv sweep
      let st := endStatus b false (sweep.all (fun x => decide (x.amp < 4))) (res == none) (sweepMistuned sweep) (sweep.any (fun x => decide (limit < x.amp)))
      let ok := st == 0x00 || st == 0x43 || st == 0x47
      let r := if ok then res.getD (0, 0, 0) else (0, 0, 0)
      burstEnded p st (modPier p (fun q => { q with
        tuneF := vset q.tuneF b.aerial r.1
        tuneQ := vset q.tuneQ b.aerial (r.2.1 + 2 ^ 10 * r.2.2 + 2 ^ 22 * st.toNat + 2 ^ 30 * b2n ok) }) s)
    else burstEnded p (endStatus b (regLimit && (b.mode == 0 || b.mode == 3)) false false false false) s

/-! ## Pings (R118 to R122) -/

/-- A baseline word (R125). -/
def baseWord (amp phase : Nat) : Nat := amp % 4096 + 4096 * (phase % 512) + 2 ^ 31

/-- a − b modulo 512, taken onto −256 to 255 (R119). -/
def phaseDiff (a b : Nat) : Int := ((a : Int) - b + 256) % 512 - 256

/-- The tests of R119 against a valid baseline. -/
def pingDetects (thr base amp phase : Nat) : Bool :=
  let ab := bitsOf base 0 12
  let d := if ab ≤ amp then amp - ab else ab - amp
  decide (bitsOf thr 0 8 * ab < d * 256) || decide (bitsOf thr 8 8 < (phaseDiff phase (bitsOf base 12 9)).natAbs)

/-- A step of 1/2^t of a difference, rounded towards the measurement (R120). -/
def trackStep (d : Int) (t : Nat) : Int := if 0 ≤ d then (ceilDiv d.natAbs (2 ^ t) : Nat) else -((ceilDiv d.natAbs (2 ^ t) : Nat) : Int)

/-- The baseline after a ping that does not detect (R120). -/
def trackBase (thr base amp phase : Nat) : Nat :=
  let t := bitsOf thr 16 3
  let ab := bitsOf base 0 12
  let pb := bitsOf base 12 9
  baseWord ((ab : Int) + trackStep ((amp : Int) - ab) t).toNat (((pb : Int) + trackStep (phaseDiff phase pb) t) % 512).toNat

/-- Whether the AON engine owns the bridges: from the commit of PARK to the wake event (R23, R122). -/
def engineOwns (s : State) : Bool :=
  (s.park.phase == .stopping || s.park.phase == .parked) && !s.park.woken && bitOf (regValue s 0 .pingCtrl 0) 0

/-- Whether a position is skipped in a round: masked, in FAULT, or its pier runs a burst (R118). -/
def pingSkips (s : State) (engine : Bool) (bay : Nat) : Bool :=
  aerialFault s bay ||
  (if engine then !bitOf (regValue s 0 .pingMask (bay / 32)) (bay % 32)
   else !bitOf (regValue s (6 + bay / 8) .lfPing 0) (24 + bay % 8) || (getPier s (bay / 8)).burst != none)

/-- A group's round begins: a carried confirming ping first, then the positions in order; eight slots. -/
def PingGroup.round (g : PingGroup) : PingGroup := { g with slots := g.carry.toList ++ List.range 8, left := 8, carry := none }

/-- Slots that pass without a ping before the next one. -/
def PingGroup.pass (skip : Nat → Bool) : List Nat → Nat → List Nat × Nat
  | k :: ks, n + 1 => if skip k then PingGroup.pass skip ks n else (k :: ks, n + 1)
  | _, _ => ([], 0)

/-- The group after a ping of position k: a detection short of CONFIRM is confirmed in the next slot, or carried over. -/
def PingGroup.step (g : PingGroup) (rest : List Nat) (left k : Nat) (again : Bool) (hits : Nat) : PingGroup :=
  if again then
    (if left ≤ 1 then { g with slots := [], left := 0, carry := some k, hits := vset g.hits k hits }
     else { g with slots := k :: rest, left := left - 1, hits := vset g.hits k hits })
  else { g with slots := rest, left := left - 1, hits := vset g.hits k hits }

/-- The ping group of a bay: the engine's or its pier's. -/
def pingGroup (s : State) (engine : Bool) (p : Nat) : PingGroup := if engine then vget PingGroup.reset s.lf.engine p else (getPier s p).ping

/-- A ping group replaced. -/
def setPingGroup (engine : Bool) (p : Nat) (g : PingGroup) (s : State) : State :=
  if engine then modLf (fun l => { l with engine := vset l.engine p g }) s else modPier p (fun q => { q with ping := g }) s

/-- PING_ROUND of one owner: the AON engine, or a pier whose pings are enabled (R118). S fields of the round latch.
(DESIGN CHOICE, log entry 34.) -/
def pingRound (owner : Option Nat) (s : State) : State :=
  match owner with
  | none =>
    if engineOwns s ∧ s.par.uvVinlf = false then
      let s := latchReg s 0 .pingCtrl 0
      modLf (fun l => { l with engine := l.engine.map PingGroup.round }) s
    else s
  | some p =>
    if canAct s (6 + p) ∧ lfEnabled s p ∧ bitOf (regValue s (6 + p) .lfPing 0) 0 ∧ s.par.thermalStop = false ∧ s.par.clockStop = false ∧ s.par.uvVinlf = false then
      modPier p (fun q => { q with ping := q.ping.round }) (latchReg s (6 + p) .lfPing 0)
    else s

/-- A measurement of a bay is tested: the baseline, the hits in a row and whether a detection is confirmed (R119, R120). -/
def pingTest (s : State) (engine : Bool) (bay amp phase : Nat) : Bool × Bool × Nat :=
  let base := regValue s 0 (if engine then .pingPbase else .pingRbase) bay
  let thr := if engine then regValue s 0 .pingThr 0 else regValue s (6 + bay / 8) .lfPthr 0
  let confirm := 1 + (if engine then bitsOf (regValue s 0 .pingCtrl 0) 22 2 else bitsOf (regValue s (6 + bay / 8) .lfPing 0) 16 2)
  let hits := vget 0 (pingGroup s engine (bay / 8)).hits (bay % 8)
  if bitOf base 31 && pingDetects thr base amp phase then (true, decide (confirm ≤ hits + 1), hits + 1) else (false, false, 0)

/-- The baseline after a ping of a bay. -/
def pingBaseline (engine : Bool) (bay amp phase : Nat) (s : State) : State :=
  let r : Reg := if engine then .pingPbase else .pingRbase
  let base := regValue s 0 r bay
  let thr := if engine then regValue s 0 .pingThr 0 else regValue s (6 + bay / 8) .lfPthr 0
  let t := pingTest s engine bay amp phase
  if t.2.1 ∨ bitOf base 31 = false then putReg s 0 r bay (baseWord amp phase)
  else if t.1 then s
  else putReg s 0 r bay (trackBase thr base amp phase)

/-- A confirmed detection: the DETUNE bit and, in PARK, the wake source (R119). The detuning request of RUN follows from
the pier program (MSG_DETUNE). -/
def pingConfirmed (engine : Bool) (bay : Nat) (s : State) : State :=
  let s := modLf (fun l => { l with detuned := vset l.detuned bay (some s.time.us) }) s
  if engine then
    fireWake 0 (modPark (fun k => { k with pingBay := some (bay, s.time.us) }) (modLf (fun l => { l with pingEvent := l.pingEvent ||| 2 ^ bay }) s))
  else modPier (bay / 8) (fun q => { q with event := q.event ||| 2 ^ (8 + bay % 8) }) s

/-- PING_DONE: the next ping of the bay's group is this bay's (R118 to R120, R123), or the pier's commanded PING. A ping
below 4 mA ends with 0x40: a strike, and no test (R370). (DESIGN CHOICE, log entry 34.) -/
def pingDone (bay amp phase : Nat) (s : State) : State :=
  let engine := engineOwns s
  let p := bay / 8
  let dead := decide (amp < 4)
  let t := if dead then (false, false, 0) else pingTest s engine bay amp phase
  let driven := fun s => if engine then s else countEvent (6 + p) 0x041 24 s
  let measured := fun s => if dead then aerialAfter bay true s
    else (if t.2.1 then pingConfirmed engine bay else id) (pingBaseline engine bay amp phase (aerialAfter bay false s))
  match (if engine then none else (getPier s p).burst) with
  | some b =>
    if canAct s (6 + p) ∧ b.mode = 1 ∧ b.armed = none ∧ b.aerial = bay % 8 then burstEnded p (if dead then 0x40 else if b.stopped then 0x48 else 0x00) (if dead then driven s else measured (driven s)) else s
  | none =>
    let g := pingGroup s engine p
    let r := PingGroup.pass (fun k => pingSkips s engine (bayOf p k)) g.slots g.left
    match r.1 with
    | k :: rest =>
      if k = bay % 8 ∧ (engine ∨ canAct s (6 + p)) then
        let s' := countEvent (6 + p) 0x042 (b2n t.1) (measured (driven s))
        setPingGroup engine p (g.step rest r.2 k (t.1 && !t.2.1) (if t.2.1 then 0 else t.2.2)) s'
      else s
    | [] => s

/-- The engine stops at the wake event: running measurements are discarded (R122). -/
def stopPingEngine (s : State) : State :=
  modLf (fun l => { l with engine := l.engine.map (fun g => { g with slots := [], left := 0, carry := none }) }) s

/-! ## Shutdowns (R101, R113, R370 to R373) -/

/-- A pier's burst or chord ends with a status at once. -/
def pierEnd (p : Nat) (st : Status) (s : State) : State :=
  burstEnded p st (modPier p (fun q => { q with ping := { q.ping with slots := [], left := 0 } }) s)

/-- Every pier's burst ends with a status. -/
def stopAllPiers (st : Status) (s : State) : State := (List.range 8).foldl (fun s p => pierEnd p st s) s

/-- A short opens a pier's bridges: its burst ends with 0x41 (R370); a ping of the AON engine is no burst of the pier. -/
def pierShort (p _bay : Nat) (s : State) : State := pierEnd p 0x41 s

/-- Every bridge group opens: bursts end with 0x41 (R370). -/
def openBridges (s : State) : State := stopAllPiers 0x41 s

/-- A pier leaves RUN (R101): its group opens and its block is reset at the next start; aerial states stay on the
high-voltage die. -/
def pierLeave (p : Nat) (s : State) : State := modLf (fun l => { l with piers := vset l.piers p Pier.reset }) s

/-! ## Registers as read (R124, R125) -/

/-- LF_STATUS. -/
def lfStatusWord (s : State) (p : Nat) : Nat :=
  let q := getPier s p
  let pinging := !q.ping.slots.isEmpty && decide (0 < q.ping.left)
  let taken := match q.burst with
    | some b => if b.armed = none ∧ b.mode = 0 ∧ b.stopped = false then txTaken s p b - b.taken else 0
    | none => 0
  b2n (q.burst != none || pinging) + 2 * q.aerial + 16 * q.mode +
    2 ^ 8 * q.last.toNat + 2 ^ 16 * (32 - (q.tx.length - taken)) + 2 ^ 22 * q.rx.length

/-- LF_AER. -/
def lfAerWord (s : State) (p : Nat) : Nat :=
  (List.range 8).foldl (fun w k => w + (getAerial s (bayOf p k)).state * 4 ^ k + 2 ^ 16 * ((getAerial s (bayOf p k)).strikes * 4 ^ k)) 0

end Sys2Proof.Machine
end

