-- ==== Sys2Proof/Machine/Rf.lean ====
section
/-! DEFINITION. The 2.4 GHz transceiver: commands, holding, calibration, automatic return, packets, coexistence, aerial
states and the wake receiver (06_rf_island.md). (DESIGN CHOICE, log entry 12.) -/

namespace Sys2Proof.Machine

/-- Channels 2 to 81 are valid (R156). -/
def chValid (ch : Nat) : Bool := decide (2 ≤ ch) && decide (ch ≤ 81)

/-- RF.CTRL.ENABLE. -/
def rfEnabled (s : State) : Bool := bitOf (regValue s 3 .rfCtrl 0) 0

/-- A contract is in force (R177). -/
def coexMode (s : State) : Bool := bitOf (regInForce s 3 .coexCfg 0) 0

/-- Whether device time lies in a guaranteed window of the contract in force (R94, R177). -/
def inCoexWindow (s : State) : Bool :=
  let period := liveField s 3 .coexPeriod 0 0 20
  let win := liveField s 3 .coexWin 0 0 20
  let phase := liveField s 3 .coexPhase 0 0 20
  coexMode s && decide (1000 ≤ period) && decide (phase ≤ s.time.us) && decide ((s.time.us - phase) % period < win)

/-- COEX_PRI follows the window while COEX_REQ may be raised (R177, R180). -/
def settlePri (s : State) : State := modRf (fun r => { r with pri := inCoexWindow s }) s

/-- COEX_REQ raised (R177, R180). -/
def raiseReq (s : State) : State := settlePri (modRf (fun r => { r with req := true }) s)

/-- COEX_REQ dropped. -/
def dropReq (s : State) : State := modRf (fun r => { r with req := false }) s

/-- A command ends: LAST and EVENT.DONE (R185). -/
def rfEnded (st : Status) (s : State) : State := modRf (fun r => { r with last := st, event := r.event ||| 1 }) s

/-- The die temperature used for calibration decisions, as the governor last published it. -/
def rfTemp (s : State) : Int := s.therm.tj

/-- Whether a channel's calibration is a track calibration (R159). -/
def trackCal (s : State) (ch : Nat) : Bool :=
  s.rf.cal.any (fun e => e.1 == ch && decide ((rfTemp s - e.2).natAbs < regField s 3 .synthCfg 0 1 5)) && !bitOf (regValue s 3 .synthCfg 0) 0

/-- A channel's stored code (R159). -/
def storeCode (ch : Nat) (s : State) : State :=
  modRf (fun r => { r with cal := (r.cal.filter (fun e => e.1 < ch)) ++ (ch, rfTemp s) :: r.cal.filter (fun e => decide (ch < e.1)) }) s

/-- The radio in a mode with nothing under way; OFF and WAKE select aerial 0 (R181). -/
def rfRest (m : RfMode) (s : State) : State :=
  modRf (fun r => { r with mode := m, phase := .idle, cur := none, locked := m == .synth
                           rfsel := if m = .off ∨ m = .wake then 0 else r.rfsel }) s

/-- Whether a transition of R158, a calibration among them, is under way. -/
def rfMoving (s : State) : Bool :=
  match s.rf.phase with
  | .moving _ => true
  | .calibrating _ => true
  | _ => false

/-- Whether a packet or test carrier is on air. -/
def onAir (s : State) : Bool := s.rf.phase == .active && s.rf.mode == .tx

/-- A command's calibration begins: each entry into SYNTH and each change of channel (R159). -/
def startCal (c : RfCmd) (s : State) : State :=
  modRf (fun r => { r with mode := .synth, phase := .calibrating c.ch, cur := some c, ch := c.ch, locked := false, earned := 0 }) s

/-- The buffer a TX sends from, LEN then payload (R185). -/
def txBuffer (s : State) : List Byte :=
  let a := rfSram + bitsOf (regValue s 3 .txPtr 0) 2 13 * 4
  let len := (Memory.read s.mem a).toNat
  memReadBytes s a (1 + len)

/-- A TX, RX or TEST command acts: its S fields latch, the aerial is selected, and it takes the air or waits for grant
(R161, R165, R167, R177, R181). -/
def takeAir (c : RfCmd) (s : State) : State :=
  let s := [Reg.autoReturn, .rxWin, .txPtr, .rxPtr].foldl (fun s r => latchReg s 3 r 0) s
  let max_ := regField s 3 .pwrMax 0 0 6
  let s := modRf (fun r => { r with
    cur := some { c with pwr := min c.pwr max_ }, rfsel := c.aerial, locked := true, air := if c.op = 3 then txBuffer s else []
    earned := if (c.op = 3 ∨ c.op = 6) ∧ max_ < c.pwr then 0x6A else 0
    phase := if coexMode s && !r.gnt then .waitGrant else .moving (if c.op = 4 then .rx else .tx) }) s
  raiseReq s

/-- A command acts with the synthesiser available: on the locked channel at once, else after a calibration. -/
def actCmd (c : RfCmd) (s : State) : State :=
  if c.op = 7 then startCal { c with ch := 2 } s
  else if s.rf.locked ∧ s.rf.ch = c.ch then
    (if c.op = 2 then rfRest .synth (rfEnded 0x00 s) else takeAir c s)
  else startCal c s

/-- The held command acts at the end of a transition or packet (R161, R163). -/
def actHeld (s : State) : State :=
  match s.rf.held with
  | some c => actCmd c (modRf (fun r => { r with held := none }) s)
  | none => s

/-- The checks of R164 in order. -/
def rfCmdStatus (s : State) (c : RfCmd) : Status :=
  if rfEnabled s = false then 0x02
  else if c.op ≠ 7 ∧ chValid c.ch = false then 0x69
  else if (c.op = 3 ∨ c.op = 4 ∨ c.op = 6) ∧ (vget ⟨3, 0⟩ s.rf.ants c.aerial).state = 2 then 0x0D
  else if c.op = 3 ∧ ((txBuffer s).length = 1 ∨ 129 < (txBuffer s).length) then 0x67
  else 0x00

/-- A command is held, in place of any held before it; one for another channel abandons the calibration (R161, R162). -/
def holdCmd (c : RfCmd) (s : State) : State :=
  let s := if s.rf.held ≠ none then rfEnded 0x60 s else s
  let s := if c.op = 3 ∨ c.op = 4 ∨ c.op = 6 then raiseReq s else s
  match s.rf.phase with
  | .calibrating ch =>
    if c.op ≠ 7 ∧ c.ch ≠ ch then modRf (fun r => { r with held := none }) (startCal c s) else modRf (fun r => { r with held := some c }) s
  | _ => modRf (fun r => { r with held := some c }) s

/-- A TX, RX, SYNTH, TEST or CAL_ALL command (R161 to R164, R197). -/
def rfCommand (c : RfCmd) (s : State) : Status × State :=
  let st := rfCmdStatus s c
  if st ≠ 0 then (st, s)
  else if rfMoving s ∨ onAir s ∨ s.psr.busy then (0x00, holdCmd c s)
  else
    let s := if s.rf.mode = .rx ∧ s.rf.phase = .active then rfEnded 0x63 s else s
    let s := if c.op = 3 ∨ c.op = 4 ∨ c.op = 6 then raiseReq s else dropReq s
    (0x00, actCmd c s)

/-- OFF, STANDBY and WAKE act at once: a held command ends with 0x60, a packet with 0x63, an exchange with 0x63 (R162,
R197). -/
def rfAtOnce (m : RfMode) (s : State) : State :=
  let s := if s.rf.held ≠ none then rfEnded 0x60 s else s
  let s := if s.rf.phase = .active then modRf (fun r => { r with rxStatus := if r.mode = .rx then 0x63 else r.rxStatus }) (rfEnded 0x63 s) else s
  let s := if s.psr.busy then modPsr (fun p => { p with busy := false, last := 0x63, owed := true }) s else s
  modRf (fun r => { r with phase := if r.mode = m then .idle else .moving m, mode := m, cur := none, held := none, locked := false
                           rfsel := if m = .off ∨ m = .wake then 0 else r.rfsel }) (dropReq s)

/-- OFF, STANDBY or WAKE as a command: it ends when its state is reached. -/
def rfRestAct (op : Nat) (m : RfMode) (s : State) : State :=
  let s := rfAtOnce m s
  if s.rf.phase = .idle then rfEnded 0x00 s
  else modRf (fun r => { r with cur := some { op := op, ch := r.ch, aerial := r.rfsel, pwr := 0, rate := false } }) s

/-- A command that acts at once, after the ENABLE check of R164. -/
def rfRestCommand (op : Nat) (m : RfMode) (s : State) : Status × State :=
  if rfEnabled s then (0x00, rfRestAct op m s) else (0x02, s)

/-- Automatic return after a packet or window: 0 STANDBY, 1 SYNTH, 2 RX, 3 WAKE (R165). A held command takes its place. -/
def autoReturn (code : Nat) (s : State) : State :=
  if s.rf.held ≠ none then actHeld (dropReq (rfRest .synth s))
  else match code with
    | 0 => dropReq (modRf (fun r => { r with mode := .standby, phase := .moving .standby, cur := none, locked := false }) s)
    | 1 => dropReq (modRf (fun r => { r with mode := .synth, phase := .moving .synth, cur := none }) s)
    | 2 => modRf (fun r => { r with phase := .moving .rx, cur := some { op := 4, ch := r.ch, aerial := r.rfsel, pwr := 0, rate := (r.cur.map (·.rate)).getD false } }) s
    | _ => dropReq (modRf (fun r => { r with mode := .wake, phase := .moving .wake, cur := none, locked := false, rfsel := 0 }) s)

/-- RF_TRANSITION_DONE (R158): the transition under way ends; a packet goes on air, a search or test begins, or the radio
rests. A held command then acts (R161). -/
def rfTransitionDone (s : State) : State :=
  match s.rf.phase with
  | .moving m =>
    let s := modRf (fun r => { r with mode := m, phase := if (m = .tx ∨ m = .rx) ∧ r.cur ≠ none then .active else .idle
                                      locked := r.locked && (m == .synth || m == .tx || m == .rx) }) s
    let resting := (s.rf.cur.map (fun c => c.op == 0 || c.op == 1 || c.op == 5)).getD false
    if resting then
      actHeld (rfEnded 0x00 (modRf (fun r => { r with cur := none, phase := .idle }) s))
    else if s.rf.phase = .active ∧ s.rf.mode = .tx then
      match s.rf.cur with
      | some c => if c.op = 3 then emit (.packet c.ch c.aerial s.rf.air) (countEvent 3 0x040 1 s) else s
      | none => s
    else if s.rf.held ≠ none ∧ (s.rf.phase = .idle ∨ s.rf.mode = .rx) then actHeld s
    else s
  | _ => s

/-- SYNTH_LOCK (R159, R161): the calibration ends; a full one stores the code; the held command, else the command that
asked for it, goes on. -/
def synthLock (s : State) : State :=
  match s.rf.phase with
  | .calibrating ch =>
    let full := !trackCal s ch || (s.rf.cur.map (·.op)) == some 7
    let s := if full then countEvent 3 0x043 1 (storeCode ch s) else countEvent 3 0x044 1 s
    match s.rf.cur with
    | some c =>
      if c.op = 7 then
        (if ch < 81 then modRf (fun r => { r with phase := .calibrating (ch + 1), cur := some { c with ch := ch + 1 }, ch := ch + 1 }) s
         else
           let s := rfEnded 0x00 (rfRest .standby s)
           actHeld s)
      else
        let s := modRf (fun r => { r with locked := true, phase := .idle, mode := .synth }) s
        if s.rf.held ≠ none then actHeld (if c.op = 2 then rfEnded 0x00 s else rfEnded 0x60 s)
        else if c.op = 2 then rfRest .synth (rfEnded 0x00 s)
        else takeAir c s
    | none => s
  | _ => s

/-- SYNTH_LOCK_TIMEOUT (R160): the radio returns to STANDBY, the code is lost, and the command and any held one end with
0x0B. -/
def synthLockTimeout (s : State) : State :=
  match s.rf.phase with
  | .calibrating ch =>
    let s := if s.psr.busy then modPsr (fun p => { p with busy := false, last := 0x0B, owed := true }) s else s
    dropReq (rfEnded 0x0B (modRf (fun r => { r with
      mode := .standby, phase := .moving .standby, cur := none, held := none, locked := false
      cal := r.cal.filter (fun e => e.1 != ch), event := r.event ||| 8 }) s))
  | _ => s

/-- TX_PACKET_END: the last CRC bit leaves; the command ends and TX_RET applies (R163, R165). -/
def txPacketEnd (s : State) : State :=
  match s.rf.cur with
  | some c => if onAir s ∧ c.op = 3 then autoReturn (liveField s 3 .autoReturn 0 0 2) (rfEnded s.rf.earned s) else s
  | none => s

/-- TEST_CARRIER_END: the 40 µs carrier of a TEST ends (R183). -/
def testCarrierEnd (s : State) : State :=
  match s.rf.cur with
  | some c => if onAir s ∧ c.op = 6 then actHeld (dropReq (rfRest .synth (rfEnded s.rf.earned s))) else s
  | none => s

/-- REFLECTION_MEASURE (R182, R183): a transmission in progress is measured; the aerial's state moves. -/
def reflectionMeasure (mag : Nat) (short : Bool) (s : State) : State :=
  if onAir s then
    let bad := decide (regField s 3 .reflThr 0 0 6 < mag) || decide (51 ≤ mag)
    let k := s.rf.rfsel
    let a := vget ⟨3, 0⟩ s.rf.ants k
    let b := a.after bad
    let s := modRf (fun r => { r with
      reflMag := mag, reflShort := short, reflAerial := k, reflValid := true, ants := vset r.ants k b
      earned := if bad then 0x64 else r.earned
      cur := if 51 ≤ mag then r.cur.map (fun c => { c with pwr := 0 }) else r.cur
      event := if a.state ≠ 2 ∧ b.state = 2 then r.event ||| 2 ^ (8 + k) else r.event }) s
    if a.state ≠ 2 ∧ b.state = 2 ∧ canAct s 1 then deckFault 0x0D 3 (0x80 + k) s.time.us [] s else s
  else s

/-- ANT_CLR (R183). -/
def antClear (mask : Nat) (s : State) : State :=
  modRf (fun r => { r with ants := (List.range 4).foldl (fun v k => if bitOf mask k then vset v k ⟨3, 0⟩ else v) r.ants }) s

/-- A packet type the radio receives (R170). -/
def knownType (t : Nat) : Bool := t == 0x43 || t == 0x48 || t == 0x51 || t == 0x52 || (decide (0x54 ≤ t) && decide (t ≤ 0x57))

/-- What a received packet's checks give (R169, R170). -/
def rxCheck (len : Nat) (payload : List Byte) (crc : Nat) : Status :=
  if len = 0 ∨ 128 < len then 0x67
  else if crc24 (BitVec.ofNat 8 len :: padTo len payload) ≠ crc then 0x62
  else if knownType (leAt payload 0 1) = false then 0x68
  else 0x00

/-- A packet has been received whole: RX_INFO, RX_TIME, the buffer, the events and RX_RET (R165, R169, R185). -/
def rxPacket (len : Nat) (payload : List Byte) (crc rssi time : Nat) (s : State) : State :=
  let st := rxCheck len payload crc
  let p := padTo len payload
  let hello := st == 0x00 && leAt p 0 1 == 0x48
  let s := modRf (fun r => { r with
    rxLen := len, rxRssi := rssi, rxStatus := st, rxAerial := r.rfsel, rxTime := time
    event := r.event ||| (if st = 0x62 ∨ st = 0x67 then 0 else 2) ||| 4 * b2n hello }) s
  let s := if st = 0x00 then
      countEvent 3 0x041 1 (memWriteBytes (rfSram + liveField s 3 .rxPtr 0 2 13 * 4) (BitVec.ofNat 8 len :: p) s)
    else if st = 0x62 then countEvent 3 0x042 1 s else s
  autoReturn (liveField s 3 .autoReturn 0 2 2) (rfEnded st s)

/-- RX_WINDOW_CLOSE (R165, R173). -/
def rxWindowClose (s : State) : State :=
  if s.rf.mode = .rx ∧ s.rf.phase = .active then autoReturn (liveField s 3 .autoReturn 0 2 2) (rfEnded 0x61 s) else s

/-! ## Coexistence (R177 to R180) -/

/-- COEX_GRANT: the input rises; a command that waited goes on. (DEDUCED, log entry 35.) -/
def coexGrant (s : State) : State :=
  let s := modRf (fun r => { r with gnt := true }) s
  match s.rf.phase, s.rf.cur with
  | .waitGrant, some c => modRf (fun r => { r with phase := .moving (if c.op = 4 then .rx else .tx) }) s
  | _, _ => s

/-- A command ends for want of grant: in a window a breach, 0x0C and DENIED, outside with the given status. -/
def coexEnd (outside : Status) (preempt : Bool) (s : State) : State :=
  let w := inCoexWindow s
  let s := modRf (fun r => { r with
    denied := if w then satTo 0xFFFF (r.denied + 1) else r.denied
    preempted := if !w && preempt then satTo 0xFFFF (r.preempted + 1) else r.preempted
    event := if w || preempt then r.event ||| 16 else r.event }) s
  let s := if s.psr.busy ∧ w then modPsr (fun p => { p with busy := false, last := 0x0C, owed := true }) s else s
  rfEnded (if w then 0x0C else outside) s

/-- COEX_WITHDRAW: grant falls before COEX_REQ: the packet, search or wait ends within 2 µs (R178, R179).
(DEDUCED, log entry 35.) -/
def coexWithdraw (s : State) : State :=
  let s := modRf (fun r => { r with gnt := false }) s
  if coexMode s ∧ s.rf.req ∧ (s.rf.mode = .tx ∨ s.rf.mode = .rx) ∧ s.rf.cur ≠ none then
    actHeld (dropReq (rfRest .synth (coexEnd 0x65 true s)))
  else s

/-- COEX_GRANT_TIMEOUT: no grant within G inside a window (R178). -/
def coexGrantTimeout (s : State) : State :=
  if s.rf.phase = .waitGrant ∧ inCoexWindow s then actHeld (dropReq (rfRest .synth (coexEnd 0x0C false s))) else s

/-- COEX_WAIT_TIMEOUT: no grant within COEX_WAIT outside windows (R179). -/
def coexWaitTimeout (s : State) : State :=
  if s.rf.phase = .waitGrant ∧ inCoexWindow s = false then actHeld (dropReq (rfRest .synth (coexEnd 0x66 false s))) else s

/-! ## The wake receiver (R175, R176) and leaving RUN -/

/-- Whether the wake receiver listens (R175). -/
def wurxListens (s : State) : Bool :=
  bitOf (regValue s 0 .wurxCfg 0) 0 && (!isRun s 3 || s.rf.mode == .off || s.rf.mode == .wake)

/-- CRC-8 of R140 over SITE and TYPE, most significant byte first. -/
def wakeCrc (site typ : Nat) : Nat := crcBits 8 0x07 0 ((beBytes 3 site ++ beBytes 1 typ).flatMap byteBits)

/-- Whether a wake packet is accepted (R176). (DEDUCED, log entry 35.) -/
def wakeAccepted (s : State) (site typ crc : Nat) : Bool :=
  wakeCrc site typ == crc && typ == 0x48 && (bitOf (regValue s 0 .wurxCfg 0) 8 || site == regField s 0 .wurxSite 0 0 24)

/-- The wake receiver's count and last packet (R176, R186). -/
def wakeCounted (site typ crc : Nat) (s : State) : State :=
  let ok := wakeAccepted s site typ crc
  modRf (fun r => { r with
    wurxHello := if ok then satTo 0xFFFF (r.wurxHello + 1) else r.wurxHello
    wurxBad := if ok then r.wurxBad else satTo 0xFFFF (r.wurxBad + 1)
    wurxSite := if wakeCrc site typ = crc then site else r.wurxSite
    wurxTyp := if wakeCrc site typ = crc then typ else r.wurxTyp }) s

/-- The radio is off at once: a thermal stop, a clock stop or the end of RUN (R372, R373). -/
def radioOff (s : State) : State :=
  let s := rfAtOnce .off s
  modRf (fun r => { r with phase := .idle }) s

/-- The RF island leaves RUN: every code becomes invalid and its registers' state is lost; aerial states and the wake
receiver stay on AON (R159, R183, R186). -/
def rfLeave (s : State) : State :=
  modPsr (fun _ => PsrState.reset) (modRf (fun r => { RfState.reset with
    ants := r.ants, gnt := r.gnt, wurxHello := r.wurxHello, wurxBad := r.wurxBad, wurxSite := r.wurxSite, wurxTyp := r.wurxTyp }) s)

/-! ## Registers as read (R185, R186) -/

/-- The code of a transceiver state (R157). -/
def RfMode.code : RfMode → Nat
  | .off => 0
  | .standby => 1
  | .synth => 2
  | .tx => 3
  | .rx => 4
  | .wake => 5

/-- RF.STATUS. -/
def rfStatusWord (s : State) : Nat :=
  let r := s.rf
  r.mode.code + 8 * b2n (r.phase != .idle || r.held != none) + 16 * b2n r.locked + 32 * b2n (r.held != none) + 64 * r.ch +
    2 ^ 13 * r.rfsel + 2 ^ 15 * b2n r.gnt + 2 ^ 16 * r.last.toNat

/-- RF.CAL_VALIDk. -/
def calValidWord (s : State) (k : Nat) : Nat :=
  (List.range 32).foldl (fun w j => w + 2 ^ j * b2n (s.rf.cal.any (fun e => e.1 == 32 * k + j))) 0

/-- RF.ANT_STATE. -/
def antStateWord (s : State) : Nat :=
  (List.range 4).foldl (fun w k => w + (vget ⟨3, 0⟩ s.rf.ants k).state * 4 ^ k + 2 ^ 8 * ((vget ⟨3, 0⟩ s.rf.ants k).strikes * 4 ^ k)) 0

/-- RF.RX_INFO. -/
def rxInfoWord (s : State) : Nat := s.rf.rxLen + 2 ^ 8 * (s.rf.rxRssi % 256) + 2 ^ 16 * s.rf.rxStatus.toNat + 2 ^ 24 * s.rf.rxAerial

/-- RF.REFL_LAST. -/
def reflWord (s : State) : Nat := s.rf.reflMag + 64 * b2n s.rf.reflShort + 128 * s.rf.reflAerial + 512 * b2n s.rf.reflValid

end Sys2Proof.Machine
end

