-- ==== Sys2Proof/Machine/Prox.lean ====
section
/-! DEFINITION. Ranging and the proximity verdict: the exchange, the field vector, the ranges and the fusion of
07_proximity_verdict.md. -/

namespace Sys2Proof.Machine

/-! ## The ranging exchange (R194 to R197, R207) -/

/-- A write to RF.PSR_CTRL with START: its S fields are stored and latch as the exchange starts; a START while one runs
changes nothing more. -/
def psrStart (word : Nat) (s : State) : State :=
  let s := putReg s 3 .psrCtrl 0 (word &&& (rowFor 3 .psrCtrl).rw)
  if s.psr.busy then s
  else modPsr (fun p => { p with busy := true, leg := 0, owed := false, pong := none, result := none
                                 s := Vector.replicate 4 0, q := Vector.replicate 4 0, snr := Vector.replicate 4 0, t4mt1 := 0, t4 := 0 })
    (latchReg s 3 .psrCtrl 0)

/-- A write with ABORT: a running exchange ends with 0x63. -/
def psrAbort (word : Nat) (s : State) : State :=
  let s := putReg s 3 .psrCtrl 0 (word &&& (rowFor 3 .psrCtrl).rw)
  if s.psr.busy then actHeld (modPsr (fun p => { p with busy := false, last := 0x63, owed := true }) s) else s

/-- PSR_LEG: the next leg starts; legs run in order 0 to 8 (R194, R196). -/
def psrLeg (leg : Nat) (s : State) : State :=
  if s.psr.busy ∧ (leg = s.psr.leg ∨ leg = s.psr.leg + 1) then modPsr (fun p => { p with leg := leg }) s else s

/-- PSR_EXCHANGE_END: the exchange ends with its status and what was measured on the aerials in USE (R196, R198). -/
def psrEnd (st : Status) (m : PsrMeasure) (s : State) : State :=
  if s.psr.busy then
    let use := liveField s 3 .psrCtrl 0 4 4
    let f : (AerialRange → Nat) → Vector Nat 4 := fun g =>
      (Vector.range 4).map (fun a => if bitOf use a then (match m.ranges[a]? with | some r => g r | none => 0) else 0)
    actHeld (modPsr (fun p => { p with
      busy := false, last := st, owed := true, s := f (·.s), q := f (·.q), snr := f (·.snr), t4mt1 := m.t4mt1, t4 := m.t4Device
      pong := m.pong, result := m.result }) s)
  else s

/-- PSR_STATUS. -/
def psrStatusWord (s : State) : Nat := b2n s.psr.busy + 2 * s.psr.leg + 2 ^ 8 * s.psr.last.toNat

/-! ## The field vector (R136, R188, R189) -/

/-- A signed 16-bit field, most significant byte first, squared. -/
def sq16 (hi lo : Byte) : Nat :=
  let v := hi.toNat * 256 + lo.toNat
  let m := if v < 32768 then v else 65536 - v
  m * m

/-- |V(k)|² of a report payload in squared component units. -/
def codeSq (rep : List Byte) (k : Nat) : Nat :=
  let b : Nat → Byte := fun i => rep.getD (18 + 6 * k + i) 0
  sq16 (b 0) (b 1) + sq16 (b 2) (b 3) + sq16 (b 4) (b 5)

/-- SCALE of a report. -/
def repScale (rep : List Byte) : Nat := (rep.getD 14 0).toNat % 16

/-- |V(k)|² in pT². -/
def codePt (rep : List Byte) (k : Nat) : Nat := 4 ^ repScale rep * codeSq rep k

/-- FOB_ID of a report, as on air. -/
def repFob (rep : List Byte) : Nat := ofBe (sliceZ rep 2 8)

/-- WAKE_CTR of a report. -/
def repWake (rep : List Byte) : Nat := ofBe (sliceZ rep 10 4)

/-- The codes present, strongest first by (magnitude, lowest bay): the code a report places its fob at (R188). `fired`
holds each pier's driven position in 3 bits. -/
def strongest (rep : List Byte) (present : Nat) : Nat → Option Nat
  | 0 => none
  | n + 1 =>
    match strongest rep present n with
    | none => if bitOf present n then some n else none
    | some k => if bitOf present n ∧ codeSq rep k < codeSq rep n then some n else some k

/-- The bay a chord drove on pier k. -/
def firedBay (fired k : Nat) : Nat := 8 * k + bitsOf fired (3 * k) 3

/-- The bay a report places its fob at (R188). -/
def reportBay (rep : List Byte) (present fired : Nat) : Option Nat := (strongest rep present 8).map (firedBay fired)

/-- The strongest of the other present codes, or the noise floor (R189), squared. -/
def rivalSq (rep : List Byte) (present n : Nat) : Nat :=
  let noise := 3 * ofBe (sliceZ rep 16 2)
  (List.range 8).foldl (fun m k => if k ≠ n ∧ bitOf present k then max m (max (codeSq rep k) (noise * noise)) else m) 0

/-- Whether 10 × log10(a / b) is at least m quarter decibels: a^40 ≥ b^40 × 10^m. -/
def marginMet (a b m : Nat) : Bool := decide (b ^ 40 * 10 ^ m ≤ a ^ 40)

/-- The largest margin met below n, in quarter decibels (R208). -/
def marginOf (a b : Nat) : Nat → Nat
  | 0 => 0
  | n + 1 => if marginMet a b (n + 1) then n + 1 else marginOf a b n

/-! ## Geometry (R203, R204) -/

/-- A signed 16-bit little-endian field. -/
def s16 (bs : List Byte) (o : Nat) : Int :=
  let v := leAt bs o 2
  if v < 32768 then v else (v : Int) - 65536

/-- Whether the header is valid. -/
def geoHeaderOk (h : List Byte) : Bool :=
  let rng := fun (o a b : Nat) => decide (a ≤ leAt h o 1) && decide (leAt h o 1 ≤ b)
  leAt h 0 1 == 1 && decide (leAt h 1 1 < 16) && rng 13 10 255 && rng 14 20 200 && rng 15 10 100 && rng 16 64 250 &&
    sliceZ h 17 15 == List.replicate 15 0

/-- Whether a bay's entry is valid under a header. -/
def geoEntryOk (h e : List Byte) : Bool :=
  let use := leAt e 2 1
  let prim := leAt e 1 1
  let cnt := (List.range 4).foldl (fun n a => n + b2n (bitOf use a)) 0
  leAt e 0 1 == 1 && decide (prim < 4) && decide (use < 16) && (use &&& leAt h 1 1) == use && bitOf use prim &&
    decide (1 ≤ leAt e 3 1) && decide (leAt e 3 1 ≤ cnt) && decide (1 ≤ leAt e 4 2) && leAt e 7 1 == 0 &&
    (List.range 4).all (fun a => decide (leAt e (16 + 4 * a) 2 ≤ leAt e (18 + 4 * a) 2))

/-- The geometry header of the active policy set. -/
def geoHeader (s : State) : List Byte := memReadBytes s (policyBase s + 0x580) 32

/-- A bay's geometry entry of the active policy set. -/
def geoEntry (s : State) (bay : Nat) : List Byte := memReadBytes s (policyBase s + 0x5A0 + 32 * bay) 32

/-! ## Ranges (R199 to R201), in units of 1/20 cm -/

/-- The nearest integer to a/b, halves upwards; b positive. -/
def roundDiv (a b : Int) : Int := (2 * a + b) / (2 * b)

/-- The nearest integer to a/b, halves downwards. -/
def roundDown (a b : Int) : Int := -(roundDiv (-a) b)

/-- A negative distance is clamped to 0. -/
def clamp0 (x : Int) : Int := if x < 0 then 0 else x

/-- Everything the fusion looks at. -/
structure PxIn where
  now     : Nat
  bay     : Nat
  req     : Nat
  fob     : Bool
  report  : List Byte
  present : Nat
  fired   : Nat
  evLf    : Option Nat
  evAuth  : Option Nat
  bound   : Bool
  psr     : Option PsrState
  plain   : List Byte
  mPong   : List Byte
  header  : List Byte
  entry   : List Byte

/-- Whether header and entry are valid. -/
def PxIn.geo (i : PxIn) : Bool := geoHeaderOk i.header && geoEntryOk i.header i.entry

/-- QMIN, 128 with an invalid header. -/
def PxIn.qmin (i : PxIn) : Nat := if geoHeaderOk i.header then leAt i.header 16 1 else 128

/-- USE and PRIMARY, with their reset values where the geometry is invalid (R205). -/
def PxIn.use (i : PxIn) : Nat := if i.geo then leAt i.entry 2 1 else 1

/-- PRIMARY. -/
def PxIn.primary (i : PxIn) : Nat := if i.geo then leAt i.entry 1 1 else 0

/-- The exchange gave a PONG and a RESULT. -/
def PxIn.answered (i : PxIn) : Bool := (i.psr.map (fun p => p.pong.isSome && p.result.isSome)).getD false

/-- Aerial a is in USE and reaches 12 dB. -/
def PxIn.heard (i : PxIn) (a : Nat) : Bool := bitOf i.use a && (i.psr.map (fun p => decide (12 ≤ vget 0 p.snr a))).getD false

/-- Its quality reaches QMIN. -/
def PxIn.good (i : PxIn) (a : Nat) : Bool := i.heard a && (i.psr.map (fun p => decide (i.qmin ≤ vget 0 p.q a))).getD false

/-- Mask failure (R199) or a wrong M_PONG. -/
def PxIn.maskFails (i : PxIn) : Bool :=
  (i.answered && (List.range 4).any i.heard && (List.range 4).all (fun a => !i.heard a || !i.good a)) ||
    (match i.psr.bind (·.pong) with
      | some p => sliceZ p 5 8 != i.mPong
      | none => false)

/-- Aerial a gives a range: it is good and so is the primary, under a valid geometry (R199, R200, R205). -/
def PxIn.ranges (i : PxIn) (a : Nat) : Bool := i.geo && i.answered && i.good i.primary && i.good a

/-- A cable offset in 1/20 cm. -/
def PxIn.off (i : PxIn) (a : Nat) : Int := 20 * s16 i.header (4 + 2 * a)

/-- S of an aerial in cm. -/
def PxIn.sum (i : PxIn) (a : Nat) : Int := ((i.psr.map (fun p => vget 0 p.s a)).getD 0 : Nat)

/-- RTT_prop in 0.25 ns (R201). -/
def PxIn.rtt (i : PxIn) : Int :=
  ((i.psr.map (·.t4mt1)).getD 0 : Int) - (leAt i.plain 0 4 : Nat) - (leAt i.header 2 2 : Nat)

/-- The whole turns k that the RTT adds to the primary range (R201). -/
def PxIn.turns (i : PxIn) : Int :=
  let dp := clamp0 (10 * i.sum i.primary - i.off i.primary)
  clamp0 (roundDiv (74948 * i.rtt - 1000 * dp) 299792000)

/-- The resolved primary range (R201). -/
def PxIn.dPrimary (i : PxIn) : Int := clamp0 (10 * i.sum i.primary + 299792 * i.turns - i.off i.primary)

/-- The resolved range of an aerial (R200, R201). (DESIGN CHOICE, log entry 33.) -/
def PxIn.dist (i : PxIn) (a : Nat) : Int :=
  if a = i.primary then i.dPrimary
  else
    let base := 20 * i.sum a - (10 * i.sum i.primary + 299792 * i.turns) - i.off a
    clamp0 (base + 599584 * roundDown (i.dPrimary - clamp0 base) 599584)

/-- The RTT excess times 299,792,458, in 0.25 ns (R201). -/
def PxIn.excessNum (i : PxIn) : Int := 299792458 * i.rtt - 4000000 * i.dPrimary

/-- Evidence older than 300 ms (R202). -/
def PxIn.stale (i : PxIn) (t : Option Nat) : Bool :=
  match t with
  | some x => decide (x + 300000 < i.now)
  | none => false

/-- The measurement instant of PSR. -/
def PxIn.evPsr (i : PxIn) : Option Nat := if i.answered then i.psr.map (·.t4) else none

/-! ### The LF evidence -/

/-- The span's pier. -/
def PxIn.pier (i : PxIn) : Nat := i.bay / 8

/-- |V(N)| is below LF_MIN. -/
def PxIn.lfWeak (i : PxIn) : Bool := decide (codePt i.report i.pier < (1000 * leAt i.entry 4 2) ^ 2)

/-- FLAGS.SAT. -/
def PxIn.saturated (i : PxIn) : Bool := bitOf (i.report.getD 15 0).toNat 0

/-- The bay margin in 0.25 dB. -/
def PxIn.bayMargin (i : PxIn) : Nat := if leAt i.entry 6 1 = 0 then leAt i.header 12 1 else leAt i.entry 6 1

/-- The margin is not met. -/
def PxIn.lfMargin (i : PxIn) : Bool :=
  let r := rivalSq i.report i.present i.pier
  r != 0 && !marginMet (codeSq i.report i.pier) r i.bayMargin

/-- A neighbour was not measured (R189). -/
def PxIn.unmeasured (i : PxIn) : Bool :=
  (List.range 64).any (fun j => bitOf (leAt i.entry 8 8) j && j != i.bay &&
    (!bitOf i.present (j / 8) || firedBay i.fired (j / 8) != j))

/-- The LF evidence passes (R189, R190). -/
def PxIn.lfPasses (i : PxIn) : Bool :=
  i.evLf.isSome && (if i.fob then
    i.geo && !i.saturated && !i.lfWeak && !i.lfMargin && (!i.unmeasured || bitOf i.req 2) else true)

/-! ### The rows of R205 -/

/-- RMIN and RMAX of an aerial in 1/20 cm. -/
def PxIn.rmin (i : PxIn) (a : Nat) : Int := 20 * (leAt i.entry (16 + 4 * a) 2 : Nat)
/-- RMAX of an aerial in 1/20 cm. -/
def PxIn.rmax (i : PxIn) (a : Nat) : Int := 20 * (leAt i.entry (18 + 4 * a) 2 : Nat)

/-- Row 3: e > RTT_MAX. -/
def PxIn.row3 (i : PxIn) : Bool := i.ranges i.primary && decide (4 * (leAt i.header 14 1 : Nat) * (299792458 : Int) < i.excessNum)

/-- Row 4: e < −RTT_NEG. -/
def PxIn.row4 (i : PxIn) : Bool := i.ranges i.primary && decide (i.excessNum < -(4 * (leAt i.header 15 1 : Nat) * (299792458 : Int)))

/-- Row 5: near by LF and far by every range. RELAY_GAP is in 0.1 m. -/
def PxIn.row5 (i : PxIn) : Bool :=
  i.lfPasses && (List.range 4).any i.ranges &&
    (List.range 4).all (fun a => !i.ranges a || decide (i.rmax a + 200 * (leAt i.header 13 1 : Nat) < i.dist a))

/-- Row 9's check: a range beyond RMAX. -/
def PxIn.far (i : PxIn) : Bool := (List.range 4).any (fun a => i.ranges a && decide (i.rmax a < i.dist a))

/-- Row 14's check: a range below RMIN. -/
def PxIn.near (i : PxIn) : Bool := (List.range 4).any (fun a => i.ranges a && decide (i.dist a < i.rmin a))

/-- Aerials with an in-window range. -/
def PxIn.inWindow (i : PxIn) (a : Nat) : Bool := i.ranges a && decide (i.rmin a ≤ i.dist a) && decide (i.dist a ≤ i.rmax a)

/-- Row 15's check: fewer than MIN_AER in-window ranges. -/
def PxIn.few (i : PxIn) : Bool := decide ((List.range 4).foldl (fun n a => n + b2n (i.inWindow a)) 0 < leAt i.entry 3 1)

/-- The verdict of R205: outcome code of R187 and reason. -/
def PxIn.verdict (i : PxIn) : Nat × Status :=
  let rAuth := bitOf i.req 0
  let rLf := bitOf i.req 1
  let rPsr := bitOf i.req 2
  if i.fob && !i.bound then (3, 0x7C)
  else if i.maskFails then (3, 0x7A)
  else if i.row3 then (3, 0x78)
  else if i.row4 then (3, 0x79)
  else if i.row5 then (3, 0x7B)
  else if (rAuth && i.stale i.evAuth) || (rLf && i.stale i.evLf) || (rPsr && i.stale i.evPsr) then (1, 0x70)
  else if (rLf || rPsr) && !i.geo then (1, 0x7E)
  else if rLf && i.fob && i.lfWeak then (2, 0x71)
  else if rPsr && i.far then (2, 0x75)
  else if rLf && i.fob && i.saturated then (1, 0x73)
  else if rLf && i.fob && i.lfMargin then (1, 0x72)
  else if rLf && i.fob && i.unmeasured && !rPsr then (1, 0x74)
  else if rPsr && !i.answered then (1, 0x7D)
  else if rPsr && i.near then (1, 0x76)
  else if rPsr && i.few then (1, 0x77)
  else (0, 0x00)

/-- The evidence bits that passed (R205). -/
def PxIn.evidence (i : PxIn) : Nat :=
  b2n (i.evAuth.isSome && !i.stale i.evAuth) + 2 * b2n (i.lfPasses && !i.stale i.evLf) +
    4 * b2n (i.answered && !i.stale i.evPsr && i.ranges i.primary && !i.maskFails && !i.row3 && !i.row4 && !i.row5 &&
      !i.far && !i.near && !i.few)

/-- EXCESS as the register holds it: 16 bits, signed. What a value outside them reads as is open.
(DESIGN CHOICE, log entry 33.) -/
def excessField (e : Int) : Nat := if -32768 ≤ e ∧ e < 32768 then (e % 65536).toNat else (Config.excessOverflow e).toNat

/-- The bay's DECK.PROX registers after the verdict (R208). Distances are given to the nearest centimetre. -/
def PxIn.result (i : PxIn) : ProxRes :=
  let v := i.verdict
  { verdict := v.1, reason := v.2, evidence := i.evidence
    aerOk := (List.range 4).foldl (fun w a => w + 2 ^ a * b2n (i.inWindow a)) 0
    d := (Vector.range 4).map (fun a => if i.ranges a then satTo 0xFFFE (roundDiv (i.dist a) 20).toNat else 0xFFFF)
    excess := if i.ranges i.primary then excessField (roundDiv i.excessNum 299792458) else 0
    margin := if i.fob ∧ i.evLf.isSome then
        (let r := rivalSq i.report i.present i.pier
         if r = 0 then 255 else marginOf (codeSq i.report i.pier) r 255) else 0 }

end Sys2Proof.Machine
end

