-- ==== Sys2Proof/Machine/Space.lean ====
section
/-! DEFINITION. The address map: which island serves an address, and words of memory read and written through it
(R21, R41, R42, R234). -/

namespace Sys2Proof.Machine

/-- What an address of the viaduct map names (R41, R42). Memory places carry the key of their bytes. -/
inductive Place where
  | mram (off : Nat)
  | sram (isl key : Nat)
  | view (off : Nat)
  | reg (isl : Nat)
  | hole (isl : Nat)
  | nowhere
deriving DecidableEq, Repr

/-- An island's SRAM on the viaduct in bytes (R21). -/
def sramSize (i : Nat) : Nat := if i = 1 then 0x100000 else if i = 3 then 0x8000 else if 6 ≤ i ∧ i < 14 then 0x10000 else 0

/-- The key of byte `off` of an island's SRAM: deck SRAM has one home for its two addresses (R42). -/
def sramKey (i off : Nat) : Nat := if i = 1 then deckSram + off else islandBase i + 0x800000 + off

/-- The place an address names (R41, R42). (DESIGN CHOICE, log entry 6.) -/
def placeOf (a : Nat) : Place :=
  if a < 0x200000 then .mram a
  else if deckSram ≤ a ∧ a < deckSram + 0x100000 then .sram 1 a
  else if 0x40000000 ≤ a ∧ a < 0x4E000000 then
    let i := (a - 0x40000000) / 0x1000000
    let off := (a - 0x40000000) % 0x1000000
    if off < 0x100000 then .reg i
    else if 0x800000 ≤ off ∧ off - 0x800000 < sramSize i then .sram i (sramKey i (off - 0x800000))
    else .hole i
  else if 0x80000000 ≤ a ∧ a < 0xA0000000 then .view (a - 0x80000000)
  else .nowhere

/-- The island that serves a place. -/
def Place.island : Place → Option Nat
  | .mram _ => some 4
  | .sram i _ => some i
  | .view _ => some 4
  | .reg i => some i
  | .hole i => some i
  | .nowhere => none

/-- A caisson's base offset in deck SRAM and its length in bytes (R240). -/
def caissonSpan (s : State) (k : Nat) : Nat × Nat := (regValue s 2 .caissonBase k, 4096 * regValue s 2 .caissonLen k)

/-- Caisson k. -/
def getCaisson (s : State) (k : Nat) : Caisson := vget ⟨false, false, false, 0, none⟩ s.cipher.caissons k

/-- Caisson k replaced. -/
def setCaisson (k : Nat) (c : Caisson) (s : State) : State := modCipher (fun e => { e with caissons := vset e.caissons k c }) s

/-- Whether a key of deck SRAM lies in a sealed caisson (R234). -/
def quarantined (s : State) (key : Nat) : Bool :=
  (List.range 4).any (fun k => (getCaisson s k).isSealed && decide (deckSram + (caissonSpan s k).1 ≤ key) &&
    decide (key < deckSram + (caissonSpan s k).1 + (caissonSpan s k).2))

/-- Whether byte `off` of island i's SRAM lies in a locked code region, which no write changes (R333). -/
def codeLocked (s : State) (i off : Nat) : Bool := (getCore s i).lock && decide (off < 64 * (getCore s i).code)

/-- The offset of a key in its island's SRAM. -/
def keyOffset (i key : Nat) : Nat := if i = 1 then key - deckSram else key - (islandBase i + 0x800000)

/-- The bytes of a word that the strobes select. -/
def strobeBytes (strb w : Nat) (a : Nat) (s : State) : State :=
  (List.range 4).foldl (fun s i => if bitOf strb i then { s with mem := Memory.write s.mem (a + i) (BitVec.ofNat 8 (w / 256 ^ i)) } else s) s

/-- A word of memory read at an aligned address (R30, R234, R279). A register is no memory: 0x17 here. -/
def memWordRead (s : State) (a : Nat) : Nat × Status :=
  match placeOf a with
  | .mram off => (leAt (memReadBytes s off 4) 0 4, 0x00)
  | .sram 1 key => if quarantined s key then (0, 0x81) else (leAt (memReadBytes s key 4) 0 4, 0x00)
  | .sram _ key => (leAt (memReadBytes s key 4) 0 4, 0x00)
  | .view off => viewWord s off
  | _ => (0, 0x17)

/-- A word of memory written at an aligned address (R30, R42, R234, R268, R333). -/
def memWordWrite (ini a w strb : Nat) (s : State) : Status × State :=
  match placeOf a with
  | .mram off => if mramWriteStatus s ini off = 0 then (0x00, strobeBytes strb w off s) else (mramWriteStatus s ini off, s)
  | .sram i key =>
    if i = 1 ∧ quarantined s key then (0x81, s)
    else if codeLocked s i (keyOffset i key) then (0x02, s)
    else (0x00, strobeBytes strb w key s)
  | _ => (0x17, s)

/-- Whether an address's island answers (R35); an address outside every range is answered by the viaduct itself. -/
def placeAnswers (s : State) (a : Nat) : Bool :=
  match (placeOf a).island with
  | some i => canAct s i
  | none => true

/-- What the engine or a core reads at a byte address of memory, with the status of its word. -/
def memByteRead (s : State) (a : Nat) : Byte × Status :=
  if placeAnswers s a = false then (0, 0x03)
  else
    let r := memWordRead s (a / 4 * 4)
    (BitVec.ofNat 8 (r.1 / 256 ^ (a % 4)), r.2)

/-- The bytes of a run of addresses, and the first status other than 0x00. -/
def memRun (s : State) : Nat → Nat → List Byte × Status
  | _, 0 => ([], 0x00)
  | a, n + 1 =>
    let b := memByteRead s a
    let r := memRun s (a + 1) n
    (b.1 :: r.1, if b.2 = 0 then r.2 else b.2)

/-- A run of bytes written through the map, word strobes byte by byte, up to the first status other than 0x00. -/
def memPutRun (ini : Nat) : Nat → List Byte → State → Status × State
  | _, [], s => (0x00, s)
  | a, b :: bs, s =>
    if placeAnswers s a = false then (0x03, s)
    else
      let r := memWordWrite ini (a / 4 * 4) (b.toNat * 256 ^ (a % 4)) (2 ^ (a % 4)) s
      if r.1 = 0 then memPutRun ini (a + 1) bs r.2 else r

end Sys2Proof.Machine
end

