-- ==== Sys2Proof/Machine/Rng.lean ====
section
/-! DEFINITION. The noise source and the DRBG: states, health failures, reseeds, requests and the software port
(R241 to R253, R264). (PRESUMED, log entry 9.) -/

namespace Sys2Proof.Machine

/-- Some S fields of a register take effect at their own boundary; the rest of the register does not (R13). -/
def latchFields (i : Nat) (r : Reg) (k mask : Nat) (s : State) : State :=
  let d := resetWord r (rowFor i r) k
  let old := SMap.get d (regAddr i r k) s.latched
  { s with latched := SMap.set d (regAddr i r k) ((old - (old &&& mask)) + (regValue s i r k &&& mask)) s.latched }

/-- The DRBG's state in the form of the standard. -/
def DrbgSt.toDrbg (d : DrbgSt) : Drbg := ⟨beBytes 32 d.key.toNat, beBytes 16 d.v.toNat⟩

/-- The DRBG's state as the state holds it. -/
def DrbgSt.of (d : Drbg) : DrbgSt := ⟨BitVec.ofNat 256 (ofBe d.key), BitVec.ofNat 128 (ofBe d.v)⟩

/-- The source runs (R241). -/
def rngRuns (s : State) : Bool := canAct s 2 && s.rng.running && s.rng.st != .halted

/-- Every waiting private request ends with a status and no data. -/
def rngEndAll (st : Status) (s : State) : State :=
  modRng (fun r => { r with
    ends := (Vector.range 3).map (fun w => if (vget none r.waits w).isSome then some ⟨st, []⟩ else vget none r.ends w)
    waits := Vector.replicate 3 none }) s

/-- The RNG enters UNSEEDED and its warm-up starts (R249). -/
def rngUnseeded (s : State) : State :=
  modRng (fun r => { r with running := true, st := .unseeded, phase := .warmup, fails := 0, drbg := none, served := 0, reseed := false, fifo := [] }) s

/-- A write of ENABLE (R249, R264): writing 0 zeroes the DRBG, ends waiting requests with 0x0A and stops the source. -/
def rngEnableWrite (on : Bool) (s : State) : State :=
  let s := putReg s 2 .rngCtrl 0 (setField (regValue s 2 .rngCtrl 0) 0 1 (b2n on))
  if on then (if s.rng.running then s else rngUnseeded s)
  else modRng (fun r => { r with running := false, st := .unseeded, phase := .warmup, drbg := none, served := 0, reseed := false, fifo := [] }) (rngEndAll 0x0A s)

/-- A reseed is asked for; one that already collects takes it in (R246). -/
def rngAskReseed (s : State) : State :=
  if s.rng.st = .ready then modRng (fun r => { r with reseed := true, phase := .collect }) s else s

/-- A write of RESTART: only HALTED is left (R251). -/
def rngRestartWrite (s : State) : State := if s.rng.st = .halted then rngUnseeded s else s

/-- RNG_WARMUP_END (R241, R243). -/
def rngWarmupDone (s : State) : State :=
  if rngRuns s ∧ s.rng.phase = .warmup then modRng (fun r => { r with phase := .startup }) s else s

/-- RNG_STARTUP_TEST_END (R243). -/
def rngStartupDone (s : State) : State :=
  if rngRuns s ∧ s.rng.phase = .startup then modRng (fun r => { r with phase := .collect }) s else s

/-- The personalisation string in force (R245). -/
def rngPersonal (s : State) : List Byte :=
  ((List.range 12).flatMap (fun k => leBytes 4 (regInForce s 2 .rngPers k))).take (liveField s 2 .rngPersLen 0 0 6)

/-- RNG_INSTANTIATE (R245, R249): the seed's bits in the order they were collected, the nonce device time and the low 8
bytes of SERIAL. The state becomes READY. -/
def rngInstantiated (seed : BitVec 384) (s : State) : State :=
  if rngRuns s ∧ s.rng.phase = .collect ∧ s.rng.st ≠ .ready then
    let s := (List.range 12).foldl (fun s k => latchReg s 2 .rngPers k) (latchReg s 2 .rngPersLen 0)
    let s := latchFields 2 .rngCtrl 0 0xFFFF0000 s
    let d := drbgInstantiate (beBytes 48 seed.toNat ++ leBytes 8 (localTime s 2) ++ serialBytes.take 8) (rngPersonal s)
    modRng (fun r => { r with st := .ready, phase := .steady, fails := 0, drbg := some (DrbgSt.of d), served := 0, reseed := false, event := r.event ||| 1 }) s
  else s

/-- RNG_RESEED_DONE (R245, R246). -/
def rngReseeded (seed : BitVec 384) (s : State) : State :=
  match s.rng.drbg with
  | some d =>
    if rngRuns s ∧ s.rng.st = .ready ∧ s.rng.reseed then
      let s := latchFields 2 .rngCtrl 0 0xFFFF0000 s
      modRng (fun r => { r with drbg := some (DrbgSt.of (drbgReseed d.toDrbg (beBytes 48 seed.toNat))), served := 0, reseed := false, phase := .steady
                                reseeds := satTo 0xFFFF (r.reseeds + 1) }) s
    else s
  | none => s

/-- RNG_HEALTH_FAIL (R250, R251): a failure of one test at a tested bit. -/
def rngHealthFailed (apt : Bool) (s : State) : State :=
  if rngRuns s ∧ s.rng.phase ≠ .warmup then
    let fails := if s.rng.st = .ready then s.rng.fails else s.rng.fails + 1
    let s := rngEndAll 0x09 s
    let s := modRng (fun r => { r with
      drbg := none, fifo := [], reseed := false, served := 0, st := .recovering, phase := .warmup, fails := fails
      event := (r.event - (r.event &&& 0x18)) ||| (if apt then 0x12 else 0x0A)
      failures := satTo 0xFFFF (r.failures + 1) }) s
    if 3 ≤ fails then modRng (fun r => { r with st := .halted, event := r.event ||| 4 }) s else s
  else s

/-- The bit of RNG_CTRL that asks for prediction resistance on a wire: always for key generation (R246). -/
def rngResists (s : State) (w : Nat) : Bool :=
  if w = 0 then bitOf (regInForce s 2 .rngCtrl 0) 6 else if w = 1 then bitOf (regInForce s 2 .rngCtrl 0) 7 else true

/-- A private wire makes a request (R247, R249): it waits, or ends at once in RECOVERING or HALTED, or with 0x0A when
the RNG is disabled. A wire with a request outstanding takes no other. -/
def rngRequest (w n : Nat) (s : State) : State :=
  if vget none s.rng.waits w ≠ none then s
  else
    let fail := fun (st : Status) => modRng (fun r => { r with ends := vset r.ends w (some ⟨st, []⟩) }) s
    if s.rng.running = false then fail 0x0A
    else match s.rng.st with
      | .recovering => fail 0x09
      | .halted => fail 0x91
      | _ =>
        let s := latchFields 2 .rngCtrl 0 (if w = 0 then 0x40 else 0x80) s
        let s := modRng (fun r => { r with waits := vset r.waits w (some n), ends := vset r.ends w none }) s
        if rngResists s w then rngAskReseed s else s

/-- A waiting request is withdrawn: it ends with 0x0A (R253). -/
def rngWithdraw (w : Nat) (s : State) : State :=
  if vget none s.rng.waits w ≠ none then
    modRng (fun r => { r with waits := vset r.waits w none, ends := vset r.ends w (some ⟨0x0A, []⟩) }) s
  else s

/-- RESEED_INT: 0 counts as 65,536 (R264). -/
def rngInterval (s : State) : Nat := if liveField s 2 .rngCtrl 0 16 16 = 0 then 65536 else liveField s 2 .rngCtrl 0 16 16

/-- Words of a byte string. -/
def wordsOf (bs : List Byte) : Nat → List Nat
  | 0 => []
  | n + 1 => leAt bs 0 4 :: wordsOf (bs.drop 4) n

/-- RNG_GENERATE (R246, R248): the next waiting request in order, else a refill of the port's free space. A request that
needs a reseed first waits for it. -/
def rngGenerated (s : State) : State :=
  match s.rng.drbg with
  | some d =>
    if rngRuns s ∧ s.rng.st = .ready ∧ s.rng.reseed = false then
      if rngInterval s ≤ s.rng.served then rngAskReseed s
      else match (List.range 3).find? (fun w => (vget none s.rng.waits w).isSome) with
        | some w =>
          let n := (vget none s.rng.waits w).getD 0
          let g := drbgGenerate d.toDrbg n
          modRng (fun r => { r with
            drbg := some (DrbgSt.of g.2), served := r.served + 1, waits := vset r.waits w none, ends := vset r.ends w (some ⟨0x00, g.1⟩) }) s
        | none =>
          let room := 16 - s.rng.fifo.length
          if room < 8 then s
          else
            let s := latchFields 2 .rngCtrl 0 0x100 s
            if bitOf (regInForce s 2 .rngCtrl 0) 8 ∧ s.rng.served ≠ 0 then rngAskReseed s
            else
              let g := drbgGenerate d.toDrbg (4 * room)
              modRng (fun r => { r with drbg := some (DrbgSt.of g.2), served := r.served + 1, fifo := r.fifo ++ wordsOf g.1 room }) s
    else s
  | none => s

/-- A read of RNG_DATA (R248, R249, R264). -/
def rngDataPop (s : State) : Nat × Status × State :=
  if s.rng.running = false then (0, 0x0A, s)
  else match s.rng.st with
    | .unseeded => (0, 0x0A, s)
    | .recovering => (0, 0x09, s)
    | .halted => (0, 0x91, s)
    | .ready => match s.rng.fifo with
      | [] => (0, 0x90, s)
      | w :: rest => (w, 0x00, modRng (fun r => { r with fifo := rest }) s)

/-- The keystone leaves RUN (R253): everything is zeroed and waiting requests end with 0x11. -/
def rngLeave (s : State) : State :=
  let s := rngEndAll 0x11 s
  modRng (fun r => { RngState.reset with ends := r.ends }) s

/-- RNG_STATUS. -/
def rngStatusWord (s : State) : Nat :=
  let r := s.rng
  let wait : Nat → Nat := fun w => b2n (vget none r.waits w).isSome
  (match r.st with | .unseeded => 0 | .ready => 1 | .recovering => 2 | .halted => 3) +
    4 * b2n (r.running && r.st != .halted) +
    8 * (match r.phase with | .warmup => 0 | .startup => 1 | .collect => 2 | .steady => 3) +
    32 * (min 3 r.fails) + 256 * wait 0 + 512 * wait 1 + 1024 * wait 2 + 2048 * r.fifo.length

end Sys2Proof.Machine
end

