-- ==== Sys2Proof/Machine/Cipher.lean ====
section
/-! DEFINITION. The cipher engine: key slots and their policies, counters, the lock, the two contexts, descriptors, the
operations and the caissons (R209 to R240). (PRESUMED, log entry 9.) -/

namespace Sys2Proof.Machine

/-! ## Slots and policies (R215 to R217) -/

/-- Slot i. -/
def getSlot (s : State) (i : Nat) : Slot := vget Slot.reset s.cipher.slots i

/-- Slot i updated. -/
def modSlot (i : Nat) (f : Slot → Slot) (s : State) : State := modCipher (fun c => { c with slots := vset c.slots i (f (getSlot s i)) }) s

/-- Bytes of key material a policy implies (R219). -/
def policyLen (p : Nat) : Nat := (16 + 8 * bitsOf p 0 2) * (if bitOf p 2 then 2 else 1)

/-- Whether every bit of `p` outside SLOT and KEYLEN is among `allowed`, and every bit of `required` is set. -/
def policyBits (p required allowed : Nat) : Bool :=
  let b := p - (p &&& 0x7F0003)
  (b &&& (required ||| allowed)) == b && (b &&& required) == required

/-- A policy valid for the slot it names, loaded by UNWRAP (R216). -/
def policyValid (p : Nat) : Bool :=
  let i := bitsOf p 16 7
  let kl := bitsOf p 0 2
  if i < 64 then policyBits p 0x1C20 0 && (kl == 0 || kl == 2)
  else if i < 80 then policyBits p 0x1100 0 && kl == 0
  else if i < 88 then policyBits p 0x2084 0x1000 && (kl == 0 || kl == 2)
  else if i < 96 then
    policyBits p 0x1000 0xF78 && decide (kl < 3) && ((!bitOf p 3 && !bitOf p 5) || (bitOf p 10 && bitOf p 11))
  else false

/-- A child policy valid for a DERIVE into slot d (R216, R222). -/
def childValid (p d : Nat) : Bool :=
  decide (88 ≤ d) && decide (d < 96) && bitsOf p 16 7 == d && policyBits p 0x1000 0x378 && bitsOf p 0 2 == 0

/-- A context. -/
def getCtx (s : State) (c : Nat) : Ctx := vget Ctx.reset s.cipher.ctx c

/-- A context updated. -/
def modCtx (c : Nat) (f : Ctx → Ctx) (s : State) : State := modCipher (fun e => { e with ctx := vset e.ctx c (f (getCtx s c)) }) s

/-- Whether a message of context k names slot i (R217). -/
def ctxNames (k : Ctx) (i : Nat) : Bool :=
  k.st != .free && (if k.desc.op = 0x0A then k.desc.dest == i else if k.desc.op = 0x0B then false else k.desc.slot == i || (k.desc.op == 0x07 && k.desc.dest == i))

/-- A slot is in use (R217). -/
def slotInUse (s : State) (i : Nat) : Bool := ctxNames (getCtx s 0) i || ctxNames (getCtx s 1) i

/-- A write of CLEAR (R217, R227): a persistent slot's counter survives. (DESIGN CHOICE, log entry 36.) -/
def slotClearWrite (i : Nat) (s : State) : Status × State :=
  if 96 ≤ i then (0x00, s)
  else if slotInUse s i then (0x83, s)
  else (0x00, modSlot i (fun k => { k with st := .empty, key := [], policy := 0, keyId := 0, limit := 0, ctr := if bitOf k.policy 11 then k.ctr else 0 }) s)

/-! ## Counters and reservations (R224 to R227) -/

/-- The ledger entry that keeps a slot's high-water mark: bay slots 0 to 63, service slots from 64 (R272). -/
def hwmEntry (i : Nat) : Option Nat := if i < 64 then some i else if 88 ≤ i ∧ i < 96 then some (i - 24) else none

/-- The slot of a ledger entry. -/
def hwmSlot (e : Nat) : Nat := if e < 64 then e else e + 24

/-- The last counter value, never consumed. -/
def ctrEnd : Nat := 0xFFFFFFFFFFFFFFFF

/-- The engine asks STORE to write H + STEP (R226); a STORE that does not run cannot take the request, which then fails.
(DESIGN CHOICE, log entry 36.) -/
def reserveCounter (i : Nat) (s : State) : State :=
  match hwmEntry i with
  | some e =>
    if (getSlot s i).resv then s
    else if canAct s 4 ∧ s.store.taken then
      requestChange (.hwm e (satTo ctrEnd ((getSlot s i).hwm + regField s 2 .ctrResv 0 0 16))) (modSlot i (fun k => { k with resv := true }) s)
    else modCipher (fun c => { c with event := c.event ||| 0x10 }) s
  | none => s

/-- A slot after a value has been consumed (R224, R226, R227). -/
def afterConsume (i : Nat) (s : State) : State :=
  let k := getSlot s i
  let spent := if k.st = .derived then k.ctr == k.limit else k.ctr == ctrEnd
  let s := if spent then modCipher (fun c => { c with event := c.event ||| 8 }) (modSlot i (fun k => { k with st := .spent }) s) else s
  if bitOf k.policy 11 ∧ 2 * (k.hwm - k.ctr) < regField s 2 .ctrResv 0 0 16 then reserveCounter i s else s

/-- Whether an operation under a slot consumes a counter value (R224, R222). -/
def consumes (op : Nat) : Bool := op == 0x01 || op == 0x03

/-- Context c's message consumes its slot's present value, unless it must wait for a reservation (R226). -/
def consumeFor (c : Nat) (s : State) : State :=
  let i := (getCtx s c).desc.slot
  let k := getSlot s i
  if bitOf k.policy 11 = true ∧ k.hwm ≤ k.ctr then
    let s := reserveCounter i s
    if (getSlot s i).resv then modCtx c (fun x => { x with waits := true }) s
    else modCtx c (fun x => { x with fail := 0x10, waits := false }) s
  else afterConsume i (modSlot i (fun k => { k with ctr := k.ctr + 1 }) (modCtx c (fun x => { x with value := some k.ctr, waits := false }) s))

/-! ## The engine's own accesses (R236, R42, R233) -/

/-- A byte of an operand: keystone SRAM over the local path, every other address over the viaduct.
(DESIGN CHOICE, log entry 36.) -/
def engineByte (s : State) (a : Nat) : Byte × Status :=
  if keysSram ≤ a ∧ a < keysSram + 0x20000 then (Memory.read s.mem a, 0x00) else memByteRead s a

/-- Operand bytes and the first status other than 0x00. -/
def engineRead (s : State) : Nat → Nat → List Byte × Status
  | _, 0 => ([], 0x00)
  | a, n + 1 =>
    let b := engineByte s a
    let r := engineRead s (a + 1) n
    (b.1 :: r.1, if b.2 = 0 then r.2 else b.2)

/-- Result bytes written, up to the first status other than 0x00. -/
def engineWrite : Nat → List Byte → State → Status × State
  | _, [], s => (0x00, s)
  | a, b :: bs, s =>
    if keysSram ≤ a ∧ a < keysSram + 0x20000 then
      (if codeLocked s 2 (a - keysSram) then (0x02, s) else engineWrite (a + 1) bs { s with mem := Memory.write s.mem a b })
    else
      let r := memPutRun 2 a [b] s
      if r.1 = 0 then engineWrite (a + 1) bs r.2 else r

/-- A descriptor as it lies in keystone SRAM (R236). -/
def readDesc (s : State) (idx : Nat) : Desc :=
  let b := memReadBytes s (keysSram + 32 * idx) 32
  { op := leAt b 0 1, slot := leAt b 1 1, dest := leAt b 2 1, flags := leAt b 3 1, aadLen := leAt b 4 2, limit := leAt b 6 1, ctrOff := leAt b 7 1
    dataLen := leAt b 8 4, ivPtr := leAt b 12 4, aadPtr := leAt b 16 4, inPtr := leAt b 20 4, outPtr := leAt b 24 4, tagPtr := leAt b 28 4 }

/-! ## The checks of R237 -/

/-- Bytes of an XTS data unit. -/
def Desc.unit (d : Desc) : Nat := if bitOf d.flags 0 then 4096 else 512

/-- The descriptor is well formed (check 3): known OP, zero reserved bits, lengths within R210 and R211. -/
def descOk (s : State) (d : Desc) : Bool :=
  decide (1 ≤ d.op) && decide (d.op ≤ 0x0B) && decide (d.flags < 2) && decide (d.dataLen < 0x1000000) &&
    (d.op == 0x07 || d.limit == 0) &&
    (if d.op = 0x03 ∨ d.op = 0x04 then d.dataLen == 0
     else if d.op = 0x05 ∨ d.op = 0x06 then
      (let sb := leAt (engineRead s (d.ivPtr + 8) 2).1 0 2
       decide (16 ≤ d.dataLen) && decide (16 * sb + d.dataLen ≤ d.unit) &&
         (d.dataLen % 16 == 0 || (sb == 0 && 16 * sb + d.dataLen == d.unit)))
     else if d.op = 0x0A then sliceZ (engineRead s d.inPtr 4).1 0 4 == [0x4B, 0x42, 0x4C, 0x31]
     else if d.op = 0x07 then
      (let p := leAt (engineRead s d.ivPtr 4).1 0 4
       if bitOf p 3 || bitOf p 5 then d.limit != 0 else d.limit == 0)
     else true)

/-- The slot bit of R215 that permits an operation. -/
def opBit (op : Nat) : Nat :=
  if op = 0x01 then 3 else if op = 0x02 then 4 else if op = 0x03 then 5 else if op = 0x04 then 6
  else if op = 0x05 ∨ op = 0x06 then 7 else if op = 0x07 then 8 else 9

/-- The blob policy of an UNWRAP. -/
def blobPolicy (s : State) (d : Desc) : Nat := leAt (engineRead s (d.inPtr + 4) 4).1 0 4

/-- The policy of a WRAP. -/
def wrapPolicy (s : State) (d : Desc) : Nat := leAt (engineRead s d.ivPtr 4).1 0 4

/-- Whether a DERIVE may write slot d (R217). -/
def deriveTakes (k : Slot) : Bool := k.st == .empty || k.st == .derived || (k.st == .spent && k.limit != 0)

/-- The slot's policy permits the operation and the owner, and the destination slot kind suits it (check 5). -/
def policyAllows (s : State) (d : Desc) : Bool :=
  if d.op = 0x0A then policyValid (blobPolicy s d)
  else if d.op = 0x0B then s.boot.session.isSome && policyValid (wrapPolicy s d) && bitsOf (wrapPolicy s d) 16 7 == d.dest
  else
    let p := (getSlot s d.slot).policy
    bitOf p (opBit d.op) && bitOf p 12 &&
      (d.op != 0x07 || (childValid (leAt (engineRead s d.ivPtr 4).1 0 4) d.dest && deriveTakes (getSlot s d.dest)))

/-- Caisson k takes the long message of a descriptor (R233). -/
def caissonTakes (s : State) (d : Desc) (k : Nat) : Bool :=
  match placeOf d.outPtr, placeOf (d.outPtr + d.dataLen - 1) with
  | .sram 1 a, .sram 1 b =>
    let c := getCaisson s k
    c.isSealed && !c.busy && !c.zeroing && decide (deckSram + (caissonSpan s k).1 ≤ a) && decide (a ≤ b) &&
      decide (b < deckSram + (caissonSpan s k).1 + (caissonSpan s k).2)
  | _, _ => false

/-- The caisson of a long GCM_DEC. -/
def longCaisson (s : State) (d : Desc) : Option Nat :=
  if d.op = 0x02 ∧ 4096 < d.dataLen then (List.range 4).find? (caissonTakes s d) else none

/-- Checks 3 to 9 of R237. -/
def descStatus (s : State) (d : Desc) : Status :=
  let k := getSlot s d.slot
  let named := d.op != 0x0A && d.op != 0x0B
  if descOk s d = false then 0x84
  else if named ∧ (96 ≤ d.slot ∨ k.st = .empty) then 0x82
  else if policyAllows s d = false then 0x80
  else if (d.op = 0x07 ∧ slotInUse s d.dest) ∨ (d.op = 0x0A ∧ slotInUse s (bitsOf (blobPolicy s d) 16 7)) then 0x83
  else if consumes d.op ∧ k.st = .spent then 0x08
  else if consumes d.op ∧ bitOf k.policy 11 ∧ k.ready = false then 0x10
  else if d.op = 0x02 ∧ 4096 < d.dataLen ∧ longCaisson s d = none then 0x85
  else 0x00

/-- The ACTIVE context. -/
def activeCtx (s : State) : Option Nat :=
  if (getCtx s 0).st = .active then some 0 else if (getCtx s 1).st = .active then some 1 else none

/-- A result register after an action. -/
def ctxResult (c : Nat) (st : Status) (s : State) : State := modCtx c (fun x => { x with status := st }) s

/-! ## Messages begin and end -/

/-- Owner of the lock as an island ID. -/
def Owner.island : Owner → Nat
  | .keys => 2
  | .store => 4

/-- A message starts in context c (R224, R225, R233): it consumes its value, its caisson is taken, a WRAP asks for its
IV. -/
def beginMessage (c : Nat) (d : Desc) (s : State) : State :=
  let cs := longCaisson s d
  let d := if d.op = 0x0A then { d with dest := bitsOf (blobPolicy s d) 16 7 } else d
  let s := modCtx c (fun x => { Ctx.reset with st := .active, owner := .keys, desc := d, caisson := cs, status := x.status }) s
  let s := match cs with
    | some k => setCaisson k { getCaisson s k with busy := true } s
    | none => s
  let s := if d.op = 0x0B then rngRequest 2 12 s else s
  if consumes d.op ∧ (bitOf (getSlot s d.slot).policy 10 ∨ (getSlot s d.slot).st = .derived) then consumeFor c s else s

/-- Cycles of an operation (R212): rounds of its key. -/
def opCycles (d : Desc) (nr kl sb : Nat) : Nat :=
  if d.op ≤ 0x04 then 24 + 2 * nr + ceilDiv d.aadLen 16 + nr * ceilDiv d.dataLen 16 + 5
  else if d.op ≤ 0x06 then 24 + nr * (1 + ceilDiv d.dataLen 16) + (if 0 < sb then 2 else 0)
  else if d.op = 0x07 then 24 + nr + 8
  else if d.op = 0x08 then 38
  else if d.op = 0x09 then 58
  else 24 + 28 + 2 + 14 * ceilDiv kl 16 + 5 + (if d.op = 0x0A then 8 else 0)

/-- CIPH units of a message (R214). -/
def opUnits (s : State) (x : Ctx) : Nat :=
  let d := x.desc
  let nr := 10 + 2 * bitsOf (getSlot s d.slot).policy 0 2
  let kl := policyLen (if d.op = 0x0A then blobPolicy s d else wrapPolicy s d)
  ceilDiv (opCycles d nr kl (leAt (engineRead s (d.ivPtr + 8) 2).1 0 2)) 16 + x.switches

/-- A message has ended: its result, units and DONE event, and the context is FREE (R240). -/
def messageOver (c : Nat) (st : Status) (s : State) : State :=
  let x := getCtx s c
  let u := opUnits s x
  let s := countEvent 2 0x041 u (countEvent 2 0x044 (b2n (st == 0x07)) s)
  let s := modCtx c (fun _ => { Ctx.reset with status := st, done := true, units := satTo 0xFFFF u }) s
  modCipher (fun e => { e with event := e.event ||| 2 ^ c }) s

/-- A long message ends other than on a good tag: what it wrote is zeroed before the caisson opens (R233). How far it
had written is open. (DESIGN CHOICE, log entry 36.) -/
def caissonFail (k written : Nat) (report : Option (Nat × Status)) (s : State) : State :=
  setCaisson k { getCaisson s k with busy := true, zeroing := true, written := written, report := report } s

/-- Bytes of a caisson below the end of a message's output. -/
def caissonEnd (s : State) (k : Nat) (d : Desc) : Nat :=
  match placeOf d.outPtr with
  | .sram 1 a => a - (deckSram + (caissonSpan s k).1) + d.dataLen
  | _ => 0

/-- A message ends before its end: aborted, expired by recovery, or with a failing access (R229, R231, R238). -/
def endEarly (c : Nat) (st : Status) (s : State) : State :=
  let x := getCtx s c
  let s := match x.caisson with
    | some k => useFree (caissonFail k (freeValue s % (caissonEnd s k x.desc + 1)) none s)
    | none => s
  messageOver c st s

/-! ## What an operation computes -/

/-- The IV of a GCM operation (R225). -/
def gcmIv (s : State) (d : Desc) (v : Option Nat) : List Byte × Status :=
  if bitOf (getSlot s d.slot).policy 10 ∧ consumes d.op then
    if d.slot < 64 then (leBytes 2 (siteBay s d.slot) ++ [0, 0] ++ leBytes 8 (v.getD 0), 0x00)
    else
      let r := engineRead s d.ivPtr 4
      (r.1 ++ leBytes 8 (v.getD 0), r.2)
  else engineRead s d.ivPtr 12

/-- The tweak of a block of a data unit (R211). -/
def tweakAt (key : List Byte) (unit : Nat) : Nat → Nat
  | 0 => xtsTweak key unit
  | n + 1 => xtsNext (tweakAt key unit n)

/-- One XTS block. -/
def xtsOne (f : List Byte → List Byte) (t : Nat) (b : List Byte) : List Byte := xorBytes (f (xorBytes b (leBytes 16 t))) (leBytes 16 t)

/-- XTS over a message from tweak t, with ciphertext stealing on its last two blocks when it is not a multiple of 16 B
(R211). -/
def xtsMessage (f : List Byte → List Byte) (dec : Bool) : Nat → Nat → List Byte → List Byte
  | 0, _, _ => []
  | n + 1, t, bs =>
    if bs.length < 16 then []
    else if bs.length < 32 ∧ bs.length ≠ 16 then
      let r := bs.length - 16
      let ta := if dec then xtsNext t else t
      let tb := if dec then t else xtsNext t
      let x := xtsOne f ta (bs.take 16)
      xtsOne f tb (bs.drop 16 ++ x.drop r) ++ x.take r
    else xtsOne f t (bs.take 16) ++ xtsMessage f dec n (xtsNext t) (bs.drop 16)

/-- The MAC of R151. -/
def ktMac (key uid tw data : List Byte) : List Byte :=
  let x1 := aesEncrypt key (uid ++ tw ++ [0, 0, 0x4B, 0x54, 0x57, 0x31])
  let x2 := aesEncrypt key (xorBytes x1 (sliceZ data 0 16))
  (aesEncrypt key (xorBytes x2 (sliceZ data 16 16))).take 4

/-- What a message's end does: a status, writes to make in order, and a slot to load. -/
structure OpEnd where
  status : Status
  writes : List (Nat × List Byte)
  slot   : Option (Nat × Slot)

/-- An end with a status and nothing else. -/
def OpEnd.only (st : Status) : OpEnd := ⟨st, [], none⟩

/-- The KEK as bytes. -/
def kekBytes : List Byte := beBytes 32 Config.kek.toNat

/-- The slot an UNWRAP leaves (R220, R227). -/
def unwrappedSlot (k : Slot) (p keyId : Nat) (key : List Byte) : Slot :=
  let persist := bitOf p 11
  { k with key := key, policy := p, keyId := keyId, limit := 0, ctr := if persist then k.ctr else 0
           st := if persist ∧ k.ctr = ctrEnd then .spent else .loaded }

/-- A GCM operation's end (R209, R210, R232). -/
def gcmEnd (s : State) (x : Ctx) : OpEnd :=
  let d := x.desc
  let key := (getSlot s d.slot).key
  let iv := gcmIv s d x.value
  let aad0 := engineRead s d.aadPtr d.aadLen
  let aad := match x.value with
    | some v => if d.ctrOff = 0xFF ∨ bitOf (getSlot s d.slot).policy 10 = false then aad0.1 else (aad0.1.take d.ctrOff ++ leBytes 8 v ++ aad0.1.drop (d.ctrOff + 8)).take d.aadLen
    | none => aad0.1
  let inp := engineRead s d.inPtr d.dataLen
  let st := if iv.2 ≠ 0 then iv.2 else if aad0.2 ≠ 0 then aad0.2 else inp.2
  if st ≠ 0 then .only st
  else if d.op = 0x01 ∨ d.op = 0x03 then
    let ct := gcmCrypt key iv.1 inp.1
    ⟨0x00, [(d.outPtr, ct), (d.tagPtr, gcmTag key iv.1 aad ct)], none⟩
  else
    let tag := engineRead s d.tagPtr 16
    if tag.2 ≠ 0 then .only tag.2
    else if gcmTag key iv.1 aad inp.1 = tag.1 then ⟨0x00, if d.op = 0x02 then [(d.outPtr, gcmCrypt key iv.1 inp.1)] else [], none⟩
    else .only 0x07

/-- An XTS operation's end (R211). -/
def xtsEnd (s : State) (d : Desc) : OpEnd :=
  let key := (getSlot s d.slot).key
  let head := engineRead s d.ivPtr 10
  let inp := engineRead s d.inPtr d.dataLen
  let half := key.take (key.length / 2)
  let t := tweakAt key (leAt head.1 0 8) (leAt head.1 8 2)
  let f := if d.op = 0x05 then aesEncryptRk (aesRoundKeys half) else aesDecrypt half
  if head.2 ≠ 0 then .only head.2 else if inp.2 ≠ 0 then .only inp.2
  else ⟨0x00, [(d.outPtr, xtsMessage f (d.op == 0x06) (d.dataLen / 16 + 1) t inp.1)], none⟩

/-- A single-block function's end (R222, R223). -/
def blockEnd (s : State) (d : Desc) : OpEnd :=
  let key := (getSlot s d.slot).key
  if d.op = 0x07 then
    let blk := engineRead s d.inPtr 16
    let pol := engineRead s d.ivPtr 4
    if blk.2 ≠ 0 then .only blk.2 else if pol.2 ≠ 0 then .only pol.2
    else ⟨0x00, [], some (d.dest, { getSlot s d.dest with st := .derived, key := aesEncrypt key blk.1, policy := leAt pol.1 0 4, keyId := 0, limit := d.limit, ctr := 0 })⟩
  else if d.op = 0x08 then
    let r := engineRead s d.inPtr 16
    if r.2 ≠ 0 then .only r.2
    else .only (if (aesEncrypt key (sliceZ r.1 0 12 ++ [0x4B, 0x54, 0x52, 0x31])).take 4 = sliceZ r.1 12 4 then 0x00 else 0x06)
  else
    let r := engineRead s d.inPtr 42
    if r.2 ≠ 0 then .only r.2 else ⟨0x00, [(d.outPtr, ktMac key (sliceZ r.1 0 8) (sliceZ r.1 8 2) (sliceZ r.1 10 32))], none⟩

/-- The end of an UNWRAP or a WRAP with its IV drawn (R219 to R221). -/
def blobEnd (s : State) (d : Desc) (iv : List Byte) : OpEnd :=
  if d.op = 0x0A then
    let p := blobPolicy s d
    let kl := policyLen p
    let b := engineRead s d.inPtr (24 + kl + 16)
    if b.2 ≠ 0 then .only b.2
    else
      let ct := sliceZ b.1 24 kl
      let biv := sliceZ b.1 12 12
      if gcmTag kekBytes biv (b.1.take 24) ct = sliceZ b.1 (24 + kl) 16 then
        ⟨0x00, [], some (d.dest, unwrappedSlot (getSlot s d.dest) p (leAt b.1 8 4) (gcmCrypt kekBytes biv ct))⟩
      else .only 0x07
  else
    let h := engineRead s d.ivPtr 8
    let k := engineRead s d.inPtr (policyLen (leAt h.1 0 4))
    if h.2 ≠ 0 then .only h.2 else if k.2 ≠ 0 then .only k.2
    else
      let head := [0x4B, 0x42, 0x4C, 0x31] ++ h.1 ++ iv
      let ct := gcmCrypt kekBytes iv k.1
      ⟨0x00, [(d.outPtr, head ++ ct ++ gcmTag kekBytes iv head ct)], none⟩

/-- What a message's end does. -/
def opEnd (s : State) (x : Ctx) : OpEnd :=
  if x.desc.op ≤ 0x04 then gcmEnd s x
  else if x.desc.op ≤ 0x06 then xtsEnd s x.desc
  else if x.desc.op ≤ 0x09 then blockEnd s x.desc
  else blobEnd s x.desc ((vget none s.rng.ends 2).map (·.data) |>.getD [])

/-- Every write of an end, in order; the first failing status ends them (R238). -/
def engineWrites : List (Nat × List Byte) → State → Status × State
  | [], s => (0x00, s)
  | (a, bs) :: rest, s =>
    let r := engineWrite a bs s
    if r.1 = 0 then engineWrites rest r.2 else r

/-- The consumed value is written into the AAD in memory before it is hashed (R225). -/
def putCounter (x : Ctx) (s : State) : Status × State :=
  match x.value with
  | some v => if x.desc.ctrOff ≠ 0xFF ∧ bitOf (getSlot s x.desc.slot).policy 10 then engineWrite (x.desc.aadPtr + x.desc.ctrOff) (leBytes 8 v) s else (0x00, s)
  | none => (0x00, s)

/-- The end of a long GCM_DEC: plaintext lies in its caisson; a good tag opens it, any other end zeroes it first
(R233). -/
def longEnd (c k : Nat) (e : OpEnd) (s : State) : State :=
  let x := getCtx s c
  let n := caissonEnd s k x.desc
  if e.status = 0 then
    let key := match placeOf x.desc.outPtr with | .sram 1 a => a | _ => 0
    let s := memWriteBytes key ((e.writes.map (·.2)).flatten) s
    messageOver c 0x00 (setCaisson k ⟨false, false, false, 0, none⟩ s)
  else if e.status = 0x07 then caissonFail k n (some (c, 0x07)) s
  else messageOver c e.status (caissonFail k n none s)

/-- The end of a message with its whole effect. -/
def completeMessage (c : Nat) (s : State) : State :=
  let w := putCounter (getCtx s c) s
  if w.1 ≠ 0 then endEarly c w.1 w.2
  else
    let s := w.2
    let x := getCtx s c
    let e := opEnd s x
    match x.caisson with
    | some k => longEnd c k e s
    | none =>
      let r := engineWrites e.writes s
      let st := if e.status = 0 then r.1 else e.status
      let s := if e.status = 0 then r.2 else s
      let s := if st = 0 then (match e.slot with | some (i, k) => modSlot i (fun _ => k) s | none => s) else s
      messageOver c st s

/-! ## The lock (R228, R230, R231) -/

/-- A request of an owner can be granted: the lock is free and a context is FREE or holds its SUSPENDED message. -/
def grantable (s : State) (o : Owner) : Bool :=
  s.cipher.lock.isNone &&
    (List.range 2).any (fun c => (getCtx s c).st == .free || ((getCtx s c).st == .suspended && (getCtx s c).owner == o))

/-- The lock is granted to an owner; CIPHER_HOLD latches (R240). -/
def grantLock (o : Owner) (s : State) : State :=
  modCipher (fun e => { e with lock := some o, lastServed := o, expiring := false
                               waitKeys := e.waitKeys && o == .store, waitStore := e.waitStore && o == .keys }) (latchReg s 2 .cipherHold 0)

/-- LOCK_GRANT: a waiting request is granted; when both wait, the owner not served last (R228). -/
def lockServe (s : State) : State :=
  let k := s.cipher.waitKeys && grantable s .keys
  let t := s.cipher.waitStore && grantable s .store
  if k && t then grantLock (if s.cipher.lastServed = .keys then .store else .keys) s
  else if k then grantLock .keys s
  else if t then grantLock .store s
  else s

/-- A request for the lock: it waits, and is granted at once where it can be. -/
def lockRequest (o : Owner) (s : State) : State :=
  lockServe (modCipher (fun e => { e with waitKeys := e.waitKeys || o == .keys, waitStore := e.waitStore || o == .store }) s)

/-- A write of ACQUIRE by the keystone core (R228). (DESIGN CHOICE, log entry 36.) -/
def lockAcquireWrite (s : State) : Status × State :=
  let s' := lockRequest .keys s
  (if s'.cipher.waitKeys then 0x12 else 0x00, s')

/-- The lock is released. -/
def freeLock (s : State) : State := modCipher (fun e => { e with lock := none, expiring := false }) s

/-- RELEASE by an owner (R228). -/
def lockReleaseWrite (o : Owner) (s : State) : Status × State :=
  if s.cipher.lock ≠ some o then (0x00, s)
  else match activeCtx s with
    | some c => if (getCtx s c).owner = o then (0x86, s) else (0x00, freeLock s)
    | none => (0x00, freeLock s)

/-- The hold has expired and nothing is ACTIVE any more: the lock is released and the event set; a pending start is not
performed (R230). -/
def finishExpiry (s : State) : State :=
  let s := match s.cipher.pendingStart with
    | some (c, _) => ctxResult c 0x13 s
    | none => s
  freeLock (modCipher (fun e => { e with pendingStart := none, event := e.event ||| 4 }) s)

/-- HOLD_EXPIRED: the hold timer reaches its limit (R230). -/
def holdExpiry (s : State) : State :=
  if s.cipher.lock = none ∨ canAct s 2 = false then s
  else match activeCtx s with
    | some _ => modCipher (fun e => { e with expiring := true }) s
    | none => finishExpiry s

/-! ## Actions and boundaries (R229, R237) -/

/-- START. -/
def cipherStartAct (c idx : Nat) (s : State) : Status × State :=
  let d := readDesc s idx
  let st := if (getCtx s c).st ≠ .free ∨ (activeCtx s).isSome then 0x86
    else if s.cipher.lock ≠ some .keys then 0x12 else descStatus s d
  if st ≠ 0 then (st, ctxResult c st s) else (0x00, beginMessage c d s)

/-- SUSPEND_AND_START: it acts at the next block boundary. -/
def cipherSuspendAct (c idx : Nat) (s : State) : Status × State :=
  let d := readDesc s idx
  let st := if (getCtx s c).st ≠ .free ∨ (activeCtx s).isNone ∨ s.cipher.pendingStart ≠ none then 0x86
    else if s.cipher.lock ≠ some .keys then 0x12 else descStatus s d
  if st ≠ 0 then (st, ctxResult c st s) else (0x00, modCipher (fun e => { e with pendingStart := some (c, d) }) s)

/-- RESUME. -/
def cipherResumeAct (c : Nat) (s : State) : Status × State :=
  let x := getCtx s c
  let st := if x.st ≠ .suspended ∨ x.owner ≠ .keys ∨ (activeCtx s).isSome then 0x86 else if s.cipher.lock ≠ some .keys then 0x12 else 0x00
  if st ≠ 0 then (st, ctxResult c st s) else (0x00, modCtx c (fun x => { x with st := .active, switches := x.switches + 1 }) s)

/-- ABORT: an ACTIVE message ends at the next block boundary, a SUSPENDED one at once. (DESIGN CHOICE, log entry 36.) -/
def cipherAbortAct (c : Nat) (s : State) : Status × State :=
  let x := getCtx s c
  let st := if x.st = .free ∨ x.owner ≠ .keys then 0x86 else if s.cipher.lock ≠ some .keys then 0x12 else 0x00
  if st ≠ 0 then (st, ctxResult c st s)
  else if x.st = .suspended then (0x00, endEarly c 0x87 s)
  else (0x00, modCtx c (fun x => { x with abort := true }) s)

/-- A pending SUSPEND_AND_START is performed once its predecessor has left the engine. -/
def startPending (s : State) : State :=
  match s.cipher.pendingStart with
  | some (c, d) => beginMessage c d (modCipher (fun e => { e with pendingStart := none }) s)
  | none => s

/-- What waits for a boundary is done when the ACTIVE message has ended there. -/
def afterEnd (s : State) : State := if s.cipher.expiring then finishExpiry s else startPending s

/-- The ACTIVE message is suspended. -/
def suspendCtx (c : Nat) (s : State) : State := countEvent 2 0x043 1 (modCtx c (fun x => { x with st := .suspended, switches := x.switches + 1 }) s)

/-- CIPHER_BLOCK_BOUNDARY (R229, R230, R238): a failing access or an abort ends the message; an expiry or a pending start
suspends it. -/
def blockBoundary (access : Status) (s : State) : State :=
  match activeCtx s with
  | none => s
  | some c =>
    let x := getCtx s c
    if canAct s 2 = false then s
    else
      let s := countEvent 2 0x040 1 s
      let fail := if x.abort then 0x87 else if x.fail ≠ 0 then x.fail else access
      if fail ≠ 0 then afterEnd (endEarly c fail s)
      else if s.cipher.expiring then finishExpiry (ctxResult c 0x13 (suspendCtx c s))
      else if s.cipher.pendingStart ≠ none then startPending (suspendCtx c s)
      else s

/-- CIPHER_MESSAGE_END (R212): the ACTIVE message that waits for nothing completes. -/
def messageEnd (s : State) : State :=
  match activeCtx s with
  | none => s
  | some c =>
    let x := getCtx s c
    if canAct s 2 = false ∨ (x.waits ∧ x.abort = false) ∨ (∃ k, x.caisson = some k ∧ (getCaisson s k).zeroing = true) then s
    else if x.desc.op = 0x0B ∧ vget none s.rng.ends 2 = none ∧ x.abort = false then s
    else
      let wire := if x.desc.op = 0x0B then ((vget none s.rng.ends 2).map (·.status)).getD 0x00 else 0x00
      let fail := if x.abort then 0x87 else if x.fail ≠ 0 then x.fail else wire
      let s' := if fail ≠ 0 then endEarly c fail s else completeMessage c s
      let s' := if x.desc.op = 0x0B then modRng (fun r => { r with ends := vset r.ends 2 none }) s' else s'
      if activeCtx s' = none then afterEnd s' else s'

/-! ## Caissons (R233 to R235) -/

/-- A write of SEAL (R235). -/
def sealWrite (k : Nat) (on : Bool) (s : State) : Status × State :=
  let c := getCaisson s k
  if on then (0x00, setCaisson k { c with isSealed := true } s)
  else if c.busy ∨ c.zeroing then (0x88, s)
  else (0x00, setCaisson k { c with isSealed := false, written := 0 } s)

/-- CAISSON_ZEROING_DONE (R233): the deck port has zeroed the bytes written; the caisson opens and a bad tag is
reported. -/
def zeroingDone (k : Nat) (s : State) : State :=
  let c := getCaisson s k
  if c.zeroing ∧ canAct s 1 then
    let base := deckSram + (caissonSpan s k).1
    let s := setCaisson k ⟨false, false, false, 0, none⟩ (memClear base (base + c.written) s)
    match c.report with
    | some (x, st) => afterEnd (messageOver x st s)
    | none => s
  else s

/-! ## Reservations end, and owners leave RUN (R218, R226, R231) -/

/-- A context that waited for slot i's reservation goes on. -/
def wakeWaiters (i : Nat) (failed : Bool) (s : State) : State :=
  (List.range 2).foldl (fun s c =>
    if (getCtx s c).st ≠ .free ∧ (getCtx s c).waits ∧ (getCtx s c).desc.slot = i then
      (if failed then modCtx c (fun x => { x with waits := false, fail := 0x10 }) s else consumeFor c s)
    else s) s

/-- STORE reports a reservation durable: H is the value written (R226). -/
def reservationDurable (e v : Nat) (s : State) : State :=
  wakeWaiters (hwmSlot e) false (modSlot (hwmSlot e) (fun k => { k with hwm := v, resv := false }) s)

/-- STORE reports a reservation failed (R226). -/
def reservationFailed (e : Nat) (s : State) : State :=
  wakeWaiters (hwmSlot e) true (modCipher (fun c => { c with event := c.event ||| 0x10 }) (modSlot (hwmSlot e) (fun k => { k with resv := false }) s))

/-- STORE delivers every high-water mark to a keystone that has not had it since its start (R226). -/
def deliverHwm (s : State) : State :=
  if isRun s 2 ∧ isRun s 4 ∧ s.store.taken then
    modCipher (fun c => { c with slots := (Vector.range 96).map (fun i =>
      let k := vget Slot.reset c.slots i
      match hwmEntry i with
      | some e => if k.ready then k else { k with ctr := vget 0 s.store.ledger.hwm e, hwm := vget 0 s.store.ledger.hwm e, ready := true }
      | none => k) }) s
  else s

/-- An owner's island leaves RUN: its lock is released and its messages end with 0x11 (R231). -/
def ownerLeaves (o : Owner) (s : State) : State :=
  let s := (List.range 2).foldl (fun s c => if (getCtx s c).st ≠ .free ∧ (getCtx s c).owner = o then endEarly c 0x11 s else s) s
  let s := modCipher (fun e => { e with waitKeys := e.waitKeys && o == .store, waitStore := e.waitStore && o == .keys }) s
  if s.cipher.lock = some o then freeLock s else s

/-- The keystone leaves RUN: every slot is zeroed, both owners' messages end; caissons stay with the deck port (R218,
R231, R233). -/
def cipherLeave (s : State) : State :=
  let s := ownerLeaves .store (ownerLeaves .keys s)
  modCipher (fun e => { CipherState.reset with caissons := e.caissons }) s

/-! ## Registers as read (R240) -/

/-- The code of a context's state. -/
def CtxSt.code : CtxSt → Nat
  | .free => 0
  | .active => 1
  | .suspended => 2

/-- KEYS.CIPHER_LOCK. -/
def lockWord (s : State) : Nat :=
  b2n s.cipher.lock.isSome + 2 * ((s.cipher.lock.map Owner.island).getD 0) + 32 * b2n ((getCtx s 1).st == .active) +
    64 * (getCtx s 0).st.code + 256 * (getCtx s 1).st.code + 1024 * b2n s.cipher.waitKeys

/-- KEYS.CIPHER_RESc. -/
def ctxResWord (s : State) (c : Nat) : Nat := (getCtx s c).status.toNat + 256 * b2n (getCtx s c).done + 65536 * (getCtx s c).units

/-- Whether the slot's counter may be consumed. -/
def ctrReady (k : Slot) : Bool := !bitOf k.policy 11 || k.ready

/-- KEYS.SLOTi_INFO. -/
def slotInfoWord (s : State) (i : Nat) : Nat :=
  let k := getSlot s i
  (match k.st with | .empty => 0 | .loaded => 1 | .derived => 2 | .spent => 3) + 4 * b2n (ctrReady k) + 8 * b2n (slotInUse s i) +
    16 * k.limit + 65536 * (k.policy % 65536)

end Sys2Proof.Machine
end

