-- ==== Sys2Proof/Machine/Signer.lean ====
section
/-! DEFINITION. The signer: its slots, commands, hashes, signatures, the identity key and the attestation statement
(R254 to R261, R264). (PRESUMED, log entry 9.) -/

namespace Sys2Proof.Machine

/-- Signer slot j. -/
def getKey (s : State) (j : Nat) : Option SignKey := vget none s.signer.keys j

/-- Signer slot j replaced. -/
def setKey (j : Nat) (k : Option SignKey) (s : State) : State := modSigner (fun g => { g with keys := vset g.keys j k }) s

/-- The curve of a key. -/
def SignKey.curve (k : SignKey) : Curve := if k.p384 then Machine.p384 else Machine.p256

/-- A private key's slot: the key with its public point. -/
def privateKey (p3 : Bool) (d : Nat) : SignKey :=
  let c := if p3 then p384 else p256
  let q := (ecTimes c d (some (c.gx, c.gy))).getD (0, 0)
  ⟨p3, d, q.1, q.2⟩

/-- A public point under R258, or zeros. -/
def pointBytes (k : SignKey) : List Byte := 0x04 :: (beBytes k.curve.size k.x ++ beBytes k.curve.size k.y)

/-- A public key read from the bytes of a point. -/
def pointKey (p3 : Bool) (bs : List Byte) : SignKey :=
  let n := if p3 then 48 else 32
  ⟨p3, 0, ofBe (sliceZ bs 1 n), ofBe (sliceZ bs (1 + n) n)⟩

/-- Whether a public key is a point of its curve written under R258. -/
def pointOk (k : SignKey) (first : Byte) : Bool := first == 0x04 && onCurve k.curve k.x k.y

/-- A signature's bytes (R258). -/
def sigBytes (c : Curve) (rs : Nat × Nat) : List Byte := beBytes c.size rs.1 ++ beBytes c.size rs.2

/-- A signature of a digest with the nonce of RFC 6979 and k' (R257). -/
def signWith (k : SignKey) (digest extra : List Byte) : List Byte :=
  sigBytes k.curve (ecdsaSignWith k.curve k.d (rfc6979 k.curve k.d digest extra) digest)

/-- Whether a signature holds under a public key (R255). -/
def verifyWith (k : SignKey) (digest sig : List Byte) : Bool :=
  let n := k.curve.size
  ecdsaVerify k.curve k.x k.y digest (ofBe (sliceZ sig 0 n)) (ofBe (sliceZ sig n n))

/-! ## Signer blobs (R254, R219) -/

/-- A signer blob's bytes: curve, private key and IV. -/
def signerBlob (p3 : Bool) (d iv : List Byte) : List Byte :=
  let head := [0x4B, 0x42, 0x49, 0x31] ++ leBytes 4 (b2n p3) ++ [0, 0, 0, 0] ++ padTo 12 iv
  let ct := gcmCrypt kekBytes (padTo 12 iv) d
  head ++ ct ++ gcmTag kekBytes (padTo 12 iv) head ct

/-- The private key a blob holds, if its POLICY obeys R254 and its tag is good. -/
def openSignerBlob (attest : Bool) (b : List Byte) : Option SignKey :=
  let p := leAt b 4 4
  let kl := if p = 1 then 48 else 32
  let iv := sliceZ b 12 12
  let ct := sliceZ b 24 kl
  if sliceZ b 0 4 = [0x4B, 0x42, 0x49, 0x31] ∧ p ≤ 1 ∧ (attest = true → p = 0) ∧ gcmTag kekBytes iv (b.take 24) ct = sliceZ b (24 + kl) 16 then
    some (privateKey (p == 1) (ofBe (gcmCrypt kekBytes iv ct)))
  else none

/-- The signer area of MRAM (R269). -/
def signerArea : Nat := 0x1CF000

/-- Quipor's public key of slot 2. -/
def quiporSlot : SignKey := ⟨false, 0, Config.quiporKey.toNat / 2 ^ 256, Config.quiporKey.toNat % 2 ^ 256⟩

/-- The operator key of slot 3, where the area holds one. -/
def operatorSlot (s : State) : Option SignKey :=
  let b := memReadBytes s (signerArea + 0x100) 98
  if leAt b 1 1 = 4 then some (pointKey (leAt b 0 1 == 1) (b.drop 1)) else none

/-- The four slots are loaded at a keystone start (R254). -/
def loadSigner (s : State) : State :=
  setKey 3 (operatorSlot s) (setKey 2 (some quiporSlot)
    (setKey 1 (openSignerBlob true (memReadBytes s (signerArea + 0x80) 128)) (setKey 0 (openSignerBlob false (memReadBytes s signerArea 128)) s)))

/-! ## Commands (R255, R264) -/

/-- A signer descriptor: IN_PTR, IN_LEN, HASH_PTR, SIG_PTR, PUB_PTR, OUT_PTR, and whether its reserved bytes are 0. -/
def signDesc (s : State) (idx k : Nat) : Nat := leAt (memReadBytes s (keysSram + 32 * idx) 32) (4 * k) 4

/-- Whether an operation and a slot agree. -/
def signAgrees (op key : Nat) : Bool :=
  match op with
  | 0 => true
  | 1 => true
  | 2 => key == 0
  | 3 => key == 2 || key == 3 || key == 7
  | 4 => key == 1
  | 5 => key == 0
  | _ => false

/-- The checks a command meets when it is written. -/
def signCmdStatus (s : State) (op key idx : Nat) : Status :=
  if s.signer.job.isSome then 0x95
  else if signAgrees op key = false ∨ signDesc s idx 6 ≠ 0 ∨ signDesc s idx 7 ≠ 0 then 0x93
  else if op = 5 ∧ s.boot.claiming = none then 0x97
  else if op = 5 ∧ (getKey s 0).isSome then 0x96
  else if (op = 2 ∧ getKey s 0 = none) ∨ (op = 3 ∧ key ≠ 7 ∧ getKey s key = none) ∨ (op = 4 ∧ getKey s 1 = none) then 0x92
  else 0x00

/-- The signer's result. -/
def signerResult (st : Status) (s : State) : State := modSigner (fun g => { g with job := none, status := st, done := true }) s

/-- The wire a command draws from: 1 the signer wire, 2 the key-generation wire. -/
def signWire (op : Nat) : Nat := if op = 5 then 2 else 1

/-- Bytes of the curve an operation uses. -/
def signSize (s : State) (op : Nat) : Nat :=
  if op = 5 then (match s.boot.claiming with | some (true, _, _) => 48 | _ => 32)
  else if op = 4 then 32 else match getKey s 0 with | some k => k.curve.size | none => 32

/-- A command starts; SIGN, ATTEST and GEN_ID first ask their wire for bytes (R257, R259). -/
def signerStart (j : SignJob) (s : State) : State :=
  let s := modSigner (fun g => { g with job := some j }) s
  if j.op = 2 ∨ j.op = 4 ∨ j.op = 5 then rngRequest (signWire j.op) (signSize s j.op) s else s

/-- A write of SIGN_CMD by the keystone core. -/
def signCmdWrite (op key idx : Nat) (s : State) : Status × State :=
  let st := signCmdStatus s op key idx
  if st = 0x95 then (st, s)
  else if st ≠ 0 then (st, signerResult st s)
  else (0x00, signerStart ⟨op, key, idx, none, 0, .command⟩ s)

/-- Whether a candidate d is acceptable on the session's curve (R259). -/
def candidateOk (s : State) (d : List Byte) : Bool :=
  let c := if signSize s 5 = 48 then p384 else p256
  decide (0 < ofBe d) && decide (ofBe d < c.n)

/-- Bytes a command still needs from its wire: GEN_ID draws d and then the IV of its blob. A wire that failed gives no
more. -/
def signNeeds (s : State) (j : SignJob) : Bool :=
  match j.nonce with
  | none => j.op == 2 || j.op == 4 || j.op == 5
  | some n => j.fail == 0 && j.op == 5 && decide (n.length < signSize s 5 + 12)

/-- SIGNER_NONCE_DELIVERED (R257, R259): the wire's end reaches the signer. A failing end ends the command; an
unacceptable candidate is drawn again. -/
def nonceDelivered (s : State) : State :=
  match s.signer.job with
  | none => s
  | some j =>
    match vget none s.rng.ends (signWire j.op) with
    | none => s
    | some e =>
      if canAct s 2 = false ∨ signNeeds s j = false then s
      else
        let s := modRng (fun r => { r with ends := vset r.ends (signWire j.op) none }) s
        if e.status ≠ 0 then modSigner (fun g => { g with job := some { j with fail := e.status, nonce := some [] } }) s
        else if j.op = 5 then
          let have_ := (j.nonce.getD []) ++ e.data
          if have_.length = signSize s 5 ∧ candidateOk s have_ = false then rngRequest 2 (signSize s 5) s
          else
            let s := modSigner (fun g => { g with job := some { j with nonce := some have_ } }) s
            if have_.length = signSize s 5 then rngRequest 2 12 s else s
        else modSigner (fun g => { g with job := some { j with nonce := some e.data } }) s

/-! ## What the commands compute -/

/-- The attestation statement (R260). -/
def attestation (s : State) (nonce : List Byte) : List Byte :=
  let id := getKey s 0
  ([0x51, 0x42, 0x41, 0x54] : List Byte) ++ leBytes 2 0x6480 ++ leBytes 1 (lifecycle s) ++
    leBytes 1 (match id with | some k => b2n k.p384 | none => 0xFF) ++ serialBytes ++ leBytes 4 s.store.ledger.claimCount ++
    leBytes 4 0 ++ leBytes 8 (localTime s 2) ++ leBytes 8 s.store.head ++ padTo 32 s.store.chain ++ padTo 32 s.boot.digest ++
    padTo 16 nonce ++ padTo 97 (match id with | some k => pointBytes k | none => []) ++ List.replicate 31 0

/-- The public key of a VERIFY: its slot's, or the point at PUB_PTR, taken as P-256 where it is one, else as P-384.
(DESIGN CHOICE, log entry 36.) -/
def verifyKey (s : State) (key idx : Nat) : Status × SignKey :=
  if key = 7 then
    let b := engineRead s (signDesc s idx 4) 97
    let f := b.1.headD 0
    let a := pointKey false b.1
    let c := pointKey true b.1
    if b.2 ≠ 0 then (b.2, a) else if pointOk a f then (0x00, a) else if pointOk c f then (0x00, c) else (0x94, a)
  else match getKey s key with
    | some k => if onCurve k.curve k.x k.y then (0x00, k) else (0x94, k)
    | none => (0x92, quiporSlot)

/-- What a command's end does: its status and its writes; GEN_ID also loads slot 0 (R255 to R260). -/
def signEnd (s : State) (j : SignJob) : OpEnd × Option SignKey :=
  let p := signDesc s j.desc
  if j.fail ≠ 0 then (.only j.fail, none)
  else if j.op ≤ 1 then
    let r := engineRead s (p 0) (p 1)
    (if r.2 ≠ 0 then .only r.2 else ⟨0x00, [(p 2, if j.op = 0 then sha256 r.1 else sha384 r.1)], none⟩, none)
  else if j.op = 2 then
    match getKey s 0 with
    | none => (.only 0x92, none)
    | some k =>
      let r := engineRead s (p 2) k.curve.size
      (if r.2 ≠ 0 then .only r.2 else ⟨0x00, [(p 3, signWith k r.1 (j.nonce.getD []))], none⟩, none)
  else if j.op = 3 then
    let k := verifyKey s j.key j.desc
    let h := engineRead s (p 2) k.2.curve.size
    let g := engineRead s (p 3) (2 * k.2.curve.size)
    (if k.1 ≠ 0 then .only k.1 else if h.2 ≠ 0 then .only h.2 else if g.2 ≠ 0 then .only g.2
     else .only (if verifyWith k.2 h.1 g.1 then 0x00 else 0x06), none)
  else if j.op = 4 then
    match getKey s 1 with
    | none => (.only 0x92, none)
    | some k =>
      let r := engineRead s (p 0) 16
      let a := attestation s r.1
      (if r.2 ≠ 0 then .only r.2 else ⟨0x00, [(p 5, a ++ signWith k (sha256 a) (j.nonce.getD []))], none⟩, none)
  else
    let n := signSize s 5
    let d := (j.nonce.getD []).take n
    let k := privateKey (n == 48) (ofBe d)
    (⟨0x00, [(p 5, signerBlob (n == 48) d ((j.nonce.getD []).drop n) ++ pointBytes k)], none⟩, some k)

/-- SIGN_COMMAND_END for a command of SIGN_CMD (R255, R256). -/
def signerCommandEnd (j : SignJob) (s : State) : State :=
  let e := signEnd s j
  let r := if e.1.status = 0 then engineWrites e.1.writes s else (e.1.status, s)
  let s := countEvent 2 0x045 1 (signerResult r.1 r.2)
  match e.2 with
  | some k => if r.1 = 0 then setKey 0 (some k) s else s
  | none => s

/-- The signer when the keystone leaves RUN (R254). -/
def signerLeave (s : State) : State := { s with signer := SignerState.reset }

/-- KEYS.SIGN_KEYj_INFO. -/
def keyInfoWord (s : State) (j : Nat) : Nat :=
  match getKey s j with
  | some k => 1 + 2 * b2n k.p384 + 4 * b2n (decide (j < 2))
  | none => 0

/-- KEYS.SIGN_RES. -/
def signResWord (s : State) : Nat := s.signer.status.toNat + 256 * b2n s.signer.done + 512 * b2n s.signer.job.isSome

end Sys2Proof.Machine
end

