-- ==== Sys2Proof/Machine/Toll.lean ====
section
/-! DEFINITION. The toll gate: class entries, the calendar, capacities, admission, cancelling and the frame boundary
(R74 to R99). (DESIGN CHOICE, log entry 12.) -/

namespace Sys2Proof.Machine

/-! ## Class entries (R81) -/

/-- Byte `o` of class k's entry. -/
def clsByte (s : State) (k o : Nat) : Nat := regField s 1 .tollClass (32 * k + o / 4) (8 * (o % 4)) 8

/-- A 16-bit field of class k's entry. -/
def clsHalf (s : State) (k o : Nat) : Nat := clsByte s k o + 256 * clsByte s k (o + 1)

/-- BEARING of class k. -/
def clsBearing (s : State) (k : Nat) : Bool := bitOf (clsByte s k 0) 1

/-- A stage record with every field in range (R81). The default of TAGWRITE has 80 frames (R83), above the 64 of R81's
table, and the chapter's example admits it: that class's FRAMES has no such limit. (DEDUCED, log entry 31.) -/
def stageOk (s : State) (k i : Nat) : Bool :=
  let o := 16 + 16 * i
  let b := clsBearing s k
  let fr := clsByte s k o
  (if b then fr == 1 && decide (2 ≤ clsByte s k (o + 1)) else decide (1 ≤ fr) && (decide (fr ≤ 64) || k == 9)) &&
    decide (clsByte s k (o + 3) < 2) && decide (clsHalf s k (o + 4) ≤ 1000) && decide (clsHalf s k (o + 6) ≤ 1000) &&
    decide (clsHalf s k (o + 8) ≤ 15625) && decide (clsHalf s k (o + 10) ≤ 250) && decide (clsByte s k (o + 12) ≤ 32) &&
    decide (clsByte s k (o + 13) ≤ 10)

/-- Class k is VALID, with every field in range and no stage record above its STAGES in use (R81). -/
def clsOk (s : State) (k : Nat) : Bool :=
  let b := clsBearing s k
  let n := clsByte s k 1
  let lo := clsHalf s k 4
  let hi := clsHalf s k 6
  let d := clsHalf s k 2
  bitOf (clsByte s k 0) 0 && decide (clsByte s k 0 < 4) && decide (1 ≤ n) && decide (n ≤ 7) && decide (1 ≤ lo) && decide (lo ≤ 2047) &&
    decide (1 ≤ hi) && decide (hi ≤ 2047) && decide (lo ≤ d) && decide (d ≤ hi) &&
    (if b then (clsByte s k 8 == 1 || clsByte s k 8 == 2) else clsByte s k 8 == 0) &&
    (List.range 7).all (fun j => clsByte s k (9 + j) == 0) && (!b || decide (k < 16)) &&
    (List.range 7).all (fun i => if i < n then stageOk s k i else (List.range 16).all (fun j => clsByte s k (16 + 16 * i + j) == 0))

/-- Class k's entry is latched (R81). -/
def latchClass (k : Nat) (s : State) : State := (List.range 32).foldl (fun s w => latchReg s 1 .tollClass (32 * k + w)) s

/-! ## Capacities (R79, R94 to R98) -/

/-- Where pier n's floor in force is kept: the boundary of TOLL_FLOOR.PIER applies per pier (R99). -/
def pierFloorKey (n : Nat) : Nat := islandBase 1 + 0x100000 + n

/-- The toll floor in force of an island (R96, R99); AON has none. -/
def tollFloor (s : State) (i : Nat) : Nat :=
  let f := regInForce s 1 .tollFloor 0
  if i = 1 then bitsOf f 0 2 else if i = 2 then bitsOf f 2 2 else if i = 4 then bitsOf f 4 2 else if i = 5 then bitsOf f 6 2
  else if 6 ≤ i then SMap.get 3 (pierFloorKey (i - 6)) s.latched else if i = 3 then bitsOf f 10 1 else 0

/-- The island of a resource. -/
def resIsland (r : Nat) : Nat :=
  if r < 8 then 6 + r else if r = 8 then 3 else if r ≤ 10 then 2 else if r ≤ 12 then 4 else if r ≤ 14 then 5 else 0

/-- The length of the part of [a, b) inside [c, d). -/
def overlapLen (a b c d : Nat) : Nat := min b d - max a c

/-- The longest part of a guaranteed window inside frame f (R94). -/
def rfWindow (s : State) (f : Nat) : Nat :=
  let period := liveField s 3 .coexPeriod 0 0 20
  let win := liveField s 3 .coexWin 0 0 20
  let phase := liveField s 3 .coexPhase 0 0 20
  if period = 0 then 0
  else
    let n0 := (1000 * f - phase) / period
    (List.range (1000 / period + 3)).foldl (fun m j =>
      let a := phase + (n0 - 1 + j) * period
      max m (overlapLen a (a + win) (1000 * f) (1000 * f + 1000))) 0

/-- The grant latency bound charged to each RF stage frame (R94). -/
def rfGrant (s : State) : Nat := if coexMode s then liveField s 3 .coexCfg 0 8 8 else 0

/-- The toll current code of pier n in force. -/
def lfiCode (s : State) (n : Nat) : Nat := liveField s 1 .tollLfi (n / 4) (8 * (n % 4)) 8

/-- The LF budget in force (R95). -/
def lfeBudget (s : State) : Nat := SMap.get 0 (regAddr 1 .tollLfe 0) s.latched

/-- Whether a resource's capacity is 0: its island restarts, or a thermal or clock stop holds (R98, R372, R373). -/
def capStopped (s : State) (r : Nat) : Bool :=
  (match s.par.restarting with | some (i, _) => i == resIsland r && decide (0 < i) | none => false) ||
    ((s.par.thermalStop || s.par.clockStop) && (decide (r ≤ 8) || r == 15))

/-- Site time minus device time in ns (R403): 0 on the master. -/
def siteOfs (s : State) : Int := if s.boot.strapId = 0 then 0 else s.zw.ofs

/-- SYNCED (R404): always 1 on the master. -/
def siteSynced (s : State) : Bool := s.boot.strapId == 0 || s.zw.synced

/-- ZONE in force (R406). -/
def zone (s : State) : Nat := liveField s 5 .zwTurn 0 0 4

/-- The turn that a site time in ns lies in. -/
def turnAt (s : State) (ns : Int) : Int := ns / (1000000 * (liveField s 5 .zwTurn 0 12 8 : Nat))

/-- The owned turn that owns frame f (R406): the frame and its guard frames lie in it. -/
def frameTurn (s : State) (f : Nat) : Option Int :=
  let a : Int := 1000000 * ((f : Int) - 1) + siteOfs s
  let j := turnAt s a
  if siteSynced s ∧ j = turnAt s (a + 2999999) ∧ j % ((liveField s 5 .zwTurn 0 4 4 : Nat) + 1) = (liveField s 5 .zwTurn 0 8 4 : Nat) then some j else none

/-- The capacity of resource r in frame f (R79, R94, R407). -/
def capacity (s : State) (r f : Nat) : Nat :=
  let keys := tollFloor s 2
  if capStopped s r then 0
  else if r ≤ 8 ∧ zone s ≠ 0 ∧ frameTurn s f = none then 0
  else if r < 8 then 1000
  else if r = 8 then (if coexMode s then rfWindow s f else 1000)
  else if r = 9 then (if keys = 0 then 15625 else if keys = 1 then 12500 else if keys = 2 then 8125 else 4000)
  else if r = 10 then (if keys = 0 then 250 else if keys = 1 then 200 else if keys = 2 then 130 else 64)
  else if r = 11 then (if tollFloor s 4 = 3 then 16 else 32)
  else if r = 12 then 10
  else if r = 13 then liveField s 1 .tollBuscap 0 0 8
  else if r = 14 then liveField s 1 .tollBuscap 0 8 8
  else lfeBudget s

/-! ## Sums (R84 to R86) -/

/-- LF dissipation of a stage frame on one pier in µJ (R80). -/
def lfeOf (air c : Nat) : Nat := ceilDiv (48 * air * c * c) 10000000

/-- The demand of stage i of class k for a bay, per frame, by resource (R79, R80, R94). -/
def stageDemand (s : State) (k i bay : Nat) : Vector Nat 16 :=
  let o := 16 + 16 * i
  let piers := clsByte s k (o + 2)
  let own := bitOf (clsByte s k (o + 3)) 0
  let air := clsHalf s k (o + 4)
  let on : Nat → Bool := fun n => bitOf piers n || (own && n == bay / 8)
  let rf := clsHalf s k (o + 6)
  (Vector.range 16).map (fun r =>
    if r < 8 then (if on r then air else 0)
    else if r = 8 then (if rf = 0 then 0 else rf + rfGrant s)
    else if r = 9 then clsHalf s k (o + 8) else if r = 10 then clsHalf s k (o + 10)
    else if r = 11 then clsByte s k (o + 12) else if r = 12 then clsByte s k (o + 13)
    else if r = 13 then clsByte s k (o + 14) else if r = 14 then clsByte s k (o + 15)
    else (List.range 8).foldl (fun e n => if on n ∧ air ≠ 0 then e + lfeOf air (lfiCode s n) else e) 0)

/-- W of a bearing stage (R85). -/
def Bearing.w (b : Bearing) : Nat := (b.budget - 1) / b.jobs

/-- The demand on r summed over the holders of the same bearing stage. -/
def bearingSum (bs : List Bearing) (b : Bearing) (r : Nat) : Nat :=
  bs.foldl (fun n x => if x.cls = b.cls ∧ x.stage = b.stage ∧ x.budget = b.budget ∧ x.jobs = b.jobs then n + vget 0 x.demand r else n) 0

/-- The share that every frame sets aside for a list of bearings on r (R85): the first holder of each stage counts its
whole sum. -/
def shareOf (all : List Bearing) (r : Nat) : List Bearing → List Bearing → Nat
  | [], _ => 0
  | b :: rest, seen =>
    let dup := seen.any (fun x => x.cls == b.cls && x.stage == b.stage && x.budget == b.budget && x.jobs == b.jobs)
    (if dup then 0 else ceilDiv (bearingSum all b r) (max 1 b.w)) + shareOf all r rest (b :: seen)

/-- The bearing share on resource r. -/
def bearingShare (bs : List Bearing) (r : Nat) : Nat := shareOf bs r bs []

/-- The units placed reservations hold of r in frame f. -/
def placedIn (rs : List Resv) (r f : Nat) : Nat :=
  rs.foldl (fun n x => if x.first ≤ f ∧ f < x.first + x.frames then n + vget 0 x.demand r else n) 0

/-- The lanes of R86. -/
def laneOf (s : State) (bs : List Bearing) (r f : Nat) : Nat :=
  if bitOf (regValue s 1 .tollCtrl 0) 0 ∨ bs ≠ [] then
    (if r = 13 then liveField s 1 .tollBuscap 0 16 8 else if r = 14 ∧ f % 100 = 0 then 13 else 0)
  else 0

/-- What a request being placed has so far: the trial copy of R88. -/
structure Trial where
  resvs    : List Resv
  bearings : List Bearing

/-- The sum on r in frame f. -/
def Trial.sum (t : Trial) (s : State) (r f : Nat) : Nat := placedIn t.resvs r f + bearingShare t.bearings r + laneOf s t.bearings r f

/-- A stage's demand fits in frame f (R88). -/
def Trial.fits (t : Trial) (s : State) (d : Vector Nat 16) (f : Nat) : Bool :=
  (List.range 16).all (fun r => vget 0 d r == 0 || decide (t.sum s r f + vget 0 d r ≤ capacity s r f))

/-- The earliest start at or after `f` of `n` fitting frames in a row, before frame `f + fuel`; `run` frames before f
already fit. -/
def Trial.place (t : Trial) (s : State) (d : Vector Nat 16) (n : Nat) : Nat → Nat → Nat → Option Nat
  | 0, _, _ => none
  | fuel + 1, f, run =>
    if t.fits s d f then (if n ≤ run + 1 then some (f + 1 - n) else t.place s d n fuel (f + 1) (run + 1))
    else t.place s d n fuel (f + 1) 0

/-- The bearings a class takes for a bay: its stages. -/
def bearingsOf (s : State) (k bay handle : Nat) : List Bearing :=
  (List.range (clsByte s k 1)).map (fun i =>
    { bay := bay, handle := handle, cls := k, stage := i, budget := clsByte s k (17 + 16 * i), jobs := clsByte s k 8, demand := stageDemand s k i bay })

/-- Every frame of the horizon holds the sum for every resource whose share the bearings raise (R88). -/
def Trial.fitsEverywhere (t u : Trial) (s : State) (now : Nat) : Bool :=
  (List.range 16).all (fun r => decide (bearingShare u.bearings r ≤ bearingShare t.bearings r) ||
    (List.range 2047).all (fun j => decide (u.sum s r (now + 1 + j) ≤ capacity s r (now + 1 + j))))

/-- The stages of a placed class placed in order from `start` (R84, R88). -/
def placeStages (s : State) (k bay handle now : Nat) : List Nat → Nat → Trial → Option (Nat × Trial)
  | [], start, t => some (start, t)
  | i :: is, start, t =>
    let n := clsByte s k (16 + 16 * i)
    let d := stageDemand s k i bay
    let from_ := start + clsByte s k (17 + 16 * i)
    match t.place s d n (now + 2048 - from_) from_ 0 with
    | none => none
    | some f => placeStages s k bay handle now is (f + n) { t with resvs := t.resvs ++ [⟨handle, k, f, n, d⟩] }

/-- The first owned frame after f of a turn later than j, within `fuel` frames. -/
def nextTurnFrame (s : State) (j : Int) : Nat → Nat → Option Nat
  | 0, _ => none
  | fuel + 1, f =>
    match frameTurn s f with
    | some k => if j < k then some f else nextTurnFrame s j fuel (f + 1)
    | none => nextTurnFrame s j fuel (f + 1)

/-- One try at a class on a zoned device (R407): a stage whose GAP is 0 stands directly after the one before it. The
result is the class's end and trial, or where its first stage began when the try fails. -/
def zonedTry (s : State) (k bay handle now : Nat) : List Nat → Nat → Option Nat → Trial → Option (Nat × Trial) ⊕ Nat
  | [], start, _, t => .inl (some (start, t))
  | i :: is, start, first, t =>
    let n := clsByte s k (16 + 16 * i)
    let d := stageDemand s k i bay
    let gap := clsByte s k (17 + 16 * i)
    match t.place s d n (now + 2048 - (start + gap)) (start + gap) 0, first with
    | none, none => .inl none
    | none, some a => .inr a
    | some f, none => zonedTry s k bay handle now is (f + n) (some f) { t with resvs := t.resvs ++ [⟨handle, k, f, n, d⟩] }
    | some f, some a =>
      if gap = 0 ∧ f ≠ start then .inr a
      else zonedTry s k bay handle now is (f + n) first { t with resvs := t.resvs ++ [⟨handle, k, f, n, d⟩] }

/-- The placed stages of a class that carry AIR or RF lie within the owned frames of one turn (R407). -/
def oneTurn (s : State) (rs : List Resv) : Bool :=
  let air := rs.filter (fun x => (List.range 9).any (fun r => vget 0 x.demand r != 0))
  match air with
  | [] => true
  | x :: _ => air.all (fun y => frameTurn s y.first == frameTurn s x.first && frameTurn s (y.first + y.frames - 1) == frameTurn s x.first)

/-- A placed class on a zoned device (R407): a failing try restarts at the next owned turn. -/
def placeZoned (s : State) (k bay handle now : Nat) : Nat → Nat → Trial → Option (Nat × Trial)
  | 0, _, _ => none
  | fuel + 1, start, t =>
    let again : Nat → Option (Nat × Trial) := fun a =>
      match nextTurnFrame s (turnAt s (1000000 * (a : Int) + siteOfs s)) (now + 2048 - a) (a + 1) with
      | some f => placeZoned s k bay handle now fuel f t
      | none => none
    match zonedTry s k bay handle now (List.range (clsByte s k 1)) start none t with
    | .inl none => none
    | .inl (some (e, u)) =>
      let mine := u.resvs.drop t.resvs.length
      if oneTurn s mine then some (e, u) else again ((mine.head?.map (·.first)).getD start)
    | .inr a => again a

/-- A group's classes placed in order (R88). -/
def placeGroup (s : State) (bay handle now time : Nat) : List Nat → Nat → Trial → Option Trial
  | [], _, t => some t
  | k :: ks, start, t =>
    if clsBearing s k then
      let add := if k = 4 then bearingsOf s 4 bay handle ++ bearingsOf s 5 bay handle ++ bearingsOf s 6 bay handle
        else bearingsOf s 5 bay handle ++ bearingsOf s 6 bay handle
      let u : Trial := { t with bearings := t.bearings ++ add }
      if t.fitsEverywhere u s now then placeGroup s bay handle now time ks start u else none
    else
      match (if zone s = 0 then placeStages s k bay handle now (List.range (clsByte s k 1)) start t else placeZoned s k bay handle now 2048 start t) with
      | none => none
      | some (e, u) => if (time + 1000 * clsHalf s k 2) / 1000 < e then none else placeGroup s bay handle now time ks e u

/-! ## Requests (R81, R88 to R90, R97) -/

/-- The classes of a TOLL_REQ word. -/
def reqClasses (w : Nat) : List Nat := (List.range (bitsOf w 20 2 + 1)).map (fun i => bitsOf w (5 * i) 5)

/-- BAY of a TOLL_REQ word. -/
def reqBay (w : Nat) : Nat := bitsOf w 22 6

/-- The calendar is empty (R97). -/
def calendarEmpty (s : State) : Bool :=
  s.toll.bearings.isEmpty && s.toll.resvs.all (fun x => decide (x.first + x.frames ≤ s.time.us / 1000 + 1))

/-- Some bay shows TOKEN_LIVE (R64). -/
def anyTokenLive (s : State) : Bool := s.span.tokens.toList.any (·.isSome)

/-- A request names its bearing classes as R84 allows. -/
def namesBearings (s : State) (ks : List Nat) : Bool :=
  ks == [5] || ks == [0, 3, 4] || ks == [1, 3, 4] || ks == [2, 3, 4] || ks.all (fun k => !clsBearing s k)

/-- The classes whose entries a request latches: those it names, and the bearings it takes (R81). -/
def latchedClasses (ks : List Nat) : List Nat :=
  ks ++ (if ks.contains 4 then [5, 6] else if ks = [5] then [6] else [])

/-- The lowest free handle. -/
def freeHandle (s : State) : Option Nat := (List.range 256).find? (fun h => !s.toll.handles.contains h)

/-- Requests in flight: waiting or with an answer not yet read (R88). -/
def inFlight (s : State) : Nat := s.toll.reqs.length + s.toll.answers.length

/-- A write of TOLL_REQ by the deck (R89, R97): it withdraws a PARK admission. -/
def tollReqWrite (w : Nat) (s : State) : Status × State :=
  let s := match s.toll.parking with
    | some h => fireWake 4 (modToll (fun t => { t with parking := none, handles := t.handles.filter (fun x => x != h), resvs := t.resvs.filter (fun x => x.handle != h) }) s)
    | none => s
  if 4 ≤ inFlight s ∨ freeHandle s = none then (0x01, s)
  else (0x00, countEvent 1 0x040 1 (modToll (fun t => { t with reqs := t.reqs ++ [w] }) s))

/-- A request answered. -/
def tollAnswer (w : Nat) (st : Status) (handle first last : Nat) (s : State) : State :=
  let s := countEvent 1 0x042 (b2n (st == 0x01)) (countEvent 1 0x041 (b2n (st == 0x00)) s)
  modToll (fun t => { t with
    answers := t.answers ++ [⟨st, bitsOf w 28 4, handle, first, last, s.time.us⟩]
    refused := if st = 0x01 then satTo 0xFFFF (t.refused + 1) else t.refused }) s

/-- Slot of a frame. -/
def slotOf (f : Nat) : Nat := f % 2048

/-- The lowest first frame and the highest last frame of a list of reservations. -/
def resvBounds : List Resv → Option (Nat × Nat)
  | [] => none
  | x :: xs => match resvBounds xs with
    | none => some (x.first, x.first + x.frames - 1)
    | some (a, b) => some (min a x.first, max b (x.first + x.frames - 1))

/-- An admission committed: reservations, bearings and the handle. A renewal moves bearings the bay already holds (R90).
A group with no placed frame leaves FIRST and LAST open. (DEDUCED, log entry 31.) -/
def tollAdmit (w handle : Nat) (t : Trial) (s : State) : State :=
  let s := modToll (fun g => { g with resvs := t.resvs, bearings := t.bearings, handles := handle :: g.handles
                                      parking := if (reqClasses w).contains 12 then some handle else g.parking }) s
  match resvBounds (t.resvs.filter (fun x => x.handle == handle)) with
  | some (a, b) => tollAnswer w 0x00 handle (slotOf a) (slotOf b) s
  | none => tollAnswer w 0x00 handle (freeValue s % 2048) (freeValue (useFree s) % 2048) (useFree (useFree s))

/-- Whether a bay already holds CAPTURE and CLOSE bearings. -/
def holdsBearings (s : State) (bay : Nat) : Bool := s.toll.bearings.any (fun b => b.bay == bay && b.cls == 5)

/-- TOLL_REQUEST_PROCESS: the oldest request is placed or refused (R74, R88, R90, R97). -/
def tollProcess (s : State) : State :=
  match s.toll.reqs with
  | [] => s
  | w :: rest =>
    if canAct s 1 = false then s
    else
      let others := inFlight s - 1
      let s := modToll (fun t => { t with reqs := rest }) s
      let ks := reqClasses w
      let s := (latchedClasses ks).foldl (fun s k => latchClass k s) s
      let bay := reqBay w
      let h := (freeHandle s).getD 0
      if bitOf (regValue s 1 .tollCtrl 0) 0 = false then tollAnswer w 0x02 0 0 0 s
      else if (latchedClasses ks).all (clsOk s) = false ∨ namesBearings s ks = false then tollAnswer w 0x02 0 0 0 s
      else if ks.contains 12 ∧ (calendarEmpty s = false ∨ others ≠ 0 ∨ anyTokenLive s) then tollAnswer w 0x02 0 0 0 s
      else if freeHandle s = none then tollAnswer w 0x01 0 0 0 s
      else if ks = [5] ∧ holdsBearings s bay then
        tollAdmit w h ⟨s.toll.resvs, s.toll.bearings.map (fun b => if b.bay = bay ∧ b.cls ≠ 4 then { b with handle := h } else b)⟩ s
      else
        let now := s.time.us / 1000
        match placeGroup s bay h now s.time.us ks (now + 2) ⟨s.toll.resvs, s.toll.bearings⟩ with
        | some t => tollAdmit w h t s
        | none => tollAnswer w 0x01 0 0 0 s

/-- A handle cancelled (R90): frames after the current one, bearings and the handle itself are freed. -/
def tollCancelHandle (h : Nat) (s : State) : State :=
  let now := s.time.us / 1000
  modToll (fun t => { t with
    resvs := t.resvs.filterMap (fun x => if x.handle ≠ h then some x else if now < x.first then none else some { x with frames := min x.frames (now + 1 - x.first) })
    bearings := t.bearings.filter (fun b => b.handle != h)
    handles := t.handles.filter (fun x => x != h)
    parking := if t.parking = some h then none else t.parking }) s

/-! ## Frame boundaries (R77, R99) -/

/-- A resource is in use (R99): a placed reservation has demand on it after the current frame, or a bearing share on it
is not 0. -/
def resUsed (s : State) (r : Nat) : Bool :=
  let now := s.time.us / 1000
  s.toll.resvs.any (fun x => decide (now + 1 < x.first + x.frames) && vget 0 x.demand r != 0) ||
    s.toll.bearings.any (fun b => vget 0 b.demand r != 0)

/-- A placed reservation has demand on r after the current frame. -/
def resPlaced (s : State) (r : Nat) : Bool :=
  s.toll.resvs.any (fun x => decide (s.time.us / 1000 + 1 < x.first + x.frames) && vget 0 x.demand r != 0)

/-- An island's resources are in use (R96, R99). -/
def islandResUsed (s : State) (i : Nat) : Bool := (List.range 16).any (fun r => resIsland r == i && resUsed s r)

/-- The S fields whose boundary a frame boundary is (R94, R95, R99). -/
def latchFrame (s : State) : State :=
  let one := fun (i : Nat) (r : Reg) (k mask : Nat) (busy : Bool) (s : State) => if busy then s else latchFields i r k mask s
  let s := one 1 .tollFloor 0 0x3 (islandResUsed s 1) s
  let s := one 1 .tollFloor 0 0xC (islandResUsed s 2) s
  let s := one 1 .tollFloor 0 0x30 (islandResUsed s 4) s
  let s := one 1 .tollFloor 0 0xC0 (islandResUsed s 5) s
  let s := (List.range 8).foldl (fun s n => if islandResUsed s (6 + n) then s
    else { s with latched := SMap.set 3 (pierFloorKey n) (regField s 1 .tollFloor 0 8 2) s.latched }) s
  let s := one 1 .tollFloor 0 0x400 (islandResUsed s 3) s
  let s := one 1 .tollBuscap 0 0xFF00FF (resUsed s 13) s
  let s := one 1 .tollBuscap 0 0xFF00 (resUsed s 14) s
  let s := (List.range 8).foldl (fun s n => one 1 .tollLfi (n / 4) (0xFF * 2 ^ (8 * (n % 4))) (resPlaced s n) s) s
  let rf := resPlaced s 8
  let s := one 5 .zwTurn 0 0xFFFFF ((List.range 9).any (resPlaced s)) s
  let s := [Reg.coexCfg, .coexPeriod, .coexWin, .coexPhase].foldl (fun s r => one 3 r 0 0xFFFFFFFF rf s) s
  { s with latched := SMap.set 0 (regAddr 1 .tollLfe 0) s.therm.budget s.latched }

/-- FRAME_BOUNDARY (R77): the gate opens the frame of the present time, its past reservations leave the calendar, and
the S fields latch. -/
def frameOpen (s : State) : State :=
  let f := s.time.us / 1000
  if s.toll.frame < f ∧ canAct s 1 then
    latchFrame (modToll (fun t => { t with frame := f, resvs := t.resvs.filter (fun x => decide (f < x.first + x.frames)) }) s)
  else s

/-- A deck warm restart, or the deck off, clears the calendar, the bearings, the handles and every request (R98). -/
def tollClear (s : State) : State := { s with toll := TollState.reset }

/-! ## Registers as read (R99) -/

/-- DECK.TOLL_ANS: the oldest answer. -/
def ansWord (a : TollAnswer) : Nat := 1 + 2 ^ 8 * a.status.toNat + 2 ^ 16 * a.tag + 2 ^ 20 * a.handle

/-- DECK.TOLL_CTRL. -/
def tollCtrlWord (s : State) : Nat :=
  regField s 1 .tollCtrl 0 0 1 + 2 * b2n (inFlight s != 0) + 4 * b2n s.toll.parking.isSome + 8 * b2n (calendarEmpty s)

/-- FREE of DECK.TOLL_PEEK: the frame of SLOT that the horizon holds now. -/
def tollPeekFree (s : State) : Nat :=
  let slot := regField s 1 .tollPeek 0 0 11
  let r := regField s 1 .tollPeek 0 11 5
  let now := s.time.us / 1000
  let f := now + (slot + 2048 - now % 2048) % 2048
  if 16 ≤ r then 0
  else
    let t : Trial := ⟨s.toll.resvs, s.toll.bearings⟩
    satTo 0xFFFF (capacity s r f - t.sum s r f)

end Sys2Proof.Machine
end

