-- ==== Sys2Proof/Machine/Link.lean ====
section
/-! DEFINITION. Frames out of the device: dispatch frames and their queue, ring frames, the field buses, and requests that
await their answers (R389, R396 to R401, R409, R414 to R425). (DESIGN CHOICE, log entry 12.) -/

namespace Sys2Proof.Machine

/-! ## Dispatch frames (R414) -/

/-- A frame's bytes from its header fields and body. -/
def dispatchBytes (typ device bay status cls seq ref : Nat) (body : List Byte) : List Byte :=
  let h := leBytes 1 1 ++ leBytes 1 typ ++ leBytes 2 body.length ++ leBytes 1 device ++ leBytes 1 bay ++ leBytes 1 status ++
    leBytes 1 cls ++ leBytes 4 seq ++ leBytes 4 ref ++ body
  h ++ leBytes 4 (crc32c h)

/-- A device frame's bytes. -/
def Frame.bytes (s : State) (f : Frame) : List Byte :=
  if f.raw ≠ [] then f.raw else dispatchBytes f.typ s.boot.strapId f.bay f.status.toNat f.cls f.seq f.ref f.body

/-! ## Ring frames sent (R396, R398, R400) -/

/-- LINK runs and takes part in the ring. -/
def ringOn (s : State) : Bool := canAct s 5 && bitOf (regValue s 5 .zwCfg 0) 0

/-- A slave that takes part in the ring. -/
def ringSlave (s : State) : Bool := ringOn s && s.boot.strapId != 0

/-- The master of a ring. -/
def ringMaster (s : State) : Bool := ringOn s && s.boot.strapId == 0

/-- A ring frame leaves by the downstream port, or wrapped by the upstream port when that link is down. -/
def ringOut (typ : Nat) (f : RingFrame) (s : State) : State :=
  if s.zw.downPort.up then emit (.ring false typ f) s
  else if s.zw.upPort.up then emit (.ring true typ { f with wrapped := true }) s
  else s

/-- The fragments of a payload of at most 1,024 B each (R397). -/
def fragments : Nat → List Byte → List (List Byte)
  | 0, _ => []
  | n + 1, bs => if bs.length ≤ 1024 then [bs] else bs.take 1024 :: fragments n (bs.drop 1024)

/-- A frame the device originates: HOPS 32 and its next SEQ. -/
def ringFrame (s : State) (dst : Nat) (bcast first last : Bool) (payload : List Byte) : RingFrame :=
  { src := Fin.ofNat 16 s.boot.strapId, dst := Fin.ofNat 16 dst, bcast := bcast, hops := 32, first := first, last := last,
    wrapped := false, seq := s.zw.seq, payload := payload, crcGood := true }

/-- The frames of a payload, in order, each handed to `out`. -/
def ringFrames (dst : Nat) (bcast : Bool) (out : RingFrame → State → State) (first : Bool) : List (List Byte) → State → State
  | [], s => s
  | p :: ps, s =>
    let f := ringFrame s dst bcast first ps.isEmpty p
    ringFrames dst bcast out false ps (out f (modZw (fun z => { z with seq := (z.seq + 1) % 65536 }) s))

/-- A payload sent over the ring. -/
def ringSend (typ dst : Nat) (bcast : Bool) (out : Nat → RingFrame → State → State) (payload : List Byte) (s : State) : State :=
  ringFrames dst bcast (out typ) true (fragments (payload.length / 1024 + 1) payload) s

/-! ## The host-bound queue (R389, R409, R417 to R419) -/

/-- Where an unsolicited frame goes. -/
def eventDest (s : State) : HostDest :=
  if ringSlave s then .ring
  else if bitOf (regValue s 5 .hostCfg 0) 2 then .eth s.link.lastMac
  else .spi

/-- A frame's destination can take it without a host transaction. -/
def leavesAtOnce (s : State) (f : Frame) : Bool :=
  canAct s 5 && (match f.dest with
    | .spi => false
    | .eth m => bitOf (regValue s 5 .hostCfg 0) 1 && (m.isSome || s.link.lastMac.isSome)
    | .ring => ringOn s)

/-- A frame leaves the device. -/
def sendOut (f : Frame) (s : State) : State :=
  let s := countEvent 5 0x041 1 (modLink (fun l => { l with sentCount := l.sentCount + 1 }) s)
  match f.dest with
  | .ring => ringSend 0x10 0 false ringOut (f.bytes s) s
  | .eth m => emit (.frame { f with dest := .eth (if m.isSome then m else s.link.lastMac) }) s
  | .spi => emit (.frame f) s

/-- The queued frames that wait for no host transaction leave in order. -/
def drainFrames (s : State) : State :=
  let out := s.link.queued.filter (leavesAtOnce s)
  let stay := s.link.queued.filter (fun f => !leavesAtOnce s f)
  out.foldl (fun s f => sendOut f s) (modLink (fun l => { l with queued := stay }) s)

/-- A device frame takes the next sequence number and enters the queue. -/
def queueFrame (typ bay : Nat) (status : Status) (cls ref : Nat) (body : List Byte) (dest : HostDest) (s : State) : State :=
  drainFrames (modLink (fun l => { l with
    queued := l.queued ++ [⟨typ, bay, status, cls, l.seqNext, ref, body, dest, []⟩], seqNext := (l.seqNext + 1) % 2 ^ 32 }) s)

/-- An unsolicited frame. -/
def sendEvent (typ bay : Nat) (status : Status) (body : List Byte) (s : State) : State :=
  queueFrame typ bay status 0xFF 0 body (eventDest s) s

/-- A FAULT frame (R415): BAY names the bay where UNIT is a bay of this device. -/
def sendFault (code : Status) (island unit time : Nat) (detail : List Byte) (s : State) : State :=
  let bay := if (code = 0x0D ∧ 6 ≤ island) ∨ code = 0xDB then unit else 0xFF
  sendEvent 0xA3 bay code (leBytes 1 code.toNat ++ leBytes 1 island ++ leBytes 1 unit ++ [0] ++ leBytes 8 time ++ padTo 16 detail) s

/-! ## Answers (R414, R416) -/

/-- The answer of a request: it no longer waits, and its STATUS is kept with its SEQ. -/
def answerReq (r : HostReq) (st : Status) (cls : Nat) (body : List Byte) (s : State) : State :=
  let s := modLink (fun l => { l with
    waiting := l.waiting.filter (fun x => x ≠ r)
    seqs := l.seqs.map (fun e => if e.1 = r.seq then (e.1, some st) else e) }) s
  queueFrame (r.typ + 0x80) r.bay st cls r.seq body r.dest s

/-- An answer with an empty body, where a request awaits one. -/
def answerIf (r : Option HostReq) (st : Status) (cls : Nat) (s : State) : State :=
  match r with
  | some r => answerReq r st cls [] s
  | none => s

/-- A SEQ is accepted: the last 8 are kept (R416). -/
def acceptSeq (q : Nat) (s : State) : State := modLink (fun l => { l with seqs := ((q, none) :: l.seqs).take 8 }) s

/-! ## LINK leaves RUN, and its status (R389, R426) -/

/-- A LINK warm restart: what was queued is lost, and RESYNC with the next number is the first frame after it (R389). The
sequence number and the counts stay in the abutment. -/
def linkRestartFrames (s : State) : State :=
  let lost := s.link.queued.length
  let sent := s.link.sentCount
  let s := modLink (fun l => { l with queued := [], lost := l.lost + lost, resync := true }) s
  sendEvent 0xA2 0xFF 0x00 (leBytes 4 lost ++ leBytes 4 sent) s

/-- What LINK's own logic loses whenever it leaves RUN: reassemblies, bus windows, ring ports. -/
def linkLeave (s : State) : State :=
  let s := modLink (fun l => { l with reasm := [], ethBusy := false, mdio := none, mRead := none, dPoll := none, dBusy := false
                                      held := [], heldLost := 0, dropped := 0, bad := 0, mTimeout := 0, dNoReply := 0, lastBeacon := none }) s
  modZw (fun z => { ZwState.reset with seq := z.seq, lastSeq := z.lastSeq }) s

/-- FREE of SPI_STAT and HOST_STATUS: the bytes free for one host frame, from the buffer an implementation has. -/
def hostFree (s : State) : Nat := if canAct s 5 then satTo 65535 Config.hostBuffer else 0

/-- The oldest queued frame that SPI carries. (DESIGN CHOICE, log entry 28.) -/
def spiFirst (s : State) : Option Frame := s.link.queued.find? (fun f => f.dest == .spi)

/-- NEXT of SPI_STAT: the length of the oldest queued frame. -/
def hostNext (s : State) : Nat :=
  match spiFirst s with
  | some f => (f.bytes s).length
  | none => 0

/-- SPI_STAT (R418). -/
def spiStat (s : State) : Nat := hostFree s + 65536 * (hostNext s % 65536)

/-- LINK.HOST_STATUS. -/
def hostStatusWord (s : State) : Nat := min 512 s.link.queued.length + 1024 * b2n s.link.ethBusy + 65536 * hostFree s

/-- Whether the queue lets the span service take births (R417). -/
def hostAccepting (s : State) : Bool := decide (s.link.queued.length ≤ 448)

/-! ## The field buses (R420 to R424) -/

/-- The dispenser bus runs. -/
def dispOn (s : State) : Bool := canAct s 5 && bitOf (regValue s 5 .dbusCfg 0) 0

/-- The meter bus runs. -/
def meterOn (s : State) : Bool := canAct s 5 && bitOf (regValue s 5 .mbusCfg 0) 0

/-- A dispenser-bus message leaves and is read back; its characters are counted (R374, R423). A bus marked faulty is so
no longer, unless a BUS_FAULT follows. -/
def dispSend (addr typ : Nat) (payload : List Byte) (s : State) : State :=
  countEvent 5 0x043 (5 + payload.length) (emit (.disp addr typ payload) (modPar (fun p => { p with dFault := 0 }) s))

/-- A frame from a field bus while the deck is not in RUN: LINK holds up to 16, and counts any overflow as lost (R388). -/
def holdField (f : FieldFrame) (s : State) : State :=
  modLink (fun l => if l.held.length < 16 then { l with held := l.held ++ [f] } else { l with heldLost := l.heldLost + 1, lost := l.lost + 1 }) s

end Sys2Proof.Machine
end

