-- ==== Sys2Proof/Machine/Span.lean ====
section
/-! DEFINITION. The span service: requests and births, policy, transitions and their records and events, tokens,
captures, closing and dispenser reports (R43 to R73, R387, R483 to R485).
(DEDUCED, log entry 1; DESIGN CHOICE, log entry 12; DEDUCED, log entry 29.) -/

namespace Sys2Proof.Machine

/-- Bay b's span. -/
def getSpan (s : State) (b : Nat) : Span := vget Span.reset s.span.bays b

/-- Bay b's span updated. -/
def modBay (b : Nat) (f : Span → Span) (s : State) : State := modSpan (fun p => { p with bays := vset p.bays b (f (getSpan s b)) }) s

/-- A live span: SENSED to CLOSING (R44). -/
def Span.live (p : Span) : Bool := decide (1 ≤ p.state) && decide (p.state ≤ 8)

/-- Bay b's live token. -/
def getToken (s : State) (b : Nat) : Option Token := vget none s.span.tokens b

/-! ## Policy (R54 to R60) -/

/-- A bay policy entry with every field in range (R54, R56). -/
def bayPolicyOk (e : List Byte) : Bool :=
  decide (leAt e 0 1 < 64) && decide (leAt e 1 1 < 8) && (leAt e 3 1 == 0 || (decide (5 ≤ leAt e 3 1) && decide (leAt e 3 1 ≤ 120))) &&
    decide (leAt e 4 2 ≤ 1440) && decide (leAt e 6 2 ≤ 4320) && decide (1 ≤ leAt e 8 1) && decide (leAt e 8 1 ≤ 247) &&
    decide (leAt e 9 1 ≤ 63) && leAt e 12 4 == 0

/-- A class policy entry with every field in range (R55, R56). -/
def classPolicyOk (e : List Byte) : Bool :=
  decide (leAt e 0 1 < 8) && decide (leAt e 1 1 < 8) && decide (leAt e 2 1 ≤ 254) && leAt e 3 1 == 0 && decide (leAt e 4 2 ≤ 1440) &&
    decide (leAt e 6 2 ≤ 4320) && leAt e 8 8 == 0

/-- The bay policy entry of the active set. -/
def bayPolicy (s : State) (b : Nat) : List Byte := memReadBytes s (policyBase s + 0x80 + 16 * b) 16

/-- The class policy of the active set. -/
def classTable (s : State) : List Byte := memReadBytes s (policyBase s + 0x480) 256

/-- A source is allowed at a bay (R485). -/
def sourceAllowed (flags source : Nat) : Bool :=
  match source with
  | 0 => bitOf flags 1 || bitOf flags 2 || bitOf flags 3
  | 1 => bitOf flags 1
  | 2 => bitOf flags 2 || bitOf flags 3
  | _ => bitOf flags 4

/-- The entry class of a source (R485). -/
def entryClass (flags source : Nat) : Nat :=
  match source with
  | 0 => if bitOf flags 1 then 0 else 1
  | 1 => 0
  | 2 => 1
  | _ => 2

/-- The evidence a credential kind can give (R57). -/
def kindGives (kind : Nat) : Nat := if kind = 0 then 7 else if kind = 1 then 3 else if kind = 2 then 2 else 0

/-- The smaller non-zero value of two, or 0. -/
def smallerNonZero (a b : Nat) : Nat := if a = 0 then b else if b = 0 then a else min a b

/-- The token lifetime of a bay entry in seconds. -/
def tokenLife (e : List Byte) : Nat := if leAt e 3 1 = 0 then 30 else leAt e 3 1

/-- CRED_PREFIX of an identifier (R61). -/
def credPrefix (ident : List Byte) : List Byte := if ident = [] then List.replicate 8 0 else (sha256 ident).take 8

/-! ## Records and events (R70, R71, R293, R387) -/

/-- A span event's body. -/
def eventBody (s : State) (bay spanId state code time : Nat) (detail : List Byte) : List Byte :=
  leBytes 1 code ++ leBytes 1 state ++ leBytes 2 (siteBay s bay) ++ leBytes 4 spanId ++ leBytes 8 time ++ padTo 16 detail

/-- A span event leaves for the host; STEP events only with EVENT_ALL (R71). -/
def sendSpanEvent (bay spanId state : Nat) (ev : Nat × Nat × List Byte × Status) (s : State) : State :=
  if ev.1 = 2 ∧ bitOf (regValue s 1 .spanCtrl 0) 1 = false then s
  else sendEvent 0xA0 bay ev.2.2.2 (eventBody s bay spanId state ev.1 ev.2.1 ev.2.2.1) s

/-- A record concerns a bay's events. -/
def JAfter.ofBay (b : Nat) : JAfter → Bool
  | .span x _ _ _ => x == b
  | .capture x _ _ _ _ _ => x == b
  | .close x _ => x == b
  | .andEvent a _ _ _ _ => a.ofBay b
  | .signed _ a => a.ofBay b
  | _ => false

/-- The last queued record of a bay takes an event after its own, or none does. -/
def attachEvent (b spanId state : Nat) (ev : Nat × Nat × List Byte × Status) : List JRecord → Option (List JRecord)
  | [] => none
  | r :: rest =>
    match attachEvent b spanId state ev rest with
    | some rest' => some (r :: rest')
    | none => if r.after.ofBay b then some ({ r with after := .andEvent r.after b spanId state ev } :: rest) else none

/-- An event that no record of its own precedes: it keeps its place behind the bay's records (R385). -/
def bayEvent (b spanId state : Nat) (ev : Nat × Nat × List Byte × Status) (s : State) : State :=
  match attachEvent b spanId state ev s.store.queue with
  | some q => modStore (fun t => { t with queue := q }) s
  | none => sendSpanEvent b spanId state ev s

/-- A SPAN record of bay b's move to a state (R293). -/
def spanRecord (s : State) (b nxt : Nat) (st : Status) (ev : Option (Nat × Nat × List Byte × Status)) : JRecord :=
  let p := getSpan s b
  let x := vget ProxRes.reset s.span.prox b
  let known := p.verdict ≠ 0xFF
  { typ := 0x03, signed := false, siteBay := siteBay s b, spanId := p.id, time := s.time.us
    body := leBytes 1 p.state ++ leBytes 1 nxt ++ [st] ++ leBytes 1 p.source ++ leBytes 1 p.kind ++ leBytes 1 p.evidence ++
      leBytes 1 (if known then p.verdict else 0) ++ [if known then p.reason else 0] ++ leBytes 1 p.cls ++ leBytes 1 p.tariff ++ [0, 0] ++
      credPrefix p.ident ++ leBytes 8 p.counter ++ leBytes 8 p.notAfter ++
      (if known then leBytes 2 (vget 0 x.d 0) ++ leBytes 2 (vget 0 x.d 1) ++ leBytes 2 (vget 0 x.d 2) ++ leBytes 2 (vget 0 x.d 3) ++ leBytes 2 x.excess ++ leBytes 1 x.margin
       else List.replicate 11 0) ++ [0] ++ padTo 16 p.account
    after := .span b p.id nxt ev }

/-- The event code of a state entered (R71). -/
def stateEvent (nxt : Nat) : Option Nat :=
  if nxt = 1 then some 1 else if 2 ≤ nxt ∧ nxt ≤ 5 then some 2 else if nxt = 6 then some 3 else if nxt = 9 then some 6
  else if nxt = 10 then some 7 else if nxt = 11 then some 8 else none

/-- The DETAIL of a state's event (R71). -/
def stateDetail (s : State) (b nxt closeSeq : Nat) : List Byte :=
  let p := getSpan s b
  if nxt = 1 then [BitVec.ofNat 8 p.source, if p.source = 3 then 3 else 0xFF]
  else if nxt ≤ 5 then leBytes 1 p.kind ++ leBytes 1 p.evidence ++ leBytes 1 p.verdict ++ leBytes 1 p.cls ++ credPrefix p.ident
  else if nxt = 6 then leBytes 8 p.counter ++ leBytes 8 p.notAfter
  else if nxt = 9 then leBytes 1 p.closeReason ++ List.replicate 7 0 ++ leBytes 8 closeSeq
  else leBytes 1 p.state

/-- A transition of R48: the record is submitted and the state and status change; the event follows the record. -/
def spanMove (b nxt : Nat) (st : Option Status) (closeSeq : Nat) (s : State) : State :=
  let p := getSpan s b
  let status := st.getD p.status
  let ev := (stateEvent nxt).map (fun c => (c, s.time.us, stateDetail s b nxt closeSeq, st.getD 0x00))
  let s := submitRecord (spanRecord s b nxt (st.getD 0x00) ev) s
  modBay b (fun p => { p with state := nxt, status := status }) s

/-- The span's toll handle is cancelled (R90). -/
def dropHandle (b : Nat) (s : State) : State :=
  match (getSpan s b).handle with
  | some h => modBay b (fun p => { p with handle := none }) (tollCancelHandle h s)
  | none => s

/-- Whether a resource still serves the span: jobs of the deck for the bay that are not answered. -/
def forgetJobs (b : Nat) (s : State) : State :=
  modSpan (fun p => { p with
    jobs := p.jobs.map (fun j => match j.kind with
      | .entry x => if x = b then { j with kind := .entry 64 } else j
      | .renew x => if x = b then { j with kind := .renew 64 } else j
      | _ => j)
    auth := vset p.auth b none }) s

/-- A terminal state: timers, jobs and the handle go (R49, R90). -/
def spanEnd (b nxt : Nat) (st : Option Status) (closeSeq : Nat) (s : State) : State :=
  let s := spanMove b nxt st closeSeq s
  forgetJobs b (dropHandle b (modBay b (fun p => { p with authLeft := none, relLeft := none, nextInterim := none, caps := [], sending := false, built := false }) s))

/-- REFUSED with a status. A 0x01 starts the retry hold of R47. -/
def spanRefuse (b : Nat) (st : Status) (s : State) : State :=
  let s := if st = 0x01 then modSpan (fun p => { p with retry := vset p.retry b (s.time.us + 1000 * regField s 1 .spanCtrl 0 4 12) }) s else s
  spanEnd b 10 (some st) 0 s

/-- A step of the span failed, without ending it (R51, R52). -/
def noteFail (b : Nat) (st : Status) (s : State) : State := modBay b (fun p => { p with lastFail := st }) s

/-- A STOP naming a counter is owed to the bay's dispenser (R65). -/
def oweStop (b counter : Nat) (s : State) : State := modSpan (fun p => { p with stops := vset p.stops b (some ⟨counter, 10⟩) }) s

/-- ABORTED with a status; a span that recovery ends after release is stopped at its dispenser. -/
def spanAbort (b : Nat) (st : Status) (s : State) : State :=
  let p := getSpan s b
  if p.live then spanEnd b 11 (some st) 0 (if 6 ≤ p.state then oweStop b p.counter s else s) else s

/-! ## Requests (R43 to R47, R483, R484) -/

/-- SPAN_CTRL.ENABLE. -/
def spanEnabled (s : State) : Bool := bitOf (regValue s 1 .spanCtrl 0) 0

/-- A queue entry is removed; a host START that it held is answered. -/
def dropEntry (e : QEntry) (st : Status) (s : State) : State :=
  answerIf e.req st 2 (modSpan (fun p => { p with queue := p.queue.filter (fun x => x ≠ e) }) s)

/-- A sense request arrives at the deck (R43 to R47). Until the deck's span service has been rebuilt, one waits in its inbox
(R387). -/
def senseArrive (source b : Nat) (ident : List Byte) (req : Option HostReq) (s : State) : State :=
  let p := getSpan s b
  let drop := fun (st : Status) (s : State) => answerIf req st 2 s
  if spanEnabled s = false ∧ s.span.rebuilt then drop 0x02 s
  else if p.live ∧ source ≠ 3 then countEvent 1 0x045 1 (modSpan (fun x => { x with merged := satTo 0xFFFFFFFF (x.merged + 1) }) s)
  else if p.live ∧ p.state ≠ 8 then drop 0x20 s
  else if (source = 0 ∨ source = 1) ∧ s.time.us < vget 0 s.span.retry b then s
  else match s.span.queue.find? (fun e => e.bay == b && e.source == source) with
    | some e =>
      let s := answerIf e.req 0x20 2 s
      modSpan (fun x => { x with queue := x.queue.map (fun y => if y = e then { y with stamp := s.time.us, ident := ident, req := req } else y) }) s
    | none =>
      if 256 ≤ s.span.queue.length then drop 0x21 (modSpan (fun x => { x with drops := satTo 0xFFFFFFFF (x.drops + 1) }) s)
      else modSpan (fun x => { x with queue := x.queue ++ [⟨source, b, s.time.us, ident, req⟩] }) s

/-- QUEUE_ENTRY_TIMEOUT (R483): an entry not served 1 s after its stamp. -/
def entryTimeout (b source : Nat) (s : State) : State :=
  match s.span.queue.find? (fun e => e.bay == b && e.source == source) with
  | some e => if canAct s 1 ∧ e.stamp + 1000000 ≤ s.time.us then dropEntry e 0x05 s else s
  | none => s

/-- A write of ENABLE = 0 (R43): every entry is removed with 0x02. (DESIGN CHOICE, log entry 45.) -/
def spanDisableAct (s : State) : State :=
  s.span.queue.foldl (fun s e => dropEntry e 0x02 s) (putReg s 1 .spanCtrl 0 (setField (regValue s 1 .spanCtrl 0) 0 1 0))

/-! ## Births (R43, R48, R63, R73) -/

/-- DECK.SPAN_STATUS.ACCEPTING (R73). -/
def accepting (s : State) : Bool :=
  spanEnabled s && s.span.rebuilt && isRun s 4 && s.store.taken && s.store.ready && hostAccepting s

/-- Span IDs are drawn below the durable SPAN_HWM: more are reserved before they run out (R73, R272).
(DESIGN CHOICE, log entry 25.) -/
def reserveIds (s : State) : State :=
  let pend := s.store.changes.any (fun c => match c with | .spanHwm _ => true | _ => false) ||
    (match s.store.write with | some w => w.changes.any (fun c => match c with | .spanHwm _ => true | _ => false) | none => false)
  if isRun s 4 ∧ s.store.taken ∧ pend = false ∧ s.store.ledger.spanHwm < satTo 0xFFFFFFFF (s.span.lastId + 129) then
    requestChange (.spanHwm (satTo 0xFFFFFFFF (s.span.lastId + 257))) s
  else s

/-- The deck asks the gate (R89): a job that waits for its answer, or the 0x01 of a full gate. -/
def deckRequest (kind : JobKind) (classes : List Nat) (b : Nat) (s : State) : Status × State :=
  let tag := s.span.nextTag
  let w := (List.range classes.length).foldl (fun w i => w + classes.getD i 0 * 2 ^ (5 * i)) 0 + (classes.length - 1) * 2 ^ 20 + b * 2 ^ 22 + tag * 2 ^ 28
  let r := tollReqWrite w s
  if r.1 = 0 then (0x00, modSpan (fun p => { p with jobs := p.jobs ++ [⟨tag, kind, none⟩], nextTag := (tag + 1) % 16 }) r.2) else (r.1, r.2)

/-- A token of bay b may not be issued at a device time because of a token of the previous boot (R454). -/
def oldTokenHolds (s : State) (b t : Nat) : Bool :=
  let n := vget 0 s.span.oldNotAfter b
  n != 0 && decide (n ≤ t + 122000000) && decide (t < n)

/-- The checks at SENSED (R48, R56, R63, R454, R455, R485). -/
def sensedStatus (s : State) (b : Nat) : Status :=
  let p := getSpan s b
  let flags := leAt p.policy 0 1
  if lifecycle s = 0 ∨ lifecycle s = 3 then 0x02
  else if bayPolicyOk p.policy = false ∨ bitOf flags 0 = false then 0x22
  else if sourceAllowed flags p.source = false then 0x02
  else if aerialFault s b then 0x0D
  else match getToken s b with
    | some t => if s.time.us + 1000 * clsHalf s 3 2 < t.notAfter then 0x26 else 0x00
    | none => if oldTokenHolds s b (s.time.us + 1000 * clsHalf s 3 2) then 0x26 else 0x00

/-- A span is sensed: its ID, its snapshot, its BORN record, and then its refusal or its entry group (R48, R60). -/
def spanBorn (e : QEntry) (s : State) : State :=
  let b := e.bay
  let id := s.span.lastId + 1
  let s := modSpan (fun x => { x with queue := x.queue.filter (fun y => y ≠ e), lastId := id }) s
  let s := modBay b (fun _ => { Span.reset with
    id := id, source := e.source, policy := bayPolicy s b, clsPolicy := classTable s
    ident := if e.source = 3 then e.ident else [], kind := if e.source = 3 then 3 else 0 }) s
  let s := modSpan (fun x => { x with prox := vset x.prox b ProxRes.reset }) s
  let s := countEvent 1 0x044 1 (spanMove b 1 none 0 s)
  let s := answerIf e.req 0x00 2 s
  let s := reserveIds s
  let st := sensedStatus s b
  if st ≠ 0 then spanRefuse b st s
  else
    let r := deckRequest (.entry b) [entryClass (leAt (getSpan s b).policy 0 1) e.source, 3, 4] b s
    if r.1 = 0 then r.2 else spanRefuse b r.1 r.2

/-- BIRTH (R43, R73): the oldest entry whose bay is IDLE is served. (DEDUCED, log entry 41.) -/
def birth (s : State) : State :=
  if canAct s 1 = false ∨ accepting s = false then s
  else match s.span.queue.find? (fun e => (getSpan s e.bay).state == 0) with
    | none => s
    | some e =>
      if 0xFFFFFFFE ≤ s.span.lastId then dropEntry e 0x02 s
      else if s.store.ledger.spanHwm ≤ s.span.lastId + 1 then reserveIds s
      else spanBorn e s

/-! ## Admission to PROVEN (R48, R51, R57 to R59) -/

/-- The bay policy's REQ. -/
def Span.reqBits (p : Span) : Nat := leAt p.policy 1 1

/-- The span is IDENTIFIED by a credential (R48); one that cannot give the bay's evidence is refused (R57, R58). -/
def spanIdentified (b kind : Nat) (ident : List Byte) (s : State) : State :=
  let s := spanMove b 3 none 0 (modBay b (fun p => { p with kind := kind, ident := ident }) s)
  let p := getSpan s b
  if (p.reqBits &&& kindGives kind) ≠ p.reqBits then spanRefuse b 0x27 s
  else if p.reqBits = 0 then spanMove b 4 none 0 s
  else s

/-- The gate admits a span's entry group (R48, R51): the AUTH deadline starts; a host credential is bound at once. -/
def spanAdmitted (b : Nat) (a : TollAnswer) (s : State) : State :=
  let s := modBay b (fun p => { p with handle := some a.handle, authLeft := some (a.time + 1000 * liveField s 1 .tollClass 96 16 16) }) s
  let s := spanMove b 2 none 0 s
  if (getSpan s b).source = 3 then spanIdentified b 3 (getSpan s b).ident s else s

/-- AUTH_DEADLINE (R51). -/
def authDeadlineAct (b : Nat) (s : State) : State :=
  let p := getSpan s b
  match p.authLeft with
  | some t =>
    if canAct s 1 ∧ 2 ≤ p.state ∧ p.state ≤ 4 ∧ t ≤ s.time.us then spanRefuse b (if p.lastFail = 0 then 0x05 else p.lastFail) s else s
  | none => s

/-- RELEASE_DEADLINE (R52). -/
def releaseDeadlineAct (b : Nat) (s : State) : State :=
  let p := getSpan s b
  match p.relLeft with
  | some t => if canAct s 1 ∧ p.state = 5 ∧ t ≤ s.time.us then spanRefuse b (if p.lastFail = 0 then 0x05 else p.lastFail) s else s
  | none => s

/-! ## The verdict (R187, R205) and the lookup (R56 to R59) -/

/-- What the fusion looks at for bay b. -/
def pxInput (s : State) (b : Nat) (bound : Bool) (psr : Option PsrState) (plain mPong : List Byte) : PxIn :=
  let p := getSpan s b
  { now := s.time.us, bay := b, req := p.reqBits, fob := p.kind == 0, report := p.report, present := p.present, fired := p.fired
    evLf := p.evLf, evAuth := p.evAuth, bound := bound, psr := psr, plain := plain, mPong := mPong
    header := geoHeader s, entry := geoEntry s b }

/-- The status a verdict refuses with: RELAY_SUSPECT, or PROXIMITY_FAIL. -/
def verdictStatus (v : Nat) : Status := if v = 3 then 0x0F else if v = 0 then 0x00 else 0x0E

/-- The verdict is recorded and the span PROVEN or REFUSED (R48, R187). -/
def applyVerdict (b : Nat) (i : PxIn) (s : State) : State :=
  let r := i.result
  let s := modSpan (fun p => { p with prox := vset p.prox b r }) s
  let s := modBay b (fun p => { p with verdict := r.verdict, reason := r.reason, evidence := r.evidence, base := s.time.us }) s
  if r.verdict ≠ 0 then spanRefuse b (verdictStatus r.verdict) s
  else if (r.evidence &&& (getSpan s b).reqBits) = (getSpan s b).reqBits then spanMove b 4 none 0 s
  else spanRefuse b 0x0E s

/-- What stops an entry at PROVEN, or 0 (R48, R56 to R59). -/
def entryStatus (s : State) (b : Nat) (e : List Byte) : Status :=
  let p := getSpan s b
  let c := leAt e 16 1
  let now_ := sliceZ (classTable s) (16 * c) 16
  let snap := sliceZ p.clsPolicy (16 * c) 16
  let req := p.reqBits ||| leAt snap 1 1
  if entryUsable s e = false then 0x25
  else if classPolicyOk snap = false ∨ bitOf (leAt now_ 0 1) 0 = false then 0x25
  else if bitOf (leAt (bayPolicy s b) 10 2) c = false then 0x02
  else if p.kind = 3 then (if req ≠ 0 then 0x27 else if bitOf (leAt p.policy 0 1) 4 = false ∨ bitOf (leAt snap 0 1) 2 = false then 0x02 else 0x00)
  else if p.kind = 2 ∧ (bitOf req 0 ∨ bitOf req 2) then 0x27
  else if (leAt snap 1 1 &&& p.evidence) ≠ leAt snap 1 1 then 0x27
  else if p.kind = 2 ∧ (bitOf (leAt p.policy 0 1) 3 = false ∨ bitOf (leAt snap 0 1) 1 = false) then 0x02
  else 0x00

/-- AUTHENTICATED (R48, R52, R57, R62). -/
def spanAuthenticated (b : Nat) (e : List Byte) (s : State) : State :=
  let p := getSpan s b
  let c := leAt e 16 1
  let snap := sliceZ p.clsPolicy (16 * c) 16
  let base := if p.verdict = 0xFF then s.time.us else p.base
  let s := modBay b (fun p => { p with
    cls := c, account := sliceZ e 28 16, base := base, notAfter := base + 1000000 * tokenLife p.policy
    tariff := if leAt p.policy 2 1 = 0xFF then leAt snap 2 1 else leAt p.policy 2 1
    interim := smallerNonZero (leAt p.policy 4 2) (leAt snap 4 2), maxDur := smallerNonZero (leAt p.policy 6 2) (leAt snap 6 2)
    authLeft := none, lastFail := 0, relLeft := some (s.time.us + 1000 * liveField s 1 .tollClass 128 16 16), authDurable := false }) s
  spanMove b 5 none 0 s

/-- The answer of a lookup reaches a span in PROVEN (R48). -/
def lookupApplied (b : Nat) (st : Status) (e : List Byte) (s : State) : State :=
  if (getSpan s b).state ≠ 4 then s
  else if st = 0x24 then spanRefuse b 0x24 s
  else if st ≠ 0 then spanRefuse b 0x10 s
  else
    let r := entryStatus s b e
    if r ≠ 0 then spanRefuse b r s else spanAuthenticated b e s

/-! ## Release and captures (R48, R61 to R68, R421) -/

/-- The token of a bay but for its TAG (R61). -/
def tokenHead (s : State) (b counter : Nat) : List Byte :=
  let p := getSpan s b
  [1, BitVec.ofNat 8 p.tariff] ++ leBytes 2 (siteBay s b) ++ leBytes 4 p.id ++ credPrefix p.ident ++ leBytes 8 p.notAfter ++ leBytes 8 counter

/-- DISP_TOKEN (R63, R374, R423): LINK sends a built token, once no earlier token of the bay is live. -/
def dispTokenAct (b : Nat) (s : State) : State :=
  let p := getSpan s b
  if p.state = 5 ∧ s.par.dFault ≠ 0 ∧ canAct s 1 then spanRefuse b 0x05 s
  else if dispOn s ∧ p.state = 5 ∧ p.built ∧ p.sending = false ∧ getToken s b = none ∧ oldTokenHolds s b s.time.us = false then
    dispSend (leAt p.policy 9 1) 0x01 p.token (modBay b (fun p => { p with sending := true }) s)
  else s

/-- A capture is requested for an instant (R66). -/
def askCapture (b kind time : Nat) (s : State) : State := modBay b (fun p => { p with caps := p.caps ++ [⟨kind, time, none, false⟩] }) s

/-- TOKEN_LAST_BYTE (R48, R63, R90): RELEASED; the token is live, the start capture is requested and the bearings are
renewed. -/
def tokenLastByteAct (b : Nat) (s : State) : State :=
  let p := getSpan s b
  if canAct s 5 ∧ canAct s 1 ∧ p.state = 5 ∧ p.sending then
    let s := modSpan (fun x => { x with tokens := vset x.tokens b (some ⟨p.counter, p.notAfter⟩) }) s
    let s := modLink (fun l => { l with polled := vset l.polled b s.time.us }) s
    let s := modBay b (fun p => { p with sending := false, built := false, relAt := s.time.us, relLeft := none, lastFail := 0 }) s
    let s := askCapture b 0 s.time.us (spanMove b 6 none 0 s)
    let r := deckRequest (.renew b) [5] b s
    r.2
  else s

/-- CLOSING with a reason and a status (R48, R68): the closing capture is requested unless the start capture failed. -/
def spanClosing (b reason : Nat) (st : Status) (stop : Bool) (s : State) : State :=
  let p := getSpan s b
  let s := if stop then oweStop b p.counter s else s
  let s := spanMove b 8 (some st) 0 (modBay b (fun p => { p with closeReason := reason, nextInterim := none }) s)
  if reason = 5 then s else askCapture b 2 s.time.us s

/-- A CAPTURE record (R293). -/
def captureRecord (s : State) (b : Nat) (c : Capture) (st mst : Status) (energy : Nat) (raw : List Byte) : JRecord :=
  let p := getSpan s b
  { typ := 0x04, signed := false, siteBay := siteBay s b, spanId := p.id, time := c.stamp.getD s.time.us
    body := leBytes 1 c.kind ++ [mst] ++ leBytes 1 (leAt p.policy 8 1) ++ [st] ++ leBytes 8 c.reqTime ++ leBytes 8 energy ++ padTo 32 raw
    after := .capture b p.id c.kind st mst energy }

/-- All ones: no energy value (R66). -/
def noEnergy : Nat := 0xFFFFFFFFFFFFFFFF

/-- The outcome of a bay's meter read: every capture it serves is journalled (R421). -/
def captureOutcome (b : Nat) (st mst : Status) (energy : Nat) (raw : List Byte) (s : State) : State :=
  let cs := (getSpan s b).caps.filter (·.reading)
  let s := cs.foldl (fun s c => submitRecord (captureRecord s b c st mst energy raw) s) s
  modBay b (fun p => { p with caps := p.caps.filter (fun c => !c.reading) }) s

/-- Every capture whose latch has left ends with a status and no energy (R374, R383). -/
def endCaptures (st : Status) (s : State) : State :=
  (List.range 64).foldl (fun s b =>
    captureOutcome b st 0xFF noEnergy [] (modBay b (fun p => { p with caps := p.caps.map (fun c => if c.stamp.isSome then { c with reading := true } else c) }) s)) s

/-- METER_LATCH (R374, R421): one latch stamps every capture requested since the last one, each for an instant reached. On
a bus marked faulty those captures end with 0x05, and the latch read back correctly ends the mark. -/
def meterLatchAct (s : State) : State :=
  let due : Capture → Bool := fun c => c.stamp.isNone && decide (c.reqTime ≤ s.time.us + 1000)
  if meterOn s ∧ s.link.mRead = none then
    let s := countEvent 5 0x042 8 (emit (.meterLatch s.time.us) s)
    let s := (List.range 64).foldl (fun s b => modBay b (fun p => { p with caps := p.caps.map (fun c => if due c then { c with stamp := some s.time.us } else c) }) s) s
    if s.par.mFault = 0 then s else modPar (fun p => { p with mFault := 0 }) (if canAct s 1 then endCaptures 0x05 s else s)
  else s

/-- METER_READ (R421): the meter of a stamped capture is read once. -/
def meterReadAct (b : Nat) (s : State) : State :=
  if meterOn s ∧ s.link.mRead = none ∧ (getSpan s b).caps.any (fun c => c.stamp.isSome && !c.reading) then
    let s := modBay b (fun p => { p with caps := p.caps.map (fun c => if c.stamp.isSome then { c with reading := true } else c) }) s
    countEvent 5 0x042 8 (modLink (fun l => { l with mRead := some b }) (emit (.meterRead (leAt (getSpan s b).policy 8 1)) s))
  else s

/-- A meter's reply as the deck takes it (R421). -/
def meterReplyTaken (b : Nat) (r : MeterReply) (s : State) : State :=
  match r with
  | .normal raw e => captureOutcome b 0x00 0x00 (e % 2 ^ 64) (raw.take 32) s
  | .exception raw c => captureOutcome b 0x05 c noEnergy (raw.take 32) s
  | .bad raw => captureOutcome b 0x05 0xFF noEnergy (raw.take 32) s

/-- The span service takes what the field buses bring: the deck runs and its spans are rebuilt (R387, R388). -/
def deckTakes (s : State) : Bool := canAct s 1 && s.span.rebuilt

/-- METER_REPLY: the reply ends the read; a deck that is not in RUN has it held (R388). (PRESUMED, log entry 47.) -/
def meterReplyAct (b : Nat) (r : MeterReply) (s : State) : State :=
  if meterOn s ∧ s.link.mRead = some b then
    let n := match r with | .normal raw _ => raw.length | .exception raw _ => raw.length | .bad raw => raw.length
    let s := countEvent 5 0x042 n (modLink (fun l => { l with mRead := none }) s)
    if deckTakes s then meterReplyTaken b r s else holdField (.meter b r) s
  else s

/-- METER_TIMEOUT (R66, R420): no reply within TIMEOUT. -/
def meterTimeoutAct (b : Nat) (s : State) : State :=
  if meterOn s ∧ s.link.mRead = some b then
    let s := modLink (fun l => { l with mRead := none, mTimeout := satTo 0xFFFF (l.mTimeout + 1) }) s
    if deckTakes s then captureOutcome b 0x05 0xFF noEnergy [] s else holdField (.meter b (.bad [])) s
  else s

/-- INTERIM_INSTANT (R48, R66, R68). -/
def interimAct (b : Nat) (s : State) : State :=
  let p := getSpan s b
  match p.nextInterim with
  | some t =>
    if canAct s 1 ∧ p.state = 7 ∧ t ≤ s.time.us then
      askCapture b 1 t (modBay b (fun p => { p with nextInterim := some (t + 60000000 * p.interim) }) s)
    else s
  | none => s

/-- MAX_DURATION_REACHED (R48). -/
def maxDurationAct (b : Nat) (s : State) : State :=
  let p := getSpan s b
  if canAct s 1 ∧ p.state = 7 ∧ p.maxDur ≠ 0 ∧ p.relAt + 60000000 * p.maxDur ≤ s.time.us then spanClosing b 2 0x00 true s else s

/-! ## Tokens end (R48, R63 to R65, R424) -/

/-- A token stops being live: TOKEN_ENDED (R71). -/
def tokenEnded (b : Nat) (t : Token) (how : Nat) (code : Byte) (s : State) : State :=
  let p := getSpan s b
  bayEvent b p.id p.state (4, s.time.us, leBytes 8 t.counter ++ leBytes 1 how ++ [code], 0x00) (modSpan (fun x => { x with tokens := vset x.tokens b none }) s)

/-- TOKEN_NOT_AFTER (R48, R63). -/
def tokenNotAfterAct (b : Nat) (s : State) : State :=
  match getToken s b with
  | some t =>
    if canAct s 1 ∧ t.notAfter ≤ s.time.us then
      let p := getSpan s b
      let s := tokenEnded b t 2 0 s
      if (p.state = 6 ∨ p.state = 7) ∧ p.counter = t.counter ∧ p.accepted = false then spanClosing b 4 0x2A false s else s
    else s
  | none => s

/-- A DISPENSER record (R293). -/
def dispenserRecord (s : State) (b report : Nat) (code : Byte) (counter : Nat) : JRecord :=
  { typ := 0x0B, signed := false, siteBay := siteBay s b, spanId := (getSpan s b).id, time := s.time.us
    body := leBytes 1 report ++ [code, 0, 0] ++ leBytes 8 counter, after := .nothing }

/-- A dispenser's report as the deck takes it: a repeated one once (R48, R63, R65, R388, R424). -/
def reportTaken (b report : Nat) (code : Byte) (counter : Nat) (s : State) : State :=
  if vget none s.span.reports b = some (report, counter) then s
  else
    let p := getSpan s b
    let s := submitRecord (dispenserRecord s b report code counter) (modSpan (fun x => { x with reports := vset x.reports b (some (report, counter)) }) s)
    let s := match vget none s.span.stops b with
      | some q => if q.counter = counter then modSpan (fun x => { x with stops := vset x.stops b none }) s else s
      | none => s
    let s := match getToken s b with
      | some t => if t.counter = counter ∧ report ≤ 1 then tokenEnded b t report (if report = 1 then code else 0) s else s
      | none => s
    let mine := p.counter == counter && (p.state == 6 || p.state == 7)
    if report = 0 then
      (if mine then modBay b (fun p => { p with accepted := true }) s
       else if p.state = 11 ∨ p.status = 0x11 ∨ p.status = 0x16 then oweStop b counter s else s)
    else if report = 1 then (if mine then spanClosing b 3 0x29 false s else s)
    else if p.counter = counter ∧ p.state = 7 then spanClosing b 0 0x00 false s
    else s

/-- DISP_REPORT: a report in a poll's window; a deck that is not in RUN has it held (R388, R424). -/
def dispReportAct (b report : Nat) (code : Byte) (counter : Nat) (s : State) : State :=
  if dispOn s ∧ s.link.dPoll = some b then
    let s := countEvent 5 0x043 15 (modLink (fun l => { l with dPoll := none }) s)
    if deckTakes s then reportTaken b report code counter s else holdField (.report b report code.toNat counter) s
  else s

/-- DISP_NONE. -/
def dispNoneAct (b : Nat) (s : State) : State :=
  if dispOn s ∧ s.link.dPoll = some b then countEvent 5 0x043 5 (modLink (fun l => { l with dPoll := none }) s) else s

/-- DISP_REPLY_TIMEOUT: a missing or corrupt reply is counted (R424). -/
def dispTimeoutAct (b : Nat) (s : State) : State :=
  if dispOn s ∧ s.link.dPoll = some b then modLink (fun l => { l with dPoll := none, dNoReply := satTo 0xFFFF (l.dNoReply + 1) }) s else s

/-- Whether a bay's dispenser is polled now (R424). -/
def pollDue (s : State) (b : Nat) : Bool :=
  let p := getSpan s b
  ((getToken s b).isSome || (decide (6 ≤ p.state) && decide (p.state ≤ 8)) || (vget none s.span.stops b).isSome) &&
    decide (vget 0 s.link.polled b + (if p.state = 6 ∧ p.relAt = vget 0 s.link.polled b then 100000 else 1000 * regField s 5 .dbusCfg 0 16 10) ≤ s.time.us)

/-- The bay policy that addresses a bay's dispenser: the span's snapshot, else the active one. -/
def dispAddr (s : State) (b : Nat) : Nat := leAt (if (getSpan s b).policy = [] then bayPolicy s b else (getSpan s b).policy) 9 1

/-- DISP_POLL (R424). -/
def dispPollAct (b : Nat) (s : State) : State :=
  if dispOn s ∧ s.link.dPoll = none ∧ pollDue s b then
    modLink (fun l => { l with dPoll := some b, polled := vset l.polled b s.time.us }) (dispSend (dispAddr s b) 0x03 [] s)
  else s

/-- DISP_STOP (R65): a STOP is sent again at each poll, at most 10 times. -/
def dispStopAct (b : Nat) (s : State) : State :=
  match vget none s.span.stops b with
  | some q =>
    if dispOn s ∧ s.link.dPoll = none then
      dispSend (dispAddr s b) 0x04 (leBytes 8 q.counter) (modSpan (fun x => { x with stops := vset x.stops b (if q.left ≤ 1 then none else some { q with left := q.left - 1 }) }) s)
    else s
  | none => s

/-- DISP_BEACON (R86, R424): the first beacon frame at least PERIOD ms after the last. -/
def dispBeaconAct (s : State) : State :=
  let f := s.time.us / 1000
  let due : Bool := match s.link.lastBeacon with
    | some g => decide (g + liveField s 5 .dbusBeacon 0 0 10 ≤ f)
    | none => true
  if dispOn s ∧ s.link.dPoll = none ∧ f % 100 = 0 ∧ due then
    dispSend 0xFF 0x02 (leBytes 8 s.time.us) (modLink (fun l => { l with lastBeacon := some f }) (latchReg s 5 .dbusBeacon 0))
  else s

/-! ## Host STOP and CANCEL (R48, R50) -/

/-- A STOP or CANCEL of the bay's current span: its answer and its effect. -/
def hostStopAct (b spanId : Nat) (cancel : Bool) (s : State) : Status × State :=
  let p := getSpan s b
  if p.id ≠ spanId ∨ p.live = false then (0x02, s)
  else if p.state < 6 then (0x00, spanRefuse b 0x2C s)
  else if cancel then (0x02, s)
  else if p.state = 7 then (0x00, spanClosing b 1 0x00 true s)
  else if p.state = 8 then (0x00, s)
  else (0x00, s)

/-! ## Records become durable (R48, R66, R69, R387) -/

/-- The anchor of a bay (R387); NOT_AFTER stays that of the bay's last token. -/
def putAnchor (b spanId state seq : Nat) (s : State) : State :=
  let p := getSpan s b
  let last := if p.notAfter = 0 then memReadBytes s (0x1D0400 + 32 * b + 24) 8 else leBytes 8 p.notAfter
  memWriteBytes (0x1D0400 + 32 * b) (leBytes 4 spanId ++ leBytes 1 state ++ [0, 0, 0] ++ leBytes 8 seq ++ leBytes 8 p.relSeq ++ last) s

/-- A span record is durable: the anchor, the event, and what waited for them. -/
def spanDurable (b spanId state : Nat) (ev : Option (Nat × Nat × List Byte × Status)) (s : State) : State :=
  let mine := (getSpan s b).id == spanId
  let s := if mine ∧ state = 6 then modBay b (fun p => { p with relSeq := s.store.head }) s else s
  let s := if mine then putAnchor b spanId state s.store.head s else s
  let s := match ev with
    | some e => sendSpanEvent b spanId state e s
    | none => s
  if mine = false then s
  else if state = 5 then modBay b (fun p => { p with authDurable := true }) s
  else if 9 ≤ state then modBay b (fun p => if p.state = state then { p with state := 0 } else p) s
  else s

/-- The CLOSE record of a bay (R293). -/
def closeRecord (s : State) (b : Nat) : JRecord :=
  let p := getSpan s b
  { typ := 0x06, signed := true, siteBay := siteBay s b, spanId := p.id, time := s.time.us
    body := leBytes 1 p.closeReason ++ [p.status, 0, 0] ++ leBytes 8 p.startSeq ++ leBytes 8 p.endSeq ++ leBytes 8 p.eStart ++ leBytes 8 p.eEnd ++
      leBytes 8 p.counter ++ leBytes 8 p.relAt ++ leBytes 4 p.captures ++ padTo 16 p.account
    after := .close b p.id }

/-- A record's own action is the close of bay b. -/
def JAfter.closes (b : Nat) : JAfter → Bool
  | .close x _ => x == b
  | .andEvent a _ _ _ _ => a.closes b
  | .signed _ a => a.closes b
  | _ => false

/-- Bay b's close record has been submitted and is not yet durable and signed. -/
def closePending (s : State) (b : Nat) : Bool :=
  s.store.queue.any (fun r => r.after.closes b) || (match s.store.sigOwed with | some a => a.closes b | none => false)

/-- The close record is submitted once no capture of the span is left and the CLOSE bearing is held (R69, R387). -/
def closeIfReady (b : Nat) (s : State) : State :=
  let waiting := s.store.queue.any (fun r => match r.after with | .capture x _ _ _ _ _ => x == b | .andEvent (.capture x _ _ _ _ _) _ _ _ _ => x == b | _ => false)
  if (getSpan s b).state = 8 ∧ (getSpan s b).caps = [] ∧ waiting = false ∧ (getSpan s b).handle.isSome ∧ closePending s b = false then
    submitRecord (closeRecord s b) s
  else s

/-- A capture record is durable (R48, R66, R71). -/
def captureDurable (b spanId kind : Nat) (st mst : Status) (energy : Nat) (s : State) : State :=
  let seq := s.store.head
  let p := getSpan s b
  if p.id ≠ spanId then s
  else
    let s := modBay b (fun p => { p with captures := p.captures + 1, status := if p.state = 8 then p.status else st }) s
    let s := if kind = 0 then modBay b (fun p => { p with startSeq := seq, eStart := energy }) s
      else if kind = 2 then modBay b (fun p => { p with endSeq := seq, eEnd := energy }) s else s
    let s := sendSpanEvent b spanId p.state (5, s.time.us, leBytes 1 kind ++ [mst, 0, 0] ++ leBytes 8 energy ++ leBytes 4 seq, st) s
    if kind = 0 ∧ p.state = 6 then
      (if st ≠ 0 ∧ bitOf (leAt p.policy 0 1) 5 then closeIfReady b (spanClosing b 5 0x2B true s)
       else spanMove b 7 (some st) 0 (modBay b (fun p => { p with nextInterim := if p.interim = 0 then none else some (p.relAt + 60000000 * p.interim) }) s))
    else closeIfReady b s

/-- The signed close record is durable: CLOSED (R48, R69). `seq` is the close record's. -/
def closeSigned (b spanId seq : Nat) (s : State) : State :=
  if (getSpan s b).id = spanId ∧ (getSpan s b).state = 8 then spanEnd b 9 (some (getSpan s b).status) seq s else s

/-! ## The deck's inbox of LINK's held frames (R388) -/

/-- LINK delivers what it held once the deck is back. -/
def deliverHeld (s : State) : State :=
  let hs := s.link.held
  hs.foldl (fun s f => match f with
    | .meter b r => meterReplyTaken b r s
    | .report b r c n => reportTaken b r (BitVec.ofNat 8 c) n s) (modLink (fun l => { l with held := [] }) s)

/-! ## Registers as read (R73) -/

/-- DECK.SPAN_STATUS. -/
def spanStatusWord (s : State) : Nat :=
  (s.span.bays.toList.filter (·.live)).length + 256 * s.span.queue.length + 2 ^ 24 * b2n (accepting s)

/-- DECK.SPAN_BAYn_STATE. -/
def bayStateWord (s : State) (b : Nat) : Nat :=
  let p := getSpan s b
  p.state + 256 * p.status.toNat + 2 ^ 16 * p.evidence + 2 ^ 20 * p.kind + 2 ^ 24 * b2n (getToken s b).isSome

/-- NOT_AFTER of the bay's live token, or 0. -/
def bayNotAfter (s : State) (b : Nat) : Nat := match getToken s b with | some t => t.notAfter | none => 0

end Sys2Proof.Machine
end

