-- ==== Sys2Proof/Machine/Tags.lean ====
section
/-! DEFINITION. What the vendor programs do with the air: chord plans and reports, search sweeps, tag exchanges and
writes, the keystone's authentication and tokens (R129 to R154, R171 to R173, R188, R191 to R193, R341, R342).
(DEDUCED, log entry 1.) -/

namespace Sys2Proof.Machine

/-- A credential identifier of eight bytes (R281). -/
def ident8 (kind id : Nat) : List Byte := leBytes 1 kind ++ [8] ++ beBytes 8 id ++ List.replicate 6 0

/-! ## Deck jobs and the gate (R89, R90) -/

/-- The deck's jobs that a test picks end: their handles are cancelled. -/
def endJobs (f : Job → Bool) (s : State) : State :=
  let js := s.span.jobs.filter f
  js.foldl (fun s j => match j.handle with | some h => tollCancelHandle h s | none => s)
    (modSpan (fun p => { p with jobs := p.jobs.filter (fun j => !f j) }) s)

/-- The running job a test on its kind picks. -/
def findJob (s : State) (f : JobKind → Bool) : Option Job := s.span.jobs.find? (fun j => j.handle.isSome && f j.kind)

/-! ## Chord plans (R132, R133) -/

/-- Positions sorted by the time of their last detuning, the most recent first. -/
def insertRecent (t : Nat → Nat) (k : Nat) : List Nat → List Nat
  | [] => [k]
  | x :: xs => if t x < t k then k :: x :: xs else x :: insertRecent t k xs

/-- Pier n's order in a plan made now, for a span at bay `own` or for a sweep (R133). -/
def chordOrder (s : State) (own : Option Nat) (n : Nat) : List Nat :=
  let ok := (List.range 8).filter (fun k => !aerialFault s (bayOf n k))
  let bad := (List.range 8).filter (fun k => aerialFault s (bayOf n k))
  let first := ok.filter (fun k => decide (own = some (bayOf n k)))
  let time : Nat → Nat := fun k => (vget none s.lf.detuned (bayOf n k)).getD 0
  let recent : Nat → Bool := fun k => match vget none s.lf.detuned (bayOf n k) with
    | some t => decide (s.time.us ≤ t + 60000000)
    | none => false
  let rest := ok.filter (fun k => !first.contains k)
  first ++ (rest.filter recent).foldr (insertRecent time) [] ++ rest.filter (fun k => !recent k) ++ bad

/-- The position a plan gives a pier for a chord. -/
def planPos (orders : List (List Nat)) (n c : Nat) : Nat := (orders.getD n []).getD c 0

/-- The piers a chord of a plan arms: those whose position is not in FAULT. -/
def planPresent (s : State) (orders : List (List Nat)) (c : Nat) : Nat :=
  (List.range 8).foldl (fun w n => w + 2 ^ n * b2n (!aerialFault s (bayOf n (planPos orders n c)))) 0

/-- The aerials a chord of a plan drives, three bits a pier. -/
def planFired (orders : List (List Nat)) (c : Nat) : Nat :=
  (List.range 8).foldl (fun w n => w + 8 ^ n * planPos orders n c) 0

/-- Whether bay b's span waits for its chord. -/
def awaitsChord (s : State) (b : Nat) : Bool :=
  (getSpan s b).state == 2 && (getSpan s b).source != 3 && entryClass (leAt (getSpan s b).policy 0 1) (getSpan s b).source == 0

/-- Whether bay b's span waits for its tag read. -/
def awaitsTag (s : State) (b : Nat) : Bool :=
  (getSpan s b).state == 2 && (getSpan s b).source != 3 && entryClass (leAt (getSpan s b).policy 0 1) (getSpan s b).source == 1

/-- A span is admitted, and a fob span's plan is made (R48, R133). -/
def spanAdmittedPlan (b : Nat) (a : TollAnswer) (s : State) : State :=
  let s := spanAdmitted b a s
  if awaitsChord s b then
    let orders := (List.range 8).map (chordOrder s (some b))
    let s := modBay b (fun p => { p with present := planPresent s orders 0, fired := planFired orders 0 }) s
    if aerialFault s b then spanRefuse b 0x0D s else s
  else s

/-- The code of pier n is absent from the chord of bay b's span (R48, R137). -/
def chordAbsent (b n : Nat) (st : Status) (s : State) : State :=
  if awaitsChord s b = false ∨ bitOf (getSpan s b).present n = false then s
  else
    let s := modBay b (fun p => { p with present := p.present - 2 ^ n }) s
    if n = b / 8 then spanRefuse b st s else s

/-! ## Chord reports (R137, R138, R188) -/

/-- The reports of a chord the deck keeps. -/
def keptReports (c : Nat) (reps : List (List Byte)) : List (List Byte) :=
  reps.filter (fun r => decide (r.length = 66) && leAt r 0 1 == 0x43 && bitsOf (leAt r 1 1) 5 3 == c)

/-- The stronger of two reports at a bay's code; a tie goes to the lower FOB_ID (R188). -/
def strongerAt (n : Nat) (a b : List Byte) : List Byte :=
  if codePt a n < codePt b n then b else if codePt b n < codePt a n then a else if repFob b < repFob a then b else a

/-- The chord's answer for bay b's span (R48, R137, R188). -/
def chordAnswer (b : Nat) (st : Status) (reps : List (List Byte)) (s : State) : State :=
  let p := getSpan s b
  if awaitsChord s b = false then s
  else
    let kept := keptReports 0 reps
    let at_ : List Byte → Option Nat := fun r => reportBay r p.present p.fired
    match kept.filter (fun r => at_ r == some b) with
    | r :: rest =>
      let best := rest.foldl (strongerAt (b / 8)) r
      let s := modBay b (fun p => { p with report := best, evLf := some (p.chordT0 + 11000) }) s
      let s := spanIdentified b 0 (ident8 0 (repFob best)) s
      (r :: rest).foldl (fun s x => if x = best then s else senseArrive 1 b [] none s) s
    | [] =>
      let elsewhere := kept.filterMap at_
      if elsewhere ≠ [] then spanRefuse b 0x28 (elsewhere.foldl (fun s x => senseArrive 1 x [] none s) s)
      else if st = 0x00 ∨ st = 0x5A ∨ st = 0x5B ∨ st = 0x61 then spanRefuse b 0x23 s
      else noteFail b st s

/-- The deck asks for the next chord of its sweep; a refused chord ends the sweep with 0x5C (R138). -/
def sweepNext (s : State) : State :=
  match s.span.sweep with
  | none => s
  | some w =>
    let r := deckRequest (.chordSweep w.chords.length) [0] 0 s
    if r.1 = 0 then r.2 else modSpan (fun p => { p with sweep := none }) r.2

/-- A fob hello (R138, R174, R176): a sweep starts, or the hello is merged into the running one. -/
def fobHello (s : State) : State :=
  if s.span.sweep ≠ none then s
  else sweepNext (modSpan (fun p => { p with sweep := some ⟨[], (List.range 8).map (chordOrder s none), 0⟩ }) s)

/-- The gate admits a chord of the sweep. -/
def sweepAdmitted (s : State) : State :=
  modSpan (fun p => { p with sweep := p.sweep.map (fun w => { w with present := planPresent s w.orders w.chords.length }) }) s

/-- The magnitude a fob's report of chord c gives for pier n, or none where the code is absent. -/
def sweepCode (w : Sweep) (fob c n : Nat) : Option Nat :=
  match w.chords[c]? with
  | some x => if bitOf x.1 n then (x.2.find? (fun r => repFob r == fob)).map (fun r => codePt r n) else none
  | none => none

/-- The bay at which a fob's 64 entries are largest, the lowest on a tie (R138, R188). -/
def sweepPlace (w : Sweep) (fob : Nat) : Option Nat :=
  let pos : Nat → Nat := fun bay => (w.orders.getD (bay / 8) []).findIdx (fun k => k == bay % 8)
  let best := (List.range 64).foldl (fun (a : Option (Nat × Nat)) bay =>
    match sweepCode w fob (pos bay) (bay / 8) with
    | some v => (match a with | some (m, x) => if m < v then some (v, bay) else some (m, x) | none => some (v, bay))
    | none => a) none
  best.map (·.2)

/-- The fobs that reported in every chord of a sweep. -/
def sweepFobs (w : Sweep) : List Nat :=
  match w.chords with
  | [] => []
  | c :: cs => ((c.2.map repFob).dedup).filter (fun f => cs.all (fun x => x.2.any (fun r => repFob r == f)))

/-- A chord of the sweep has its answer (R138). -/
def sweepAnswer (reps : List (List Byte)) (s : State) : State :=
  match s.span.sweep with
  | none => s
  | some w =>
    let c := w.chords.length
    let s := endJobs (fun j => match j.kind with | .chordSweep _ => true | _ => false) s
    let w := { w with chords := w.chords ++ [(w.present, keptReports c reps)] }
    let s := modSpan (fun p => { p with sweep := some w }) s
    if w.chords.length < 8 then sweepNext s
    else
      let s := modSpan (fun p => { p with sweep := none }) s
      (sweepFobs w).foldl (fun s f => match sweepPlace w f with | some bay => senseArrive 1 bay [] none s | none => s) s

/-! ## Tag exchanges (R139 to R149) -/

/-- A tag exchange at its start. -/
def TagJob.fresh (bay tag : Nat) (phase : TagPhase) : TagJob where
  bay := bay
  tag := tag
  phase := phase
  openId := false
  retried := false
  stack := []
  pre := []
  found := []
  status := 0
  kind := 2
  uid := 0
  data := []
  outcome := 0
  pcrc := 0
  write := false
  check := false
  more := []
  since := 0

/-- Pier p's job replaced. -/
def setJob (p : Nat) (j : TagJob) (s : State) : State := modPier p (fun q => { q with job := some j }) s

/-- CRC-16 of R140 over bits. -/
def crc16Bits (bs : List Bool) : Nat := crcBits 16 0x1021 0xFFFF bs

/-- The value of a decoded bit; a violated one counts as 0. -/
def upValue : UpBit → Bool
  | .one => true
  | _ => false

/-- Whether a bit carries a violation (R143). -/
def upBad : UpBit → Bool
  | .violated => true
  | _ => false

/-- The preamble 0b1110 and the whole reply's length are right, and no bit of preamble or CRC is violated (R128, R145). -/
def replyFramed (bits : List UpBit) (n : Nat) : Bool :=
  decide (bits.length = 4 + n + 16) && decide ((bits.take 4).map upValue = [true, true, true, false]) &&
    !(bits.take 4).any upBad && !(bits.drop (4 + n)).any upBad

/-- The reply's CRC over its bits, with `pre` before them. -/
def replyCrcOk (bits : List UpBit) (n : Nat) (pre : List Bool) : Bool :=
  crc16Bits (pre ++ ((bits.drop 4).take n).map upValue) == bitsNat ((bits.drop (4 + n)).map upValue)

/-- An exchange ends with a status. -/
def TagJob.ended (j : TagJob) (st : Status) : TagJob := { j with phase := .done, status := st, more := j.found.drop 1 }

/-- The inventory goes on with the deferred tags, or ends with `st` (R144). -/
def TagJob.resume (j : TagJob) (st : Status) : TagJob :=
  match j.stack with
  | [] => j.ended st
  | (t, p) :: rest => { j with stack := rest, pre := p ++ [true], phase := .inventory (.resume t), retried := false }

/-- A corrupt reply: the command is repeated once, then the read ends with 0x51 (R145). -/
def TagJob.corrupt (j : TagJob) : TagJob := if j.retried then j.ended 0x51 else { j with retried := true }

/-- A reply in an inventory (R142 to R145). -/
def TagJob.inventoryReply (j : TagJob) (bits : List UpBit) : TagJob :=
  let n := 64 - j.pre.length
  let idBits := (bits.drop 4).take n
  if idBits.any upBad then
    let i := idBits.findIdx upBad
    let known := j.pre ++ (idBits.take i).map upValue
    { j with stack := (known.length, known) :: j.stack, pre := known ++ [false], phase := .inventory (.split known.length), retried := false }
  else if replyFramed bits n ∧ replyCrcOk bits n j.pre then
    { j with found := j.found ++ [bitsNat (j.pre ++ idBits.map upValue)] }.resume 0x00
  else j.corrupt

/-- The inventory's first command (R144). -/
def TagJob.inventory (j : TagJob) : TagJob := { j with kind := 2, phase := .inventory .req, pre := [], stack := [], retried := false }

/-- A reply to KT_REQ (R148). -/
def TagJob.ktReply (j : TagJob) (bits : List UpBit) : TagJob :=
  if ((bits.drop 4).take 96).any upBad then { j with kind := 1 }.ended 0x52
  else if replyFramed bits 96 ∧ replyCrcOk bits 96 [] then
    let v := (bits.drop 4).map upValue
    { j with kind := 1, uid := bitsNat (v.take 64), data := beBytes 4 (bitsNat ((v.drop 64).take 32)), found := [bitsNat (v.take 64)] }.ended 0x00
  else { j with kind := 1 }.corrupt

/-- A reply to KT_OPEN in a write or a page check (R150, R153, R154); `listed` is the caution list's CRC for the UID. -/
def TagJob.openReply (j : TagJob) (bits : List UpBit) (listed : Nat) : TagJob :=
  let v := (bits.drop 4).map upValue
  let x := bitsNat ((v.drop 64).take 16)
  if ((bits.drop 4).take 80).any upBad then j.ended 0x52
  else if (replyFramed bits 80 && replyCrcOk bits 80 []) = false then j.ended 0x51
  else if bitsNat (v.take 64) ≠ j.uid then j.ended 0x54
  else if j.check then (if x = listed then { j with outcome := 3, pcrc := x }.ended 0x00 else { j with outcome := 2, pcrc := x }.ended 0x57)
  else if x = 0xFFFF then j.ended 0x56
  else { j with phase := .waitMac x }

/-- CRC-16 of the page data. -/
def pageCrc (data : List Byte) : Nat := crc16Bits (data.flatMap byteBits)

/-- The final reply of a write (R152, R153). -/
def TagJob.finalReply (j : TagJob) (bits : List UpBit) : TagJob :=
  let v := bits.map upValue
  let r := bitsNat ((v.drop 4).take 4)
  let x := bitsNat ((v.drop 8).take 16)
  if bits.length ≠ 24 ∨ bits.any upBad ∨ v.take 4 ≠ [true, true, true, false] ∨ 4 ≤ r then { j with outcome := 2 }.ended 0x51
  else if r = 1 then { j with outcome := 1, pcrc := x }.ended 0x55
  else if r = 2 then { j with outcome := 1, pcrc := x }.ended 0x06
  else if r = 3 then { j with outcome := 1, pcrc := x }.ended 0x56
  else if x = pageCrc j.data then { j with outcome := 3, pcrc := x }.ended 0x00
  else { j with outcome := 2, pcrc := x }.ended 0x57

/-! ## The caution list (R154) -/

/-- Entry i of the caution list. -/
def cautionEntry (s : State) (i : Nat) : List Byte := memReadBytes s (0x1D0000 + 16 * i) 16

/-- The list's entry for a UID. -/
def cautionFind (s : State) (uid : Nat) : Option Nat :=
  (List.range 64).find? (fun i => bitOf (leAt (cautionEntry s i) 10 1) 0 && leAt (cautionEntry s i) 0 8 == uid)

/-- The list's first free entry. -/
def cautionFree (s : State) : Option Nat := (List.range 64).find? (fun i => !bitOf (leAt (cautionEntry s i) 10 1) 0)

/-- The caution list after a write's outcome. -/
def cautionAfter (uid crc outcome : Nat) (check : Bool) (s : State) : State :=
  if check then
    (match cautionFind s uid with
     | some i => memWriteBytes (0x1D0000 + 16 * i) (List.replicate 16 0) s
     | none => s)
  else if outcome = 2 then
    (match cautionFree s with
     | some i => memWriteBytes (0x1D0000 + 16 * i) (leBytes 8 uid ++ leBytes 2 crc ++ [1, 0, 0, 0, 0, 0]) s
     | none => s)
  else s

/-! ## Replies and timeouts at the pier -/

/-- Whether pier p's tag burst runs. -/
def tagBurst (s : State) (p : Nat) : Bool :=
  canAct s (6 + p) && (match (getPier s p).burst with | some b => b.armed == none && b.mode == 0 | none => false)

/-- TAG_REPLY (R142 to R154). -/
def tagReplied (p : Nat) (bits : List UpBit) (s : State) : State :=
  match (getPier s p).job with
  | none => s
  | some j =>
    if tagBurst s p = false then s
    else
      let set : TagJob → State := fun k => setJob p { k with since := if k.phase = .writing then k.since else s.time.us } s
      match j.phase with
      | .ktReq => set (j.ktReply bits)
      | .inventory _ => set (j.inventoryReply bits)
      | .open_ _ => set (j.openReply bits ((cautionFind s j.uid).map (fun i => leAt (cautionEntry s i) 8 2) |>.getD 0))
      | .writing => if 4928 ≤ carrierCycles s p j.since then set (j.finalReply bits) else s
      | _ => s

/-- TAG_REPLY_TIMEOUT (R141, R144, R149, R153): no preamble came. -/
def tagSilent (p : Nat) (s : State) : State :=
  match (getPier s p).job with
  | none => s
  | some j =>
    if tagBurst s p = false then s
    else match j.phase with
      | .ktReq => setJob p (if j.openId then j.inventory else j.ended 0x50) s
      | .inventory _ => setJob p (j.resume (if j.found = [] then 0x50 else 0x00)) s
      | .open_ _ => setJob p (j.ended 0x58) s
      | .writing => if 4928 ≤ carrierCycles s p j.since then setJob p ({ j with outcome := 2 }.ended 0x58) s else s
      | _ => s

/-- INVENTORY_RESERVATION_END (R146). -/
def inventoryOver (p : Nat) (s : State) : State :=
  match (getPier s p).job with
  | some j => (match j.phase with | .inventory _ => if canAct s (6 + p) then setJob p (j.ended 0x53) s else s | _ => s)
  | none => s

/-- KT_MAC_TIMEOUT (R151): the burst ends, and nothing was started. -/
def ktMacLate (p : Nat) (s : State) : State :=
  match (getPier s p).job with
  | some j => (match j.phase with | .waitMac _ => if canAct s (6 + p) then lfStop p (setJob p (j.ended 0x05) s) else s | _ => s)
  | none => s

/-! ## The keystone's authentication (R147, R148, R151, R172, R191 to R193) -/

/-- The keystone's job for a bay. -/
def getAuth (s : State) (b : Nat) : Option AuthJob := vget none s.span.auth b

/-- The keystone's job for a bay replaced. -/
def setAuth (b : Nat) (a : Option AuthJob) (s : State) : State := modSpan (fun p => { p with auth := vset p.auth b a }) s

/-- A keystone job at its start. -/
def AuthJob.fresh (tag kind id spanId : Nat) : AuthJob where
  tag := tag
  kind := kind
  id := id
  spanId := spanId
  ch := []
  rc := 0
  r := 0
  wakeCtr := 0
  fobId := 0
  rxTime := 0
  ks := none
  ms := []
  plain := []
  sent := []
  st := none
  res := 0

/-- The class key of an identifier's key index, or 0x82 where its slot is empty (R147, R172). -/
def classKey (s : State) (id : Nat) : Option (List Byte) :=
  let k := getSlot s (64 + id / 2 ^ 60 % 16)
  if k.st = .loaded ∧ policyLen k.policy = 16 then some (k.key.take 16) else none

/-- A key diversified for an identifier with a label (R147, R172). (DESIGN CHOICE, log entry 10.) -/
def childKey (kc : List Byte) (id : Nat) (label : List Byte) : List Byte := aesEncrypt kc (leBytes 8 id ++ label ++ [0, 0, 0, 0])

/-- K_tag. (DESIGN CHOICE, log entry 10.) -/
def tagKey (s : State) (uid : Nat) : Option (List Byte) := (classKey s uid).map (fun k => childKey k uid [0x4B, 0x54, 0x44, 0x31])

/-- K_fob. (DESIGN CHOICE, log entry 10.) -/
def fobKey (s : State) (fob : Nat) : Option (List Byte) := (classKey s fob).map (fun k => childKey k fob [0x42, 0x46, 0x44, 0x31])

/-- The keystone's check of a keyed transponder's R (R148). -/
def ktCheck (s : State) (a : AuthJob) (uid : Nat) : Status :=
  match tagKey s uid with
  | none => 0x82
  | some k =>
    if a.fobId = uid ∧ a.r = ofLe ((aesEncrypt k (leBytes 4 a.rc ++ leBytes 8 uid ++ [0x4B, 0x54, 0x52, 0x31])).take 4) then 0x00 else 0x06

/-- The CHALLENGE payload (R171). (DESIGN CHOICE, log entry 10.) -/
def challengePayload (s : State) (b : Nat) (a : AuthJob) (ch : List Byte) : List Byte :=
  [0x51] ++ beBytes 8 a.id ++ beBytes 2 (siteBay s b) ++ beBytes 4 a.spanId ++ padTo 16 ch

/-- The session key K_s (R191). -/
def sessionKey (kfob : List Byte) (spanId wake : Nat) (ch : List Byte) : List Byte :=
  aesEncrypt kfob ([0x50, 0x53, 0x52, 0x31] ++ leBytes 4 spanId ++ leBytes 4 wake ++ sliceZ ch 12 4)

/-- The mask stream MS (R192). -/
def maskStream (ks : List Byte) (spanId : Nat) : List Byte :=
  gcmCrypt ks (leBytes 4 spanId ++ [0x4D, 0x53, 0x4B, 0x31, 0, 0, 0, 0]) (List.replicate 336 0)

/-- A RESPONSE as the keystone takes it (R172): its TAG under the key of the fob it names. -/
def responseTaken (s : State) (a : AuthJob) (p : List Byte) : AuthJob :=
  let fob := ofBe (sliceZ p 1 8)
  match fobKey s fob with
  | none => { a with st := some 0x82 }
  | some k =>
    if leAt p 0 1 = 0x52 ∧ a.sent ≠ [] ∧ gcmTag k (sliceZ a.ch 0 12) (a.sent ++ sliceZ p 0 13) [] = sliceZ p 13 16 then
      let wake := ofBe (sliceZ p 9 4)
      let ks := sessionKey k a.spanId wake a.ch
      { a with st := some 0x00, fobId := fob, wakeCtr := wake, rxTime := s.rf.rxTime, ks := some ks, ms := maskStream ks a.spanId }
    else { a with st := some 0x06 }

/-- A RESULT as the keystone decrypts it (R193). -/
def resultTaken (a : AuthJob) (p : List Byte) : AuthJob :=
  match a.ks with
  | none => { a with res := 0x07 }
  | some k =>
    let iv := leBytes 4 a.spanId ++ [0x52, 0x45, 0x53, 0x31, 0, 0, 0, 0]
    let ct := sliceZ p 5 92
    if leAt p 0 1 = 0x57 ∧ gcmTag k iv (sliceZ p 0 5) ct = sliceZ p 97 16 then { a with plain := gcmCrypt k iv ct, res := 0x00 } else { a with res := 0x07 }

/-! ## Verdicts (R187 to R205) -/

/-- Row 1 of R205 does not apply: the RESPONSE and the DIGEST name the report that bound the fob. -/
def fobBound (p : Span) (a : AuthJob) : Bool :=
  a.fobId == repFob p.report && a.wakeCtr == repWake p.report &&
    (a.plain == [] || decide (sliceZ a.plain 4 8 = (sha256 p.report).take 8))

/-- A fob span's verdict once its exchange has ended. -/
def fobVerdict (b : Nat) (s : State) : State :=
  let p := getSpan s b
  if p.state ≠ 3 ∨ p.reqBits = 0 then s
  else match getAuth s b with
    | some a => applyVerdict b (pxInput s b (fobBound p a) (some s.psr) a.plain (sliceZ a.ms 328 8)) s
    | none => applyVerdict b (pxInput s b true (some s.psr) [] []) s

/-- A tag span's verdict (R190, R202). -/
def tagVerdict (b : Nat) (s : State) : State :=
  let p := getSpan s b
  if p.state ≠ 3 ∨ p.reqBits = 0 then s else applyVerdict b (pxInput s b true none [] []) s

/-! ## Tokens (R61 to R63, R225 to R227) -/

/-- The keystone builds a bay's token: the slot's counter value is consumed and the GMAC formed. A wait for a
reservation gives no status yet. -/
def buildToken (b : Nat) (a : AuthJob) (s : State) : State :=
  let k := getSlot s b
  if k.st = .empty then setAuth b (some { a with st := some 0x82 }) s
  else if k.st = .spent then setAuth b (some { a with st := some 0x08 }) s
  else if bitOf k.policy 11 ∧ k.ready = false then setAuth b (some { a with st := some 0x10 }) s
  else if bitOf k.policy 11 ∧ k.hwm ≤ k.ctr then
    let s := reserveCounter b s
    setAuth b (some { a with st := if (getSlot s b).resv then none else some 0x10 }) s
  else
    let head := a.sent ++ leBytes 8 k.ctr
    let iv := leBytes 2 (siteBay s b) ++ [0, 0] ++ leBytes 8 k.ctr
    let s := afterConsume b (modSlot b (fun x => { x with ctr := x.ctr + 1 }) s)
    setAuth b (some { a with st := some 0x00, rc := k.ctr, plain := head ++ gcmTag (k.key.take (16 + 8 * bitsOf k.policy 0 2)) iv head [] }) s

end Sys2Proof.Machine
end

