-- ==== Sys2Proof/Machine/Cascade.lean ====
section
/-! DEFINITION. The Zwisiup cascade: links, forwarding and holding of ring frames, and site time (R394 to R405). -/

namespace Sys2Proof.Machine

/-! ## Ports -/

/-- A ring port: true the upstream one. -/
def zwPort (s : State) (up : Bool) : Port := if up then s.zw.upPort else s.zw.downPort

/-- A ring port updated. -/
def modPort (up : Bool) (f : Port → Port) (s : State) : State :=
  modZw (fun z => if up then { z with upPort := f z.upPort } else { z with downPort := f z.downPort }) s

/-- Whether a port is the upstream one. -/
def ZwPort.isUp : ZwPort → Bool
  | .up => true
  | .down => false

/-- The number of devices of the ring. -/
def ringSize (s : State) : Nat := regField s 5 .zwCfg 0 8 4 + 1

/-- The ID of the neighbour a port should have (R394, R395). -/
def neighbourId (s : State) (up : Bool) : Nat :=
  if up then (s.boot.strapId + ringSize s - 1) % ringSize s else (s.boot.strapId + 1) % ringSize s

/-- A neighbour shows the right ID and part (R395). -/
def neighbourOk (s : State) (up : Bool) (id part : Nat) : Bool := id == neighbourId s up && part == 0x6480

/-! ## Forwarding and holding (R398 to R401) -/

/-- A DISPATCH_DOWN frame is held for a parked neighbour: at most four, the rest dropped and counted (R401). -/
def holdRing (toUp : Bool) (f : RingFrame) (s : State) : State :=
  modZw (fun z => if z.held.length < 4 then { z with held := z.held ++ [⟨toUp, f, s.time.us⟩] }
    else { z with heldDrop := satTo 0x3FF (z.heldDrop + 1) }) s

/-- Whether a frame that goes out by a port whose link is down is held for that port's neighbour (R401). -/
def holdsFor (s : State) (typ : Nat) (toUp : Bool) (f : RingFrame) : Bool :=
  typ == 0x11 && !(zwPort s toUp).up && (f.bcast || f.dst.val == neighbourId s toUp)

/-- A frame the device originates, with the hold of R401. -/
def ringOutHold (typ : Nat) (f : RingFrame) (s : State) : State :=
  ringOut typ f (if holdsFor s typ false f then holdRing false f s else s)

/-- A frame passes on: what came upstream goes out downstream, or wraps; what came wrapped goes out upstream, or
downstream again. A frame whose HOPS reaches 0 is removed (R398, R400). -/
def ringForward (typ : Nat) (fromUp : Bool) (f : RingFrame) (s : State) : State :=
  if f.hops ≤ 1 then s
  else
    let f := { f with hops := f.hops - 1 }
    let s := if f.crcGood then s else modZw (fun z => { z with crc := satTo 0xFFF (z.crc + 1) }) s
    let s := countEvent 5 0x044 1 s
    if fromUp then ringOutHold typ f s
    else
      let s := if holdsFor s typ true f then holdRing true f s else s
      if s.zw.upPort.up then emit (.ring true typ f) s
      else if s.zw.downPort.up then emit (.ring false typ { f with wrapped := false }) s
      else s

/-- A SEQ is later than the last one delivered from its source, modulo 2^16 over half the range (R398). -/
def laterSeq (last : Option Nat) (q : Nat) : Bool :=
  match last with
  | none => true
  | some l => let d := (q + 65536 - l % 65536) % 65536; decide (1 ≤ d) && decide (d < 32768)

/-- Fragments of one source with consecutive SEQ are joined; `deliver` takes a whole message (R397). -/
def ringJoin (f : RingFrame) (deliver : List Byte → State → State) (s : State) : State :=
  let acc : Option (List Byte) :=
    if f.first then some f.payload
    else match s.zw.partialMsg with
      | some (src, q, bs) => if src = f.src.val ∧ q = f.seq then some (bs ++ f.payload) else none
      | none => none
  match acc with
  | none => modZw (fun z => { z with partialMsg := none }) s
  | some bs =>
    if f.last then deliver bs (modZw (fun z => { z with partialMsg := none }) s)
    else modZw (fun z => { z with partialMsg := some (f.src.val, (f.seq + 1) % 65536, bs) }) s

/-- A ring frame that travels arrives at a port: it is forwarded, removed or delivered (R397, R398, R400). -/
def ringReceive (typ : Nat) (up : Bool) (f : RingFrame) (deliver : List Byte → State → State) (s : State) : State :=
  if ringOn s = false ∨ (zwPort s up).up = false ∨ f.src.val = s.boot.strapId then s
  else
    let mine := f.bcast || f.dst.val == s.boot.strapId
    let s := if mine ∧ f.bcast = false then s else ringForward typ up f s
    if mine ∧ f.crcGood ∧ laterSeq (vget none s.zw.lastSeq f.src.val) f.seq then
      ringJoin f deliver (modZw (fun z => { z with lastSeq := vset z.lastSeq f.src.val (some (f.seq % 65536)) }) s)
    else s

/-! ## Links (R395, R401) -/

/-- The frames held for a port leave as its link comes up. -/
def releaseHeld (up : Bool) (s : State) : State :=
  let mine := s.zw.held.filter (fun h => h.toUp == up)
  mine.foldl (fun s h => emit (.ring up 0x11 h.frame) s) (modZw (fun z => { z with held := z.held.filter (fun h => h.toUp != up) }) s)

/-- LINK_UP (R395). -/
def linkUp (up idOk partOk : Bool) (s : State) : State :=
  if ringOn s = false ∨ (zwPort s up).up then s
  else if idOk ∧ partOk then releaseHeld up (modPort up (fun p => { p with up := true, mhops := 255, t1 := none }) s)
  else modZw (fun z => { z with conflict := true }) s

/-- LINK_DOWN (R395, R413). -/
def linkDown (up : Bool) (s : State) : State :=
  if canAct s 5 ∧ (zwPort s up).up then
    modZw (fun z => { z with downs := satTo 0x3FF (z.downs + 1) }) (modPort up (fun p => { p with up := false, t1 := none, mhops := 255 }) s)
  else s

/-- HELD_FRAME_EXPIRY (R401): frames still held after 10 ms are dropped. -/
def heldExpire (s : State) : State :=
  let old := s.zw.held.filter (fun h => decide (h.since + 10000 ≤ s.time.us))
  if ringOn s then
    modZw (fun z => { z with held := z.held.filter (fun h => !decide (h.since + 10000 ≤ s.time.us)), heldDrop := satTo 0x3FF (z.heldDrop + old.length) }) s
  else s

/-! ## Peer delay and site time (R403, R404) -/

/-- The device time in ns at this instant: the microsecond count, its part below a microsecond an open value.
(DESIGN CHOICE, log entry 39.) -/
def timeNs (s : State) : Nat := 1000 * s.time.us + freeValue s % 1000

/-- PDELAY_REQ arrives: it is answered; a wrong neighbour raises ID_CONFLICT while the port is down. -/
def pdelayAsked (up : Bool) (id part t2 : Nat) (s : State) : State :=
  if ringOn s = false then s
  else
    let s := if neighbourOk s up id part = false ∧ (zwPort s up).up = false then modZw (fun z => { z with conflict := true }) s else s
    useFree (emit (.pdelayResp up t2 (timeNs s)) s)

/-- PDELAY_RESP arrives: the link delay D. -/
def pdelayAnswered (up : Bool) (id part t2 t3 t4 : Nat) (s : State) : State :=
  match (zwPort s up).t1 with
  | some t1 =>
    if ringOn s = false then s
    else if neighbourOk s up id part then
      modPort up (fun p => { p with delay := (((t4 : Int) - t1) - ((t3 : Int) - t2)) / 2, t1 := none }) s
    else if (zwPort s up).up then s else modZw (fun z => { z with conflict := true }) s
  | none => s

/-- PDELAY_TIMER (R403): a peer-delay exchange starts on each up link. -/
def pdelayTimer (s : State) : State :=
  if ringOn s then
    [true, false].foldl (fun s up =>
      if (zwPort s up).up then useFree (modPort up (fun p => { p with t1 := some (timeNs s) }) (emit (.pdelayReq up (timeNs s)) s)) else s) s
  else s

/-- SYNC_TIMER (R403): a synchronised device sends SYNC on each up link. -/
def syncTimer (s : State) : State :=
  if ringOn s ∧ siteSynced s then
    [true, false].foldl (fun s up =>
      if (zwPort s up).up then useFree (emit (.sync up ((timeNs s : Int) + siteOfs s).toNat (if s.boot.strapId = 0 then 0 else s.zw.hops)) s) else s) s
  else s

/-- A correction of the offset: a step before SYNCED is first set, slewed at no more than 100 ppm after it (R404). -/
def slewed (z : ZwState) (target : Int) (now : Nat) : Int :=
  if z.everSynced then
    let lim : Int := ((now - z.lastSync.getD now) / 10 : Nat)
    if target - z.ofs < -lim then z.ofs - lim else if lim < target - z.ofs then z.ofs + lim else target
  else target

/-- SYNC arrives at a slave that follows this port (R403, R404). -/
def syncArrives (up : Bool) (siteNs mhops arrival : Nat) (s : State) : State :=
  if ringSlave s = false ∨ (zwPort s up).up = false then s
  else
    let s := modPort up (fun p => { p with mhops := mhops }) s
    let other := zwPort s (!up)
    let follows := !other.up || decide (mhops < other.mhops) || (mhops == other.mhops && up)
    if follows = false then s
    else modZw (fun z =>
      let target : Int := (siteNs : Int) + (zwPort s up).delay - arrival
      let h := mhops + 1
      let agree := decide ((target - z.ofs).natAbs ≤ 100 * h)
      let good := if agree then satTo 4 (z.good + 1) else 0
      { z with ofs := slewed z target s.time.us, hops := h % 16, good := good, lastSync := some s.time.us
               synced := z.synced || good == 4, everSynced := z.everSynced || good == 4 }) s

/-- SYNC_LOSS (R404): 5 s without an accepted SYNC. -/
def syncLoss (s : State) : State :=
  if ringSlave s ∧ s.zw.synced ∧ (s.zw.lastSync.getD 0) + 5000000 ≤ s.time.us then modZw (fun z => { z with synced := false, good := 0 }) s else s

/-! ## Time mapping (R405) -/

/-- Whether the ledger's mapping holds since this boot. -/
def mappingHolds (s : State) : Bool := s.store.ledger.tsBoot == s.store.ledger.bootCount && s.store.ledger.tsCount != 0

/-- The master broadcasts TIMEMAP with a mapping of its own device time, which is site time. -/
def sendTimemap (utc site : Nat) (s : State) : State :=
  if ringOn s ∧ s.boot.strapId = 0 then ringSend 0x12 0 true ringOut (leBytes 8 utc ++ leBytes 8 site) s else s

/-- TIMEMAP_REPEAT: the master's mapping every 60 s. -/
def timemapRepeat (s : State) : State :=
  if mappingHolds s then sendTimemap s.store.ledger.tsUtc s.store.ledger.tsDevice s else s

/-- A delivered TIMEMAP: a synchronised slave whose mapping differs by more than 1 ms, or is of an earlier boot, sets its
time from it. -/
def takeTimemap (payload : List Byte) (s : State) : State :=
  if s.zw.synced = false ∨ canAct s 1 = false then s
  else
    let utc := leAt payload 0 8
    let dev : Int := (leAt payload 8 8 : Int) - s.zw.ofs / 1000
    let l := s.store.ledger
    let diff := ((utc : Int) - dev) - ((l.tsUtc : Int) - l.tsDevice)
    if 1000 < diff.natAbs ∨ l.tsBoot ≠ l.bootCount then
      let d := s.time.us
      (deckRequest (.timeSet none ((utc : Int) + (d - dev)).toNat d) [10] 0 s).2
    else s

/-- LINK.ZW_STATUS (R413). -/
def zwStatusWord (s : State) : Nat :=
  let z := s.zw
  b2n z.upPort.up + 2 * b2n z.downPort.up + 4 * b2n (ringOn s && (!z.upPort.up || !z.downPort.up)) + 8 * b2n (siteSynced s) +
    16 * (if s.boot.strapId = 0 then 0 else z.hops) + 256 * b2n z.conflict + 512 * b2n (z.upPort.up || z.downPort.up || z.held != [])

/-- LINK.ZW_COUNT. -/
def zwCountWord (s : State) : Nat := s.zw.crc + 2 ^ 12 * s.zw.downs + 2 ^ 22 * s.zw.heldDrop

/-- SITE_OFS as 64 bits. -/
def siteOfsNat (s : State) : Nat := (siteOfs s % 2 ^ 64).toNat

/-- SITE_TIME in µs: 0 while SYNCED is 0. -/
def siteTimeUs (s : State) : Nat := if siteSynced s then (((1000 * s.time.us : Nat) + siteOfs s) / 1000).toNat else 0

/-! ## The rows -/

/-- LINK_UP (R395). -/
def execLinkUp (port : ZwPort) (idOk partOk : Bool) (s : State) : Host.Outcome State Fault Refusal :=
  .next (linkUp (ZwPort.isUp port) idOk partOk s)

/-- LINK_DOWN (R395). -/
def execLinkDown (port : ZwPort) (s : State) : Host.Outcome State Fault Refusal := .next (linkDown (ZwPort.isUp port) s)

/-- SYNC (R403, R404). -/
def execSync (port : ZwPort) (siteNs mhops arrivalNs : Nat) (s : State) : Host.Outcome State Fault Refusal :=
  .next (syncArrives (ZwPort.isUp port) siteNs mhops arrivalNs s)

/-- PDELAY_REQ (R403). -/
def execPdelayReq (port : ZwPort) (id : Fin 16) (part : BitVec 16) (_t1 t2 : Nat) (s : State) : Host.Outcome State Fault Refusal :=
  .next (pdelayAsked (ZwPort.isUp port) id part.toNat t2 s)

/-- PDELAY_RESP (R403). -/
def execPdelayResp (port : ZwPort) (id : Fin 16) (part : BitVec 16) (t2 t3 t4 : Nat) (s : State) : Host.Outcome State Fault Refusal :=
  .next (pdelayAnswered (ZwPort.isUp port) id part.toNat t2 t3 t4 s)

/-- PDELAY_TIMER (R403). -/
def execPdelayTimer (s : State) : Host.Outcome State Fault Refusal := .next (pdelayTimer s)

/-- SYNC_TIMER (R403). -/
def execSyncTimer (s : State) : Host.Outcome State Fault Refusal := .next (syncTimer s)

/-- SYNC_LOSS (R404). -/
def execSyncLoss (s : State) : Host.Outcome State Fault Refusal := .next (syncLoss s)

/-- TIMEMAP (R397, R405). -/
def execTimemap (port : ZwPort) (frame : RingFrame) (s : State) : Host.Outcome State Fault Refusal :=
  .next (ringReceive 0x12 (ZwPort.isUp port) frame takeTimemap s)

/-- TIMEMAP_REPEAT (R405). -/
def execTimemapRepeat (s : State) : Host.Outcome State Fault Refusal := .next (timemapRepeat s)

/-- HELD_FRAME_EXPIRY (R401). -/
def execHeldFrameExpiry (s : State) : Host.Outcome State Fault Refusal := .next (heldExpire s)

/-- What the master passes to the host unchanged: another device's frame (R409). -/
def passUp (bs : List Byte) (s : State) : State :=
  drainFrames (modLink (fun l => { l with
    queued := l.queued ++ [⟨leAt bs 1 1, leAt bs 5 1, BitVec.ofNat 8 (leAt bs 6 1), leAt bs 7 1, leAt bs 8 4, leAt bs 12 4, [], eventDest s, bs⟩] }) s)

/-- DISPATCH_UP (R398, R409). -/
def execDispatchUp (port : ZwPort) (frame : RingFrame) (s : State) : Host.Outcome State Fault Refusal :=
  .next (ringReceive 0x10 (ZwPort.isUp port) frame passUp s)

end Sys2Proof.Machine
end

