-- ==== Sys2Proof/Machine/Messages.lean ====
section
/-! DEFINITION. The messages between the vendor programs (R341, R342): each is sent over the viaduct, and the receiving
program acts on it in the same step. -/

namespace Sys2Proof.Machine

/-- A message from a program of island `src` to one of island `dst` (R30, R35, R342): the receiver's work, or, where the
abutment answers 0x03, the sender's. A source that is not in RUN or is frozen sends nothing. (DEDUCED, log entry 1.) -/
def sendMsg (src dst : Nat) (work fail : State → State) (s : State) : State :=
  if canReach s src dst then
    let s := countEvent src 0x005 1 s
    if canAct s dst then work (setResp src [] 0x00 (countEvent dst 0x008 1 (countEvent dst 0x006 1 s)))
    else fail (setResp src [] 0x03 (countEvent src 0x00A 1 (noteOff src (islandBase dst) true false true s)))
  else s

/-- A refused step of bay b's span reports its status (R51, R342). -/
def stepFails (b : Nat) (st : Status) (s : State) : State := if (getSpan s b).live then noteFail b st s else s

/-! ## Deck to piers -/

/-- MSG_SENSE (R342): a confirmed detuning of the AON engine reaches the deck. -/
def execMsgSense (bay : Bay) (_time : Nat) (s : State) : Host.Outcome State Fault Refusal :=
  .next (sendMsg 0 1 (senseArrive 0 bay [] none) id s)

/-- MSG_WAKE_HELLO (R176, R342). -/
def execMsgWakeHello (_site : BitVec 24) (s : State) : Host.Outcome State Fault Refusal :=
  .next (sendMsg 0 1 fobHello id s)

/-- The plan the tag of a chord message names: bay 0 to 63 its span's, 0x80 and up the sweep's. It gives the bay that the
plan drives in a pier, 0xFF for a silent one. (DESIGN CHOICE, log entry 10.) -/
def plannedBay (s : State) (tag pier : Nat) : Option Nat :=
  if tag < 64 then
    (if awaitsChord s tag then some (if bitOf (getSpan s tag).present pier then firedBay (getSpan s tag).fired pier else 0xFF) else none)
  else if 0x80 ≤ tag then
    s.span.sweep.map (fun w => if bitOf w.present pier then bayOf pier (planPos w.orders pier w.chords.length) else 0xFF)
  else none

/-- The pier's program prepares a burst: ENABLE, the bit rates of R127 and R128, and LF_DRIVE as the message gives it. -/
def pierPrepare (p drive : Nat) (s : State) : State :=
  let s := if lfEnabled s p then s else lfEnableWrite p true s
  putReg (putReg s (6 + p) .lfMod 0 1) (6 + p) .lfDrive 0 (drive % 2 ^ 23)

/-- The pier's program writes its code n, T0 and the header for a chord (R108, R130, R131). -/
def pierLoad (p drive header t0 : Nat) (s : State) : State :=
  let s := pierPrepare p drive s
  let s := putReg (putReg (putReg s (6 + p) .chordCfg 0 p) (6 + p) .chordT0Lo 0 (t0 % 2 ^ 32)) (6 + p) .chordT0Hi 0 (t0 / 2 ^ 32 % 2 ^ 32)
  (lfTxdPush p (header % 64 * 2 ^ 26) s).2

/-- The pier arms its chord on aerial k (R108, R111). -/
def pierArm (p k drive header t0 : Nat) (s : State) : State := (lfStart p k 3 0 (pierLoad p drive header t0 s)).2

/-- The deck notes the chord's start, or that its pier was not reached. -/
def chordArmed (tag pier t0 : Nat) (sent : Bool) (s : State) : State :=
  if tag < 64 then
    (if sent then modBay tag (fun p => { p with chordT0 := t0 }) s else chordAbsent tag pier 0x03 s)
  else if sent then s
  else modSpan (fun x => { x with sweep := x.sweep.map (fun w => if bitOf w.present pier then { w with present := w.present - 2 ^ pier } else w) }) s

/-- MSG_CHORD_ARM (R132, R133, R342). -/
def execMsgChordArm (pier : PierId) (bay tag : Byte) (drive : BitVec 24) (header : BitVec 6) (t0 : Nat) (s : State) : Host.Outcome State Fault Refusal :=
  .next (if (plannedBay s tag.toNat pier).getD bay.toNat = bay.toNat then
      sendMsg 1 (6 + pier) (fun s =>
        chordArmed tag.toNat pier t0 true (if bay.toNat / 8 = pier.val then pierArm pier (bay.toNat % 8) drive.toNat header.toNat t0 s else s))
        (chordArmed tag.toNat pier t0 false) s
    else s)

/-- A tag burst starts with its exchange, or the exchange ends with the status of the START (R141, R149). -/
def tagStart (p k drive : Nat) (j : TagJob) (s : State) : State :=
  let r := lfStart p k 0 0 (pierPrepare p drive s)
  if r.1 = 0 then setJob p j r.2 else setJob p (j.ended r.1) r.2

/-- Whether a tag read's flags follow the bay policy of the span that waits for it (R149). -/
def tagReadOk (s : State) (b : Nat) (kt open_ : Bool) : Bool :=
  !awaitsTag s b || (bitOf (leAt (getSpan s b).policy 0 1) 2 == kt && bitOf (leAt (getSpan s b).policy 0 1) 3 == open_)

/-- MSG_TAGREAD (R144, R148, R149, R342). -/
def execMsgTagread (bay : Bay) (tag : Byte) (drive : Word) (ktFirst openId : Bool) (s : State) : Host.Outcome State Fault Refusal :=
  .next (if tagReadOk s bay ktFirst openId then
      sendMsg 1 (6 + bay / 8) (fun s =>
        let j := { TagJob.fresh bay tag.toNat .waitRc with openId := openId }
        tagStart (bay / 8) (bay % 8) drive.toNat (if ktFirst then j else if openId then j.inventory else j.ended 0x50) s)
        (stepFails bay 0x03) s
    else s)

/-- MSG_TAGWRITE (R150, R154, R342): the data stand in the pier's mailbox; a UID on the caution list is checked instead. -/
def execMsgTagwrite (bay : Bay) (tag : Byte) (drive : Word) (uid : Nat) (s : State) : Host.Outcome State Fault Refusal :=
  .next (sendMsg 1 (6 + bay / 8) (fun s =>
    let check := (cautionFind s uid).isSome
    let j := { TagJob.fresh bay tag.toNat (.open_ check) with
      write := true, check := check, kind := 1, uid := uid, data := memReadBytes s (sramKey (6 + bay / 8) 0xFF00) 32 }
    tagStart (bay / 8) (bay % 8) drive.toNat j s) id s)

/-- MSG_TUNE (R117, R342). -/
def execMsgTune (bay : Bay) (_tag : Byte) (s : State) : Host.Outcome State Fault Refusal :=
  .next (sendMsg 1 (6 + bay / 8) (fun s =>
    let s := if lfEnabled s (bay / 8) then s else lfEnableWrite (bay / 8) true s
    (lfStart (bay / 8) (bay % 8) 2 0 s).2) id s)

/-- MSG_STOP (R113, R342). -/
def execMsgStop (bay : Bay) (_tag : Byte) (s : State) : Host.Outcome State Fault Refusal :=
  .next (sendMsg 1 (6 + bay / 8) (lfStop (bay / 8)) id s)

/-! ## Piers to the deck -/

/-- MSG_DETUNE (R43, R342). -/
def execMsgDetune (bay : Bay) (_time : Nat) (s : State) : Host.Outcome State Fault Refusal :=
  .next (sendMsg (6 + bay / 8) 1 (senseArrive 0 bay [] none) id s)

/-- The tag exchange of a bay that has ended. -/
def endedJob (s : State) (b tag : Nat) : Option TagJob :=
  match (getPier s (b / 8)).job with
  | some j => if j.bay = b ∧ j.tag = tag ∧ j.phase = .done then some j else none
  | none => none

/-- The exchange's result reaches the deck (R48, R51, R146, R190). -/
def tagResult (b : Nat) (j : TagJob) (s : State) : State :=
  if awaitsTag s b = false then s
  else match j.found with
    | id :: _ =>
      let s := modBay b (fun p => { p with evLf := some j.since }) s
      let s := spanIdentified b j.kind (ident8 j.kind id) s
      if j.kind = 2 then tagVerdict b s else s
    | [] => if j.status = 0x50 ∨ j.status = 0x00 then spanRefuse b 0x23 s else noteFail b j.status s

/-- MSG_TAG_RESULT (R342): sent once every further identifier has been. -/
def execMsgTagResult (bay : Bay) (tag : Byte) (status : Status) (kind : Fin 3) (found lowest : Nat) (s : State) : Host.Outcome State Fault Refusal :=
  .next (match endedJob s bay tag.toNat with
    | none => s
    | some j =>
      if j.write = false ∧ j.more = [] ∧ j.status = status ∧ j.kind = kind ∧ j.found.length = found ∧ j.found.headD 0 = lowest ∧ canAct s (6 + bay / 8) then
        let s := modPier (bay / 8) (fun q => { q with job := none }) s
        sendMsg (6 + bay / 8) 1 (tagResult bay j) id s
      else s)

/-- MSG_TAG_MORE (R146, R342): each further identifier is a tag-read request. -/
def execMsgTagMore (bay : Bay) (tag : Byte) (ident : Nat) (s : State) : Host.Outcome State Fault Refusal :=
  .next (match endedJob s bay tag.toNat with
    | none => s
    | some j =>
      if j.more.head? = some ident ∧ canAct s (6 + bay / 8) then
        sendMsg (6 + bay / 8) 1 (senseArrive 2 bay [] none) id (setJob (bay / 8) { j with more := j.more.drop 1 } s)
      else s)

/-- The TAG_WRITE record of an outcome (R153, R293). -/
def tagWriteRecord (s : State) (j : TagJob) (after : JAfter) : JRecord :=
  { typ := 0x0C, signed := false, siteBay := siteBay s j.bay, spanId := 0, time := s.time.us
    body := leBytes 8 j.uid ++ leBytes 1 j.outcome ++ [j.status] ++ leBytes 2 (pageCrc j.data) ++ leBytes 2 j.pcrc
    after := after }

/-- A write's outcome at the deck: the caution list and the record; the host's answer follows the record. -/
def writeResult (j : TagJob) (s : State) : State :=
  let s := cautionAfter j.uid (pageCrc j.data) j.outcome j.check s
  match findJob s (fun k => match k with | .tagWrite r u _ _ => r.bay == j.bay && u == j.uid | _ => false) with
  | some ⟨_, .tagWrite r _ _ _, h⟩ =>
    submitRecord (tagWriteRecord s j (.tagWrite r (h.getD 0) j.outcome j.status))
      (endJobs (fun k => match k.kind with | .tagWrite r' u _ _ => r'.bay == j.bay && u == j.uid | _ => false) s)
  | _ => submitRecord (tagWriteRecord s j .nothing) s

/-- A sweep's result at the deck (R117, R415). -/
def tuneResult (b : Nat) (st : Status) (s : State) : State :=
  match findJob s (fun k => match k with | .tune r => r.bay == b | _ => false) with
  | some ⟨_, .tune r, _⟩ =>
    let q := getPier s (b / 8)
    let w := vget 0 q.tuneQ (b % 8)
    answerReq r st 13 (leBytes 4 (vget 0 q.tuneF (b % 8)) ++ leBytes 2 (bitsOf w 0 10) ++ leBytes 2 (bitsOf w 10 12))
      (endJobs (fun k => match k.kind with | .tune r' => r'.bay == b | _ => false) s)
  | _ => s

/-- A chord burst's result: a pier whose burst did not end with DONE is absent (R137). -/
def chordBurst (b tag : Nat) (st : Status) (s : State) : State :=
  if st = 0 then s
  else if tag < 64 then chordAbsent tag (b / 8) st s
  else chordArmed tag (b / 8) 0 false s

/-- MSG_BURST_RESULT (R137, R153, R342). -/
def execMsgBurstResult (bay : Bay) (tag : Byte) (status : Status) (mode : Fin 4) (outcome : Fin 4) (s : State) : Host.Outcome State Fault Refusal :=
  .next (match endedJob s bay tag.toNat with
    | some j =>
      if j.write ∧ mode = 0 then
        (if j.status = status ∧ j.outcome = outcome ∧ canAct s (6 + bay / 8) then
          sendMsg (6 + bay / 8) 1 (writeResult j) id (modPier (bay / 8) (fun q => { q with job := none }) s)
        else s)
      else s
    | none =>
      if (getPier s (bay / 8)).burst ≠ none then s
      else sendMsg (6 + bay / 8) 1 (fun s =>
        if mode = 3 then chordBurst bay tag.toNat status s else if mode = 2 then tuneResult bay status s else s) id s)

/-! ## Deck and keystone -/

/-- The span ID an authentication at bay b is for: the span's, or 0 for a ranging request outside one (R191). -/
def authSpanId (s : State) (b : Nat) : Nat := if (getSpan s b).state = 3 then (getSpan s b).id else 0

/-- MSG_AUTH_START (R148, R172, R342): a fob's challenge is drawn; a keyed transponder's R is checked. -/
def execMsgAuthStart (bay : Bay) (tag : Byte) (kind : Fin 3) (ident : Nat) (s : State) : Host.Outcome State Fault Refusal :=
  .next (sendMsg 1 2 (fun s =>
    if kind = 0 then rngRequest 0 16 (setAuth bay (some (AuthJob.fresh tag.toNat 0 ident (authSpanId s bay))) s)
    else if kind = 1 then
      let a := (getAuth s bay).getD (AuthJob.fresh tag.toNat 1 ident 0)
      setAuth bay (some { a with tag := tag.toNat, kind := 1, id := ident, spanId := authSpanId s bay, st := some (ktCheck s a ident) }) s
    else s) (stepFails bay 0x03) s)

/-- MSG_TOKEN (R61 to R63, R342): the deck fills bytes 0 to 23 and the keystone builds the token. -/
def execMsgToken (bay : Bay) (tag : Byte) (addr : Word) (s : State) : Host.Outcome State Fault Refusal :=
  .next (let p := getSpan s bay
    if canAct s 1 ∧ p.state = 5 ∧ p.authDurable ∧ p.built = false ∧ getToken s bay = none ∧ oldTokenHolds s bay s.time.us = false then
      let head := (tokenHead s bay 0).take 24
      let s := memWriteBytes (deckSram + addr.toNat % 0x100000) head s
      sendMsg 1 2 (fun s =>
        let a := { AuthJob.fresh tag.toNat 4 0 p.id with sent := head }
        let s := buildToken bay a s
        match getAuth s bay with
        | some x => memWriteBytes (deckSram + addr.toNat % 0x100000 + 24) (x.plain.drop 24) s
        | none => s) (fun s => spanRefuse bay 0x11 s) s
    else s)

/-- MSG_SIGN_HEAD (R294, R342): the keystone signs the head record's chain digest with slot 0. -/
def execMsgSignHead (tag : Byte) (seq : Nat) (s : State) : Host.Outcome State Fault Refusal :=
  .next (if s.store.sigOwed ≠ none ∧ s.store.head = seq ∧ s.signer.job = none then
      sendMsg 1 2 (signerStart ⟨2, 0, 0, none, 0, .sig tag.toNat seq⟩) id s
    else s)

/-- The keystone's answer for a bay reaches the deck (R48, R51, R57, R172). -/
def authResult (b : Nat) (a : AuthJob) (st : Status) (s : State) : State :=
  let p := getSpan s b
  if p.state = 3 ∧ a.spanId = p.id ∧ p.kind = a.kind then
    (if st = 0x06 ∨ st = 0x07 ∨ st = 0x0B ∨ st = 0x0C then spanRefuse b st s
     else if st ≠ 0 then noteFail b st s
     else
      let s := modBay b (fun p => { p with evAuth := if a.kind = 0 then some a.rxTime else p.evLf }) s
      if a.kind = 1 then tagVerdict b s else s)
  else match findJob s (fun k => match k with | .range r _ _ _ => r.bay == b | _ => false) with
    | some ⟨_, .range r _ _ _, _⟩ =>
      if st = 0 then s else answerReq r st 8 [] (endJobs (fun k => match k.kind with | .range r' _ _ _ => r'.bay == b | _ => false) s)
    | _ => s

/-- MSG_AUTH_RESULT (R342): sent once the keystone has its answer. -/
def execMsgAuthResult (bay : Bay) (tag : Byte) (status : Status) (s : State) : Host.Outcome State Fault Refusal :=
  .next (match getAuth s bay with
    | some a => if a.tag = tag.toNat ∧ a.kind < 4 ∧ a.st = some status then sendMsg 2 1 (authResult bay a status) id s else s
    | none => s)

/-- MSG_TOKEN_READY (R48, R63, R226, R342): a token that waited for its reservation is built now. -/
def execMsgTokenReady (bay : Bay) (tag : Byte) (status : Status) (counter : Nat) (s : State) : Host.Outcome State Fault Refusal :=
  .next (match getAuth s bay with
    | none => s
    | some a0 =>
      if canAct s 2 = false ∨ a0.kind ≠ 4 ∨ a0.tag ≠ tag.toNat then s
      else
        let s := if a0.st = none then buildToken bay a0 s else s
        match getAuth s bay with
        | some a =>
          if a.st = some status ∧ (status ≠ 0 ∨ a.rc = counter) then
            sendMsg 2 1 (fun s =>
              let s := setAuth bay none s
              if (getSpan s bay).state ≠ 5 ∨ (getSpan s bay).id ≠ a.spanId then s
              else if status = 0 then modBay bay (fun p => { p with token := a.plain, counter := a.rc, built := true }) s
              else spanRefuse bay status s) id s
          else s
        | none => s)

/-- MSG_SIGNED (R294, R342): the deck learns that the SIG record stands; it waits for the record's durability. -/
def execMsgSigned (_tag : Byte) (_status : Status) (_seq : Nat) (s : State) : Host.Outcome State Fault Refusal :=
  .next (sendMsg 2 1 id id s)

/-! ## Keystone and piers -/

/-- MSG_KT_CHALLENGE (R148, R342): RC is drawn from the DRBG and reaches the pier. -/
def execMsgKtChallenge (bay : Bay) (tag : Byte) (rc : Word) (s : State) : Host.Outcome State Fault Refusal :=
  .next (if s.rng.st = .ready then
      sendMsg 2 (6 + bay / 8) (fun s =>
        let s := setAuth bay (some { AuthJob.fresh tag.toNat 1 0 0 with rc := rc.toNat }) s
        match (getPier s (bay / 8)).job with
        | some j => if j.bay = bay ∧ j.phase = .waitRc then setJob (bay / 8) { j with phase := .ktReq } s else s
        | none => s) id s
    else s)

/-- The MAC the keystone computes for an opened transponder (R151): the page data stand in the pier's mailbox. -/
def ktWriteMac (s : State) (b : Nat) (a : AuthJob) : Option Nat :=
  (tagKey s a.fobId).map (fun k =>
    ofLe (ktMac k (leBytes 8 a.fobId) (leBytes 2 a.r) (memReadBytes s (sramKey (6 + b / 8) 0xFF00) 32)))

/-- MSG_KT_MAC (R151, R152, R342): the pier sends KT_WRITE. -/
def execMsgKtMac (bay : Bay) (_tag : Byte) (mac : Word) (s : State) : Host.Outcome State Fault Refusal :=
  .next (match getAuth s bay with
    | some a =>
      if a.kind = 5 ∧ ktWriteMac s bay a = some mac.toNat then
        sendMsg 2 (6 + bay / 8) (fun s =>
          match (getPier s (bay / 8)).job with
          | some j => (match j.phase with
            | .waitMac _ => if j.bay = bay then setJob (bay / 8) { j with phase := .writing, since := s.time.us } s else s
            | _ => s)
          | none => s) id s
      else s
    | none => s)

/-- MSG_KT_REPLY (R148, R342): the keystone holds R until the span's AUTH class. -/
def execMsgKtReply (bay : Bay) (tag : Byte) (r : Word) (uid : Nat) (s : State) : Host.Outcome State Fault Refusal :=
  .next (match endedJob s bay tag.toNat with
    | some j =>
      if j.kind = 1 ∧ j.write = false ∧ j.found = [uid] ∧ ofLe j.data = r.toNat then
        sendMsg (6 + bay / 8) 2 (fun s => match getAuth s bay with
          | some a => setAuth bay (some { a with r := r.toNat, fobId := uid }) s
          | none => s) id s
      else s
    | none => s)

/-- MSG_KT_OPENED (R150, R151, R342): the keystone takes UID and TW for the write's MAC. -/
def execMsgKtOpened (bay : Bay) (tag : Byte) (tw : BitVec 16) (uid : Nat) (s : State) : Host.Outcome State Fault Refusal :=
  .next (match (getPier s (bay / 8)).job with
    | some j =>
      if j.bay = bay ∧ j.uid = uid ∧ j.phase = .waitMac tw.toNat then
        sendMsg (6 + bay / 8) 2 (setAuth bay (some { AuthJob.fresh tag.toNat 5 uid 0 with fobId := uid, r := tw.toNat })) id s
      else s
    | none => s)

/-! ## Keystone and RF -/

/-- MSG_CHALLENGE (R171, R342): the drawn challenge stands in RF SRAM, LEN first, and RF sends it and listens. -/
def execMsgChallenge (bay : Bay) (tag : Byte) (offset : Word) (s : State) : Host.Outcome State Fault Refusal :=
  .next (match getAuth s bay, vget none s.rng.ends 0 with
    | some a, some e =>
      if a.kind ≠ 0 ∨ a.tag ≠ tag.toNat ∨ a.sent ≠ [] ∨ canAct s 2 = false then s
      else
        let s := modRng (fun r => { r with ends := vset r.ends 0 none }) s
        if e.status ≠ 0 then setAuth bay (some { a with st := some e.status }) s
        else
          let ch := padTo 16 e.data
          let pay := challengePayload s bay a ch
          let s := setAuth bay (some { a with ch := ch, sent := pay }) s
          sendMsg 2 3 (fun s =>
            let s := memWriteBytes (rfSram + offset.toNat % 0x8000) (31 :: pay) s
            let s := putReg s 3 .txPtr 0 (offset.toNat % 0x8000 / 4 * 4)
            let ch_ := regField s 3 .bfp 0 0 7
            let rate := bitOf (regValue s 3 .bfp 0) 7
            let ant := if geoHeaderOk (geoHeader s) && geoEntryOk (geoHeader s) (geoEntry s bay) then leAt (geoEntry s bay) 1 1 else 0
            let r := rfCommand { op := 3, ch := ch_, aerial := ant, pwr := liveField s 3 .psrCtrl 0 8 6, rate := rate } s
            if r.1 = 0 then (rfCommand { op := 4, ch := ch_, aerial := ant, pwr := 0, rate := rate } r.2).2 else r.2)
            (fun s => setAuth bay (some { a with ch := ch, sent := pay, st := some 0x03 }) s) s
    | _, _ => s)

/-- MSG_MASK_READY (R192, R342): the mask stream stands in the exchange buffer. -/
def execMsgMaskReady (bay : Bay) (tag : Byte) (offset : Word) (s : State) : Host.Outcome State Fault Refusal :=
  .next (match getAuth s bay with
    | some a =>
      if a.tag = tag.toNat ∧ a.ks ≠ none then
        sendMsg 2 3 (fun s => putReg (memWriteBytes (rfSram + offset.toNat % 0x8000) a.ms s) 3 .psrCtrl 0
          (setField (regValue s 3 .psrCtrl 0) 16 14 (offset.toNat % 0x8000 / 4))) id s
      else s
    | none => s)

/-- MSG_RESPONSE (R172, R342). -/
def execMsgResponse (bay : Bay) (tag : Byte) (status : Status) (offset : Word) (s : State) : Host.Outcome State Fault Refusal :=
  .next (sendMsg 3 2 (fun s => match getAuth s bay with
    | some a =>
      if a.kind ≠ 0 ∨ a.tag ≠ tag.toNat ∨ a.st ≠ none then s
      else setAuth bay (some (if status ≠ 0 then { a with st := some status } else responseTaken s a (memReadBytes s (rfSram + offset.toNat % 0x8000) 29))) s
    | none => s) (stepFails bay 0x03) s)

/-- MSG_RESULT (R193, R342): RF places the received RESULT, and the keystone decrypts it. -/
def execMsgResult (bay : Bay) (tag : Byte) (status : Status) (offset : Word) (s : State) : Host.Outcome State Fault Refusal :=
  .next (sendMsg 3 2 (fun s =>
    let s := match s.psr.result with
      | some r => memWriteBytes (rfSram + offset.toNat % 0x8000) (padTo 113 r) s
      | none => s
    match getAuth s bay with
    | some a =>
      if a.kind ≠ 0 ∨ a.tag ≠ tag.toNat ∨ status ≠ 0 then s
      else setAuth bay (some (resultTaken a (memReadBytes s (rfSram + offset.toNat % 0x8000) 113))) s
    | none => s) id s)

/-! ## RF and deck -/

/-- The reports RF kept for a chord stand in RF SRAM, one after another. -/
def placeReports (off : Nat) (reps : List (List Byte)) (s : State) : State :=
  memWriteBytes (rfSram + off) (reps.flatMap (padTo 66)) s

/-- MSG_CHORD_REPORTS (R137, R188, R342). -/
def execMsgChordReports (bay tag : Byte) (status : Status) (kept : Nat) (offset : Word) (s : State) : Host.Outcome State Fault Refusal :=
  .next (let off := offset.toNat % 0x8000
    let mine := match s.rf.listen with
      | some (t, _, reps) => if t = tag.toNat then some reps else none
      | none => none
    if canAct s 3 = false ∨ mine.any (fun r => r.length != kept) then s
    else
      let s := match mine with
        | some reps => placeReports off reps (modRf (fun r => { r with listen := none }) s)
        | none => s
      sendMsg 3 1 (fun s =>
        let reps := (List.range kept).map (fun i => memReadBytes s (rfSram + off + 66 * i) 66)
        if bay.toNat < 64 then chordAnswer bay.toNat status reps s else sweepAnswer reps s) id s)

/-- MSG_FOB_HELLO (R138, R174, R342). -/
def execMsgFobHello (_wakeCtr : Word) (_fobId : Nat) (s : State) : Host.Outcome State Fault Refusal :=
  .next (sendMsg 3 1 fobHello id s)

/-- T_F of a decrypted RESULT, in 0.25 ns (R193). -/
def resultTf (plain : List Byte) : Nat := ofBe (sliceZ plain 0 4)

/-- The ranges of a RANGE request as its answer carries them (R415). -/
def rangeBody (s : State) (plain : List Byte) : List Byte :=
  (List.range 4).flatMap (fun a => leBytes 2 (vget 0 s.psr.s a) ++ leBytes 1 (vget 0 s.psr.q a) ++ leBytes 1 (vget 0 s.psr.snr a)) ++
    leBytes 4 ((((s.psr.t4mt1 : Int) - resultTf plain) % 2 ^ 32).toNat)

/-- The exchange's end reaches the deck: a fob span's verdict, or a RANGE request's answer (R187, R205, R415). -/
def psrDone (b : Nat) (st : Status) (a : Option AuthJob) (s : State) : State :=
  if (getSpan s b).state = 3 ∧ (getSpan s b).kind = 0 then
    (if st = 0x07 ∨ st = 0x0B ∨ st = 0x0C then spanRefuse b st s else fobVerdict b s)
  else match findJob s (fun k => match k with | .range r _ _ _ => r.bay == b | _ => false) with
    | some ⟨_, .range r _ _ _, _⟩ =>
      answerReq r st 8 (if st = 0 then rangeBody s (a.elim [] (·.plain)) else [])
        (endJobs (fun k => match k.kind with | .range r' _ _ _ => r'.bay == b | _ => false) s)
    | _ => s

/-- MSG_PSR_DONE (R193, R205, R342): an exchange whose RESULT failed its tag has ended with 0x07. -/
def execMsgPsrDone (bay : Bay) (_tag : Byte) (status : Status) (_offset : Word) (s : State) : Host.Outcome State Fault Refusal :=
  .next (let st := match getAuth s bay with
      | some a => if a.res ≠ 0 then a.res else s.psr.last
      | none => s.psr.last
    if canAct s 3 ∧ s.psr.owed ∧ s.psr.busy = false ∧ s.psr.bay = bay ∧ st = status then
      sendMsg 3 1 (fun s => psrDone bay status (getAuth s bay) s) id (modPsr (fun p => { p with owed := false }) s)
    else s)

/-- MSG_CHORD_LISTEN (R135, R173, R342): RF listens in the chord's reply slots. -/
def execMsgChordListen (tag : Byte) (t0 : Nat) (s : State) : Host.Outcome State Fault Refusal :=
  .next (sendMsg 1 3 (modRf (fun r => { r with listen := some (tag.toNat, t0, []) })) id s)

/-- MSG_RANGE (R193, R194, R342): RF starts the exchange with the mask stream in its buffer. -/
def execMsgRange (bay : Bay) (tag primary use : Byte) (s : State) : Host.Outcome State Fault Refusal :=
  .next (sendMsg 1 3 (fun s =>
    if s.psr.busy then s
    else psrStart (setField (setField (regValue s 3 .psrCtrl 0) 2 2 primary.toNat) 4 4 use.toNat + 1)
      (modPsr (fun p => { p with bay := bay, tag := tag.toNat }) s)) (stepFails bay 0x03) s)

/-- A packet received in a chord's windows is kept for the deck (R135, R173). -/
def keepReport (payload : List Byte) (time : Nat) (s : State) : State :=
  modRf (fun r => { r with listen := r.listen.map (fun x =>
    if x.2.1 + 11480 ≤ time ∧ time ≤ x.2.1 + 13100 ∧ leAt payload 0 1 = 0x43 then (x.1, x.2.1, x.2.2 ++ [payload]) else x) }) s

end Sys2Proof.Machine
end

