-- ==== Sys2Proof/Machine/After.lean ====
section
/-! DEFINITION. What follows when something ends: a journal record or a ledger write that becomes durable, a flash
operation, a signer command, a lookup and an answer of the toll gate (R271, R274, R285 to R299, R339, R387, R415).
(DEDUCED, log entry 1.) -/

namespace Sys2Proof.Machine

/-! ## Records become durable (R48, R294, R385, R390, R415) -/

/-- A TIME_SET record and its SIG are durable: the mapping enters the ledger, the request is answered with DEVICE, and
the master broadcasts TIMEMAP (R293, R405, R415). -/
def timeSetDurable (req : Option HostReq) (handle : Option Nat) (utc device : Nat) (st : Status) (s : State) : State :=
  let s := requestChange (.timeSet utc device) s
  let s := match handle with | some h => tollCancelHandle h s | none => s
  match req with
  | some r => sendTimemap utc device (answerReq r st 10 (leBytes 8 device) s)
  | none => s

/-- What the deck does once the record is durable; `st` is the signature's status for a signed one. -/
def runAfter (st : Status) : JAfter → State → State
  | .nothing, s => s
  | .span b id state ev, s => spanDurable b id state ev s
  | .capture b id kind c mst e, s => captureDurable b id kind c mst e s
  | .close b id, s => closeSigned b id (s.store.head - 1) s
  | .timeSet req h utc dev, s => timeSetDurable req h utc dev st s
  | .recovery island cause lost aborted, s =>
    sendEvent 0xA1 0xFF 0x00 (leBytes 1 island ++ [cause, 0, 0] ++ leBytes 4 lost ++ leBytes 1 aborted ++ [0, 0, 0] ++ leBytes 8 s.store.head) s
  | .fault code island unit time detail, s => sendFault code island unit time detail s
  | .lifecycle st claimed, s => requestChange (.lifecycle st claimed) s
  | .tagWrite req h outcome wst, s => answerReq req wst 9 (leBytes 1 outcome) (tollCancelHandle h s)
  | .andEvent act b id state ev, s => sendSpanEvent b id state ev (runAfter st act s)
  | .signed sst act, s => runAfter sst act s

/-- ARCHIVE is requested whenever 32 or more records lie between ARC_SEQ and the head (R296). -/
def askArchive (s : State) : State :=
  if canAct s 1 ∧ s.store.flash = .ready ∧ s.store.ledger.arcSeq + 32 ≤ s.store.head ∧
      s.span.jobs.any (fun j => match j.kind with | .archive => true | _ => false) = false then (deckRequest .archive [14] 0 s).2
  else s

/-- JOURNAL_RECORD_DURABLE (R292): the oldest record is durable, what waited for it follows, and the next is written. -/
def journalDurable (s : State) : State :=
  match s.store.queue with
  | [] => s
  | r :: _ =>
    let t := recordDurable s
    if t.store.head = s.store.head then s
    else askArchive (openRecord (ringOverflow (advanceTail (if r.signed then t else runAfter 0x00 r.after t))))

/-! ## Flash operations (R277 to R280, R288, R296) -/

/-- The chunk's number, VERSION, SEED and ENTRIES (R287). -/
def chunkNo (c : List Byte) : Nat := leAt c 4 2

/-- Whether a signed object's 16-byte SERIAL is this part's or all zero. -/
def serialOk (bs : List Byte) : Bool := bs == serialBytes || bs == List.replicate 16 0

/-- A signature of 96 bytes under a signer slot's key over bytes (R258, R270). -/
def slotVerify (s : State) (j : Nat) (bytes sig : List Byte) : Status :=
  if canAct s 2 = false then 0x03
  else match getKey s j with
    | none => 0x92
    | some k => if verifyWith k (curveHash k.p384 bytes) (sig.take (2 * k.curve.size)) then 0x00 else 0x06

/-- A chunk's checks in the order of R288; `none` goes on to stage 2. -/
def chunkStatus (s : State) (c : List Byte) : Option Status :=
  let sig := slotVerify s 3 (sliceZ c 0 80) (sliceZ c 80 96)
  let body := sliceZ c 176 16384
  let ver := leAt c 8 8
  if isRun s 4 = false then some 0x03
  else if sig ≠ 0 then some sig
  else if sliceZ c 0 4 ≠ [0x51, 0x43, 0x48, 0x31] ∨ 1040 ≤ chunkNo c ∨ leAt c 6 2 ≠ 1040 ∨ serialOk (sliceZ c 56 16) = false ∨
      sliceZ c 72 8 ≠ List.replicate 8 0 ∨ sha256 body ≠ sliceZ c 24 32 then some 0xA8
  else if ver ≤ s.store.ledger.credVersion then some 0xAA
  else if flashReadStatus s ≠ 0 then some (flashReadStatus s)
  else match s.store.update with
    | none => none
    | some u =>
      if u.version ≠ ver then none
      else if leAt c 16 4 ≠ u.seed then some 0xA8
      else if s.store.erasing then some 0xA7
      else if u.failed then some 0xA5
      else if bitOf u.written (chunkNo c) then some 0x00
      else none

/-- A chunk past its checks: a new VERSION starts the erase and is refused with 0xA7; else its program starts (R288). -/
def chunkStart (r : HostReq) (c : List Byte) (s : State) : State :=
  let done : Status → State → State := fun st s => answerReq r st 11 [] (endJobs (fun j => match j.kind with | .dbChunk q _ => q == r | _ => false) s)
  match chunkStatus s c with
  | some st => done st s
  | none =>
    let cur := match s.store.update with | some u => u.version == leAt c 8 8 | none => false
    if cur = false then
      done 0xA7 (modStore (fun t => { t with update := some ⟨leAt c 8 8, leAt c 16 4, leAt c 20 4, 0, false⟩, erasing := true }) s)
    else if s.store.flashOp ≠ none then s
    else modStore (fun t => { t with flashOp := some (.chunk (chunkNo c) (sliceZ c 176 16384) (s.time.us / 1000)) }) s

/-- The chunk jobs that the gate has admitted and that have not been programmed go on. -/
def flashNext (s : State) : State :=
  match s.store.flashOp, findJob s (fun k => match k with | .dbChunk _ _ => true | _ => false) with
  | none, some ⟨_, .dbChunk r c, _⟩ => chunkStart r c s
  | _, _ => s

/-- CRED_ERASE_DONE (R288): the inactive area reads as erased. -/
def credEraseDone (s : State) : State :=
  if isRun s 4 ∧ s.freeze.frozen = false ∧ s.store.erasing then
    let a := flashBase + credBase (1 - s.store.ledger.credArea)
    memClear a (a + 0x1040000) (modStore (fun t => { t with erasing := false }) s)
  else s

/-- The job of the chunk under way ends with a status. -/
def chunkDone (c : Nat) (st : Status) (s : State) : State :=
  match findJob s (fun k => match k with | .dbChunk _ b => chunkNo b == c | _ => false) with
  | some ⟨_, .dbChunk r b, _⟩ => answerReq r st 11 [] (endJobs (fun j => j.kind == .dbChunk r b) s)
  | _ => s

/-- Records written to their archive slots; a sector's first record erases the records it held (R296). -/
def archiveWrite : Nat → Nat → State → State
  | _, 0, s => s
  | n, k + 1, s =>
    let arc := archiveSlots s
    let s := if n % 512 = 0 ∧ arc ≤ n then modStore (fun t => { t with arcFloor := max t.arcFloor (n - arc + 512) }) s else s
    archiveWrite (n + 1) k (memWriteBytes (flashBase + 0x2090000 + 128 * (n % arc)) (readRecord s n).1 s)

/-- FLASH_OP_DONE (R277, R279, R280, R288, R296). -/
def flashDone (ok : Bool) (s : State) : State :=
  if isRun s 4 = false ∨ s.freeze.frozen then s
  else match s.store.flashOp with
    | none => s
    | some op =>
      let s := modStore (fun t => { t with flashOp := none, timeouts := 0, flashLast := if ok then 0x00 else 0xA5, flash := if ok then t.flash else .failed }) s
      match op, ok with
      | .chunk c body _, true =>
        let s := match s.store.update, storeKey s with
          | some u, some k =>
            let off := chunkOffset (1 - s.store.ledger.credArea) c
            memWriteBytes (flashBase + off) (chunkCipher k off body) (modStore (fun t => { t with update := some { u with written := u.written ||| 2 ^ c } }) s)
          | _, _ => s
        flashNext (chunkDone c 0x00 s)
      | .chunk c _ _, false =>
        chunkDone c 0xA5 (modStore (fun t => { t with update := t.update.map (fun u => { u with failed := true }) }) s)
      | .archive first n, true => flashNext (requestChange (.arc (first + n - 1)) (archiveWrite first n s))
      | .archive _ _, false => modStore (fun t => { t with archiving := false }) (endJobs (fun j => j.kind == .archive) s)
      | .eraseArea _, _ => s
      | .format, true => flashFormatted s
      | .format, false => s

/-- FLASH_TIMEOUT (R280): three in a row make flash failed. -/
def flashTimedOut (s : State) : State :=
  if isRun s 4 = false ∨ s.freeze.frozen then s
  else match s.store.flashOp with
    | none => s
    | some op =>
      let n := s.store.timeouts + 1
      let s := modStore (fun t => { t with flashOp := none, timeouts := n, flashLast := 0xA4, flash := if 3 ≤ n then .failed else t.flash }) s
      match op with
      | .chunk c _ _ => flashNext (chunkDone c 0xA4 (modStore (fun t => { t with update := t.update.map (fun u => { u with failed := true }) }) s))
      | .archive _ _ => modStore (fun t => { t with archiving := false }) (endJobs (fun j => j.kind == .archive) s)
      | _ => s

/-- Where the next archive move starts and how many records it takes (R296). -/
def archiveRun (s : State) : Nat × Nat :=
  let first := s.store.ledger.arcSeq + 1
  (first, min (s.store.head + 1 - first) (32 - (first + 31) % 32))

/-- Whether a move must wait for the host's acknowledgement of the records its sector still holds (R296). -/
def archiveWaits (s : State) : Bool :=
  let r := archiveRun s
  (List.range r.2).any (fun i =>
    let n := r.1 + i
    n % 512 == 0 && decide (archiveSlots s ≤ n) && decide (s.store.ledger.ackSeq < n - archiveSlots s + 511))

/-- ARCHIVE_MOVE (R296). -/
def archiveMove (s : State) : State :=
  if isRun s 4 ∧ s.freeze.frozen = false ∧ s.store.ready ∧ s.store.flash = .ready ∧ s.store.flashOp = none ∧ s.store.archiving = false ∧
      s.store.ledger.arcSeq < s.store.head ∧ s.store.ledger.tailSeq ≤ s.store.ledger.arcSeq ∧ archiveWaits s = false then
    modStore (fun t => { t with archiving := true, flashOp := some (.archive (archiveRun s).1 (archiveRun s).2) }) s
  else s

/-! ## Ledger writes end (R226, R271, R274, R289, R296 to R298, R339) -/

/-- A job that waits for its ledger write is answered. (DEDUCED, log entry 41.) -/
def ledgerAnswer (f : JobKind → Option HostReq) (st : Status) (s : State) : State :=
  let js := s.span.jobs.filter (fun j => (f j.kind).isSome && j.tag == 17)
  js.foldl (fun s j => answerIf (f j.kind) st 15 s) (endJobs (fun j => (f j.kind).isSome && j.tag == 17) s)

/-- The request of a policy, a credential commit or an image commit. -/
def policyReq : JobKind → Option HostReq
  | .policy r _ => some r
  | _ => none
/-- The request of a credential commit. -/
def dbReq : JobKind → Option HostReq
  | .dbCommit r => some r
  | _ => none
/-- The request of an image commit. -/
def imageReq : JobKind → Option HostReq
  | .imageVerify r => some r
  | _ => none

/-- A change is durable. -/
def changeDurable (c : LedgerChange) (s : State) : State :=
  match c with
  | .hwm e v => reservationDurable e v s
  | .policy set ver dig =>
    ledgerAnswer policyReq 0x00 (submitRecord (deviceRecord 0x0E false s (leBytes 8 ver ++ leBytes 1 set ++ List.replicate 7 0 ++ padTo 32 dig)) s)
  | .cred area ver seed n =>
    let s := modStore (fun t => { t with cache := [], update := none }) s
    ledgerAnswer dbReq 0x00 (submitRecord (deviceRecord 0x0F false s (leBytes 8 ver ++ leBytes 1 area ++ [0, 0, 0] ++ leBytes 4 seed ++ leBytes 4 n)) s)
  | .imageBank _ => ledgerAnswer imageReq 0x00 s
  | .arc _ => modStore (fun t => { t with archiving := false }) (endJobs (fun j => j.kind == .archive) s)
  | .dropTail first last ch => appendGap 1 first last ch s
  | _ => s

/-- A change failed with 0xA2, or with 0x11 when STORE left RUN (R274, R383). -/
def changeFailed (st : Status) (c : LedgerChange) (s : State) : State :=
  match c with
  | .hwm e _ => reservationFailed e s
  | .policy _ _ _ => ledgerAnswer policyReq st s
  | .cred _ _ _ _ => ledgerAnswer dbReq st s
  | .imageBank _ => ledgerAnswer imageReq st s
  | .arc _ => modStore (fun t => { t with archiving := false }) (endJobs (fun j => j.kind == .archive) s)
  | _ => s

/-- LEDGER_WRITE_DONE (R274): the first read-back, or the one after the repeated write, decides. -/
def ledgerDone (first second : Bool) (s : State) : State :=
  match s.store.write with
  | none => s
  | some w =>
    if isRun s 4 = false ∨ s.freeze.frozen then s
    else
      let good := first || second
      let s := ledgerWriteEnd w good s
      let s := w.changes.foldl (fun s c => if good then changeDurable c s else changeFailed 0xA2 c s) s
      askArchive (openRecord (ringOverflow (advanceTail s)))

/-! ## Signer commands end (R294, R339, R342, R415) -/

/-- The SIG record of the head record (R291, R294). -/
def sigAppend (j : SignJob) (s : State) : State :=
  match s.store.sigOwed with
  | none => s
  | some act =>
    if s.store.queue.any (fun r => r.typ == 0x05) then s
    else match getKey s 0 with
    | some k =>
      if j.fail ≠ 0 then submitRecord (sigRecord s (b2n k.p384) j.fail [] act) s
      else
        let d := if k.p384 then sha384 s.store.chain else s.store.chain
        submitRecord (sigRecord s (b2n k.p384) 0x00 (signWith k d (j.nonce.getD [])) act) s
    | none => submitRecord (sigRecord s 0 0x92 [] act) s

/-- A host's attestation is answered (R260, R415). -/
def attestAnswer (j : SignJob) (r : HostReq) (nonce : List Byte) (s : State) : State :=
  match getKey s 1 with
  | some k =>
    if j.fail ≠ 0 then answerReq r j.fail 0xFF [] s
    else answerReq r 0x00 0xFF (attestation s nonce ++ signWith k (sha256 (attestation s nonce)) (j.nonce.getD [])) s
  | none => answerReq r 0x92 0xFF [] s

/-- A waiting attestation takes the free signer. -/
def attestNext (s : State) : State :=
  match s.signer.job, s.span.jobs.find? (fun j => j.tag == 18) with
  | none, some ⟨_, .attest r n, _⟩ =>
    if canAct s 2 then signerStart ⟨4, 1, 0, none, 0, .attest r n⟩ (modSpan (fun p => { p with jobs := p.jobs.filter (fun j => j.kind != .attest r n) }) s) else s
  | _, _ => s

/-- SIGN_COMMAND_END (R255, R256): of SIGN_CMD's command, or of the keystone program's own. -/
def signCommandEnd (s : State) : State :=
  match s.signer.job with
  | none => s
  | some j =>
    if canAct s 2 = false ∨ signNeeds s j then s
    else match j.use with
      | .command => attestNext (signerCommandEnd j s)
      | .sig _ _ => attestNext (sigAppend j (countEvent 2 0x045 1 (modSigner (fun g => { g with job := none }) s)))
      | .attest r n => attestNext (attestAnswer j r n (countEvent 2 0x045 1 (modSigner (fun g => { g with job := none }) s)))

/-! ## Lookups (R48, R283, R285) -/

/-- LOOKUP: STORE starts a lookup on the areas active now. -/
def lookupStart (ident : List Byte) (s : State) : State :=
  if isRun s 4 ∧ s.freeze.frozen = false then
    countEvent 4 0x043 1 (modStore (fun t => { t with lookups := t.lookups ++ [newLookup s ident] }) s)
  else s

/-- LOOKUP_ANSWER: the lookup of bay b's span is answered; without STORE it fails (R48). (DEDUCED, log entry 42.) -/
def lookupAnswer (b : Nat) (s : State) : State :=
  let p := getSpan s b
  if canAct s 1 = false ∨ p.state ≠ 4 then s
  else match s.store.lookups.find? (fun l => l.ident == padTo 16 p.ident) with
    | some l =>
      if isRun s 4 = false ∨ s.freeze.frozen then s
      else
        let r := lookupEntry s l
        let hits := ((lookupTags l).filter (fun t => s.store.cache.contains t)).length
        let s := modStore (fun t => { t with lookups := t.lookups.erase l, cache := if r.1 = 0 ∨ r.1 = 0x24 then cacheUse l t.cache else t.cache }) s
        let busy := s.store.flashOp.isSome || s.store.erasing
        lookupApplied b r.1 r.2 (countEvent 4 0x045 (b2n (busy && decide (hits < 2))) (countEvent 4 0x044 hits s))
    | none => if isRun s 4 then s else lookupApplied b 0x10 [] s

/-! ## Images and policy sets as the deck checks them (R271, R335, R336, R339) -/

/-- The checks of a policy set (R271). -/
def policyStatus (s : State) (p : List Byte) : Status :=
  let sig := slotVerify s 3 (sliceZ p 0 32 ++ sliceZ p 0x80 0xD20) (sliceZ p 0x20 96)
  let curve := match getKey s 3 with | some k => b2n k.p384 | none => 0
  if sig ≠ 0 then sig
  else if sliceZ p 0 4 ≠ [0x51, 0x50, 0x53, 0x31] ∨ leAt p 4 1 ≠ 1 ∨ leAt p 5 1 ≠ curve ∨ leAt p 6 2 ≠ 0 ∨ serialOk (sliceZ p 0x10 16) = false ∨
      sliceZ p 0xDA0 0x3260 ≠ List.replicate 0x3260 0 then 0xAD
  else if leAt p 8 8 ≤ s.store.ledger.policyVersion then 0xAA
  else 0x00

/-- An admitted policy set is checked and staged, and its ledger write asked for (R271). (DEDUCED, log entry 41.) -/
def policyAdmitted (r : HostReq) (set : List Byte) (handle : Nat) (s : State) : State :=
  let p := padTo 16384 set
  let st := if isRun s 4 then policyStatus s p else 0x03
  let s := tollCancelHandle handle s
  if st ≠ 0 then answerReq r st 15 [] s
  else
    let i := 1 - s.store.ledger.policySet
    let curve := match getKey s 3 with | some k => k.p384 | none => false
    let dig := curveHash curve (sliceZ p 0 32 ++ sliceZ p 0x80 0xD20)
    let s := modSpan (fun x => { x with jobs := x.jobs ++ [⟨17, .policy r [], none⟩] }) s
    requestChange (.policy i (leAt p 8 8) (dig.take 32)) (memWriteBytes (0x1C4000 + 0x4000 * i) p s)

/-- An image's segment entry k (R336). -/
def segmentAt (img : List Byte) (k : Nat) : List Byte := sliceZ img (144 + 16 * k) 16

/-- The SRAM size a segment's target offers (R331). -/
def segmentLimit (i : Nat) (code : Bool) : Nat :=
  if i = 1 then 0x100000 else if i = 2 then (if code then 0x18000 else 0) else if i = 3 then 0x8000 else if 6 ≤ i then 65280 else 0

/-- Whether a segment entry's fields are in range (R336). -/
def segmentOk (len : Nat) (e : List Byte) : Bool :=
  let tgt := leAt e 0 2
  let off := leAt e 4 4
  let n := leAt e 8 4
  let x := leAt e 12 4
  let code := leAt e 2 1 == 1
  tgt != 0 && (tgt &&& 0x3FCE) == tgt && decide (leAt e 2 1 < 2) && leAt e 3 1 == 0 && decide (256 ≤ off) && off % 64 == 0 && decide (64 ≤ n) && n % 64 == 0 &&
    decide (off + n ≤ len) && (if code then x % 4 == 0 && decide (x < n) else x % 64 == 0) &&
    (List.range 14).all (fun i => !bitOf tgt i || (if code then decide (n ≤ segmentLimit i true) else decide (x + n ≤ segmentLimit i false)))

/-- The code segment entry of an island, where exactly one targets it. -/
def codeSegment (segs : List (List Byte)) (i : Nat) : Option (List Byte) :=
  match segs.filter (fun e => leAt e 2 1 == 1 && bitOf (leAt e 0 2) i) with
  | [e] => some e
  | _ => none

/-- Two segments' bank ranges do not overlap. -/
def segmentsApart : List (List Byte) → Bool
  | [] => true
  | e :: es => es.all (fun f => decide (leAt e 4 4 + leAt e 8 4 ≤ leAt f 4 4) || decide (leAt f 4 4 + leAt f 8 4 ≤ leAt e 4 4)) && segmentsApart es

/-- An image's segments. -/
def imageSegments (img : List Byte) : List (List Byte) := (List.range (leAt img 6 1)).map (segmentAt img)

/-- Everything R335 and R336 ask of an image's header but SIG. -/
def headerOk (img : List Byte) : Bool :=
  let n := leAt img 6 1
  let len := leAt img 16 4
  let segs := imageSegments img
  sliceZ img 0 4 == [0x51, 0x49, 0x4D, 0x31] && leAt img 4 2 == 1 && decide (4 ≤ n) && decide (n ≤ 7) && leAt img 7 1 == 0 && decide (256 ≤ len) &&
    decide (len ≤ 655360) && len % 64 == 0 && sliceZ img 20 12 == List.replicate 12 0 && serialOk (sliceZ img 32 16) && sliceZ img 112 32 == List.replicate 32 0 &&
    ((List.range 7).drop n).all (fun k => segmentAt img k == List.replicate 16 0) && segs.all (segmentOk len) && segmentsApart segs &&
    [1, 2, 3, 6, 7, 8, 9, 10, 11, 12, 13].all (fun i => (codeSegment segs i).isSome) &&
    segs.all (fun e => leAt e 2 1 == 1 || (List.range 14).all (fun i => !bitOf (leAt e 0 2) i ||
      (match codeSegment segs i with | some c => decide (leAt c 8 4 ≤ leAt e 12 4) | none => false)))

/-- The header and segment table of a bank. -/
def imageHeader (s : State) (bank : Nat) : List Byte := memReadBytes s (imageBase bank) 256

/-- SIG of a bank's image under slot 2 over a digest (R337). -/
def imageSigOk (s : State) (bank : Nat) (digest : List Byte) : Bool := verifyWith quiporSlot digest (sliceZ (imageHeader s bank) 48 64)

/-- An image commit whose hash has ended asks for class VERIFY, or ends at the hash (R339). -/
def imageHashed (s : State) : State :=
  match s.span.jobs.find? (fun j => j.tag == 16) with
  | some ⟨_, .imageVerify r, _⟩ =>
    let s := modSpan (fun x => { x with jobs := x.jobs.filter (fun j => j.tag != 16) }) s
    if s.store.imgStatus ≠ 0 then answerReq r s.store.imgStatus 15 [] s
    else
      let q := deckRequest (.imageVerify r) [15] 0 s
      if q.1 = 0 then q.2 else answerReq r q.1 15 [] q.2
  | _ => s

/-- An admitted image verification (R339): the header, SIG with slot 2, VERSION, and then the ledger write.
(DEDUCED, log entry 41.) -/
def imageAdmitted (r : HostReq) (handle : Nat) (s : State) : State :=
  let b := inactiveBank s
  let img := imageHeader s b
  let st : Status := if canAct s 2 = false ∨ isRun s 4 = false then 0x03
    else if headerOk img = false ∨ imageSigOk s b s.store.imgDigest = false then 0x06
    else if leAt img 8 8 ≤ s.boot.imageVersion then 0xAA else 0x00
  let s := tollCancelHandle handle s
  if st ≠ 0 then answerReq r st 15 [] s
  else requestChange (.imageBank b) (modSpan (fun x => { x with jobs := x.jobs ++ [⟨17, .imageVerify r, none⟩] }) s)

/-! ## Answers of the toll gate (R82, R84, R89, R90) -/

/-- A TIME_SET record (R293). -/
def timeSetRecord (s : State) (req : Option HostReq) (handle utc device : Nat) : JRecord :=
  let l := s.store.ledger
  { deviceRecord 0x07 true s (leBytes 1 (if req.isSome then 0 else 1) ++ [0, 0, 0] ++ leBytes 4 l.bootCount ++ leBytes 8 utc ++ leBytes 8 device ++
      leBytes 8 l.tsUtc ++ leBytes 8 l.tsDevice) with after := .timeSet req (some handle) utc device }

/-- A job goes on under its handle. -/
def keepJob (j : Job) (handle : Nat) (s : State) : State := modSpan (fun p => { p with jobs := p.jobs ++ [{ j with handle := some handle }] }) s

/-- A bearing renewal is answered (R84, R90, R387). -/
def renewAnswer (b : Nat) (a : TollAnswer) (s : State) : State :=
  let p := getSpan s b
  if a.status = 0 then
    if p.live then
      let s := match p.handle with | some h => if h = a.handle then s else tollCancelHandle h s | none => s
      closeIfReady b (modBay b (fun p => { p with handle := some a.handle }) s)
    else tollCancelHandle a.handle s
  else if p.live ∧ p.handle = none then spanAbort b 0x11 s
  else s

/-- A job the gate has refused. -/
def jobRefused (k : JobKind) (st : Status) (s : State) : State :=
  match k with
  | .entry b => if b < 64 then spanRefuse b st s else s
  | .chordSweep _ => modSpan (fun p => { p with sweep := none }) s
  | .timeSet r _ _ => answerIf r st 10 s
  | .dbChunk r _ => answerReq r st 11 [] s
  | .policy r _ => answerReq r st 15 [] s
  | .imageVerify r => answerReq r st 15 [] s
  | .range r _ _ _ => answerReq r st 8 [] s
  | .tagWrite r _ _ _ => answerReq r st 9 [] s
  | .tune r => answerReq r st 13 [] s
  | .lookup r => answerIf r st 7 s
  | _ => s

/-- A job the gate has admitted. -/
def jobAdmitted (j : Job) (a : TollAnswer) (s : State) : State :=
  match j.kind with
  | .entry b => if b < 64 then spanAdmittedPlan b a s else tollCancelHandle a.handle s
  | .chordSweep _ => sweepAdmitted (keepJob j a.handle s)
  | .timeSet r utc dev => submitRecord (timeSetRecord s r a.handle utc dev) s
  | .dbChunk r c => chunkStart r c (keepJob j a.handle s)
  | .policy r set => policyAdmitted r set a.handle s
  | .imageVerify r => imageAdmitted r a.handle s
  | .tagWrite r _ data _ => memWriteBytes (sramKey (6 + r.bay / 8) 0xFF00) (padTo 32 data) (keepJob j a.handle s)
  | .park => s
  | _ => keepJob j a.handle s

/-- The deck takes an answer it has read from TOLL_ANS (R89). -/
def tollTaken (a : TollAnswer) (s : State) : State :=
  match s.span.jobs.find? (fun j => j.tag == a.tag && j.handle.isNone) with
  | none => s
  | some j =>
    let s := modSpan (fun p => { p with jobs := p.jobs.erase j }) s
    match j.kind with
    | .renew b => if b < 64 then renewAnswer b a s else if a.status = 0 then tollCancelHandle a.handle s else s
    | k => if a.status = 0 then jobAdmitted j a s else jobRefused k a.status s

/-- A job whose handle has missed its deadline is still answered, with 0x05 (R93). (DEDUCED, log entry 32.) -/
def missAnswer (handle : Nat) (s : State) : State :=
  match s.span.jobs.find? (fun j => j.handle == some handle) with
  | some j => jobRefused j.kind 0x05 (endJobs (fun k => k.handle == some handle) s)
  | none => s

end Sys2Proof.Machine
end

