-- ==== Sys2Proof/Machine/Islands.lean ====
section
/-! DEFINITION. Islands entering and leaving RUN, warm restarts and the rebuild after one of the deck, the reference and
its failures, and freeze (R9, R23, R27, R35, R36, R218, R332, R333, R357 to R362, R370 to R374, R381 to R390, R440,
R441). -/

namespace Sys2Proof.Machine

/-! ## What the power controller asks (R96, R352, R355, R357) -/

/-- Island i's query. -/
def getQuery (s : State) (i : Nat) : Query := vget ⟨0, 0, 0, .idle⟩ s.power.query i

/-- A query's phase replaced. -/
def setQueryPhase (i : Nat) (ph : QPhase) (s : State) : State :=
  modPower (fun p => { p with query := vset p.query i { getQuery s i with phase := ph } }) s

/-- The toll floor in force of an island. -/
def floorInForce (s : State) (i : Nat) : Nat := tollFloor s i

/-- A placed reservation or a bearing uses the island (R96). -/
def islandInUse (s : State) (i : Nat) : Bool := islandResUsed s i

/-- DECK.TOLL_CTRL.PARKING. -/
def parkingHolds (s : State) : Bool := s.toll.parking.isSome

/-- An MRAM write, a ledger write or a flash operation is pending (R355). -/
def storeBusy (s : State) : Bool :=
  s.store.opened || s.store.write.isSome || !s.store.changes.isEmpty || s.store.flashOp.isSome || s.store.erasing

/-- A transmit queue is not empty, or a frame is being received (R355). -/
def linkBusy (s : State) : Bool :=
  !s.link.queued.isEmpty || !s.link.reasm.isEmpty || s.link.mRead.isSome || s.link.dPoll.isSome || s.link.mdio.isSome

/-- The watchdog's TIMEOUT (R378). -/
def wdogTimeout (s : State) (c : Nat) : Nat := regValue s c .wdog 0 % 2 ^ 24

/-- Whether a range of deck SRAM touches a sealed caisson (R234). -/
def sealedRange (s : State) (off size : Nat) : Bool :=
  (List.range 4).any (fun k => (getCaisson s k).isSealed && decide (off < (caissonSpan s k).1 + (caissonSpan s k).2) &&
    decide ((caissonSpan s k).1 < off + size))

/-- Whether the operator key of slot 3 verifies a signature (R446). -/
def operatorVerifies (s : State) (msg sig : List Byte) : Bool := slotVerify s 3 msg sig == 0

/-- `n` words of the RNG's software port, or the status of the first that fails (R248). -/
def drawPort : Nat → State → Except Status (List Byte) × State
  | 0, s => (.ok [], s)
  | n + 1, s =>
    if canAct s 2 = false then (.error 0x03, s)
    else
      let r := rngDataPop s
      if r.2.1 ≠ 0 then (.error r.2.1, r.2.2)
      else match drawPort n r.2.2 with
        | (.ok bs, s') => (.ok (leBytes 4 r.1 ++ bs), s')
        | (.error st, s') => (.error st, s')

/-! ## Leaving RUN (R36, R101, R159, R218, R253, R254, R332, R486) -/

/-- A message held at a port that closes is answered under R35 (R33, R36). -/
def answerHeld (i : Nat) (s : State) : State :=
  (vget [] s.via.held i).foldl (fun s h => setResp h.src [] 0x03 (countEvent h.src 0x00A 1 (noteOff h.src (islandBase i) true false true s)))
    (modVia (fun v => { v with held := vset v.held i [] }) s)

/-- Bytes of keystone SRAM. -/
def keysSramSize : Nat := 0x20000

/-- The byte length of a core's code region. -/
def codeBytes (s : State) (i : Nat) : Nat := 64 * (getCore s i).code

/-- The changes of the ledger that their requesters ask for again when STORE is back (R383); the marks of the key
counters are reported failed, and STORE's own advances are computed anew. -/
def asksAgain : LedgerChange → Bool
  | .hwm _ _ => false
  | .tail _ _ => false
  | .arc _ => false
  | .archiveEmpty _ _ => false
  | .dropTail _ _ _ => false
  | _ => true

/-- STORE leaves RUN (R231, R383, R486). -/
def storeLeaves (s : State) : State :=
  let all := (match s.store.write with | some w => w.changes | none => []) ++ s.store.changes
  let s := all.foldl (fun s c => if asksAgain c then s else changeFailed 0x11 c s) s
  modStore (fun t => { t with changes := all.filter asksAgain }) (ownerLeaves .store (storeLeave s))

/-- The keystone leaves RUN: slots, RNG, signer and the program's jobs are zeroed, and its SRAM above the code region. -/
def keystoneLeaves (s : State) : State :=
  let s := signerLeave (cipherLeave (rngLeave s))
  memClear (keysSram + codeBytes s 2) (keysSram + keysSramSize) (modSpan (fun p => { p with auth := Vector.replicate 64 none }) s)

/-- What an island's block loses as it leaves RUN. -/
def blockLeaves (i : Nat) (s : State) : State :=
  if i = 1 then tollClear s
  else if i = 2 then keystoneLeaves s
  else if i = 3 then rfLeave s
  else if i = 4 then storeLeaves s
  else if i = 5 then linkLeave s
  else if 6 ≤ i then pierLeave (i - 6) (modLf (fun l => { l with released := vset l.released (i - 6) true }) s)
  else s

/-- An island leaves RUN: STOPPING, its abutment closed (R36). An unlocked monitor locks when the deck leaves RUN
(R446). -/
def leaveRun (i : Nat) (s : State) : State :=
  if pstate s i = .run ∧ i ≠ 0 then
    let s := answerHeld i (setPState i .stopping s)
    let s := if i = 1 then modMon (fun m => { m with unlocked := false }) s else s
    blockLeaves i s
  else s

/-! ## OFF (R9, R332, R333) -/

/-- Whether an address lies in island i's window. -/
def inWindow (i a : Nat) : Bool := decide (islandBase i ≤ a) && decide (a < islandBase i + 0x1000000)

/-- A register's state that abutments keep through a loss of power: caisson bases and lengths (R381). -/
def abutmentKeeps (a : Nat) : Bool := decide (regAddr 2 .caissonBase 0 ≤ a) && decide (a < regAddr 2 .caissonBase 0 + 64)

/-- The island's registers at their reset values (R9). -/
def clearRegs (i : Nat) (s : State) : State :=
  let f : Nat × Nat → Bool := fun e => !inWindow i e.1 || abutmentKeeps e.1
  let g : Nat × Nat → Bool := fun e => !inWindow i (e.1 % 2 ^ 32)
  { s with cfg := s.cfg.filter f, latched := s.latched.filter f, shadow := s.shadow.filter g, wshadow := s.wshadow.filter g }

/-- A core whose island is off keeps HOLD, LOCK, CODE and ENTRY (R333). (DESIGN CHOICE, log entry 4.) -/
def Core.off (k : Core) : Core := { Core.reset with hold := k.hold, lock := k.lock, code := k.code, entry := k.entry }

/-- The switch opens: OFF, with every register of the island to come back at its reset value. -/
def powerOff (i : Nat) (s : State) : State :=
  if i = 0 then s
  else
    let s := clearRegs i (setPState i .off s)
    let s := modVia (fun v => { v with inbox := vset v.inbox i [], txns := vset v.txns i [], werr := vset v.werr i false, werrAddr := vset v.werrAddr i 0 }) s
    let s := modCore i Core.off (modPerf i (fun _ => PerfState.reset) s)
    if i = 1 then
      modSpan (fun p => { p with drops := 0, merged := 0 }) (modDump (fun _ => DumpState.reset) s)
    else s

/-! ## Entering RUN (R28, R226, R249, R254, R333, R451, R486) -/

/-- The boot ROM's address (R331). -/
def romBase : Nat := 0x42900000

/-- A core starts afresh at an address, with registers as in R302 and R303. -/
def Core.startAt (k : Core) (a : Word) : Core := { k.off with hold := k.hold, halted := false, pc := a }

/-- A core as its island enters RUN: held, or started at ENTRY. The keystone core starts in the boot ROM, which jumps to
ENTRY when it finds LOCK set (R333). -/
def coreEnters (i : Nat) (s : State) : State :=
  if hasCore i = false then s
  else if i = 2 then modCore 2 (fun k => { k with hold := false }.startAt (if k.lock then k.entry else BitVec.ofNat 32 romBase)) s
  else modCore i (fun k => if k.hold then k else k.startAt k.entry) s

/-- The blob of key slot i loads its slot, as UNWRAP does (R218 to R220, R269). -/
def loadBlob (i : Nat) (s : State) : State :=
  let b := memReadBytes s (0x1CC000 + 128 * i) 128
  let p := leAt b 4 4
  let kl := policyLen p
  let iv := sliceZ b 12 12
  let ct := sliceZ b 24 kl
  if sliceZ b 0 4 = [0x4B, 0x42, 0x4C, 0x31] ∧ policyValid p ∧ gcmTag kekBytes iv (b.take 24) ct = sliceZ b (24 + kl) 16 then
    modSlot (bitsOf p 16 7) (fun k => unwrappedSlot k p (leAt b 8 4) (gcmCrypt kekBytes iv ct)) s
  else s

/-- The signer's slots and the key slots are loaded once the keystone and STORE run (R218, R254), and the high-water
marks delivered (R226). At a cold boot this waits for step 6 of R451. -/
def keystoneLoads (s : State) : State :=
  if isRun s 2 ∧ isRun s 4 ∧ s.store.taken ∧ getKey s 2 = none then
    deliverHwm ((List.range 96).foldl (fun s i => loadBlob i s) (loadSigner s))
  else deliverHwm s

/-- Whether the boot ROM is past step 5 of R451. -/
def bootPast (s : State) : Bool := s.boot.stage != .rom && s.boot.stage != .loader

/-- The deck's firmware starts again over kept code, after PARK: the toll gate and the span service are enabled as at a
boot (R360, R451). -/
def deckWakes (s : State) : State :=
  if isRun s 1 ∧ (getCore s 1).lock ∧ s.boot.stage = .ready then putReg (putReg s 1 .tollCtrl 0 1) 1 .spanCtrl 0 (regValue s 1 .spanCtrl 0 ||| 1)
  else s

/-- An island reaches RUN. (DEDUCED, log entry 21.) -/
def enterRun (i : Nat) (s : State) : State :=
  let s := modTime (fun t => { t with copies := vset t.copies i t.us }) (setPState i .run s)
  let s := coreEnters i s
  if i = 1 then deckWakes s
  else if i = 2 then
    let s := rngEnableWrite true s
    if bootPast s then keystoneLoads s else deliverHwm s
  else if i = 4 then
    let s := storeStart s
    if bootPast s then keystoneLoads s else deliverHwm s
  else if i = 5 then drainFrames s
  else if 6 ≤ i then modLf (fun l => { l with released := vset l.released (i - 6) false }) s
  else s

/-! ## The reference (R27, R360, R370, R373) -/

/-- The reference stops: counting goes on under the PARK rule, the elapsed part of the microsecond carried over. -/
def stopReference (refCycles : Nat) (s : State) : State :=
  modTime (fun t => { t with src := if t.xtal32Failed then .rc4M else .crystal, frac := 32 * refCycles }) s

/-- The reference is valid: the first step comes after 48 - floor(48 φ) of its cycles (R27). -/
def startReference (s : State) : State :=
  modTime (fun t => { t with src := .reference, toStep := 48 - t.frac / 32, frac := 0 }) s

/-- The measures of a thermal or clock stop: every burst and armed chord ends with 0x48, pings suspend, and the radio acts
as on OFF (R372). Capacities follow the flags (R98). -/
def stopAir (s : State) : State := radioOff (stopAllPiers 0x48 s)

/-- The 48 MHz crystal has failed: the clock stop begins (R370, R373). -/
def crystalLost (s : State) : State :=
  if s.par.clockStop then s
  else parapetEvent 0xDA 0 0 [] (stopAir (modPar (fun p => { p with clockStop := true }) s))

/-! ## PARK (R357, R360, R362) -/

/-- The answer of the PARK class: the entry has come to an end, and with it the admission (R97, R357). -/
def parkAnswer (_st : Status) (s : State) : State :=
  let s := endJobs (fun j => j.kind == .park) s
  match s.toll.parking with
  | some h => tollCancelHandle h s
  | none => s

/-- The level at which RESUME_LVL starts an island, raised to its floor (R367). -/
def resumeLevel (s : State) (i : Nat) : Nat := min (bitsOf (regValue s 0 .resumeLvl 0) (2 * i) 2) (floorInForce s i)

/-- The exit begins: the islands of RESUME_MASK are STARTING at their levels (R360). -/
def parkWake (s : State) : State :=
  let s := modPark (fun k => { k with phase := .waking }) s
  (allIslands.filter (fun i => i != 0 && bitOf (regValue s 0 .resumeMask 0) i && pstate s i == .off)).foldl
    (fun s i => setPState i .starting (modPower (fun p => { p with level := vset p.level i (resumeLevel s i) }) s)) s

/-- SENSE for a PING wake, naming the confirmed bay, and WAKE_HELLO for a WURX wake (R342, R360). -/
def parkMessages (s : State) : State :=
  let s := match s.park.pingBay with
    | some (b, _) => if bitOf s.park.wakeLast 0 ∧ canAct s 1 then senseArrive 0 b [] none (countEvent 1 0x008 1 s) else s
    | none => s
  let s := if bitOf s.park.wakeLast 1 ∧ canAct s 1 then fobHello (countEvent 1 0x008 1 s) else s
  modPark (fun k => { k with pingBay := none, wurxSite := none }) s

/-! ## Freeze (R101, R439 to R441) -/

/-- What a freeze does outside the clocks it stops: every bridge group opens, the packet on air is lost, and islands no
longer in RUN but for AON's answer under R35 (R101, R363, R440). -/
def freezeOutputs (s : State) : State :=
  modLf (fun l => { l with released := Vector.replicate 8 true }) (modRf (fun r => { r with air := [] })
    ((allIslands.filter (fun i => i != 0)).foldl (fun s i => answerHeld i s) s))

/-- A freeze takes hold: every island clock but AON's stops (R440). -/
def freezeNow (s : State) : State :=
  freezeOutputs { s with freeze := { s.freeze with frozen := true, start := s.time.us } }

/-- A freeze asked for in PARK takes effect as the resumed islands reach RUN (R362). -/
def parkFreeze (s : State) : State :=
  if s.park.freezeAtResume then freezeNow (modPark (fun k => { k with freezeAtResume := false }) s) else s

/-- The time at which bay b's close record was made, while its bearing's work is under way. -/
def closeTime (s : State) (b : Nat) : Option Nat :=
  let here : JAfter → Bool := fun a => match a with | .close x _ => x == b | _ => false
  match s.store.queue.find? (fun r => here r.after) with
  | some r => some r.time
  | none => match s.store.sigOwed with
    | some a => if here a then some (leAt (memReadBytes s (ringSlot s.store.head) 128) 16 8) else none
    | none => none

/-- Whether a deadline passed during a freeze that began at `start`. -/
def passedIn (start now : Nat) (t : Option Nat) : Bool := match t with | some t => decide (start < t) && decide (t ≤ now) | none => false

/-- A reserved frame of a reservation passed during the freeze. -/
def framePassed (start now : Nat) (x : Resv) : Bool := decide (x.first < now / 1000) && decide (start / 1000 < x.first + x.frames)

/-- Bay b's captures whose deadline passed during the freeze. -/
def latePart (s : State) (start b : Nat) : Capture → Bool := fun c =>
  let _ := b
  passedIn start s.time.us (some (c.reqTime + 1000 * clsHalf s 5 2))

/-- Whether bay b's span holds a class or a bearing job whose deadline or reserved frame passed during the freeze. -/
def spanLost (s : State) (start b : Nat) : Bool :=
  let p := getSpan s b
  let now := s.time.us
  p.live && ((decide (2 ≤ p.state) && decide (p.state ≤ 4) && passedIn start now p.authLeft) || (p.state == 5 && passedIn start now p.relLeft) ||
    s.toll.resvs.any (fun x => p.handle == some x.handle && framePassed start now x &&
      ((x.cls == 3 && decide (2 ≤ p.state) && decide (p.state ≤ 4)) || (x.cls != 3 && decide (p.state ≤ 2)))) ||
    p.caps.any (latePart s start b) || passedIn start now ((closeTime s b).map (fun t => t + 1000 * clsHalf s 6 2)))

/-- Bay b's late captures are journalled without energy, with 0x16. -/
def lateCaptures (start b : Nat) (s : State) : State :=
  let cs := (getSpan s b).caps.filter (latePart s start b)
  let s := cs.foldl (fun s c => submitRecord (captureRecord s b c 0x16 0xFF noEnergy []) s) s
  modBay b (fun p => { p with caps := p.caps.filter (fun c => !latePart s start b c) }) s

/-- The deck after a freeze that began at `start` (R441): the FREEZE record, what was lost, and the present frame. -/
def deckThaws (start : Nat) (s : State) : State :=
  let lost := (List.range 64).filter (spanLost s start)
  let hs := (s.toll.resvs.filter (framePassed start s.time.us)).map (·.handle)
  let s := submitRecord (deviceRecord 0x09 false s (leBytes 8 start ++ leBytes 8 s.time.us ++ leBytes 1 lost.length)) s
  let js := s.span.jobs.filter (fun j => match j.handle, j.kind with
    | some h, .entry _ => hs.contains h && false
    | some h, _ => hs.contains h
    | none, _ => false)
  let s := js.foldl (fun s j => jobRefused j.kind 0x16 (endJobs (fun k => k == j) s)) s
  let s := (List.range 64).foldl (fun s b => lateCaptures start b s) s
  let s := lost.foldl (fun s b => spanAbort b 0x16 s) s
  frameOpen (modToll (fun t => { t with resvs := t.resvs.filter (fun x => decide (s.time.us / 1000 < x.first + x.frames)) }) s)

/-- What follows a freeze that began at `start`: the viaduct's watchdogs take up their counts, the bridges are driven
again, and the deck takes stock (R377, R440, R441). (DEDUCED, log entry 37.) -/
def freezeAftermath (start : Nat) (s : State) : State :=
  let d := s.time.us - start
  let s := modVia (fun v => { v with
    txns := v.txns.map (fun l => l.map (fun t => { t with issued := t.issued + d }))
    held := v.held.map (fun l => l.map (fun h => { h with since := h.since + d })) }) s
  let s := modLf (fun l => { l with released := Vector.ofFn (fun n => !isRun s (6 + n.val)) }) s
  if canAct s 1 then deckThaws start s else s

/-! ## Field buses that fail (R374) -/

/-- The message on the meter bus ends with 0x05, and every capture whose latch has left with it. -/
def meterBusFault (s : State) : State :=
  let s := modLink (fun l => { l with mRead := none }) s
  if canAct s 1 then endCaptures 0x05 s else s

/-- The message on the dispenser bus ends, and every span in AUTHENTICATED is refused with 0x05. -/
def dispBusFault (s : State) : State :=
  let s := modLink (fun l => { l with dPoll := none }) s
  if canAct s 1 then (List.range 64).foldl (fun s b => if (getSpan s b).state = 5 then spanRefuse b 0x05 s else s) s else s

/-! ## Warm restarts (R381 to R383, R387 to R390) -/

/-- The spans that a restart of island i ends ABORTED (R383). -/
def restartAborts (s : State) (i : Nat) : List Nat :=
  (List.range 64).filter (fun b =>
    let st := (getSpan s b).state
    if i = 2 then decide (3 ≤ st) && decide (st ≤ 5)
    else if i = 3 then awaitsChord s b || st == 3
    else if i = 4 then st == 4
    else false)

/-- The RECOVERY record and, once it is durable, the RECOVERY frame (R390). -/
def recoveryRecord (island : Nat) (cause : Status) (lost aborted : Nat) (s : State) : State :=
  submitRecord { deviceRecord 0x0A false s (leBytes 1 island ++ [cause, 0, 0] ++ leBytes 4 lost ++ leBytes 1 aborted) with
    after := .recovery island cause lost aborted } s

/-- Deck jobs that a test picks are answered with 0x11. -/
def jobsLost (f : JobKind → Bool) (s : State) : State :=
  let js := s.span.jobs.filter (fun j => j.handle.isSome && f j.kind)
  js.foldl (fun s j => jobRefused j.kind 0x11 s) (endJobs (fun j => j.handle.isSome && f j.kind) s)

/-- The tag exchange or sweep of a pier that restarts is answered with 0x11; a KT write takes the outcome of R153. -/
def pierWorkLost (n : Nat) (s : State) : State :=
  let s := (List.range 64).foldl (fun s b => chordAbsent b n 0x11 s) s
  let s := match (getPier s n).job with
    | some j =>
      if j.phase = .done then s
      else if j.write then writeResult { j with outcome := writeOutcome s n j, status := 0x11, phase := .done } s
      else tagResult j.bay { j.ended 0x11 with found := [] } s
    | none => s
  match (getPier s n).burst with
  | some b => if b.mode = 2 then tuneResult (bayOf n b.aerial) 0x11 s else s
  | none => s

/-- A host's ATTEST with the keystone is answered with 0x11. -/
def attestLost (s : State) : State :=
  let s := match s.signer.job with
    | some ⟨_, _, _, _, _, .attest r _⟩ => answerReq r 0x11 0xFF [] s
    | _ => s
  let f : Job → Bool := fun j => match j.kind with | .attest _ _ => true | _ => false
  (s.span.jobs.filter f).foldl (fun s j => match j.kind with | .attest r _ => answerReq r 0x11 0xFF [] s | _ => s)
    (modSpan (fun p => { p with jobs := p.jobs.filter (fun j => !f j) }) s)

/-- The deck as a warm restart of it leaves its program: spans, queue, jobs and requests are lost; a record already open
in the ring is still written (R98, R383, R387). -/
def deckLost (s : State) : State :=
  let s := modSpan (fun p => { SpanState.reset with lastId := max p.lastId s.store.ledger.spanHwm }) s
  let s := modStore (fun t => { t with
    queue := if t.opened then (t.queue.take 1).map (fun r => { r with after := .nothing }) else []
    sigOwed := t.sigOwed.map (fun _ => .nothing), lookups := [] }) s
  modLink (fun l => { l with waiting := [] }) s

/-- The work in progress that a warm restart of island i ends, with its RECOVERY record first (R383, R390). The deck's own
follows its reload. (DEDUCED, log entry 23.) -/
def restartLoses (i : Nat) (cause : Status) (s : State) : State :=
  if i = 1 then deckLost s
  else if canAct s 1 = false then (if i = 5 then linkRestartFrames s else s)
  else
    let bays := restartAborts s i
    let s := recoveryRecord i cause (if i = 5 then s.link.queued.length else 0) bays.length s
    let s := bays.foldl (fun s b => spanAbort b 0x11 s) s
    if i = 2 then attestLost (jobsLost (fun k => match k with | .range _ _ _ _ => true | _ => false) s)
    else if i = 3 then
      jobsLost (fun k => match k with | .range _ _ _ _ => true | .chordSweep _ => true | _ => false) s
    else if i = 4 then jobsLost (fun k => match k with | .dbChunk _ _ => true | .archive => true | .lookup _ => true | _ => false) s
    else if i = 5 then
      let s := endCaptures 0x11 s
      let s := (List.range 64).foldl (fun s b => if (getSpan s b).state = 5 then spanRefuse b 0x11 s else s) s
      linkRestartFrames s
    else pierWorkLost (i - 6) s

/-- A restarted island's core is held and unlocked, and its SRAM is lost (R332, R333, R381). -/
def restartClears (i : Nat) (s : State) : State :=
  let s := setCore i Core.reset s
  if i = 2 then memClear keysSram (keysSram + keysSramSize) s
  else if sramSize i = 0 then s
  else memClear (sramKey i 0) (sramKey i 0 + sramSize i) s

/-! ## The deck's rebuild (R387, R388) -/

/-- The latest SPAN record of a site bay among SEQ n, n - 1, … down to the ring's tail. -/
def latestSpan (s : State) (sb : Nat) : Nat → Nat → Option Nat
  | 0, _ => none
  | k + 1, n =>
    if n ≤ s.store.ledger.tailSeq then none
    else
      let b := memReadBytes s (ringSlot n) 128
      if leAt b 8 1 = 3 ∧ leAt b 10 2 = sb then some n else latestSpan s sb k (n - 1)

/-- The SEQ of the record that tells bay b's state: the later of its anchor's and the ring's (R387). -/
def bayRecord (s : State) (b : Nat) : Nat :=
  max (leAt (memReadBytes s (0x1D0400 + 32 * b) 32) 8 8) ((latestSpan s (siteBay s b) 4096 s.store.head).getD 0)

/-- A DISPENSER record of the ring that names a bay's token with ACCEPT or REJECT. -/
def dispenserNames (s : State) (sb counter : Nat) : Nat → Nat → Bool
  | 0, _ => false
  | k + 1, n =>
    if n ≤ s.store.ledger.tailSeq then false
    else
      let r := memReadBytes s (ringSlot n) 128
      (leAt r 8 1 == 0x0B && leAt r 10 2 == sb && decide (leAt r 24 1 ≤ 1) && leAt r 28 8 == counter) || dispenserNames s sb counter k (n - 1)

/-- What the journal and the anchor tell of a bay: SPAN_ID, STATE, COUNTER and NOT_AFTER of its last token, REL_SEQ. -/
structure BayTrace where
  id       : Nat
  state    : Nat
  counter  : Nat
  notAfter : Nat
  relSeq   : Nat
  seq      : Nat
  rec_     : List Byte
  readable : Bool
deriving DecidableEq, Repr

/-- Bay b's trace. -/
def bayTrace (s : State) (b : Nat) : BayTrace :=
  let a := memReadBytes s (0x1D0400 + 32 * b) 32
  let n := bayRecord s b
  let r := readRecord s n
  let ok := r.2 == 0 && n != 0
  let fromRing := ok && decide (leAt a 8 8 < n)
  { id := if ok then leAt r.1 12 4 else leAt a 0 4, state := if fromRing then leAt r.1 25 1 else leAt a 4 1
    counter := if ok then leAt r.1 44 8 else 0, notAfter := max (if ok then leAt r.1 52 8 else 0) (leAt a 24 8)
    relSeq := if fromRing ∧ leAt r.1 25 1 = 6 then n else leAt a 16 8, seq := n, rec_ := r.1, readable := ok }

/-- The COUNTER of the bay's token with a NOT_AFTER: that of the latest SPAN record of the ring that carries it, else the
one given. -/
def tokenCounter (s : State) (sb notAfter other : Nat) : Nat → Nat → Nat
  | 0, _ => other
  | k + 1, n =>
    if n ≤ s.store.ledger.tailSeq then other
    else
      let r := memReadBytes s (ringSlot n) 128
      if leAt r 8 1 = 3 ∧ leAt r 10 2 = sb ∧ leAt r 52 8 = notAfter then leAt r 44 8 else tokenCounter s sb notAfter other k (n - 1)

/-- The bay's last token, unless a DISPENSER record has ended it (R388, R454). -/
def lastToken (s : State) (b : Nat) (t : BayTrace) : Option Token :=
  let c := tokenCounter s (siteBay s b) t.notAfter t.counter 4096 s.store.head
  if t.notAfter ≠ 0 ∧ dispenserNames s (siteBay s b) c 4096 s.store.head = false then some ⟨c, t.notAfter⟩ else none

/-- The captures of a span in the ring above its RELEASED record: how many, and the start and end capture's SEQ and
energy. -/
def traceCaptures (s : State) (id : Nat) : Nat → Nat → Span → Span
  | 0, _, p => p
  | k + 1, n, p =>
    if s.store.head < n then p
    else
      let r := (readRecord s n).1
      let p := if leAt r 8 1 = 4 ∧ leAt r 12 4 = id then
          (let p := { p with captures := p.captures + 1 }
           if leAt r 24 1 = 0 then { p with startSeq := n, eStart := leAt r 36 8 }
           else if leAt r 24 1 = 2 then { p with endSeq := n, eEnd := leAt r 36 8 } else p)
        else p
      traceCaptures s id k (n + 1) p

/-- The first interim instant after `now` of a span released at `rel` (R387). -/
def nextInterimAt (rel interim now : Nat) : Option Nat :=
  if interim = 0 then none else some (rel + 60000000 * interim * ((now - rel) / (60000000 * interim) + 1))

/-- The interim instants of a span that passed while the deck was down, from its last capture on (R387). -/
def missedInterims (rel interim last now : Nat) : List Nat :=
  if interim = 0 then []
  else (List.range 64).filterMap (fun k =>
    let t := rel + 60000000 * interim * ((last - rel) / (60000000 * interim) + 1 + k)
    if t ≤ now then some t else none)

/-- The span that bay b's trace tells, as the deck takes it up again. -/
def tracedSpan (s : State) (b : Nat) (t : BayTrace) : Span :=
  let r := t.rec_
  let rel := leAt (readRecord s t.relSeq).1 16 8
  let pol := bayPolicy s b
  let cls := leAt r 32 1
  let p := { Span.reset with
    state := t.state, id := t.id, status := BitVec.ofNat 8 (leAt r 26 1), source := leAt r 27 1, kind := leAt r 28 1, evidence := leAt r 29 1
    cls := cls, tariff := leAt r 33 1, policy := pol, clsPolicy := classTable s, account := sliceZ r 72 16
    counter := t.counter, notAfter := t.notAfter, relAt := rel, relSeq := t.relSeq }
  let e := sliceZ (classTable s) (16 * cls) 16
  let interim := smallerNonZero (leAt pol 4 2) (leAt e 4 2)
  traceCaptures s t.id 4096 t.relSeq { p with interim := interim, maxDur := smallerNonZero (leAt pol 6 2) (leAt e 6 2) }

end Sys2Proof.Machine
end

