-- ==== Sys2Proof/Machine/Boot.lean ====
section
/-! DEFINITION. AON reset, the boot ROM, lifecycle orders, the loading of islands, and the deck's start: after a boot, and
after a warm restart of the deck (R276, R331 to R338, R387, R388, R449 to R462).
(DEDUCED, log entry 1; DEDUCED, log entry 29.) -/

namespace Sys2Proof.Machine

/-! ## The deck takes its spans up again (R387, R388, R390) -/

/-- The span service opens: the gate and births are enabled, IDs are reserved, and what waited is taken. -/
def spansOpen (s : State) : State :=
  let s := putReg (putReg s 1 .tollCtrl 0 1) 1 .spanCtrl 0 (regValue s 1 .spanCtrl 0 ||| 1)
  deliverHeld (reserveIds (modSpan (fun p => { p with rebuilt := true }) s))

/-- Every bay's trace, with the bays whose span was live. -/
def liveTraces (s : State) : List (Nat × BayTrace) :=
  ((List.range 64).map (fun b => (b, bayTrace s b))).filter (fun x => decide (1 ≤ x.2.state) && decide (x.2.state ≤ 8) && x.2.id != 0)

/-- A live span continues after a deck restart when it was released and its records can be read. -/
def continues (s : State) (t : BayTrace) : Bool := decide (6 ≤ t.state) && t.readable && (readRecord s t.relSeq).2 == 0

/-- The reason of a span found in CLOSING, as its record's STATUS tells it; where that is 0x00 the records do not say which
of STOPPED, host and MAX_DURATION it was: an open value below 3. (DEDUCED, log entry 23.) -/
def closingReason (s : State) (st : Status) : Nat :=
  if st = 0x29 then 3 else if st = 0x2A then 4 else if st = 0x2B then 5 else freeValue s % 3

/-- The latest request time of a span's captures among the records from SEQ n on. -/
def lastCapture (s : State) (id : Nat) : Nat → Nat → Nat → Nat
  | 0, _, m => m
  | k + 1, n, m =>
    if s.store.head < n then m
    else
      let r := (readRecord s n).1
      lastCapture s id k (n + 1) (if leAt r 8 1 = 4 ∧ leAt r 12 4 = id then max m (leAt r 28 8) else m)

/-- A capture whose instant passed while the deck was down (R387). -/
def missedCapture (b kind time : Nat) (s : State) : State := submitRecord (captureRecord s b ⟨kind, time, none, false⟩ 0x11 0xFF noEnergy []) s

/-- A RELEASED span goes on: with its start capture durable it enters METERING, else the capture is asked for. -/
def releasedGoesOn (b : Nat) (s : State) : State :=
  let p := getSpan s b
  if p.startSeq = 0 then askCapture b 0 p.relAt s
  else
    let st := BitVec.ofNat 8 (leAt (readRecord s p.startSeq).1 27 1)
    if st ≠ 0 ∧ bitOf (leAt p.policy 0 1) 5 then spanClosing b 5 0x2B true s else spanMove b 7 (some st) 0 s

/-- A METERING span goes on: the instants missed are journalled, the next is set. -/
def meteringGoesOn (b : Nat) (s : State) : State :=
  let p := getSpan s b
  if p.state = 7 then
    let last := lastCapture s p.id 4096 p.relSeq p.relAt
    let s := modBay b (fun p => { p with nextInterim := nextInterimAt p.relAt p.interim s.time.us }) s
    (missedInterims p.relAt p.interim last s.time.us).foldl (fun s t => missedCapture b 1 t s) s
  else s

/-- A CLOSING span goes on: its closing capture is journalled without a read, unless it stands in the journal or none was
due. -/
def closingGoesOn (b : Nat) (s : State) : State :=
  let p := getSpan s b
  if p.state = 8 then
    (if p.closeReason ≠ 5 ∧ p.endSeq = noEnergy then missedCapture b 2 s.time.us s else s)
  else s

/-- The bearing renewals that the rebuilt spans still want, as long as the gate takes them (R387). -/
def renewNext (s : State) : State :=
  (List.range 64).foldl (fun s b =>
    let p := getSpan s b
    let asked := s.span.jobs.any (fun j => j.kind == .renew b)
    if 6 ≤ p.state ∧ p.state ≤ 8 ∧ p.handle = none ∧ asked = false then
      (let r := deckRequest (.renew b) [5] b s
       if r.1 = 0 ∨ r.1 = 0x01 then r.2 else spanAbort b 0x11 r.2)
    else s) s

/-- A bay's live token, as its trace tells it at this instant. -/
def tokenNow (s : State) (t : BayTrace) (b : Nat) : Option Token :=
  match lastToken s b t with
  | some k => if s.time.us < k.notAfter ∨ continues s t then some k else none
  | none => none

/-- The rebuild after a warm restart of the deck: RECOVERY first, the tokens, the spans that end, and those that go on
(R387, R388, R390). -/
def restartRebuild (s : State) : State :=
  let live := liveTraces s
  let lost := live.filter (fun x => !continues s x.2)
  let kept := live.filter (fun x => continues s x.2)
  let cause := s.par.rstCause
  let s := modSpan (fun p => { p with tokens := Vector.ofFn (fun i => tokenNow s (bayTrace s i.val) i.val) }) s
  let s := recoveryRecord 1 cause 0xFFFFFFFF lost.length s
  let s := lost.foldl (fun s x => spanAbort x.1 0x11 (modBay x.1 (fun _ => tracedSpan s x.1 x.2) s)) s
  let s := kept.foldl (fun s x =>
    let st := BitVec.ofNat 8 (leAt x.2.rec_ 26 1)
    let p := tracedSpan s x.1 x.2
    let s' := if x.2.state = 8 ∧ st ≠ 0x29 ∧ st ≠ 0x2A ∧ st ≠ 0x2B then useFree s else s
    modBay x.1 (fun _ => { p with closeReason := if x.2.state = 8 then closingReason s st else 0, accepted := (getToken s x.1).isNone }) s') s
  let s := renewNext (putReg s 1 .tollCtrl 0 1)
  let s := kept.foldl (fun s x =>
    let s := if (getSpan s x.1).state = 6 then releasedGoesOn x.1 s else s
    closingGoesOn x.1 (meteringGoesOn x.1 s)) s
  spansOpen s

/-! ## The spans of the previous boot (R451, R453, R454) -/

/-- The START record (R293). -/
def startRecord (s : State) : JRecord :=
  deviceRecord 0x02 false s (leBytes 4 s.store.ledger.bootCount ++ leBytes 1 s.boot.bank ++ leBytes 1 s.store.bank ++ [0, 0] ++ padTo 32 s.boot.digest)

/-- Step 8 of R451 once the journal is ready: START, RECOVERY, and every span that was live ends ABORTED; a released one is
stopped at its dispenser. No token is issued too near an old one's NOT_AFTER (R454). -/
def bootSpans (s : State) : State :=
  let live := liveTraces s
  let old := Vector.ofFn (fun i : Fin 64 => match lastToken s i.val (bayTrace s i.val) with | some t => t.notAfter | none => 0)
  let s := submitRecord (startRecord s) s
  let s := modSpan (fun p => { p with oldNotAfter := old, lastId := max p.lastId s.store.ledger.spanHwm }) s
  let s := recoveryRecord 0 0x00 0xFFFFFFFF live.length s
  let s := live.foldl (fun s x => spanAbort x.1 0x11 (modBay x.1 (fun _ => tracedSpan s x.1 x.2) s)) s
  modBoot (fun b => { b with stage := .ready }) (spansOpen s)

/-- The deck core executes. -/
def deckRuns (s : State) : Bool := canAct s 1 && !(getCore s 1).halted && !(getCore s 1).hold

/-- The deck's program starts its span service once it runs and the journal is ready. -/
def deckStarts (s : State) : State :=
  if deckRuns s ∧ s.span.rebuilt = false ∧ isRun s 4 ∧ s.store.ready then
    (if s.boot.stage = .deck then bootSpans s else if s.boot.stage = .ready then restartRebuild s else s)
  else s

/-! ## Images (R335 to R338) -/

/-- A bank holds a valid image. -/
def bankValid (s : State) (bank : Nat) : Bool :=
  headerOk (imageHeader s bank) && imageSigOk s bank (imageDigest s bank)

/-- The bank that the ROM boots, and whether it is the other one; none where neither is valid (R338). -/
def bootBank (s : State) : Option (Nat × Bool) :=
  let b := s.store.ledger.imageBank
  if bankValid s b then some (b, false) else if bankValid s (1 - b) then some (1 - b, true) else none

/-! ## Blobs and keys (R254, R459, R460) -/

/-- The identity blob and the operator key area are zeroed. -/
def zeroIdentity (s : State) : State := memClear (signerArea + 0x100) (signerArea + 0x180) (memClear signerArea (signerArea + 0x80) s)

/-- Every key blob is zeroed. -/
def zeroKeyBlobs (s : State) : State := memClear 0x1CC000 0x1CF000 s

/-- R460: what a boot in a state other than CLAIMED zeroes. -/
def zeroOutside (s : State) : State :=
  if lifecycle s = 2 then s else if lifecycle s = 3 then zeroKeyBlobs (zeroIdentity s) else zeroIdentity s

/-- The keys the ROM uses before step 6: Quipor's, and in CLAIMED the identity and operator keys. -/
def orderKeys (s : State) : State := if lifecycle s = 2 then loadSigner s else setKey 2 (some quiporSlot) s

/-- The blobs are unwrapped and the high-water marks taken (R218, R226, R254). -/
def loadKeys (s : State) : State := deliverHwm ((List.range 96).foldl (fun s i => loadBlob i s) (loadSigner s))

/-! ## Steps 6 and 7 of R451 -/

/-- The ROM boots a bank: its digest and version, the keys, and loading begins. -/
def bootFrom (bank : Nat) (other : Bool) (s : State) : State :=
  loadKeys (modBoot (fun b => { b with
    stage := .load, bank := bank, fallback := other, digest := imageDigest s bank, imageVersion := leAt (imageHeader s bank) 8 8 }) s)

/-- The recovery loader is entered by strap, in FACTORY and DEVELOP only (R467). -/
def strapLoader (s : State) : Bool := s.boot.strapBoot == 1 && decide (lifecycle s ≤ 1)

/-- Steps 5 and 6 of R451. (DEDUCED, log entry 21.) -/
def bootImage (s : State) : State :=
  let s := zeroOutside (modBoot (fun b => { b with wait := .over, claiming := none }) s)
  match bootBank s with
  | some (b, other) =>
    if strapLoader s then modBoot (fun x => { x with stage := .loader }) s
    else
      let s := bootFrom b other s
      if other then parapetEvent 0xDD 0 0 [] (requestChange (.imageBank b) s) else s
  | none => modBoot (fun x => { x with stage := .loader }) s

/-! ## Lifecycle orders (R456 to R461) -/

/-- AON.LC_BUF as 256 bytes. -/
def orderBytes (s : State) : List Byte := (List.range 64).flatMap (fun k => leBytes 4 (regValue s 0 .lcBuf k))

/-- The ROM clears LC_BUF once the order is handled. -/
def clearOrder (s : State) : State := (List.range 64).foldl (fun s k => putReg s 0 .lcBuf k 0) s

/-- The state an order leads to and the slot whose key signs it, 0 for none (R458). -/
def orderRule (from_ op : Nat) : Option (Nat × Nat) :=
  match op, from_ with
  | 4, 0 => some (1, 2)
  | 4, 3 => some (1, 2)
  | 1, 0 => some (0, 0)
  | 1, 1 => some (1, 0)
  | 1, 2 => some (2, 3)
  | 2, 1 => some (2, 2)
  | 2, 3 => some (2, 2)
  | 3, 2 => some (3, 3)
  | _, _ => none

/-- BOOT_COUNT of this boot: the ledger's with step 3 of R451 counted, whose write may still be under way. -/
def bootNumber (s : State) : Nat :=
  let pend := s.store.changes.any (fun c => c == .bootCount) || (match s.store.write with | some w => w.changes.any (fun c => c == .bootCount) | none => false)
  s.store.ledger.bootCount + b2n pend

/-- The checks of R457 in order. -/
def orderStatus (s : State) (o : List Byte) : Status :=
  let zero (off n : Nat) : Bool := sliceZ o off n == List.replicate n 0
  if sliceZ o 0 4 ≠ [0x51, 0x4C, 0x43, 0x31] ∨ leAt o 4 1 = 0 ∨ 4 < leAt o 4 1 ∨ zero 6 2 = false ∨ zero 28 4 = false ∨ zero 129 31 = false then 0x02
  else if sliceZ o 8 16 ≠ serialBytes ∨ zero 8 16 ∨ leAt o 24 4 ≠ bootNumber s then 0x02
  else match orderRule (lifecycle s) (leAt o 4 1) with
    | none => 0x97
    | some (_, 0) => 0x00
    | some (_, slot) => if slotVerify s slot (sliceZ o 0 160) (sliceZ o 160 96) = 0 then 0x00 else 0x06

/-- A LIFECYCLE record, which the ledger follows (R293, R459). -/
def lifecycleRecord (s : State) (target : Nat) (claimed : Bool) : JRecord :=
  { deviceRecord 0x10 true s (leBytes 1 (lifecycle s) ++ leBytes 1 target) with after := .lifecycle target claimed }

/-- The order is handled with a result, and boot goes on. -/
def orderOver (st : Status) (s : State) : State := bootImage (clearOrder (modBoot (fun b => { b with lcLast := st }) s))

/-- An order that passes its checks (R458, R459, R461). -/
def orderTaken (o : List Byte) (s : State) : State :=
  let op := leAt o 4 1
  if op = 1 then orderOver 0x00 (modBoot (fun b => { b with session := some s.time.us }) s)
  else if op = 2 then
    modBoot (fun b => { b with
      session := some s.time.us, wait := .claimKey
      claiming := some (bitOf (leAt o 5 1) 0, bitOf (leAt o 5 1) 1, sliceZ o 32 97) }) s
  else
    let target := if op = 3 then 3 else 1
    submitRecord (lifecycleRecord s target false) (modBoot (fun b => { b with wait := .ledger target }) s)

/-- Step 4 of R451. A buffer of zeros holds no order. (DEDUCED, log entry 21.) -/
def bootOrder (s : State) : State :=
  let o := orderBytes s
  if o.all (fun x => x == 0) then bootImage s
  else
    let st := orderStatus s o
    if st = 0 then orderTaken o s else orderOver st s

/-- The ledger is rebuilt from the ring (R276): blobs are zeroed, bank A is written, and the GAP record is owed.
(DESIGN CHOICE, log entry 24.) -/
def rebuildLedger (s : State) : State :=
  let s := zeroKeyBlobs (zeroIdentity s)
  let l := rebuiltLedger (if bankValid s 0 = false ∧ bankValid s 1 then 1 else 0) s
  let s := modStore (fun t => { t with taken := true, bank := 0, ledger := l, write := some { bank := 0, image := l, changes := [], again := false } }) s
  appendGap 3 l.tailSeq l.tailSeq (List.replicate 32 0) s

/-- Steps 2 and 3 of R451, once STORE and KEYSTONE run: both at P0, the ledger taken or rebuilt, BOOT_COUNT raised.
(DESIGN CHOICE, log entry 5; DEDUCED, log entry 21.) -/
def bootBegin (s : State) : State :=
  let s := modPower (fun p => { p with level := vset (vset p.level 2 0) 4 0 }) s
  let s := if s.store.taken then requestChange .bootCount s else rebuildLedger s
  bootOrder (orderKeys s)

/-- The keys of a CLAIM are made: the operator key is written, and GENESIS and LIFECYCLE are journalled (R459).
(DEDUCED, log entry 21.) -/
def claimRecords (k : SignKey) (s : State) : State :=
  match s.boot.claiming with
  | some (_, op384, opKey) =>
    let s := memWriteBytes (signerArea + 0x100) (padTo 128 (leBytes 1 (b2n op384) ++ opKey)) s
    let g := deviceRecord 0x01 true s (serialBytes ++ leBytes 4 (s.store.ledger.claimCount + 1) ++ leBytes 1 (b2n k.p384) ++ [0, 0, 0] ++ sha256 (padTo 97 (pointBytes k)))
    submitRecord (lifecycleRecord s 2 true) (submitRecord g (modBoot (fun b => { b with wait := .ledger 2 }) s))
  | none => s

/-- A lifecycle change is on its way to the ledger. -/
def lifecyclePending (s : State) : Bool :=
  let isLc : LedgerChange → Bool := fun c => match c with | .lifecycle _ _ => true | _ => false
  let rec_ : JAfter → Bool := fun a => match a with | .lifecycle _ _ => true | .signed _ (.lifecycle _ _) => true | _ => false
  s.store.changes.any isLc || (match s.store.write with | some w => w.changes.any isLc | none => false) ||
    s.store.queue.any (fun r => rec_ r.after) || (match s.store.sigOwed with | some a => rec_ a | none => false)

/-- While the deck does not yet serve, the ROM itself signs the head record that owes its SIG. (DEDUCED, log entry 21.) -/
def bootSign (s : State) : State :=
  if s.store.sigOwed.isSome ∧ s.boot.stage ≠ .ready ∧ s.signer.job = none ∧ canAct s 2 ∧ s.store.queue.any (fun r => r.typ == 0x05) = false then
    (if (getKey s 0).isSome then signerStart ⟨2, 0, 0, none, 0, .sig 0 s.store.head⟩ s
     else sigAppend ⟨2, 0, 0, none, 0, .sig 0 s.store.head⟩ s)
  else s

/-- A RETIRE committed zeroes the identity blob, the operator key and every key blob (R459). -/
def committed (target : Nat) (s : State) : State := if target = 3 then zeroKeyBlobs (zeroIdentity s) else s

/-- The boot ROM goes on as far as it can. -/
def bootStep (s : State) : State :=
  let s := match s.boot.wait with
    | .start => if s.boot.stage = .rom ∧ canAct s 2 ∧ isRun s 4 then bootBegin s else s
    | .claimKey =>
      (match getKey s 0 with
      | some k => if s.signer.job = none then claimRecords k s else s
      | none => if s.signer.job = none ∧ s.signer.done ∧ s.signer.status ≠ 0 then orderOver s.signer.status s else s)
    | .ledger target =>
      if lifecyclePending s then s
      else if lifecycle s = target then orderOver 0x00 (committed target s)
      else orderOver 0xA2 s
    | .over => s
  deckStarts (bootSign s)

/-- The blob of the key that GEN_ID made (R254, R259). -/
def claimBlob (s : State) (j : SignJob) : List Byte :=
  let n := signSize s 5
  signerBlob (n == 48) ((j.nonce.getD []).take n) ((j.nonce.getD []).drop n)

/-- SIGN_COMMAND_END within a boot: a CLAIM's GEN_ID has its blob written to the signer area (R459). -/
def signEnded (s : State) : State :=
  let t := signCommandEnd s
  match s.signer.job with
  | some j =>
    if j.op = 5 ∧ t.signer.job = none ∧ t.signer.status = 0 ∧ s.boot.claiming.isSome ∧ canAct s 2 then
      bootStep (memWriteBytes signerArea (padTo 128 (claimBlob s j)) t)
    else bootStep t
  | none => bootStep t

/-! ## Loading an island (R331, R333, R334, R381) -/

/-- An island's SRAM as its core sees it: its key and its size. -/
def coreSram (i : Nat) : Nat × Nat := if i = 2 then (keysSram, keysSramSize) else (sramKey i 0, sramSize i)

/-- Where an island's SRAM starts in its core's fetch range. -/
def fetchBase (i : Nat) : Nat := islandBase i + 0x800000

/-- The segments of the booted image that target an island. -/
def islandSegments (s : State) (i : Nat) : List (List Byte) := (imageSegments (imageHeader s s.boot.bank)).filter (fun e => bitOf (leAt e 0 2) i)

/-- The bytes of a segment. -/
def segmentBytes (s : State) (e : List Byte) : List Byte := memReadBytes s (imageBase s.boot.bank + leAt e 4 4) (leAt e 8 4)

/-- An island's SRAM zeroed, its code segment copied to offset 0 and its data segments to their DEST. -/
def copySegments (i : Nat) (s : State) : State :=
  let m := coreSram i
  (islandSegments s i).foldl (fun t e => memWriteBytes (m.1 + (if leAt e 2 1 = 1 then 0 else leAt e 12 4)) (segmentBytes s e) t)
    (memClear m.1 (m.1 + m.2) s)

/-- CODE, ENTRY, LOCK, and the core's start; the keystone jumps to its ENTRY. -/
def startLoaded (i : Nat) (s : State) : State :=
  match (islandSegments s i).find? (fun e => leAt e 2 1 == 1) with
  | some e =>
    let entry : Word := BitVec.ofNat 32 (fetchBase i + leAt e 12 4)
    modCore i (fun k => { { k with hold := false }.startAt entry with lock := true, code := leAt e 8 4 / 64, entry := entry }) s
  | none => s

/-- The islands before i in the ROM's order RF, PIER0 to PIER7, DECK are loaded. -/
def loadOrder (s : State) (i : Nat) : Bool :=
  (if i = 1 then [3, 6, 7, 8, 9, 10, 11, 12, 13] else [3, 6, 7, 8, 9, 10, 11, 12, 13].takeWhile (fun j => j != i)).all (fun j => (getCore s j).lock)

/-- Whether the ROM can load island i now: at the boot in its order, the keystone at any time, and after a warm restart of
the island once it runs. -/
def canLoad (s : State) (i : Nat) : Bool :=
  hasCore i && canAct s 2 && isRun s 4 && !s.freeze.frozen && bootPast s && !(getCore s i).lock &&
    (if i = 2 then true
     else if s.boot.stage = .load then loadOrder s i && (pstate s i == .off || isRun s i)
     else isRun s i && (getCore s i).hold)

/-- The deck core has been released: at a boot its program starts LINK (R451). -/
def deckReleased (s : State) : State :=
  if s.boot.stage = .load then
    modPower (fun p => { p with queue := p.queue ++ [⟨.on, 5, 0, 0, 1⟩] }) (modBoot (fun b => { b with stage := .deck }) s)
  else s

/-- ISLAND_LOAD (R334): the island, in RUN with its core held, is loaded from the booted image and its core starts; a warm
restart of it is over. -/
def islandLoad (i : Nat) (s : State) : State :=
  if canLoad s i then
    let s := if pstate s i = .off then enterRun i s else s
    let s := startLoaded i (copySegments i s)
    let s := modPar (fun p => { p with restarting := match p.restarting with | some (j, c) => if j = i then none else some (j, c) | none => none }) s
    bootStep (if i = 1 then deckReleased s else s)
  else s

/-- ISLAND_LOAD (R334). (DESIGN CHOICE, log entry 5.) -/
def execIslandLoad (island : Island) (s : State) : Host.Outcome State Fault Refusal := .next (islandLoad island s)

/-! ## AON reset (R449, R467) -/

/-- The memory that AON reset keeps: MRAM and flash. -/
def keptMemory (m : Memory) : Memory := m.filter (fun e => decide (e.1 < 0x200000) || decide (flashBase ≤ e.1))

/-- LC_BUF, which cause 3 alone keeps. -/
def keptOrder (s : State) : SMap Nat := s.cfg.filter (fun e => decide (regAddr 0 .lcBuf 0 ≤ e.1) && decide (e.1 < regAddr 0 .lcBuf 0 + 256))

/-- AON reads the reversal cell, copies and clears it, and raises 0xD9 (R371). -/
def readReversal (s : State) : State :=
  if s.par.reversalCell then parapetEvent 0xD9 0 0 [] (modPar (fun p => { p with reversed := true, reversalCell := false }) s) else s

/-- Everything at its reset value but MRAM, flash and what lies outside the part, with the cause and the straps (R449,
R467). -/
def resetState (cause : ResetCause) (st : Straps) (s : State) : State :=
  let code := match cause with | .power => 0 | .pin => 1 | .brownout => 2 | .lifecycle => 3
  { State.reset with
    boot := { BootState.reset with cause := code, strapId := st.id, strapBoot := st.boot, strapTest := st.test }
    store := { StoreState.reset with fitted := s.store.fitted, arcFloor := s.store.arcFloor }
    par := { ParapetState.reset with reversalCell := s.par.reversalCell }
    cfg := if cause = .lifecycle then keptOrder s else []
    mem := keptMemory s.mem
    sent := s.sent, pending := s.pending, free := s.free }

/-- The instant of a reset that LC_CTRL.SUBMIT asked for has come. -/
def submitDue (s : State) : Bool := match s.boot.submitAt with | some t => decide (t ≤ s.time.us) | none => false

/-- AON_RESET (R449): a lifecycle reset comes 1 ms after the write that asked for it. -/
def execAonReset (cause : ResetCause) (straps : Straps) (s : State) : Host.Outcome State Fault Refusal :=
  .next (if cause = .lifecycle ∧ submitDue s = false then s else readReversal (resetState cause straps s))

/-! ## LC_CTRL and the session (R461, R462) -/

/-- A write of LC_CTRL. -/
def lcCtrlWrite (submit close : Bool) (s : State) : Status × State :=
  let s := if submit then modBoot (fun b => { b with submitAt := some (match b.submitAt with | some t => t | none => s.time.us + 1000) }) s else s
  (0x00, if close then modBoot (fun b => { b with session := none }) s else s)

/-- LC_SUBMIT (R462): AON reset follows 1 ms later. -/
def execLcSubmit (ini : Island) (s : State) : Host.Outcome State Fault Refusal := .next (aonWrite ini .lcCtrl (lcCtrlWrite true false) s)

/-- LC_CLOSE (R461): the session ends. -/
def execLcClose (ini : Island) (s : State) : Host.Outcome State Fault Refusal := .next (aonWrite ini .lcCtrl (lcCtrlWrite false true) s)

/-- SESSION_TIMEOUT (R461): 30 minutes after it opened. -/
def execSessionTimeout (s : State) : Host.Outcome State Fault Refusal :=
  .next (match s.boot.session with
    | some t => if t + 1800000000 ≤ s.time.us then modBoot (fun b => { b with session := none }) s else s
    | none => s)

/-- AON.BOOT_STATUS (R462). -/
def bootStatusWord (s : State) : Nat :=
  let st := match s.boot.stage with | .rom => 0 | .verify => 1 | .load => 2 | .deck => 3 | .ready => 4 | .loader => 5
  st + 16 * s.boot.bank + 32 * b2n s.boot.fallback + 64 * b2n s.boot.session.isSome + 256 * s.boot.cause + 2 ^ 16 * s.boot.lcLast.toNat

/-- FAULT_N is driven low: by an enabled pending event, by an island held off, and by the recovery loader (R369, R384,
R452). -/
def faultLow (s : State) : Bool :=
  (s.par.pend &&& regValue s 0 .parapetFaultEn 0) != 0 || s.par.rstLimit != 0 || s.boot.stage == .loader

end Sys2Proof.Machine
end

