-- ==== Sys2Proof/Machine/Power.lean ====
section
/-! DEFINITION. The power controller, its handshake, PARK entry and exit, and the thermal governor
(13_power_and_park.md). (DESIGN CHOICE, log entry 12.) -/

namespace Sys2Proof.Machine

/-! ## Commands (R349 to R354) -/

/-- The commands that count against the four of R349, a warm restart among them (R380). -/
def powerCount (s : State) : Nat :=
  s.power.queue.length + s.power.results.length + b2n s.power.serving.isSome + b2n s.par.restarting.isSome

/-- The first failing check of R352 for a command, or 0x00. Checks 4 and 5 alone are `powerRecheck`. -/
def powerRecheck (s : State) (cmd : PwrCmd) : Status :=
  if cmd.op = .level ∧ floorInForce s cmd.island < cmd.level then 0xC0
  else if cmd.op = .off ∧ islandInUse s cmd.island then 0xC3
  else 0x00

/-- The checks of R352 at the write, in order. `opOk` is false for OP 3. -/
def powerCheck (s : State) (opOk : Bool) (cmd : PwrCmd) : Status :=
  if 4 ≤ powerCount s ∨ s.park.phase ≠ .idle then 0xC2
  else if opOk = false ∨ cmd.island = 0 ∨ 14 ≤ cmd.island ∨ (cmd.op = .off ∧ (cmd.island = 1 ∨ cmd.island = cmd.writer)) then 0xC4
  else if cmd.op = .level ∧ (4 ≤ cmd.level ∨ (cmd.island = 3 ∧ 2 ≤ cmd.level)) then 0xC1
  else powerRecheck s cmd

/-- A write of AON.PWR_CMD: only the deck and keystone cores may; a command that passes the checks is queued (R349). -/
def pwrCmdWrite (ini : Nat) (opOk : Bool) (op : PwrOp) (island level tag : Nat) (s : State) : Status × State :=
  if ini ≠ 1 ∧ ini ≠ 2 then (0x02, s)
  else
    let cmd : PwrCmd := { op := op, island := island, level := level, tag := tag, writer := ini }
    let st := powerCheck s opOk cmd
    if st = 0 then (0x00, modPower (fun p => { p with queue := p.queue ++ [cmd] }) s) else (st, s)

/-- A command ends with its one result (R349). -/
def powerResult (cmd : PwrCmd) (st : Status) (reason : Nat) (s : State) : State :=
  modPower (fun p => { p with serving := none, results := p.results ++ [{ status := st, reason := reason, island := cmd.island, tag := cmd.tag }] }) s

/-! ## The handshake (R355, R356) -/

/-- An island is queried. A HALTED core's island is answered ACCEPT on its behalf. -/
def sendQuery (i kind level : Nat) (s : State) : State :=
  let accepted := hasCore i && (getCore s i).halted
  modPower (fun p => { p with query := vset p.query i { kind := kind, level := level, outcome := (getQuery s i).outcome, phase := if accepted then .accepted else .awaiting s.time.us } }) s

/-- Withdrawal of a query: an island that had accepted is told ABORTED (R356). -/
def withdrawQuery (i : Nat) (s : State) : State :=
  modPower (fun p =>
    let q := getQuery s i
    if q.phase = .idle then p
    else { p with query := vset p.query i { q with kind := 0, level := 0, phase := .idle, outcome := if q.phase = .accepted then 2 else q.outcome } }) s

/-- Every query is withdrawn. -/
def withdrawAll (s : State) : State := allIslands.foldl (fun s i => withdrawQuery i s) s

/-- Every query that was answered ACCEPT is over, the command having been carried out. -/
def closeQueries (s : State) : State :=
  modPower (fun p => { p with query := p.query.map (fun q => { q with kind := 0, level := 0, phase := .idle }) }) s

/-- Whether every query sent has been answered ACCEPT. -/
def allAccepted (s : State) : Bool := s.power.query.toList.all (fun q => q.phase == .idle || q.phase == .accepted)

/-- The command being served is carried out once every query is answered ACCEPT (R350, R353). -/
def powerProceed (s : State) : State :=
  match s.power.serving with
  | some v =>
    if v.phase = .querying ∧ allAccepted s then
      match v.cmd.op with
      | .off => leaveRun v.cmd.island (modPower (fun p => { p with serving := some { v with phase := .stopping } }) (closeQueries s))
      | _ => modPower (fun p => { p with serving := some { v with phase := .changing } }) (closeQueries s)
    else s
  | none => s

/-- A REFUSE, or what counts as one, from island i with a reason: the command, or the PARK entry, ends (R352, R355,
R357). -/
def refuse (i reason : Nat) (s : State) : State :=
  match s.power.serving with
  | some v => powerResult v.cmd 0xC5 reason (withdrawAll (setQueryPhase i .idle s))
  | none =>
    if s.park.phase = .querying then
      parkAnswer 0x15 (modPark (fun k => { k with phase := .idle, last := 0x15, refuser := i, reason := reason }) (withdrawAll (setQueryPhase i .idle s)))
    else s

/-- The time of the first query of the command or PARK entry under way. -/
def firstQuery (s : State) : Nat :=
  match s.power.serving with
  | some v => v.first
  | none => s.park.first

/-- A write of AON.PWR_REPLY: 0 ACCEPT, 1 DELAY n × 100 µs, 2 REFUSE (R355). STORE and LINK answer by their hardware:
DELAY 1 while they are busy, otherwise ACCEPT; the master of a ring refuses PARK with WORK_PENDING (R402).
(DEDUCED, log entry 40.) -/
def pwrReplyWrite (ini answer delay reason : Nat) (s : State) : Status × State :=
  match (getQuery s ini).phase with
  | .awaiting _ =>
    let busy := (ini == 4 && storeBusy s) || (ini == 5 && linkBusy s)
    let hw := ini == 4 || ini == 5
    let keepUp := ini == 5 && (getQuery s ini).kind == 3 && ringMaster s
    let answer := if keepUp then 2 else if hw then (if busy then 1 else 0) else answer
    let delay := if hw then 1 else delay
    let reason := if keepUp then 1 else reason
    if 3 ≤ answer then (0x02, s)
    else
      let s := countEvent ini 0x00F 1 s
      if answer = 0 then (0x00, powerProceed (setQueryPhase ini .accepted s))
      else if answer = 1 then
        if firstQuery s + 8000 ≤ s.time.us then (0x00, refuse ini 4 s)
        else (0x00, setQueryPhase ini (.delayed (s.time.us + 100 * clampTo 1 80 delay)) s)
      else (0x00, refuse ini reason s)
  | _ => (0x02, s)

/-- The islands a command queries: those in RUN that it affects, but its writer (R355). -/
def powerServe (s : State) : State :=
  match s.power.queue with
  | [] => s
  | cmd :: rest =>
    if s.power.serving.isSome ∨ s.par.restarting.isSome ∨ s.park.phase ≠ .idle ∨ s.freeze.frozen then s
    else
      let s := modPower (fun p => { p with queue := rest }) s
      let st := powerRecheck s cmd
      let i := cmd.island
      let serve (ph : PwrPhase) (s : State) : State := modPower (fun p => { p with serving := some { cmd := cmd, first := s.time.us, phase := ph } }) s
      if st ≠ 0 then powerResult cmd st 0 s
      else match cmd.op with
        | .on =>
          if pstate s i ≠ .off then powerResult cmd 0x00 0 s
          else serve .starting (setPState i .starting (modPower (fun p => { p with level := vset p.level i (min (getLevel s i) (floorInForce s i)) }) s))
        | .off =>
          if pstate s i = .off then powerResult cmd 0x00 0 s
          else powerProceed (serve .querying (if pstate s i = .run then sendQuery i 2 0 s else s))
        | .level =>
          if getLevel s i = cmd.level then powerResult cmd 0x00 0 s
          else if pstate s i = .off then
            powerResult cmd 0x00 0 (modPower (fun p => { p with level := vset p.level i cmd.level }) s)
          else powerProceed (serve .querying (if pstate s i = .run ∧ i ≠ cmd.writer then sendQuery i 1 cmd.level s else s))

/-- PWR_ON (R350): a write of PWR_CMD with OP ON. -/
def execPwrOn (ini : Island) (island tag : Fin 16) (s : State) : Host.Outcome State Fault Refusal :=
  .next (aonWrite ini .pwrCmd (pwrCmdWrite ini true .on island 0 tag) s)

/-- PWR_OFF (R350): a write of PWR_CMD with OP OFF. -/
def execPwrOff (ini : Island) (island tag : Fin 16) (s : State) : Host.Outcome State Fault Refusal :=
  .next (aonWrite ini .pwrCmd (pwrCmdWrite ini true .off island 0 tag) s)

/-- PWR_LEVEL (R350): a write of PWR_CMD with OP LEVEL. -/
def execPwrLevel (ini : Island) (island : Fin 16) (level : Fin 4) (tag : Fin 16) (s : State) : Host.Outcome State Fault Refusal :=
  .next (aonWrite ini .pwrCmd (pwrCmdWrite ini true .level island level tag) s)

/-- POWER_COMMAND_SERVE (R350, R352, R355): the oldest waiting command leaves the queue. -/
def execPowerCommandServe (s : State) : Host.Outcome State Fault Refusal := .next (powerServe s)

/-- PWR_REPLY_ACCEPT (R355). -/
def execPwrReplyAccept (ini : Island) (s : State) : Host.Outcome State Fault Refusal :=
  .next (aonWrite ini .pwrReply (pwrReplyWrite ini 0 0 0) s)

/-- PWR_REPLY_DELAY (R355). -/
def execPwrReplyDelay (ini : Island) (n : BitVec 7) (s : State) : Host.Outcome State Fault Refusal :=
  .next (aonWrite ini .pwrReply (pwrReplyWrite ini 1 n.toNat 0) s)

/-- PWR_REPLY_REFUSE (R355). -/
def execPwrReplyRefuse (ini : Island) (reason : Fin 8) (s : State) : Host.Outcome State Fault Refusal :=
  .next (aonWrite ini .pwrReply (pwrReplyWrite ini 2 0 reason) s)

/-- QUERY_NO_REPLY (R355): an island silent 1 ms after a query is taken to refuse with NO_REPLY. -/
def execQueryNoReply (island : Island) (s : State) : Host.Outcome State Fault Refusal :=
  .next (match (getQuery s island).phase with
    | .awaiting t => if t + 1000 ≤ s.time.us then refuse island 5 s else s
    | _ => s)

/-- QUERY_REPEAT (R355): a delay has passed and the island is asked again. -/
def execQueryRepeat (island : Island) (s : State) : Host.Outcome State Fault Refusal :=
  .next (match (getQuery s island).phase with
    | .delayed t => if t ≤ s.time.us then setQueryPhase island (.awaiting s.time.us) s else s
    | _ => s)

/-- The ON being served ends with 0x00 when its island reaches RUN, the OFF when its island is OFF. -/
def servedIsland (i : Nat) (phase : PwrPhase) (s : State) : State :=
  match s.power.serving with
  | some v => if v.cmd.island = i ∧ v.phase = phase then powerResult v.cmd 0x00 0 s else s
  | none => s

/-- A warm restart of an island without a core is over once it runs (R381). -/
def restartedCoreless (i : Nat) (s : State) : State :=
  if hasCore i then s
  else modPar (fun p => { p with restarting := match p.restarting with | some (j, c) => if j = i then none else some (j, c) | none => none }) s

/-- ISLAND_START_DONE (R26, R28, R350): a STARTING island has locked; its copy of device time loads and it moves to RUN.
During a PARK exit AON holds it in STARTING (R360). -/
def execIslandStartDone (island : Island) (s : State) : Host.Outcome State Fault Refusal :=
  .next (if pstate s island = .starting ∧ s.park.phase ≠ .waking ∧ s.freeze.frozen = false then
      bootStep (restartedCoreless island (servedIsland island .starting (enterRun island s)))
    else s)

/-- Whether a STOPPING island's port is empty and its own transactions are answered (R36). -/
def portDrained (s : State) (i : Nat) : Bool :=
  outstanding s i == 0 && (vget [] s.via.held i).isEmpty && s.via.held.toList.all (fun l => l.all (fun h => h.src != i))

/-- The stop sequence of PARK is over once every island but AON is OFF: PARKED, or WAKING if the wake event has already
come (R357, R361). -/
def parkStopped (s : State) : State :=
  if s.park.phase = .stopping ∧ allIslands.all (fun i => i == 0 || pstate s i == .off) then
    if s.park.woken then parkWake s else modPark (fun k => { k with phase := .parked }) s
  else s

/-- A restarting island's switch has opened: its SRAM and its core are lost, and it is STARTING again (R381). -/
def restartStarts (i : Nat) (s : State) : State := setPState i .starting (restartClears i (powerOff i s))

/-- Island i is the one being restarted. -/
def isRestarting (s : State) (i : Nat) : Bool := match s.par.restarting with | some (j, _) => j == i | none => false

/-- ISLAND_STOP_DONE (R36): a STOPPING island's port has drained, its switch opens and it is OFF; one that is being
restarted is STARTING again, though not during a freeze (R381, R382). -/
def execIslandStopDone (island : Island) (s : State) : Host.Outcome State Fault Refusal :=
  .next (if pstate s island = .stopping ∧ portDrained s island then
      if isRestarting s island then (if s.freeze.frozen then s else restartStarts island s)
      else parkStopped (servedIsland island .stopping (powerOff island s))
    else s)

/-- LEVEL_CHANGE_DONE (R353, R354): the change of an island's level completes. -/
def execLevelChangeDone (island : Island) (s : State) : Host.Outcome State Fault Refusal :=
  .next (match vget none s.power.raising island with
    | some l => modPower (fun p => { p with level := vset p.level island l, raising := vset p.raising island none }) s
    | none =>
      match s.power.serving with
      | some v =>
        if v.cmd.island = island.val ∧ v.phase = .changing then
          powerResult v.cmd 0x00 0 (modPower (fun p => { p with level := vset p.level island v.cmd.level }) s)
        else s
      | none => s)

/-! ## PARK (R357 to R362) -/

/-- WAKE_PEND AND WAKE_EN. -/
def wakeDue (s : State) : Nat := s.park.wakePend &&& wakeEnable s

/-- A write of PARK_CTRL.REQUEST = 1 (R357, R402). (DEDUCED, log entry 40.) -/
def parkRequestWrite (ini : Nat) (s : State) : Status × State :=
  if ini ≠ 1 ∧ ini ≠ 2 then (0x02, s)
  else if parkingHolds s = false then (0x02, s)
  else if s.power.queue ≠ [] ∨ s.power.serving.isSome ∨ s.par.restarting.isSome ∨ s.park.phase ≠ .idle then (0xC2, s)
  else if wakeDue s ≠ 0 then
    (0x14, parkAnswer 0x14 (modPark (fun k => { k with last := 0x14, aborts := satTo 0xFFFF (k.aborts + 1) }) s))
  else
    (0x00, (allIslands.filter (fun i => i != 0 && i != 1 && i != ini && pstate s i == .run)).foldl (fun s i => sendQuery i 3 0 s)
      (modPark (fun k => { k with phase := .querying, first := s.time.us }) s))

/-- PARK_REQUEST (R357). -/
def execParkRequest (ini : Island) (s : State) : Host.Outcome State Fault Refusal :=
  .next (aonWrite ini .parkCtrl (parkRequestWrite ini) s)

/-- PARK_COMMIT (R357, R358): in the commit cycle a pending wake aborts entry with 0x14; otherwise entry is committed,
the reference stops with its fraction carried over (R27), and every island in RUN moves to STOPPING. -/
def execParkCommit (refCycles : Fin 48) (s : State) : Host.Outcome State Fault Refusal :=
  .next (if s.park.phase = .querying ∧ allAccepted s then
      if wakeDue s ≠ 0 then
        parkAnswer 0x14 (modPark (fun k => { k with phase := .idle, last := 0x14, aborts := satTo 0xFFFF (k.aborts + 1) }) (withdrawAll s))
      else
        parkStopped ((allIslands.filter (fun i => i != 0 && pstate s i == .run)).foldl (fun s i => leaveRun i s)
          (stopReference refCycles (countEvent 0 0x041 1 (parkAnswer 0x00 (modPark (fun k =>
            { k with phase := .stopping, last := 0x00, entries := satTo 0xFFFF (k.entries + 1), woken := false }) (closeQueries s))))))
    else s)

/-- WAKE_SOURCE (R359): a source fires. ALARM fires once per arming, when the armed time is reached. -/
def execWakeSource (bit : Fin 8) (s : State) : Host.Outcome State Fault Refusal :=
  .next (if bit = 3 then
      match s.park.alarm with
      | some t => if t ≤ s.time.us then fireWake 3 (modPark (fun k => { k with alarm := none }) s) else s
      | none => s
    else fireWake bit s)

/-- WAKE_EVENT (R360, R361): the first enabled pending source after commit. The ping engine stops and discards its
measurements; during the stop sequence the exit follows it. -/
def execWakeEvent (s : State) : Host.Outcome State Fault Refusal :=
  .next (if (s.park.phase = .stopping ∨ s.park.phase = .parked) ∧ s.park.woken = false ∧ wakeDue s ≠ 0 then
      let s := countEvent 0 0x042 1 (modPark (fun k => { k with wakeLast := wakeDue s, wakeTime := s.time.us, woken := true }) (stopPingEngine s))
      if s.park.phase = .parked then parkWake s else s
    else s)

/-- PARK_RESUME (R360, R362): 2.0 ms after the wake event every STARTING island is in RUN, AON sends SENSE or
WAKE_HELLO, and a freeze asked for in PARK takes effect. With the reference not valid the parapet reports it and the
clock stop begins (R373). -/
def execParkResume (refValid : Bool) (s : State) : Host.Outcome State Fault Refusal :=
  .next (if s.park.phase = .waking ∧ s.park.wakeTime + 2000 ≤ s.time.us then
      let s := if refValid then s else crystalLost s
      let s := modPark (fun k => { k with phase := .idle, woken := false }) s
      let s := (allIslands.filter (fun i => pstate s i == .starting)).foldl (fun s i => enterRun i s) s
      parkFreeze (bootStep (parkMessages s))
    else s)

/-- ALARM_ARM (R359): a write of ALARM_HI arms ALARM_LO and HI together for one firing, at once if the time has passed. -/
def alarmArmWrite (hi : Nat) (s : State) : Status × State :=
  let t := regValue s 0 .alarmLo 0 + 2 ^ 32 * hi
  let s := putReg s 0 .alarmHi 0 hi
  (0x00, if t ≤ s.time.us then fireWake 3 (modPark (fun k => { k with alarm := none }) s) else modPark (fun k => { k with alarm := some t }) s)

/-- ALARM_ARM (R359). -/
def execAlarmArm (ini : Island) (hi : Word) (s : State) : Host.Outcome State Fault Refusal :=
  .next (aonWrite ini .alarmHi (alarmArmWrite hi.toNat) s)

/-! ## The thermal governor (R364) -/

/-- The published budget after an update: T at once if it is lower, otherwise a climb by an eighth plus 16. -/
def nextBudget (t budget : Nat) : Nat := if t < budget then t else min t (budget + budget / 8 + 16)

/-- A of R364 as T: the limit less the core and ping power, derated from KNEE upwards, between 0 and CAP, rounded down. -/
def governorTarget (limit cap knee : Nat) (tj : Int) (pCore pPing : Nat) : Nat :=
  let a : Int := (limit : Int) - pCore - pPing
  let a : Int := if (knee : Int) ≤ tj then a * (125 - tj) / (125 - (knee : Int)) else a
  min cap a.toNat

/-- GOVERNOR_UPDATE (R364, R368): the S fields of THERM_CFG latch, and the budget is computed and published. -/
def execGovernorUpdate (tj : Int) (hvDie : Bool) (pCore pPing : Nat) (s : State) : Host.Outcome State Fault Refusal :=
  .next (if allIslands.any (fun i => i != 0 && pstate s i == .run) then
      let s := latchReg s 0 .thermCfg 0
      let cfg := regValue s 0 .thermCfg 0
      let t := governorTarget (bitsOf cfg 0 12) (bitsOf cfg 12 12) (bitsOf cfg 24 8) tj pCore pPing
      modTherm (fun k => { k with budget := nextBudget t k.budget, tj := tj, hvDie := hvDie, pCore := pCore }) s
    else s)

end Sys2Proof.Machine
end

