-- ==== Sys2Proof/Machine/Faults.lean ====
section
/-! DEFINITION. The parapet's conditions, the internal errors and the warm restarts (14_faults_and_recovery.md). -/

namespace Sys2Proof.Machine

/-! ## The outside world (R370 to R374) -/

/-- LF_CURRENT_LIMIT (R370): the conducting half-cycle ends; the pier counts it (event 0x043). -/
def execLfCurrentLimit (pier : PierId) (s : State) : Host.Outcome State Fault Refusal :=
  .next (countEvent (6 + pier) 0x043 1 s)

/-- LF_SHORT (R370): the group is high-impedance, the burst ends with 0x41 and the event is raised. -/
def execLfShort (pier : PierId) (bay : Bay) (victim peak : Byte) (s : State) : Host.Outcome State Fault Refusal :=
  .next (parapetEvent 0xDB (6 + pier) bay [victim, peak] (pierShort pier bay s))

/-- VIN_UNDERVOLTAGE (R370): UNIT 0, once each time the condition starts to hold. -/
def execVinUndervoltage (vin : BitVec 12) (s : State) : Host.Outcome State Fault Refusal :=
  .next (let s := modPar (fun p => { p with vin := vin.toNat }) s
    if s.par.uvVin ∨ 340 ≤ vin.toNat then s
    else parapetEvent 0xD7 0 0 [] (modPar (fun p => { p with uvVin := true }) s))

/-- VIN_UNDERVOLTAGE_CLEAR (R370). -/
def execVinUndervoltageClear (vin : BitVec 12) (s : State) : Host.Outcome State Fault Refusal :=
  .next (modPar (fun p => { p with vin := vin.toNat, uvVin := if 340 ≤ vin.toNat then false else p.uvVin }) s)

/-- VINLF_UNDERVOLTAGE (R370): the flag is set, every pier's burst and armed chord ends with 0x48, and pings suspend. -/
def execVinlfUndervoltage (s : State) : Host.Outcome State Fault Refusal :=
  .next (if s.par.uvVinlf then s
    else parapetEvent 0xD7 0 1 [] (stopAllPiers 0x48 (modPar (fun p => { p with uvVinlf := true }) s)))

/-- VINLF_UV_CLEAR (R370): the flag clears; pings resume with the next round. -/
def execVinlfUvClear (s : State) : Host.Outcome State Fault Refusal :=
  .next (modPar (fun p => { p with uvVinlf := false }) s)

/-- OVERVOLTAGE (R370): RBG turns the FET off and every bridge group is high-impedance. -/
def execOvervoltage (vin : BitVec 12) (s : State) : Host.Outcome State Fault Refusal :=
  .next (let s := modPar (fun p => { p with vin := vin.toNat }) s
    if s.par.ov ∨ vin.toNat ≤ 800 then s
    else parapetEvent 0xD8 0 0 [] (openBridges (modPar (fun p => { p with ov := true }) s)))

/-- OVERVOLTAGE_CLEAR (R370): VIN has stayed below 77.0 V for 10 ms. -/
def execOvervoltageClear (vin : BitVec 12) (s : State) : Host.Outcome State Fault Refusal :=
  .next (modPar (fun p => { p with vin := vin.toNat, ov := if vin.toNat < 770 then false else p.ov }) s)

/-- REVERSED_INPUT (R371): the non-volatile reversal cell is set; AON reads it at the next AON reset. -/
def execReversedInput (s : State) : Host.Outcome State Fault Refusal :=
  .next (modPar (fun p => { p with reversalCell := true }) s)

/-- OVER_TEMPERATURE (R370, R372): one event for each die whose condition starts to hold. -/
def execOverTemperature (hvDie : Bool) (s : State) : Host.Outcome State Fault Refusal :=
  .next (if (if hvDie then s.par.hotHv else s.par.hotLogic) then s
    else
      parapetEvent 0xD6 0 (b2n hvDie) [] (stopAir (modPar (fun p =>
        { p with hotHv := p.hotHv || hvDie, hotLogic := p.hotLogic || !hvDie, thermalStop := true }) s)))

/-- THERMAL_STOP_END (R372): both dies have stayed below 120 °C for 1 s; capacity returns from the next boundary. -/
def execThermalStopEnd (s : State) : Host.Outcome State Fault Refusal :=
  .next (modPar (fun p => { p with hotHv := false, hotLogic := false, thermalStop := false }) s)

/-- CRYSTAL_48_FAIL (R27, R370, R373): the clock stop begins, and device time counts under the PARK rule. -/
def execCrystal48Fail (refCycles : Fin 48) (s : State) : Host.Outcome State Fault Refusal :=
  .next (if s.par.clockStop then s
    else
      parapetEvent 0xDA 0 0 [] (stopAir (modPar (fun p => { p with clockStop := true })
        (if s.time.src = .reference then stopReference refCycles s else s))))

/-- CLOCK_STOP_END (R373): the reference has been valid for 10 ms; the device-time copies are reloaded. -/
def execClockStopEnd (s : State) : Host.Outcome State Fault Refusal :=
  .next (if s.par.clockStop ∧ s.time.src = .reference then
      modTime (fun t => { t with copies := t.copies.map (fun _ => t.us) }) (modPar (fun p => { p with clockStop := false }) s)
    else s)

/-- CRYSTAL_32_FAIL (R370): device time under the PARK rule counts 1 for every 4 cycles of the 4 MHz time base. -/
def execCrystal32Fail (s : State) : Host.Outcome State Fault Refusal :=
  .next (if s.time.xtal32Failed then s
    else parapetEvent 0xDA 0 1 [] (modTime (fun t =>
      { t with xtal32Failed := true, src := if t.src = .crystal then .rc4M else t.src }) s))

/-- CRYSTAL_32_RESTORED (R370): device time in PARK counts again under the crystal rule. -/
def execCrystal32Restored (s : State) : Host.Outcome State Fault Refusal :=
  .next (modTime (fun t => { t with xtal32Failed := false, src := if t.src = .rc4M then .crystal else t.src }) s)

/-- The DETAIL byte of a bus fault (R374). -/
def busFaultCode (k : BusFaultKind) : Nat :=
  match k with
  | .opened => 1
  | .contention => 2
  | .stuck => 3

/-- BUS_FAULT (R374): the message on the bus ends with 0x05, the bus is marked faulty and the event is raised. -/
def execBusFault (bus : FieldBus) (kind : BusFaultKind) (s : State) : Host.Outcome State Fault Refusal :=
  .next (if isRun s 5 ∧ s.freeze.frozen = false then
      let s := countEvent 5 0x045 1 s
      match bus with
      | .meter => parapetEvent 0xDC 5 0 [BitVec.ofNat 8 (busFaultCode kind)] (meterBusFault (modPar (fun p => { p with mFault := busFaultCode kind }) s))
      | .dispenser => parapetEvent 0xDC 5 1 [BitVec.ofNat 8 (busFaultCode kind)] (dispBusFault (modPar (fun p => { p with dFault := busFaultCode kind }) s))
    else s)

/-! ## The core watchdog (R378) -/

/-- CORE_WATCHDOG (R378): the watchdog has counted down; a warm restart with cause 0xD3. It does not count while the
core is HALTED or while freeze holds. (DEDUCED, log entry 22.) -/
def execCoreWatchdog (c : Island) (s : State) : Host.Outcome State Fault Refusal :=
  .next (if canAct s c && hasCore c && !(getCore s c).halted && ((getCore s c).wdogLeft == some 0) && (wdogTimeout s c != 0) then
      requestRestart c 0xD3 (modCore c (fun k => { k with wdogLeft := none }) s)
    else s)

/-- A write of WDOG_KICK: only the island's own core may; 1 reloads the watchdog with TIMEOUT (R378, R393). -/
def wdogKickWrite (ini island : Nat) (kick : Bool) (s : State) : Status × State :=
  if ini ≠ island then (0x02, s)
  else if kick then (0x00, modCore island (fun k => { k with wdogLeft := some (wdogTimeout s island) }) s)
  else (0x00, s)

/-- WDOG_KICK (R378). -/
def execWdogKick (ini : Island) (island : Island) (kick : Bool) (s : State) : Host.Outcome State Fault Refusal :=
  .next (islandWrite ini island .wdogKick (wdogKickWrite ini island kick) s)

/-! ## Warm restarts (R380 to R384) -/

/-- A write of AON.RESTART (R380). -/
def restartRegWrite (ini island : Nat) (s : State) : Status × State :=
  if island = 0 ∨ 14 ≤ island ∨ island = ini ∨ (ini ≠ 1 ∧ ini ≠ 2) ∨ (ini = 2 ∧ island ≠ 1) then (0xC4, s)
  else if pstate s island = .off then (0x00, s)
  else (0x00, requestRestart island 0x00 s)

/-- RESTART_WRITE (R380). -/
def execRestartWrite (ini : Island) (island : Fin 16) (s : State) : Host.Outcome State Fault Refusal :=
  .next (aonWrite ini .restart (restartRegWrite ini island) s)

/-- The order in which waiting restarts are made: the keystone first, then RF, the piers and the deck, then STORE and
LINK (R334, R382). -/
def restartOrder : List Nat := [2, 3, 6, 7, 8, 9, 10, 11, 12, 13, 1, 4, 5]

/-- The restart made next. -/
def nextRestart (s : State) : Option (Nat × Status) :=
  (restartOrder.filterMap (fun i => s.par.rstQueue.find? (fun e => e.1 == i))).head?

/-- Whether a fourth restart within 10 s would be made (R384). (DEDUCED, log entry 22.) -/
def restartLimited (s : State) (i : Nat) : Bool :=
  decide (3 ≤ ((vget [] s.par.rstTimes i).filter (fun t => decide (s.time.us < t + 10000000))).length)

/-- WARM_RESTART (R381 to R384): the next waiting restart is made: its cause is latched, the work in progress ends as
R383 says, and the island leaves RUN; once its port has drained its switch opens and it is STARTING again. A fourth within
10 s is not made: the island stays OFF and FAULT_N is held low. A restart of an island that is OFF has no effect (R380).
(DEDUCED, log entry 23.) -/
def execWarmRestart (island : Island) (s : State) : Host.Outcome State Fault Refusal :=
  .next (match nextRestart s with
    | some (i, cause) =>
      if i = island.val ∧ s.par.restarting = none ∧ s.freeze.frozen = false then
        if pstate s i = .off then modPar (fun p => { p with rstQueue := p.rstQueue.filter (fun e => e.1 != i) }) s else
        let limited := restartLimited s i
        let s := modPar (fun p => { p with
          rstQueue := p.rstQueue.filter (fun e => e.1 != i),
          restarting := if limited then none else some (i, cause),
          rstLimit := if limited then p.rstLimit ||| 2 ^ i else p.rstLimit,
          rstIsland := if limited then p.rstIsland else i,
          rstCause := if limited then p.rstCause else cause,
          rstCount := if limited then p.rstCount else satTo 0xFFFF (p.rstCount + 1),
          rstTimes := if limited then p.rstTimes else vset p.rstTimes i ((s.time.us :: vget [] p.rstTimes i).take 4) }) s
        let s := leaveRun i (if limited then s else restartLoses i cause s)
        if pstate s i = .stopping then s else if limited then powerOff i s else restartStarts i s
      else s
    | none => s)

/-- A write of AON.RST_LIMIT by the deck core: 1 re-enables restarts of that island, which stays OFF (R384, R392). -/
def rstLimitWrite (ini mask : Nat) (s : State) : Status × State :=
  if ini ≠ 1 then (0x02, s)
  else (0x00, modPar (fun p => { p with
    rstLimit := p.rstLimit &&& (0x3FFE - (mask &&& 0x3FFE)),
    rstTimes := Vector.ofFn (fun i => if bitOf mask i.val then [] else vget [] p.rstTimes i.val) }) s)

/-- RST_LIMIT_CLEAR (R384). -/
def execRstLimitClear (ini : Island) (mask : BitVec 14) (s : State) : Host.Outcome State Fault Refusal :=
  .next (aonWrite ini .rstLimit (rstLimitWrite ini mask.toNat) s)

/-- A read of AON.PARAPET_LOG: the oldest entry's word; its time is latched for the initiator (R392). -/
def parapetLogWord (s : State) : Nat :=
  match s.par.log with
  | [] => 0
  | e :: _ => e.code.toNat + 2 ^ 8 * e.island + 2 ^ 12 * e.unit + 2 ^ 20 + 2 ^ 21 * b2n e.overrun

/-- A read of AON.PARAPET_LOG by `ini`: the deck core's read pops the entry, which the deck journals as a FAULT record and
sends as a FAULT frame (R369, R392). -/
def parapetLogRead (ini : Nat) (s : State) : Nat × State :=
  let w := parapetLogWord s
  match s.par.log with
  | [] => (w, latchShadow ini 0 .parapetLogTime 0 0 s)
  | e :: rest =>
    let s := latchShadow ini 0 .parapetLogTime 0 (e.time % 2 ^ 32) s
    if ini = 1 then (w, deckFault e.code e.island e.unit e.time e.detail (modPar (fun p => { p with log := rest }) s)) else (w, s)

/-- PARAPET_LOG_POP (R369, R392). -/
def execParapetLogPop (ini : Island) (s : State) : Host.Outcome State Fault Refusal :=
  .next (aonRead ini .parapetLog (parapetLogRead ini) s)

end Sys2Proof.Machine
end

