-- ==== Sys2Proof/Machine/Counters.lean ====
section
/-! DEFINITION. The counters as registers, their snapshots and the dump engine (R427 to R438). -/

namespace Sys2Proof.Machine

/-- A write of a counter's HI: the initiator's LO write shadow and HI go to the counter together (R431). -/
def counterHi (ini isl : Nat) (r : Reg) (k data : Nat) (s : State) : State :=
  let key := ini * 2 ^ 32 + regAddr isl (if r = .cycHi then .cycLo else .pmcLo) k
  let lo := SMap.get 0 key s.wshadow
  let s := { s with wshadow := SMap.set 0 key 0 s.wshadow }
  if r = .cycHi then modPerf isl (fun p => { p with cyc := lo + 2 ^ 32 * data }) s
  else modPerf isl (fun p => { p with pmc := vset p.pmc k (lo + 2 ^ 32 * (data % 2 ^ 16)) }) s

/-! ## Snapshots and the dump engine (R434 to R436) -/

/-- Every island in RUN captures its counters and OVF bits (R434). -/
def captureAll (s : State) : State :=
  { s with perf := Vector.ofFn (fun i =>
      let p := vget PerfState.reset s.perf i.val
      if isRun s i.val then { p with snapCyc := p.cyc, snapPmc := p.pmc, snapOvf := p.ovf } else p) }

/-- The islands of DUMP_CFG.MASK, 0 counting as all fourteen (R438). -/
def dumpMask (s : State) : Nat :=
  let m := bitsOf (regValue s 1 .dumpCfg 0) 16 14
  if m = 0 then 0x3FFF else m

/-- One 64-byte block of a dump record (R435). -/
def dumpBlock (s : State) (i : Nat) : List Byte :=
  let p := getPerf s i
  let tail := fun (ovf : Nat) => [BitVec.ofNat 8 ovf, BitVec.ofNat 8 i, BitVec.ofNat 8 (pstateCode (pstate s i))] ++ List.replicate 5 0
  if isRun s i then leBytes 8 p.snapCyc ++ (p.snapPmc.toList.map (leBytes 6)).flatten ++ tail p.snapOvf
  else List.replicate 56 0 ++ tail 0

/-- A dump record of the snapshots (R435). -/
def dumpRecord (s : State) : List Byte :=
  let m := dumpMask s
  let ids := allIslands.filter (fun i => bitOf m i)
  let absent := (ids.filter (fun i => !isRun s i)).foldl (fun a i => a + 2 ^ i) 0
  leBytes 4 s.dump.seq ++ leBytes 2 m ++ leBytes 2 absent ++ leBytes 8 s.time.us ++ (ids.map (dumpBlock s)).flatten

/-- The dump engine writes one record into the ring, or drops it (R436). -/
def dumpStep (s : State) : State :=
  if bitOf (regValue s 1 .dumpCfg 0) 0 ∧ isRun s 1 then
    let size := 16 + 64 * (allIslands.filter (fun i => bitOf (dumpMask s) i)).length
    let slots := 64 * regValue s 1 .dumpLen 0 / size
    let w := s.dump.wptr
    let off := regValue s 1 .dumpBase 0 + w * size
    if slots < 2 ∨ (w + 1) % slots = s.dump.rptr ∨ 2 ^ 20 < off + size ∨ sealedRange s off size then
      modDump (fun d => { d with dropped := satTo 0xFFFF (d.dropped + 1) }) s
    else
      let rec_ := dumpRecord s
      let s := memWriteBytes (deckSram + off) rec_ s
      let s := modDump (fun d => { d with seq := (d.seq + 1) % 2 ^ 32, wptr := (w + 1) % slots, recPend := true, records := satTo 0xFFFF (d.records + 1) }) s
      if bitOf (regValue s 1 .dumpCfg 0) 1 ∧ (lifecycle s ≠ 3) ∧ (lifecycle s ≠ 2 ∨ s.mon.unlocked) then
        modDump (fun d => { d with rptr := d.wptr }) (modMon (fun m => { m with sent := m.sent ++ [{ cmd := 0x90, status := 0, data := rec_ }] }) s)
      else s
  else s

/-- A write of DUMP_CFG.ENABLE = 1 resets SEQ, WPTR and RPTR (R438). -/
def dumpEnableReset (s : State) : State := modDump (fun d => { d with seq := 0, wptr := 0, rptr := 0 }) s

end Sys2Proof.Machine
end

