-- ==== Sys2Proof/Machine/Readout.lean ====
section
/-! DEFINITION. What each register reads as, without the effect of the read, and the read-out engine's view of a word
during a freeze (R442). -/

namespace Sys2Proof.Machine

/-! ## LO and HI pairs (R29, R430) -/

/-- The HI register that a read of a LO register latches for its initiator. -/
def hiOf : Reg → Option Reg
  | .dtimeLo => some .dtimeHi
  | .parkWakeLo => some .parkWakeHi
  | .spanBayNaLo => some .spanBayNaHi
  | .slotCtrLo => some .slotCtrHi
  | .rxTimeLo => some .rxTimeHi
  | .ledgerGenLo => some .ledgerGenHi
  | .jrnHeadLo => some .jrnHeadHi
  | .siteOfsLo => some .siteOfsHi
  | .siteTimeLo => some .siteTimeHi
  | .cycLo => some .cycHi
  | .pmcLo => some .pmcHi
  | _ => none

/-- The LO register of a HI register that reads from a shadow. -/
def loOf : Reg → Option Reg
  | .dtimeHi => some .dtimeLo
  | .parkWakeHi => some .parkWakeLo
  | .spanBayNaHi => some .spanBayNaLo
  | .slotCtrHi => some .slotCtrLo
  | .rxTimeHi => some .rxTimeLo
  | .ledgerGenHi => some .ledgerGenLo
  | .jrnHeadHi => some .jrnHeadLo
  | .siteOfsHi => some .siteOfsLo
  | .siteTimeHi => some .siteTimeLo
  | .cycHi => some .cycLo
  | .pmcHi => some .pmcLo
  | _ => none

/-- The value that the pair of a LO register presents. -/
def pairValue (s : State) (i : Nat) (r : Reg) (k : Nat) : Nat :=
  match r with
  | .dtimeLo => s.time.us
  | .parkWakeLo => s.park.wakeTime
  | .spanBayNaLo => bayNotAfter s k
  | .slotCtrLo => (getSlot s k).ctr
  | .rxTimeLo => s.rf.rxTime
  | .ledgerGenLo => s.store.ledger.generation
  | .jrnHeadLo => s.store.head
  | .siteOfsLo => siteOfsNat s
  | .siteTimeLo => siteTimeUs s
  | .cycLo => (getPerf s i).cyc
  | .pmcLo => vget 0 (getPerf s i).pmc k
  | _ => 0

/-! ## One register's word -/

/-- CORE_CTRL (R333): HOLD reads 0 in the keystone's window. -/
def coreCtrlWord (s : State) (i : Nat) : Nat :=
  let k := getCore s i
  b2n (k.hold && i != 2) + 2 * b2n k.halted + 4 * b2n k.lock + 64 * k.code

/-- AON.ISLAND_STATE (R40). -/
def islandStateWord (s : State) : Nat :=
  allIslands.foldl (fun w i => w + pstateCode (pstate s i) * 4 ^ i) 0 + 2 ^ 28 * b2n s.freeze.frozen

/-- AON.ISLAND_LEVEL (R367). -/
def islandLevelWord (s : State) : Nat := allIslands.foldl (fun w i => w + getLevel s i % 4 * 4 ^ i) 0

/-- The oldest result of AON.PWR_RES, or 0 (R367). -/
def pwrResWord (s : State) : Nat :=
  match s.power.results with
  | [] => 0
  | r :: _ => 1 + 2 ^ 8 * r.status.toNat + 2 ^ 16 * r.reason + 2 ^ 20 * r.island + 2 ^ 24 * r.tag

/-- An island's own AON.PWR_QUERY (R367). -/
def pwrQueryWord (s : State) (i : Nat) : Nat :=
  let q := getQuery s i
  q.kind + 4 * q.level + 16 * q.outcome

/-- The code of PARK_CTRL.STATE (R367). -/
def parkPhaseCode : ParkPhase → Nat
  | .idle => 0
  | .querying => 1
  | .stopping => 2
  | .parked => 3
  | .waking => 4

/-- AON.PARK_CTRL (R367). -/
def parkWord (s : State) : Nat :=
  2 * parkPhaseCode s.park.phase + 2 ^ 8 * s.park.last.toNat + 2 ^ 16 * s.park.refuser + 2 ^ 20 * s.park.reason

/-- AON.THERM_STATUS (R368). -/
def thermWord (s : State) : Nat :=
  (s.therm.tj % 256).toNat + 2 ^ 8 * b2n s.therm.hvDie + 2 ^ 9 * (s.therm.pCore % 2 ^ 12)

/-- AON.SUPPLY_STATUS (R392). -/
def supplyWord (s : State) : Nat :=
  b2n s.par.reversed + 2 * b2n s.par.uvVin + 4 * b2n s.par.uvVinlf + 8 * b2n s.par.ov + 2 ^ 16 * (s.par.vin % 2 ^ 12)

/-- AON.MON_STATUS (R448). -/
def monStatusWord (s : State) : Nat :=
  lifecycle s % 4 + 4 * b2n s.mon.unlocked + 8 * b2n (s.freeze.pin && s.freeze.frozen) + 16 * b2n s.freeze.mon + 2 ^ 8 * s.mon.last.toNat

/-- The registers of AON other than pairs. -/
def aonWord (s : State) (ini : Nat) (r : Reg) (k : Nat) : Nat :=
  match r with
  | .offAccessCount => s.via.offCount
  | .offAccessAddr => s.via.offAddr
  | .offAccessSrc => s.via.offSrc
  | .islandState => islandStateWord s
  | .pingCtrl => regValue s 0 .pingCtrl 0 + 2 * b2n (engineOwns s)
  | .pingEvent => bitsOf s.lf.pingEvent (32 * k) 32
  | .wurxCount => s.rf.wurxHello + 2 ^ 16 * s.rf.wurxBad
  | .wurxLast => s.rf.wurxSite + 2 ^ 24 * s.rf.wurxTyp
  | .pwrRes => pwrResWord s
  | .islandLevel => islandLevelWord s
  | .pwrQuery => pwrQueryWord s ini
  | .parkCtrl => parkWord s
  | .wakePend => s.park.wakePend % 256
  | .wakeLast => s.park.wakeLast % 256
  | .parkCount => s.park.entries + 2 ^ 16 * s.park.aborts
  | .thermStatus => thermWord s
  | .parapetPend => s.par.pend % 2 ^ 15
  | .parapetLog => parapetLogWord s
  | .parapetLogTime => readShadow s ini 0 .parapetLogTime 0
  | .rstCause => s.par.rstIsland + 2 ^ 8 * s.par.rstCause.toNat + 2 ^ 16 * s.par.rstCount
  | .rstLimit => s.par.rstLimit % 2 ^ 14
  | .eccCount => s.par.eccCorr + 2 ^ 16 * s.par.eccUncorr
  | .viaCount => s.par.viaParity + 2 ^ 16 * s.par.viaTimeout
  | .supplyStatus => supplyWord s
  | .monStatus => monStatusWord s
  | .bootStatus => bootStatusWord s
  | _ => 0

/-- The oldest answer of the gate, or 0 (R99). -/
def tollAnsWord (s : State) : Nat := match s.toll.answers with | a :: _ => ansWord a | [] => 0

/-- DECK.PROX_BAYn_RES (R208). -/
def proxResWord (p : ProxRes) : Nat := p.verdict + 2 ^ 8 * p.reason.toNat + 2 ^ 16 * p.evidence + 2 ^ 20 * p.aerOk

/-- The registers of DECK other than pairs. -/
def deckWord (s : State) (ini : Nat) (r : Reg) (k : Nat) : Nat :=
  match r with
  | .spanStatus => spanStatusWord s
  | .spanQueueDrop => s.span.drops
  | .spanMerged => s.span.merged
  | .spanLastId => s.span.lastId
  | .spanBayState => bayStateWord s k
  | .spanBayId => (getSpan s k).id
  | .tollCtrl => tollCtrlWord s
  | .tollLfe => s.therm.budget % 2 ^ 16
  | .tollAns => tollAnsWord s
  | .tollAnsX => readShadow s ini 1 .tollAnsX 0
  | .tollAnsTime => readShadow s ini 1 .tollAnsTime 0
  | .tollCount => s.toll.refused + 2 ^ 16 * s.toll.missed
  | .tollPeek => regValue s 1 .tollPeek 0 + 2 ^ 16 * tollPeekFree s
  | .proxRes => proxResWord (vget ProxRes.reset s.span.prox k)
  | .proxDist01 => vget 0xFFFF (vget ProxRes.reset s.span.prox k).d 0 + 2 ^ 16 * vget 0xFFFF (vget ProxRes.reset s.span.prox k).d 1
  | .proxDist23 => vget 0xFFFF (vget ProxRes.reset s.span.prox k).d 2 + 2 ^ 16 * vget 0xFFFF (vget ProxRes.reset s.span.prox k).d 3
  | .proxRtt => (vget ProxRes.reset s.span.prox k).excess % 2 ^ 16 + 2 ^ 16 * ((vget ProxRes.reset s.span.prox k).margin % 2 ^ 8)
  | .dumpWptr => s.dump.wptr
  | .dumpRptr => s.dump.rptr
  | .dumpStatus => 2 * b2n s.dump.recPend
  | .dumpCount => s.dump.records + 2 ^ 16 * s.dump.dropped
  | _ => 0

/-- The registers of KEYS other than pairs. -/
def keysWord (s : State) (r : Reg) (k : Nat) : Nat :=
  match r with
  | .cipherLock => lockWord s
  | .cipherRes => ctxResWord s k
  | .cipherEvent => s.cipher.event
  | .ctrResv => regValue s 2 .ctrResv 0 + 2 ^ 16 * b2n (s.cipher.slots.toList.any (·.resv))
  | .caissonCtrl => b2n (getCaisson s k).isSealed + 2 * b2n ((getCaisson s k).busy || (getCaisson s k).zeroing)
  | .caissonWritten => (getCaisson s k).written
  | .rngStatus => rngStatusWord s
  | .rngData => s.rng.fifo.headD 0
  | .rngEvent => s.rng.event
  | .rngCount => s.rng.failures + 2 ^ 16 * s.rng.reseeds
  | .signRes => signResWord s
  | .signKeyInfo => keyInfoWord s k
  | .slotInfo => slotInfoWord s k
  | .slotKeyId => (getSlot s k).keyId
  | _ => 0

/-- The registers of RF other than pairs. -/
def rfWord (s : State) (r : Reg) (k : Nat) : Nat :=
  match r with
  | .rfStatus => rfStatusWord s
  | .calValid => calValidWord s k
  | .rxInfo => rxInfoWord s
  | .coexCount => s.rf.denied + 2 ^ 16 * s.rf.preempted
  | .antState => antStateWord s
  | .reflLast => reflWord s
  | .rfEvent => s.rf.event
  | .psrStatus => psrStatusWord s
  | _ => 0

/-- The code of FLASH_STATUS.STATE (R301). -/
def flashStateCode : FlashState → Nat
  | .absent => 0
  | .ready => 1
  | .failed => 2
  | .formatting => 3

/-- STORE.CRED_STATUS (R301). -/
def credWord (s : State) : Nat :=
  s.store.ledger.credArea % 2 + 2 * b2n s.store.ledger.credValid + 4 * b2n s.store.erasing + 2 ^ 16 * chunksWritten s

/-- STORE.IMG_CTRL (R339). -/
def imgWord (s : State) : Nat :=
  b2n s.store.imgOpen + 4 * b2n s.store.imgBusy + 8 * b2n s.store.imgDone + 16 * inactiveBank s + 2 ^ 8 * s.store.imgStatus.toNat

/-- The registers of STORE other than pairs. -/
def storeWord (s : State) (r : Reg) (k : Nat) : Nat :=
  match r with
  | .ledgerStatus => s.store.bank % 2 + 2 * b2n (s.store.changes != [] || s.store.write.isSome) + 4 * b2n s.store.fault
  | .jrnStatus => b2n s.store.ready + 2 * b2n s.store.archiving + 2 ^ 16 * ringOccupancy s
  | .jrnAckLo => s.store.ledger.ackSeq % 2 ^ 32
  | .jrnAckHi => s.store.ledger.ackSeq / 2 ^ 32
  | .jrnGapCount => s.store.gaps
  | .flashStatus => flashStateCode s.store.flash + 2 ^ 8 * s.store.flashLast.toNat + 2 ^ 16 * s.store.fitted
  | .credStatus => credWord s
  | .imgCtrl => imgWord s
  | .imgDigest => leAt s.store.imgDigest (4 * k) 4
  | _ => 0

/-- LINK.BUS_STATUS (R426). -/
def busStatusWord (s : State) : Nat :=
  b2n s.link.mRead.isSome + 2 * b2n (s.link.dBusy || s.link.dPoll.isSome) + 4 * s.par.mFault + 16 * s.par.dFault

/-- The registers of LINK other than pairs. -/
def linkWord (s : State) (r : Reg) : Nat :=
  match r with
  | .hostStatus => hostStatusWord s
  | .hostCount => s.link.dropped + 2 ^ 16 * s.link.bad
  | .seqNext => s.link.seqNext % 2 ^ 32
  | .mdio => regValue s 5 .mdio 0 + 2 ^ 28 * b2n s.link.mdio.isSome
  | .busStatus => busStatusWord s
  | .busCount => s.link.mTimeout + 2 ^ 16 * s.link.dNoReply
  | .zwCfg => regValue s 5 .zwCfg 0 + 2 * b2n (s.boot.strapId == 0) + 4 * s.boot.strapId
  | .zwStatus => zwStatusWord s
  | .zwCount => zwCountWord s
  | _ => 0

/-- PIERn.LF_TUNEQk reads as kept; the registers of a pier other than pairs. -/
def pierWord (s : State) (p : Nat) (r : Reg) (k : Nat) : Nat :=
  match r with
  | .lfStatus => lfStatusWord s p
  | .lfRxd => (lfRxdPop p s).1
  | .lfIq => (getPier s p).iqI.toNat + 2 ^ 16 * (getPier s p).iqQ.toNat
  | .lfTuneF => vget 0 (getPier s p).tuneF k
  | .lfTuneQ => vget 0 (getPier s p).tuneQ k
  | .lfAer => lfAerWord s p
  | .lfEvent => (getPier s p).event
  | _ => 0

/-- The registers that every island or core island holds, other than pairs. -/
def commonWord (s : State) (i : Nat) (r : Reg) (k : Nat) : Nat :=
  match r with
  | .cfgStatus => b2n (vget false s.via.werr i)
  | .cfgWerrAddr => vget 0 s.via.werrAddr i
  | .coreCtrl => coreCtrlWord s i
  | .coreEntry => (getCore s i).entry.toNat
  | .perfOvf => (getPerf s i).ovf
  | .snapOvf => (getPerf s i).snapOvf
  | .snapCycLo => (getPerf s i).snapCyc % 2 ^ 32
  | .snapCycHi => (getPerf s i).snapCyc / 2 ^ 32 % 2 ^ 32
  | .snapPmcLo => vget 0 (getPerf s i).snapPmc k % 2 ^ 32
  | .snapPmcHi => vget 0 (getPerf s i).snapPmc k / 2 ^ 32
  | _ => 0

/-- Whether a register lies in every island or every core island. -/
def isCommon (i : Nat) (r : Reg) : Bool :=
  match (rowFor i r).owner with
  | .every => true
  | .cores => true
  | _ => false

/-- The registers whose bits the state of their block holds, in part or whole, beside what is stored as written. -/
def fromState (r : Reg) (row : RegRow) : Bool :=
  row.rw == 0 || r == .pingCtrl || r == .tollCtrl || r == .tollPeek || r == .ctrResv || r == .mdio || r == .zwCfg

/-- A register's word as an initiator reads it, without the effect of the read. -/
def regWord (s : State) (ini i : Nat) (row : RegRow) (k : Nat) : Nat :=
  let r := row.reg
  if (hiOf r).isSome then pairValue s i r k % 2 ^ 32
  else if (loOf r).isSome then readShadow s ini i r k
  else if fromState r row = false then regValue s i r k
  else if isCommon i r then commonWord s i r k
  else match i with
    | 0 => aonWord s ini r k
    | 1 => deckWord s ini r k
    | 2 => keysWord s r k
    | 3 => rfWord s r k
    | 4 => storeWord s r k
    | 5 => linkWord s r
    | p + 6 => pierWord s p r k

/-! ## The read-out engine (R442) -/

/-- What survives an island's OFF state: fields on the high-voltage die or in the abutment, and those that only AON
reset or a warm restart clears, as a mask of the register's word. -/
def keptOff (r : Reg) : Nat :=
  match r with
  | .coreCtrl => 0x1FFFC5
  | .coreEntry => 0xFFFFFFFC
  | .lfAer => 0xFFFFFFFF
  | .antState => 0xFFFFFFFF
  | .seqNext => 0xFFFFFFFF
  | .caissonBase => 0xFFFFFFFF
  | .caissonLen => 0xFFFFFFFF
  | .caissonCtrl => 0x1
  | .caissonWritten => 0xFFFFFFFF
  | _ => 0

/-- A register as the read-out engine reads it: a HI register gives the high bits of its pair, and the log's and the
gate's latched words those of the oldest entry. (DESIGN CHOICE, log entry 20.) -/
def readoutReg (s : State) (i : Nat) (row : RegRow) (k : Nat) : Nat :=
  match loOf row.reg with
  | some lo => pairValue s i lo k / 2 ^ 32 % 2 ^ 32
  | none => match row.reg with
    | .parapetLogTime => match s.par.log with | e :: _ => e.time % 2 ^ 32 | [] => 0
    | .tollAnsX => match s.toll.answers with | a :: _ => a.first + 2 ^ 16 * a.last | [] => 0
    | .tollAnsTime => match s.toll.answers with | a :: _ => a.time % 2 ^ 32 | [] => 0
    | _ => regWord s 1 i row k

/-- A word as the read-out engine answers it (R442): MRAM and flash are no part of what it reads.
(DESIGN CHOICE, log entry 20.) -/
def readoutWord (s : State) (addr : Nat) : Nat × Status :=
  let a := addr / 4 * 4
  if keysSram ≤ a ∧ a < keysSram + keysSramSize then (0, if pstate s 2 = .off then 0x03 else 0xE8)
  else match placeOf a with
    | .reg i => match decodeReg a with
      | some (_, row, k) =>
        if pstate s i = .off then (readoutReg s i row k &&& keptOff row.reg, 0x03)
        else if row.reg = .rngData then (0, 0xE8)
        else (readoutReg s i row k, 0x00)
      | none => (0, if pstate s i = .off then 0x03 else 0x17)
    | .sram i key =>
      if pstate s i = .off then (0, 0x03)
      else if i = 1 ∧ quarantined s key then (0, 0xE8)
      else (leAt (memReadBytes s key 4) 0 4, 0x00)
    | .hole i => (0, if pstate s i = .off then 0x03 else 0x17)
    | _ => (0, 0x17)

end Sys2Proof.Machine
end

