-- ==== Sys2Proof/Machine/Bus.lean ====
section
/-! DEFINITION. The viaduct's accesses: a register read or written with everything that follows from it, a word or a
burst served at its target port, and what a core reaches locally (R9 to R20, R30 to R42, R305 to R309, R333, R340). -/

namespace Sys2Proof.Machine

/-! ## H fields (R14, R15) -/

/-- The H fields of a register, each its lowest bit and length. -/
def hFields : Reg → List (Nat × Nat)
  | .lfFreq => [(0, 22)]
  | .pingCtrl => [(2, 6)]
  | .wurxCfg => [(1, 7)]
  | .caissonBase => [(12, 8)]
  | .caissonLen => [(0, 9)]
  | .rngCtrl => [(3, 3)]
  | .rngHealth => [(0, 8), (8, 10)]
  | .bfp => [(0, 7), (7, 1)]
  | .bfpAa => [(0, 32)]
  | .ethType => [(0, 16)]
  | .ethMacLo => [(0, 32)]
  | .ethMacHi => [(0, 16)]
  | .mbusCfg => [(1, 2), (8, 8)]
  | .mbusDiv => [(0, 16)]
  | .mbusReg => [(0, 16), (16, 16)]
  | .dbusCfg => [(8, 8), (16, 10)]
  | .dbusDiv => [(0, 16)]
  | .zwCfg => [(0, 1), (8, 4)]
  | .dumpCfg => [(1, 1), (16, 14)]
  | .dumpBase => [(6, 14)]
  | .dumpLen => [(0, 15)]
  | _ => []

/-- Whether pier p counts as stopped: ENABLE 0 and BUSY 0 (R124). -/
def pierStopped (s : State) (p : Nat) : Bool := !lfEnabled s p && !bitOf (lfStatusWord s p) 0

/-- Whether the block of a register counts as stopped (R14 and the block's chapter). -/
def blockStopped (s : State) (i : Nat) (r : Reg) (k : Nat) : Bool :=
  match r with
  | .lfFreq => pierStopped s (i - 6)
  | .pingCtrl => !bitOf (regValue s 0 .pingCtrl 0) 0 && !engineOwns s
  | .wurxCfg => !bitOf (regValue s 0 .wurxCfg 0) 0
  | .caissonBase | .caissonLen => !(getCaisson s k).isSealed && !(getCaisson s k).busy && !(getCaisson s k).zeroing
  | .rngCtrl | .rngHealth => !bitOf (regValue s 2 .rngCtrl 0) 0 && !bitOf (rngStatusWord s) 2
  | .bfp | .bfpAa => !rfEnabled s && !bitOf (rfStatusWord s) 3
  | .ethType | .ethMacLo | .ethMacHi => !bitOf (regValue s 5 .hostCfg 0) 1 && !s.link.ethBusy
  | .mbusCfg | .mbusDiv | .mbusReg => !bitOf (regValue s 5 .mbusCfg 0) 0 && s.link.mRead.isNone
  | .dbusCfg | .dbusDiv => !bitOf (regValue s 5 .dbusCfg 0) 0 && !s.link.dBusy && s.link.dPoll.isNone
  | .zwCfg => !bitOf (regValue s 5 .zwCfg 0) 0 && !bitOf (zwStatusWord s) 9
  | .dumpCfg | .dumpBase | .dumpLen => !bitOf (regValue s 1 .dumpCfg 0) 0
  | .coreCtrl | .coreEntry => (getCore s i).hold && (getCore s i).halted
  | _ => true

/-- The bits that the strobes of a word select. -/
def strobeMask (strb : Nat) : Nat := (List.range 4).foldl (fun m i => if bitOf strb i then m + 0xFF * 256 ^ i else m) 0

/-- Whether the strobes cover a field wholly. (DESIGN CHOICE, log entry 18.) -/
def covers (mask lo len : Nat) : Bool := bitsOf mask lo len == 2 ^ len - 1

/-- The H fields that a write changes: those its strobes cover and whose value differs (R15). (DESIGN CHOICE, log entry 18.) -/
def changedH (w mask data : Nat) (fs : List (Nat × Nat)) : List (Nat × Nat) :=
  fs.filter (fun f => covers mask f.1 f.2 && bitsOf data f.1 f.2 != bitsOf w f.1 f.2)

/-- A write to an H field is rejected: WERR is set and the first such address kept (R15). -/
def noteWerr (i addr : Nat) (s : State) : State :=
  countEvent i 0x00C 1 (modVia (fun v => { v with
    werrAddr := if vget false v.werr i then v.werrAddr else vset v.werrAddr i addr,
    werr := vset v.werr i true }) s)

/-! ## Who may write (R301, R333, R240, R264) -/

/-- The registers that only the keystone core writes. -/
def keystoneOnly : Reg → Bool
  | .coreCtrl | .coreEntry | .cipherLock | .cipherHold | .cipherCmd | .slotCtrl | .ctrResv | .caissonBase | .caissonLen
  | .caissonCtrl | .rngCtrl | .rngHealth | .rngPers | .rngPersLen | .signCmd => true
  | _ => false

/-- The registers that only the deck core writes. -/
def deckOnly : Reg → Bool
  | .tollReqR | .tollCancelR | .parapetFaultEn => true
  | _ => false

/-- Whether a register takes writes from `ini`. -/
def mayWrite (ini i : Nat) (r : Reg) : Bool :=
  if keystoneOnly r then ini == 2
  else if deckOnly r then ini == 1
  else if i = 4 ∧ isCommon 4 r = false then ini == 1
  else if r = .wdog then ini == i
  else true

/-! ## A core held, started and locked (R333) -/

/-- A core that has asked to stop stops once it waits for nothing and no transaction is outstanding (R333). -/
def settleHold (c : Nat) (s : State) : State :=
  let k := getCore s c
  if k.hold ∧ k.wait = .none ∧ outstanding s c = 0 then setCore c { k with halted := true } s else s

/-- A write of HOLD: 1 stops the core at its next boundary, 0 starts it afresh at ENTRY; in the keystone's window it is
ignored. -/
def holdWrite (i : Nat) (on : Bool) (s : State) : State :=
  if i = 2 then s
  else if on then settleHold i (modCore i (fun k => { k with hold := true }) s)
  else
    let t := modCore i (fun k => { k with hold := false }.startAt k.entry) s
    if i = 1 then deckStarts t else t

/-- A write of LOCK = 1. -/
def lockWrite (i : Nat) (s : State) : State := modCore i (fun k => { k with lock := true }) s

/-- A write of CORE_CTRL: CODE is discarded with 0x02 while LOCK is 1, and under R15 while the core runs. -/
def coreCtrlWrite (i addr data strb : Nat) (s : State) : Status × State :=
  let m := strobeMask strb
  let k := getCore s i
  let newCode := covers m 6 15 && bitsOf data 6 15 != k.code
  let x : Status × State :=
    if newCode = false then (0x00, s)
    else if k.lock then (0x02, s)
    else if blockStopped s i .coreCtrl 0 then (0x00, modCore i (fun k => { k with code := bitsOf data 6 15 }) s)
    else (0x04, noteWerr i addr s)
  let s := if bitOf (data &&& m) 2 then lockWrite i x.2 else x.2
  (x.1, if bitOf m 0 then holdWrite i (bitOf data 0) s else s)

/-- A write of CORE_ENTRY, an H field. -/
def coreEntryWrite (i addr data strb : Nat) (s : State) : Status × State :=
  let m := strobeMask strb
  if covers m 2 30 = false ∨ bitsOf data 2 30 = bitsOf (getCore s i).entry.toNat 2 30 then (0x00, s)
  else if blockStopped s i .coreEntry 0 then
    (0x00, modCore i (fun k => { k with entry := BitVec.ofNat 32 (bitsOf data 2 30 * 4) }) s)
  else (0x04, noteWerr i addr s)

/-! ## What a register write does beside storing its value -/

/-- The bits of `x` that `d` does not clear. -/
def clearBits (x d : Nat) : Nat := x - (x &&& d)

/-- The effect of a write of `d` to an AON register. -/
def aonAct (ini : Nat) (r : Reg) (k d : Nat) (s : State) : Status × State :=
  match r with
  | .pingEvent => (0x00, modLf (fun l => { l with pingEvent := clearBits l.pingEvent (d * 2 ^ (32 * k)) }) s)
  | .pwrCmd =>
    pwrCmdWrite ini (bitsOf d 0 2 != 3) (if bitsOf d 0 2 = 1 then .on else if bitsOf d 0 2 = 2 then .off else .level)
      (bitsOf d 4 4) (bitsOf d 8 2) (bitsOf d 12 4) s
  | .pwrReply => pwrReplyWrite ini (bitsOf d 0 2) (bitsOf d 2 7) (bitsOf d 9 3) s
  | .parkCtrl => if bitOf d 0 then parkRequestWrite ini s else (0x00, s)
  | .wakePend => (0x00, modPark (fun p => { p with wakePend := clearBits p.wakePend d }) s)
  | .alarmHi => alarmArmWrite (regValue s 0 .alarmHi 0) s
  | .parapetPend => (0x00, modPar (fun p => { p with pend := clearBits p.pend d }) s)
  | .restart => restartRegWrite ini (bitsOf d 0 4) s
  | .rstLimit => rstLimitWrite ini d s
  | .supplyStatus => (0x00, if bitOf d 0 then modPar (fun p => { p with reversed := false }) s else s)
  | .dumpPeriod => (0x00, if liveField s 0 .dumpPeriod 0 0 24 = 0 then latchReg s 0 .dumpPeriod 0 else s)
  | .lcCtrl => lcCtrlWrite (bitOf d 0) (bitOf d 1) s
  | _ => (0x00, s)

/-- The effect of a write of `d` to a DECK register; `low` says whether the lowest byte is written. -/
def deckAct (r : Reg) (d : Nat) (low : Bool) (s : State) : Status × State :=
  match r with
  | .spanCtrl => (0x00, if low && !bitOf d 0 then spanDisableAct s else s)
  | .tollReqR => tollReqWrite d s
  | .tollCancelR => (0x00, tollCancelHandle (bitsOf d 0 8) s)
  | .dumpCfg => (0x00, if bitOf d 0 then dumpEnableReset s else s)
  | .dumpRptr => (0x00, modDump (fun x => { x with rptr := bitsOf d 0 16 }) s)
  | .dumpStatus => (0x00, if bitOf d 1 then modDump (fun x => { x with recPend := false }) s else s)
  | _ => (0x00, s)

/-- The effect of a write of `d` to a KEYS register. (DESIGN CHOICE, log entry 18.) -/
def keysAct (r : Reg) (k d : Nat) (low : Bool) (s : State) : Status × State :=
  match r with
  | .cipherLock =>
    let x : Status × State := if bitOf d 17 then lockReleaseWrite .keys s else (0x00, s)
    if bitOf d 16 then lockAcquireWrite x.2 else x
  | .cipherCmd =>
    let c := bitsOf d 0 1
    match bitsOf d 1 2 with
    | 0 => cipherStartAct c (bitsOf d 8 12) s
    | 1 => cipherSuspendAct c (bitsOf d 8 12) s
    | 2 => cipherResumeAct c s
    | _ => cipherAbortAct c s
  | .cipherEvent => (0x00, modCipher (fun e => { e with event := clearBits e.event d }) s)
  | .slotCtrl => if bitOf d 7 then slotClearWrite (bitsOf d 0 7) s else (0x00, s)
  | .caissonCtrl => if low then sealWrite k (bitOf d 0) s else (0x00, s)
  | .rngCtrl =>
    let s := if low then rngEnableWrite (bitOf d 0) s else s
    let s := if bitOf d 1 then rngAskReseed s else s
    (0x00, if bitOf d 2 then rngRestartWrite s else s)
  | .rngEvent => (0x00, modRng (fun g => { g with event := clearBits g.event d }) s)
  | .signCmd => signCmdWrite (bitsOf d 0 3) (bitsOf d 4 3) (bitsOf d 8 12) s
  | .signRes => (0x00, if bitOf d 8 then modSigner (fun g => { g with done := false }) s else s)
  | _ => (0x00, s)

/-- A command written to RF.CMD (R161, R162, R185). -/
def rfCmdWord (d : Nat) (s : State) : Status × State :=
  let op := bitsOf d 0 3
  match op with
  | 0 => rfRestCommand 0 .off s
  | 1 => rfRestCommand 1 .standby s
  | 5 => rfRestCommand 5 .wake s
  | _ => rfCommand { op := op, ch := bitsOf d 3 7, aerial := bitsOf d 10 2, pwr := bitsOf d 12 6, rate := bitOf d 18 } s

/-- The effect of a write of `d` to an RF register. (DEDUCED, log entry 35.) -/
def rfAct (r : Reg) (d : Nat) (low : Bool) (s : State) : Status × State :=
  match r with
  | .rfCtrl => (0x00, if low && !bitOf d 0 then rfRestAct 0 .off s else s)
  | .rfCmd => rfCmdWord d s
  | .antClrR => (0x00, antClear (bitsOf d 0 4) s)
  | .rfEvent => (0x00, modRf (fun x => { x with event := clearBits x.event d }) s)
  | .psrCtrl =>
    (0x00, if bitOf d 1 then psrAbort (regValue s 3 .psrCtrl 0) s
      else if bitOf d 0 then psrStart (regValue s 3 .psrCtrl 0) s else s)
  | _ => (0x00, s)

/-- The effect of a write of `d` to a STORE register: a write of JRN_ACK_HI commits LO and HI together (R297, R301). -/
def storeAct (ini : Nat) (r : Reg) (d : Nat) (low : Bool) (s : State) : Status × State :=
  let key := shadowKey ini (regAddr 4 .jrnAckLo 0)
  match r with
  | .jrnAckLo => (0x00, { s with wshadow := SMap.set 0 key d s.wshadow })
  | .jrnAckHi =>
    let lo := SMap.get 0 key s.wshadow
    jrnAckCommit (lo + 2 ^ 32 * d) { s with wshadow := SMap.set 0 key 0 s.wshadow }
  | .imgCtrl =>
    let x : Status × State := if low then imgOpenWrite (bitOf d 0) s else (0x00, s)
    if bitOf d 1 then
      let y := imgHashWrite x.2
      (if x.1 = 0 then y.1 else x.1, y.2)
    else x
  | _ => (0x00, s)

/-- The effect of a write of `d` to a LINK register: MDIO READ takes precedence over WRITE; an access that runs is not
disturbed (R426). -/
def linkAct (r : Reg) (d : Nat) (s : State) : Status × State :=
  match r with
  | .mdio =>
    (0x00, if s.link.mdio.isSome then s
      else if bitOf d 26 then modLink (fun l => { l with mdio := some true }) s
      else if bitOf d 27 then modLink (fun l => { l with mdio := some false }) s
      else s)
  | _ => (0x00, s)

/-- The effect of a write of `d` to a register of pier p: STOP takes precedence over START (R111, R113, R124). -/
def pierAct (p : Nat) (r : Reg) (d : Nat) (low : Bool) (s : State) : Status × State :=
  match r with
  | .lfCtrl => (0x00, if low then lfEnableWrite p (bitOf d 0) s else s)
  | .lfCmd =>
    if bitOf d 7 then (0x00, lfStop p s)
    else if bitOf d 6 then lfStart p (bitsOf d 0 3) (bitsOf d 3 3) (bitsOf d 8 12) s
    else (0x00, s)
  | .lfTxd => lfTxdPush p d s
  | .lfAerClrR => (0x00, lfAerClear p (bitsOf d 0 8) s)
  | .lfEvent => (0x00, modPier p (fun q => { q with event := clearBits q.event d }) s)
  | _ => (0x00, s)

/-- The effect of a write of `d` to a register that every island or core island holds. -/
def commonAct (ini i : Nat) (r : Reg) (k d : Nat) (s : State) : Status × State :=
  match r with
  | .cfgStatus => (0x00, if bitOf d 0 then modVia (fun v => { v with werr := vset v.werr i false }) s else s)
  | .wdogKick => wdogKickWrite ini i (bitOf d 0) s
  | .perfOvf => (0x00, modPerf i (fun p => { p with ovf := clearBits p.ovf d }) s)
  | .cycLo | .pmcLo => (0x00, { s with wshadow := SMap.set 0 (shadowKey ini (regAddr i r k)) d s.wshadow })
  | .cycHi | .pmcHi => (0x00, counterHi ini i r k d s)
  | _ => (0x00, s)

/-- What a write of `d` does beside storing its value. -/
def writeAct (ini i : Nat) (r : Reg) (k d : Nat) (low : Bool) (s : State) : Status × State :=
  if isCommon i r then commonAct ini i r k d s
  else match i with
    | 0 => aonAct ini r k d s
    | 1 => deckAct r d low s
    | 2 => keysAct r k d low s
    | 3 => rfAct r d low s
    | 4 => storeAct ini r d low s
    | 5 => linkAct r d s
    | p + 6 => pierAct p r d low s

/-! ## A register read and a register written -/

/-- The stored fields of a register after a write: L and S fields under the strobes; an H field when the strobes cover
it and, unless its value stays, the block is stopped (R12 to R15). (DESIGN CHOICE, log entry 18.) -/
def storeFields (i addr : Nat) (row : RegRow) (k data mask : Nat) (s : State) : Status × State :=
  let w := regValue s i row.reg k
  let fs := hFields row.reg
  let rejected := !(changedH w mask data fs).isEmpty && !blockStopped s i row.reg k
  let free := writeMask row.reg row k &&& mask
  let keep := fs.foldl (fun m f => if covers mask f.1 f.2 && !rejected then m else setField m f.1 f.2 0) free
  let s := if keep = 0 then s else putReg s i row.reg k (storedWord row.reg (clearBits w keep + (data &&& keep)))
  if rejected then (0x04, noteWerr i addr s) else (0x00, s)

/-- A write to a register reaches its island (R9 to R15): who may write, the fields, then the effect.
(DESIGN CHOICE, log entry 18.) -/
def regWrite (ini i : Nat) (row : RegRow) (k addr data strb : Nat) (s : State) : Status × State :=
  if mayWrite ini i row.reg = false then (0x02, s)
  else if strb % 16 = 0 then (0x00, s)
  else if row.reg = .coreCtrl then coreCtrlWrite i addr data strb s
  else if row.reg = .coreEntry then coreEntryWrite i addr data strb s
  else
    let mask := strobeMask strb
    let x := storeFields i addr row k data mask s
    let y := writeAct ini i row.reg k (data &&& mask) (bitOf strb 0) x.2
    (if x.1 = 0 then y.1 else x.1, y.2)

/-- The latch that a read of a LO register leaves for its initiator (R29). -/
def latchHi (ini i : Nat) (r : Reg) (k : Nat) (s : State) : State :=
  match hiOf r with
  | some hi => latchShadow ini i hi k (pairValue s i r k / 2 ^ 32 % 2 ^ 32) s
  | none => s

/-- A read of DECK.TOLL_ANS removes the oldest answer, latches its slots and time, and gives the answer to the deck
program that read it (R99). -/
def tollAnsRead (ini : Nat) (s : State) : State :=
  match s.toll.answers with
  | [] => latchShadow ini 1 .tollAnsX 0 0 (latchShadow ini 1 .tollAnsTime 0 0 s)
  | a :: rest =>
    let s := latchShadow ini 1 .tollAnsX 0 (a.first + 2 ^ 16 * a.last) (latchShadow ini 1 .tollAnsTime 0 (a.time % 2 ^ 32) s)
    let s := modToll (fun t => { t with answers := rest }) s
    if ini = 1 then renewNext (tollTaken a s) else s

/-- What a read clears or pops (R10): the state after it. -/
def readClear (ini i : Nat) (r : Reg) (s : State) : State :=
  match r with
  | .offAccessCount => modVia (fun v => { v with offCount := 0 }) s
  | .wurxCount => modRf (fun x => { x with wurxHello := 0, wurxBad := 0 }) s
  | .pwrRes => modPower (fun p => { p with results := p.results.drop 1 }) s
  | .pwrQuery => modPower (fun p => { p with query := vset p.query ini { getQuery s ini with outcome := 0 } }) s
  | .parkCount => modPark (fun p => { p with entries := 0, aborts := 0 }) s
  | .parapetLog => (parapetLogRead ini s).2
  | .rstCause => modPar (fun p => { p with rstCount := 0 }) s
  | .eccCount => modPar (fun p => { p with eccCorr := 0, eccUncorr := 0 }) s
  | .viaCount => modPar (fun p => { p with viaParity := 0, viaTimeout := 0 }) s
  | .spanQueueDrop => modSpan (fun p => { p with drops := 0 }) s
  | .spanMerged => modSpan (fun p => { p with merged := 0 }) s
  | .tollAns => tollAnsRead ini s
  | .tollCount => modToll (fun t => { t with refused := 0, missed := 0 }) s
  | .dumpCount => modDump (fun d => { d with records := 0, dropped := 0 }) s
  | .rngData => (rngDataPop s).2.2
  | .rngCount => modRng (fun g => { g with failures := 0, reseeds := 0 }) s
  | .coexCount => modRf (fun x => { x with denied := 0, preempted := 0 }) s
  | .jrnGapCount => modStore (fun t => { t with gaps := 0 }) s
  | .hostCount => modLink (fun l => { l with dropped := 0, bad := 0 }) s
  | .busCount => modLink (fun l => { l with mTimeout := 0, dNoReply := 0 }) s
  | .zwCount => modZw (fun z => { z with crc := 0, downs := 0, heldDrop := 0 }) s
  | .lfRxd => (lfRxdPop (i - 6) s).2
  | _ => s

/-- A read of a register reaches its island: its word and status, the latch of its pair, and what it clears. -/
def regRead (ini i : Nat) (row : RegRow) (k : Nat) (s : State) : Nat × Status × State :=
  if row.reg = .rngData then rngDataPop s
  else (regWord s ini i row k, 0x00, readClear ini i row.reg (latchHi ini i row.reg k s))

/-! ## A transaction served -/

/-- What a target answers: data, status and the state after. -/
structure Served where
  data   : List Nat
  status : Status
  next   : State

/-- Whether a burst of n words keeps the address rule and lies in memory (R30, R31). -/
def burstOk (a n : Nat) : Bool :=
  decide (2 ≤ n) && decide (n ≤ 16) && a % 4 == 0 && decide (a % 64 + 4 * n ≤ 64) &&
    (match placeOf a with
     | .mram _ => true
     | .sram _ _ => true
     | .view _ => true
     | _ => false)

/-- The words of a burst read, up to the first that fails. -/
def readWords (s : State) (a : Nat) : Nat → List Nat × Status
  | 0 => ([], 0x00)
  | n + 1 =>
    let w := memWordRead s a
    if w.2 ≠ 0 then ([0], w.2)
    else
      let r := readWords s (a + 4) n
      (w.1 :: r.1, r.2)

/-- The words of a burst write, up to the first that fails. -/
def writeWords (ini a : Nat) : List Nat → State → Status × State
  | [], s => (0x00, s)
  | w :: ws, s =>
    let r := memWordWrite ini a w 0xF s
    if r.1 ≠ 0 then r else writeWords ini (a + 4) ws r.2

/-- A word read at its place. -/
def readAt (ini a : Nat) (s : State) : Served :=
  match placeOf a with
  | .reg i => match decodeReg a with
    | some (_, row, k) => let r := regRead ini i row k s; ⟨[r.1], r.2.1, r.2.2⟩
    | none => ⟨[0], 0x17, s⟩
  | _ => let r := memWordRead s a; ⟨[r.1], r.2, s⟩

/-- A word written at its place. -/
def writeAt (ini a w strb : Nat) (s : State) : Served :=
  match placeOf a with
  | .reg i => match decodeReg a with
    | some (_, row, k) => let r := regWrite ini i row k a w strb s; ⟨[], r.1, r.2⟩
    | none => ⟨[], 0x17, s⟩
  | _ => let r := memWordWrite ini a w strb s; ⟨[], r.1, r.2⟩

/-- A read of n words at its target (R30, R31, R35, R41, R42). -/
def serveRead (ini addr n : Nat) (burst : Bool) (s : State) : Served :=
  let a := if burst then addr else addr / 4 * 4
  if placeAnswers s a = false then ⟨List.replicate n 0, 0x03, noteOff ini addr false burst false s⟩
  else
    let s := match (placeOf a).island with | some i => countServe ini i s | none => s
    if burst then
      if burstOk a n then
        let r := readWords s a n
        ⟨r.1 ++ List.replicate (n - r.1.length) 0, r.2, s⟩
      else ⟨List.replicate n 0, 0x17, s⟩
    else readAt ini a s

/-- A write of words at its target. -/
def serveWrite (ini addr : Nat) (ws : List Nat) (strb : Nat) (burst : Bool) (s : State) : Served :=
  let a := if burst then addr else addr / 4 * 4
  if placeAnswers s a = false then ⟨[], 0x03, noteOff ini addr true burst false s⟩
  else
    let s := match (placeOf a).island with | some i => countServe ini i s | none => s
    if burst then
      if burstOk a ws.length then
        let r := writeWords ini a ws s
        ⟨[], r.1, r.2⟩
      else ⟨[], 0x17, s⟩
    else writeAt ini a (ws.headD 0) strb s

/-- Whether `ini` can have an access to `addr` served now (R33). -/
def canReachAddr (s : State) (ini addr : Nat) : Bool :=
  match (placeOf addr).island with
  | some i => canReach s ini i
  | none => canAct s ini

/-- The count of a transaction that `ini` issues to an address. -/
def countIssueAddr (ini addr : Nat) (s : State) : State :=
  match (placeOf addr).island with
  | some i => countIssue ini i s
  | none => countEvent ini 0x005 1 s

/-- A whole transaction of `ini`: issued, served and answered (R30). -/
def viaServe (ini addr : Nat) (serve : State → Served) (s : State) : State :=
  if canReachAddr s ini addr then
    let r := serve (countIssueAddr ini addr s)
    setResp ini r.data r.status (countStatus ini r.status r.next)
  else s

/-- A word written by `ini` to a viaduct address, whole (R30). -/
def viaRegWrite (ini addr data strb : Nat) (s : State) : State :=
  viaServe ini addr (serveWrite ini addr [data] strb false) s

/-- A word read by `ini` from a viaduct address, whole (R30). -/
def viaRegRead (ini addr : Nat) (s : State) : State := viaServe ini addr (serveRead ini addr 1 false) s

/-! ## Local accesses of a core (R305, R307, R308, R331) -/

/-- Whether address `a` is local to core c (R305). -/
def isLocal (c a : Nat) : Bool := inWindow c a || (c == 1 && decide (deckSram ≤ a) && decide (a < deckSram + 0x100000))

/-- Whether a keystone address lies in the boot ROM (R331). (DEDUCED, log entry 19.) -/
def inRom (a : Nat) : Bool := decide (romBase ≤ a) && decide (a < romBase + 0x10000)

/-- Whether a keystone address lies in its private SRAM. -/
def inKeysSram (a : Nat) : Bool := decide (keysSram ≤ a) && decide (a < keysSram + keysSramSize)

/-- Whether a local address of core c is in its SRAM. -/
def isLocalSram (c a : Nat) : Bool :=
  if c = 2 then inKeysSram a
  else match placeOf a with
    | .sram _ _ => true
    | _ => false

/-- Whether a local access takes BUSERR before any effect: beyond the SRAM size, or in a sealed caisson (R308). -/
def localBusErr (s : State) (c a : Nat) : Bool :=
  if c = 2 then decide (islandBase 2 + 0x800000 ≤ a) && !inKeysSram a && !inRom a && inWindow 2 a
  else match placeOf a with
    | .sram i key => i == 1 && quarantined s key
    | .hole i => decide (islandBase i + 0x800000 ≤ a)
    | _ => false

/-- A local word of the keystone's private SRAM or boot ROM; the ROM's contents are the maker's. -/
def keysLocalRead (s : State) (a : Nat) : Nat :=
  if inRom a then (Config.bootRom ((a - romBase) / 4)).toNat else leAt (memReadBytes s a 4) 0 4

/-- A local read of n words by core c. -/
def localRead (c addr n : Nat) (burst : Bool) (s : State) : Served :=
  let a := if burst then addr else addr / 4 * 4
  if c = 2 ∧ (inKeysSram a ∨ inRom a) then ⟨(List.range n).map (fun i => keysLocalRead s (a + 4 * i)), 0x00, s⟩
  else serveRead c addr n burst s

/-- Words written from an address of the keystone's private SRAM; its locked code region takes none (R333). -/
def keysPutWords (a : Nat) : List Nat → Nat → State → Status × State
  | [], _, s => (0x00, s)
  | w :: ws, strb, s =>
    if codeLocked s 2 (a - keysSram) then (0x02, s) else keysPutWords (a + 4) ws strb (strobeBytes strb w a s)

/-- A local write by core c. The boot ROM takes no write. (DEDUCED, log entry 19.) -/
def localWrite (c addr : Nat) (ws : List Nat) (strb : Nat) (burst : Bool) (s : State) : Served :=
  let a := if burst then addr else addr / 4 * 4
  if c = 2 ∧ inKeysSram a then let r := keysPutWords a ws strb s; ⟨[], r.1, r.2⟩
  else if c = 2 ∧ inRom a then ⟨[], 0x17, s⟩
  else serveWrite c addr ws strb burst s

/-- Whether core c may fetch an instruction at pc (R309, R331). (DEDUCED, log entry 14.) -/
def fetchOk (c : Nat) (pc : Word) : Bool :=
  let a := pc.toNat
  a % 4 == 0 && (if c = 2 then inKeysSram a || inRom a else isLocal c a && isLocalSram c a)

/-! ## SRAM errors (R375) -/

/-- Whether an SRAM address lies where an uncorrectable error restarts its island: a code region, or keystone SRAM. -/
def eccRestarts (s : State) (a : Nat) : Option Nat :=
  if inKeysSram a then some 2
  else match placeOf a with
    | .sram i key => if keyOffset i key < 64 * (getCore s i).code then some i else none
    | _ => none

/-- The island whose SRAM an address names. -/
def sramIsland (a : Nat) : Option Nat :=
  if inKeysSram a then some 2
  else match placeOf a with
    | .sram i _ => some i
    | _ => none

/-- What the ECC of an SRAM word read at `a` finds is counted, reported, and may restart the island (R375). -/
def noteEcc (a : Nat) (ecc : EccFinding) (s : State) : State :=
  match ecc, sramIsland a with
  | .corrected, some i => countEvent i 0x00B 1 (modPar (fun p => { p with eccCorr := satTo 0xFFFF (p.eccCorr + 1) }) s)
  | .uncorrectable, some i =>
    let s := parapetEvent 0xD0 i 0 (leBytes 4 a) (modPar (fun p => { p with eccUncorr := satTo 0xFFFF (p.eccUncorr + 1) }) s)
    match eccRestarts s a with
    | some j => requestRestart j 0xD0 s
    | none => s
  | _, _ => s

/-! ## Interrupt lines (R322, R340, R433) -/

/-- Lines 2 to 7 of island c, by R340's table. -/
def tableLine (s : State) (c n : Nat) : Bool :=
  if n = 6 then (match (getQuery s c).phase with | .awaiting _ => true | _ => false)
  else match c with
    | 1 => match n with
      | 2 => !s.toll.answers.isEmpty
      | 3 => s.toll.missed != 0
      | 4 => s.dump.recPend
      | 5 => s.par.pend != 0
      | _ => false
    | 2 => match n with
      | 2 => bitsOf s.cipher.event 0 2 != 0
      | 3 => bitsOf s.cipher.event 2 3 != 0
      | 4 => s.signer.done
      | 5 => s.rng.event != 0
      | _ => false
    | 3 => match n with
      | 2 => bitOf s.rf.event 0
      | 3 => bitsOf s.rf.event 1 2 != 0
      | 4 => bitsOf s.rf.event 3 2 != 0
      | 5 => bitsOf s.rf.event 8 4 != 0
      | 7 => !s.psr.busy && s.psr.owed
      | _ => false
    | p + 6 => match n with
      | 2 => bitOf (getPier s p).event 0
      | 3 => bitsOf (getPier s p).event 8 8 != 0
      | 4 => bitsOf (getPier s p).event 16 8 != 0
      | 5 => !(getPier s p).rx.isEmpty
      | 7 => decide (16 ≤ bitsOf (lfStatusWord s p) 16 6)
      | _ => false
    | _ => false

/-- Whether line n of core c is pending. -/
def linePending (s : State) (c n : Nat) : Bool :=
  if n = 0 then !(inboxOf s c).isEmpty
  else if n = 1 then (getCore s c).alarmPend
  else if n ≤ 7 then tableLine s c n
  else if n = 14 then (getPerf s c).ovf &&& bitsOf (regValue s c .perfCtrl 0) 9 8 != 0
  else false

/-- spend: the pending lines of core c (R304). -/
def pendingLines (s : State) (c : Nat) : BitVec 16 :=
  BitVec.ofNat 16 ((List.range 16).foldl (fun w n => w + b2n (linePending s c n) * 2 ^ n) 0)

/-- The pending lines that smask lets through. -/
def pendingMasked (s : State) (c : Nat) : BitVec 16 := pendingLines s c &&& (getCore s c).maskLines

/-- The lowest line of a set. -/
def lowestLine (m : BitVec 16) : Nat := ((List.range 16).find? (fun n => m.getLsbD n)).getD 0

end Sys2Proof.Machine
end

