-- ==== Sys2Proof/Machine/Colot.lean ====
section
/-! DEFINITION. The Colot cores: registers, taking a trap or an interrupt, the return, the boundary at which an
instruction runs, special registers and the completion of an access (11_colot_isa.md). (DESIGN CHOICE, log entry 30.) -/

namespace Sys2Proof.Machine

/-! ## Registers (R302) -/

/-- What a read of general register r gives: 0 for g0, the bank in use for g12 to g15. -/
def Core.gpr (k : Core) (r : RegF) : Word :=
  if r = 0 then 0
  else if k.active ∧ 12 ≤ r.toNat then vget 0 k.trapBank (r.toNat - 12)
  else vget 0 k.regs r.toNat

/-- A write of general register r: discarded for g0, to the bank in use for g12 to g15. -/
def Core.setGpr (k : Core) (r : RegF) (w : Word) : Core :=
  if r = 0 then k
  else if k.active ∧ 12 ≤ r.toNat then { k with trapBank := vset k.trapBank (r.toNat - 12) w }
  else { k with regs := vset k.regs r.toNat w }

/-- g12 + i of the bank not in use (R303). -/
def Core.other (k : Core) (i : Nat) : Word := if k.active then vget 0 k.regs (12 + i) else vget 0 k.trapBank i

/-- A write of g12 + i of the bank not in use (R303). -/
def Core.setOther (k : Core) (i : Nat) (w : Word) : Core :=
  if k.active then { k with regs := vset k.regs (12 + i) w } else { k with trapBank := vset k.trapBank i w }

/-- The quad's four words as a message or a burst, the lowest register first (R316, R319). -/
def Core.quad (k : Core) (r : RegF) : List Word := [k.gpr r, k.gpr (r + 1), k.gpr (r + 2), k.gpr (r + 3)]

/-- A quad receives four words. -/
def Core.setQuad (k : Core) (r : RegF) (ws : List Nat) : Core :=
  let w (i : Nat) : Word := BitVec.ofNat 32 (ws.getD i 0)
  (((k.setGpr r (w 0)).setGpr (r + 1) (w 1)).setGpr (r + 2) (w 2)).setGpr (r + 3) (w 3)

/-- The quad as a 16-byte message, byte 0 in the low byte of the first register (R319). -/
def Core.quadMsg (k : Core) (r : RegF) : BitVec 128 :=
  k.gpr (r + 3) ++ k.gpr (r + 2) ++ k.gpr (r + 1) ++ k.gpr r

/-- The four words of a message. -/
def msgWords (m : BitVec 128) : List Nat :=
  [(m.extractLsb' 0 32).toNat, (m.extractLsb' 32 32).toNat, (m.extractLsb' 64 32).toNat, (m.extractLsb' 96 32).toNat]

/-- The 64-bit time in a register pair (R320). -/
def Core.pairTime (k : Core) (r : RegF) : Nat := (k.gpr r).toNat + 2 ^ 32 * (k.gpr (r + 1)).toNat

/-! ## Traps, interrupts and the return (R325 to R328) -/

/-- A trap's or interrupt's entry on the core: the saved pc, status and bank, the cause, and the vector (R326). -/
def Core.enter (k : Core) (scause spc sval vector : Word) : Core :=
  { k with spc := spc, scause := scause, sval := sval, pie := k.ie, ie := false, it := true,
           pbank := k.active, active := true, pc := vector, wait := .none }

/-- A synchronous trap of cause `code`: entry at svec + 4 × code, or a double fault while IT is 1, which stops the core
and asks AON for a warm restart with cause 0xD4 (R325, R328, R378). (DEDUCED, log entry 22.) -/
def syncTrap (c : Nat) (code : Nat) (imprecise : Bool) (spc sval : Word) (s : State) : State :=
  let k := getCore s c
  if k.it then requestRestart c 0xD4 (setCore c { k with halted := true, wait := .none } s)
  else
    countEvent c 0x003 1
      (setCore c (k.enter (BitVec.ofNat 32 (code + 512 * b2n imprecise)) spc sval (k.svec + BitVec.ofNat 32 (4 * code))) s)

/-- An interrupt on line n: entry at svec + 64 + 4 × n. The spec names no sval for an interrupt: it is a free value. -/
def interruptEntry (c n : Nat) (spc : Word) (s : State) : State :=
  let k := getCore s c
  countEvent c 0x004 1 (setCore c
    (k.enter (BitVec.ofNat 32 (256 + n)) spc (BitVec.ofNat 32 (freeValue s)) (k.svec + BitVec.ofNat 32 (64 + 4 * n))) (useFree s))

/-- reti: pc ← spc, IE ← PIE, ACTIVE ← PBANK, IT ← 0 (R318). -/
def Core.returnFrom (k : Core) : Core := { k with pc := k.spc, ie := k.pie, active := k.pbank, it := false }

/-! ## Instruction boundaries -/

/-- The instruction at pc has completed: the next one follows. -/
def advance (c : Nat) (s : State) : State :=
  settleHold c (countEvent c 0x001 1 (modCore c (fun k => { k with pc := k.pc + 4, wait := .none }) s))

/-- The instruction at pc has completed and control goes to `t`. -/
def advanceTo (c : Nat) (t : Word) (s : State) : State :=
  settleHold c (countEvent c 0x001 1 (modCore c (fun k => { k with pc := t, wait := .none }) s))

/-- Whether the core stands at an instruction boundary: its island runs, and it neither is held nor waits. -/
def atBoundary (s : State) (c : Nat) : Bool :=
  let k := getCore s c
  canAct s c && hasCore c && !k.halted && !k.hold && (k.wait == .none)

/-- Whether an interrupt is to be taken at this boundary (R326). -/
def interruptDue (s : State) (c : Nat) : Bool := (getCore s c).ie && (pendingMasked s c != 0)

/-- Whether an imprecise STATUS trap is to be taken at this boundary (R312). -/
def impreciseDue (s : State) (c : Nat) : Bool := (getCore s c).imprecise.isSome && !(getCore s c).it

/-- One instruction at a boundary, in the order of R327: FETCH, ILLEGAL, the traps found before any effect (`pre` with
its sval, noted by `note`), then, unless an imprecise STATUS trap or an interrupt comes first, the effect.
(DESIGN CHOICE, log entry 3; DEDUCED, log entry 14.) -/
def runInstr (c : Nat) (word : Word) (legal : Bool) (pre : Option (Nat × Word)) (note : State → State)
    (eff : State → State) (s : State) : State :=
  let k := getCore s c
  if atBoundary s c = false then s
  else if fetchOk c k.pc = false then syncTrap c 0x03 false k.pc k.pc s
  else if legal = false then syncTrap c 0x01 false k.pc word s
  else match pre with
    | some (code, sval) => syncTrap c code false k.pc sval (note s)
    | none => if impreciseDue s c || interruptDue s c then s else eff s

/-- An instruction that cannot trap once it is legal. -/
def runPlain (c : Nat) (word : Word) (legal : Bool) (eff : State → State) (s : State) : State :=
  runInstr c word legal none id eff s

/-- An instruction whose whole effect is a value for rd. -/
def runResult (c : Nat) (word : Word) (legal : Bool) (rd : RegF) (f : Core → Word) (s : State) : State :=
  runPlain c word legal (fun s => advance c (modCore c (fun k => k.setGpr rd (f k)) s)) s

/-! ## The completion of an access (R310 to R312) -/

/-- An access of the core ended with `st`: sstat, and event 0x00A. -/
def noteStatus (c : Nat) (st : Status) (s : State) : State :=
  let s := modCore c (fun k => k.recordStatus st) s
  if st = 0 then s else countEvent c 0x00A 1 s

/-- A precise access ended: the STATUS trap with smask.ST, otherwise the destination is written and the core goes on. -/
def completeAccess (c : Nat) (sval : Word) (st : Status) (write : Core → Core) (s : State) : State :=
  let s := noteStatus c st s
  let k := getCore s c
  if st ≠ 0 ∧ k.maskSt then syncTrap c 0x05 false k.pc sval (setCore c { k with wait := .none } s)
  else advance c (modCore c write s)

/-- A posted access ended: an imprecise STATUS trap becomes pending with smask.ST, the first one's address kept. -/
def completePosted (c : Nat) (sval : Word) (st : Status) (s : State) : State :=
  let s := noteStatus c st s
  if st = 0 then s
  else modCore c (fun k => if k.maskSt ∧ k.imprecise = none then { k with imprecise := some sval } else k) s

/-- A transaction of the core is issued: it becomes the youngest outstanding one. (DESIGN CHOICE, log entry 16.) -/
def issueTxn (c : Nat) (op : TxnOp) (addr : Nat) (burst : Bool) (dst : TxnDst) (s : State) : State :=
  countEvent c 0x005 1 (modVia (fun v => { v with txns := vset v.txns c (vget [] v.txns c ++ [{ op := op, addr := addr, burst := burst, dst := dst, issued := s.time.us, held := false }]) }) s)

/-- A load, store or message that stalls the core is issued, unless four transactions are outstanding (R310). -/
def issueStalling (c : Nat) (op : TxnOp) (addr : Nat) (burst : Bool) (dst : TxnDst) (s : State) : State :=
  if 4 ≤ outstanding s c then s
  else modCore c (fun k => { k with wait := .resp }) (issueTxn c op addr burst dst s)

/-- A posted access is issued and the core goes on, unless four transactions are outstanding (R310). -/
def issuePosted (c : Nat) (op : TxnOp) (addr : Nat) (burst : Bool) (s : State) : State :=
  if 4 ≤ outstanding s c then s else advance c (issueTxn c op addr burst .posted s)

/-- What a core does with the response of its oldest answered transaction `t`: `data` and `st` (R310 to R312). -/
def coreResponse (c : Nat) (t : Txn) (data : List Nat) (st : Status) (s : State) : State :=
  let sval : Word := match t.op with
    | .message target _ => BitVec.ofNat 32 target
    | _ => BitVec.ofNat 32 t.addr
  match t.dst with
  | .load rd size sg lane =>
    completeAccess c sval st (fun k => k.setGpr rd (loadLane size sg lane (BitVec.ofNat 32 (data.getD 0 0)))) s
  | .quad rd => completeAccess c sval st (fun k => k.setQuad rd data) s
  | .status rd => completeAccess c sval st (fun k => k.setGpr rd (st.setWidth 32)) s
  | .posted =>
    let s := completePosted c sval st s
    if (getCore s c).wait = .fence ∧ outstanding s c = 0 then advance c s else settleHold c s

/-! ## Special registers (R303, R304) -/

/-- What rds of special register n gives. -/
def readSpecial (s : State) (c : Nat) (n : Nat) : Word :=
  let k := getCore s c
  match n with
  | 0 => k.spc
  | 1 => k.sflags
  | 2 => BitVec.ofNat 32 (localTime s c)
  | 3 => k.timeHi
  | 4 => k.scause
  | 5 => k.svec
  | 6 => k.smask
  | 7 => (pendingLines s c).setWidth 32
  | 8 => k.sval
  | 9 => k.sstat (outstanding s c)
  | 10 => boolWord k.active
  | 11 => sidWord c
  | n + 12 => k.other n

/-- The core after rds of special register n: a read of stime_lo latches stime_hi. -/
def afterReadSpecial (s : State) (c : Nat) (n : Nat) (k : Core) : Core :=
  if n = 2 then { k with timeHi := BitVec.ofNat 32 (localTime s c / 2 ^ 32) } else k

/-- Whether special register n is read-only. -/
def specialRO (n : Nat) : Bool := n == 2 || n == 3 || n == 7 || n == 10 || n == 11

/-- The core after wrs of special register n. -/
def Core.writeSpecial (k : Core) (n : Nat) (w : Word) : Core :=
  match n with
  | 0 => { k with spc := w }
  | 1 => k.setSflags w
  | 4 => { k with scause := w &&& 0x3FF }
  | 5 => { k with svec := w &&& 0xFFFFFF80 }
  | 6 => k.setSmask w
  | 8 => { k with sval := w }
  | 9 => { k with statFirst := 0 }
  | 12 => k.setOther 0 w
  | 13 => k.setOther 1 w
  | 14 => k.setOther 2 w
  | 15 => k.setOther 3 w
  | _ => k

end Sys2Proof.Machine
end

