-- ==== Sys2Proof/Machine/ColotAlu.lean ====
section
/-! DEFINITION. The meanings of the ALU group, the immediates, the branches and jumps, trap and the SYS group (R316 to
R318). -/

namespace Sys2Proof.Machine

/-- ADD (R317): the result in rd. -/
def execAdd (c : Island) (rd ra rb : RegF) (s : State) : Host.Outcome State Fault Refusal :=
  .next (runResult c (wordRR 0x00 rd ra rb 0x000) true rd (fun k => k.gpr ra + k.gpr rb) s)

/-- SUB (R317): the result in rd. -/
def execSub (c : Island) (rd ra rb : RegF) (s : State) : Host.Outcome State Fault Refusal :=
  .next (runResult c (wordRR 0x00 rd ra rb 0x001) true rd (fun k => k.gpr ra - k.gpr rb) s)

/-- AND (R317): the result in rd. -/
def execAnd (c : Island) (rd ra rb : RegF) (s : State) : Host.Outcome State Fault Refusal :=
  .next (runResult c (wordRR 0x00 rd ra rb 0x002) true rd (fun k => k.gpr ra &&& k.gpr rb) s)

/-- OR (R317): the result in rd. -/
def execOr (c : Island) (rd ra rb : RegF) (s : State) : Host.Outcome State Fault Refusal :=
  .next (runResult c (wordRR 0x00 rd ra rb 0x003) true rd (fun k => k.gpr ra ||| k.gpr rb) s)

/-- XOR (R317): the result in rd. -/
def execXor (c : Island) (rd ra rb : RegF) (s : State) : Host.Outcome State Fault Refusal :=
  .next (runResult c (wordRR 0x00 rd ra rb 0x004) true rd (fun k => k.gpr ra ^^^ k.gpr rb) s)

/-- SLL (R317): the result in rd. -/
def execSll (c : Island) (rd ra rb : RegF) (s : State) : Host.Outcome State Fault Refusal :=
  .next (runResult c (wordRR 0x00 rd ra rb 0x005) true rd (fun k => k.gpr ra <<< shamt (k.gpr rb)) s)

/-- SRL (R317): the result in rd. -/
def execSrl (c : Island) (rd ra rb : RegF) (s : State) : Host.Outcome State Fault Refusal :=
  .next (runResult c (wordRR 0x00 rd ra rb 0x006) true rd (fun k => k.gpr ra >>> shamt (k.gpr rb)) s)

/-- SRA (R317): the result in rd. -/
def execSra (c : Island) (rd ra rb : RegF) (s : State) : Host.Outcome State Fault Refusal :=
  .next (runResult c (wordRR 0x00 rd ra rb 0x007) true rd (fun k => (k.gpr ra).sshiftRight (shamt (k.gpr rb))) s)

/-- SLT (R317): the result in rd. -/
def execSlt (c : Island) (rd ra rb : RegF) (s : State) : Host.Outcome State Fault Refusal :=
  .next (runResult c (wordRR 0x00 rd ra rb 0x008) true rd (fun k => boolWord ((k.gpr ra).slt (k.gpr rb))) s)

/-- SLTU (R317): the result in rd. -/
def execSltu (c : Island) (rd ra rb : RegF) (s : State) : Host.Outcome State Fault Refusal :=
  .next (runResult c (wordRR 0x00 rd ra rb 0x009) true rd (fun k => boolWord ((k.gpr ra).ult (k.gpr rb))) s)

/-- MUL (R317): the result in rd. -/
def execMul (c : Island) (rd ra rb : RegF) (s : State) : Host.Outcome State Fault Refusal :=
  .next (runResult c (wordRR 0x00 rd ra rb 0x00A) true rd (fun k => k.gpr ra * k.gpr rb) s)

/-- MULH (R317): the result in rd. -/
def execMulh (c : Island) (rd ra rb : RegF) (s : State) : Host.Outcome State Fault Refusal :=
  .next (runResult c (wordRR 0x00 rd ra rb 0x00B) true rd (fun k => mulHigh (k.gpr ra) (k.gpr rb)) s)

/-- MULHU (R317): the result in rd. -/
def execMulhu (c : Island) (rd ra rb : RegF) (s : State) : Host.Outcome State Fault Refusal :=
  .next (runResult c (wordRR 0x00 rd ra rb 0x00C) true rd (fun k => mulHighU (k.gpr ra) (k.gpr rb)) s)

/-- MIN (R317): the result in rd. -/
def execMin (c : Island) (rd ra rb : RegF) (s : State) : Host.Outcome State Fault Refusal :=
  .next (runResult c (wordRR 0x00 rd ra rb 0x011) true rd (fun k => minS (k.gpr ra) (k.gpr rb)) s)

/-- MAX (R317): the result in rd. -/
def execMax (c : Island) (rd ra rb : RegF) (s : State) : Host.Outcome State Fault Refusal :=
  .next (runResult c (wordRR 0x00 rd ra rb 0x012) true rd (fun k => maxS (k.gpr ra) (k.gpr rb)) s)

/-- MINU (R317): the result in rd. -/
def execMinu (c : Island) (rd ra rb : RegF) (s : State) : Host.Outcome State Fault Refusal :=
  .next (runResult c (wordRR 0x00 rd ra rb 0x013) true rd (fun k => minU (k.gpr ra) (k.gpr rb)) s)

/-- MAXU (R317): the result in rd. -/
def execMaxu (c : Island) (rd ra rb : RegF) (s : State) : Host.Outcome State Fault Refusal :=
  .next (runResult c (wordRR 0x00 rd ra rb 0x014) true rd (fun k => maxU (k.gpr ra) (k.gpr rb)) s)

/-- DIV (R317): the result in rd, and DZ; absent from Colot-P (R330). -/
def execDiv (c : Island) (rd ra rb : RegF) (s : State) : Host.Outcome State Fault Refusal :=
  .next (runPlain c (wordRR 0x00 rd ra rb 0x00D) (hasDivision c) (fun s => advance c (modCore c (fun k =>
    { (k.setGpr rd (divS (k.gpr ra) (k.gpr rb))) with dz := divFlag true (k.gpr ra) (k.gpr rb) k.dz }) s)) s)

/-- DIVU (R317): the result in rd, and DZ; absent from Colot-P (R330). -/
def execDivu (c : Island) (rd ra rb : RegF) (s : State) : Host.Outcome State Fault Refusal :=
  .next (runPlain c (wordRR 0x00 rd ra rb 0x00E) (hasDivision c) (fun s => advance c (modCore c (fun k =>
    { (k.setGpr rd (divU (k.gpr ra) (k.gpr rb))) with dz := divFlag false (k.gpr ra) (k.gpr rb) k.dz }) s)) s)

/-- REM (R317): the result in rd, and DZ; absent from Colot-P (R330). -/
def execRem (c : Island) (rd ra rb : RegF) (s : State) : Host.Outcome State Fault Refusal :=
  .next (runPlain c (wordRR 0x00 rd ra rb 0x00F) (hasDivision c) (fun s => advance c (modCore c (fun k =>
    { (k.setGpr rd (remS (k.gpr ra) (k.gpr rb))) with dz := divFlag true (k.gpr ra) (k.gpr rb) k.dz }) s)) s)

/-- REMU (R317): the result in rd, and DZ; absent from Colot-P (R330). -/
def execRemu (c : Island) (rd ra rb : RegF) (s : State) : Host.Outcome State Fault Refusal :=
  .next (runPlain c (wordRR 0x00 rd ra rb 0x010) (hasDivision c) (fun s => advance c (modCore c (fun k =>
    { (k.setGpr rd (remU (k.gpr ra) (k.gpr rb))) with dz := divFlag false (k.gpr ra) (k.gpr rb) k.dz }) s)) s)

/-- CLZ (R317): rb must be zero. -/
def execClz (c : Island) (rd ra rb : RegF) (s : State) : Host.Outcome State Fault Refusal :=
  .next (runResult c (wordRR 0x00 rd ra rb 0x015) (rb == 0) rd (fun k => clzWord (k.gpr ra)) s)

/-- BSWAP (R317): rb must be zero. -/
def execBswap (c : Island) (rd ra rb : RegF) (s : State) : Host.Outcome State Fault Refusal :=
  .next (runResult c (wordRR 0x00 rd ra rb 0x016) (rb == 0) rd (fun k => bswapWord (k.gpr ra)) s)

/-- RDS (R318): rd receives special register rb; ra must be zero. -/
def execRds (c : Island) (rd ra rb : RegF) (s : State) : Host.Outcome State Fault Refusal :=
  .next (runPlain c (wordRR 0x01 rd ra rb 0x000) (ra == 0) (fun s => advance c (modCore c (fun k =>
    (afterReadSpecial s c rb.toNat k).setGpr rd (readSpecial s c rb.toNat)) s)) s)

/-- WRS (R318): special register rb receives ra; rd must be zero; a read-only register takes ILLEGAL (R303). -/
def execWrs (c : Island) (rd ra rb : RegF) (s : State) : Host.Outcome State Fault Refusal :=
  .next (runPlain c (wordRR 0x01 rd ra rb 0x001) (rd == 0 && !specialRO rb.toNat) (fun s => advance c (modCore c (fun k =>
    k.writeSpecial rb.toNat (k.gpr ra)) s)) s)

/-- RETI (R318). -/
def execReti (c : Island) (rd ra rb : RegF) (s : State) : Host.Outcome State Fault Refusal :=
  .next (runPlain c (wordRR 0x01 rd ra rb 0x002) (rd == 0 && ra == 0 && rb == 0) (fun s =>
    settleHold c (countEvent c 0x001 1 (modCore c Core.returnFrom s))) s)

/-- WFI (R318): completes at once if an enabled line is pending. -/
def execWfi (c : Island) (rd ra rb : RegF) (s : State) : Host.Outcome State Fault Refusal :=
  .next (runPlain c (wordRR 0x01 rd ra rb 0x003) (rd == 0 && ra == 0 && rb == 0) (fun s =>
    if pendingMasked s c != 0 then advance c s else modCore c (fun k => { k with wait := .wfi }) s) s)

/-- FENCE (R313): completes at once with no transaction outstanding. -/
def execFence (c : Island) (rd ra rb : RegF) (s : State) : Host.Outcome State Fault Refusal :=
  .next (runPlain c (wordRR 0x01 rd ra rb 0x004) (rd == 0 && ra == 0 && rb == 0) (fun s =>
    if outstanding s c = 0 then advance c s else modCore c (fun k => { k with wait := .fence }) s) s)

/-- ADDI (R316). -/
def execAddi (c : Island) (rd ra z : RegF) (imm : BitVec 14) (s : State) : Host.Outcome State Fault Refusal :=
  .next (runResult c (wordRI 0x02 rd ra z imm) (z == 0) rd (fun k => k.gpr ra + sext14 imm) s)

/-- ANDI (R316). -/
def execAndi (c : Island) (rd ra z : RegF) (imm : BitVec 14) (s : State) : Host.Outcome State Fault Refusal :=
  .next (runResult c (wordRI 0x03 rd ra z imm) (z == 0) rd (fun k => k.gpr ra &&& zext14 imm) s)

/-- ORI (R316). -/
def execOri (c : Island) (rd ra z : RegF) (imm : BitVec 14) (s : State) : Host.Outcome State Fault Refusal :=
  .next (runResult c (wordRI 0x04 rd ra z imm) (z == 0) rd (fun k => k.gpr ra ||| zext14 imm) s)

/-- XORI (R316). -/
def execXori (c : Island) (rd ra z : RegF) (imm : BitVec 14) (s : State) : Host.Outcome State Fault Refusal :=
  .next (runResult c (wordRI 0x05 rd ra z imm) (z == 0) rd (fun k => k.gpr ra ^^^ zext14 imm) s)

/-- SLTI (R316). -/
def execSlti (c : Island) (rd ra z : RegF) (imm : BitVec 14) (s : State) : Host.Outcome State Fault Refusal :=
  .next (runResult c (wordRI 0x09 rd ra z imm) (z == 0) rd (fun k => boolWord ((k.gpr ra).slt (sext14 imm))) s)

/-- SLTIU (R316). -/
def execSltiu (c : Island) (rd ra z : RegF) (imm : BitVec 14) (s : State) : Host.Outcome State Fault Refusal :=
  .next (runResult c (wordRI 0x0A rd ra z imm) (z == 0) rd (fun k => boolWord ((k.gpr ra).ult (sext14 imm))) s)

/-- SLLI (R316): imm14[13:5] must be zero. -/
def execSlli (c : Island) (rd ra z : RegF) (imm : BitVec 14) (s : State) : Host.Outcome State Fault Refusal :=
  .next (runResult c (wordRI 0x06 rd ra z imm) (z == 0 && decide (imm.toNat < 32)) rd (fun k => k.gpr ra <<< imm.toNat) s)

/-- SRLI (R316): imm14[13:5] must be zero. -/
def execSrli (c : Island) (rd ra z : RegF) (imm : BitVec 14) (s : State) : Host.Outcome State Fault Refusal :=
  .next (runResult c (wordRI 0x07 rd ra z imm) (z == 0 && decide (imm.toNat < 32)) rd (fun k => k.gpr ra >>> imm.toNat) s)

/-- SRAI (R316): imm14[13:5] must be zero. -/
def execSrai (c : Island) (rd ra z : RegF) (imm : BitVec 14) (s : State) : Host.Outcome State Fault Refusal :=
  .next (runResult c (wordRI 0x08 rd ra z imm) (z == 0 && decide (imm.toNat < 32)) rd (fun k => (k.gpr ra).sshiftRight imm.toNat) s)

/-- LHI (R316). -/
def execLhi (c : Island) (rd z : RegF) (imm : BitVec 18) (s : State) : Host.Outcome State Fault Refusal :=
  .next (runResult c (wordLhi 0x0B rd z imm) (z == 0) rd (fun _ => imm ++ (0 : BitVec 14)) s)

/-- A branch: taken to pc + 4 × sext(offset14) (R316). -/
def branch (c : Nat) (word : Word) (z : RegF) (off : BitVec 14) (taken : Core → Bool) (s : State) : State :=
  runPlain c word (z == 0) (fun s =>
    let k := getCore s c
    if taken k then advanceTo c (k.pc + branchOffset off) s else advance c s) s

/-- BEQ (R316). -/
def execBeq (c : Island) (ra rb z : RegF) (off : BitVec 14) (s : State) : Host.Outcome State Fault Refusal :=
  .next (branch c (wordRI 0x18 ra rb z off) z off (fun k => k.gpr ra == k.gpr rb) s)

/-- BNE (R316). -/
def execBne (c : Island) (ra rb z : RegF) (off : BitVec 14) (s : State) : Host.Outcome State Fault Refusal :=
  .next (branch c (wordRI 0x19 ra rb z off) z off (fun k => k.gpr ra != k.gpr rb) s)

/-- BLT (R316). -/
def execBlt (c : Island) (ra rb z : RegF) (off : BitVec 14) (s : State) : Host.Outcome State Fault Refusal :=
  .next (branch c (wordRI 0x1A ra rb z off) z off (fun k => (k.gpr ra).slt (k.gpr rb)) s)

/-- BGE (R316). -/
def execBge (c : Island) (ra rb z : RegF) (off : BitVec 14) (s : State) : Host.Outcome State Fault Refusal :=
  .next (branch c (wordRI 0x1B ra rb z off) z off (fun k => !(k.gpr ra).slt (k.gpr rb)) s)

/-- BLTU (R316). -/
def execBltu (c : Island) (ra rb z : RegF) (off : BitVec 14) (s : State) : Host.Outcome State Fault Refusal :=
  .next (branch c (wordRI 0x1C ra rb z off) z off (fun k => (k.gpr ra).ult (k.gpr rb)) s)

/-- BGEU (R316). -/
def execBgeu (c : Island) (ra rb z : RegF) (off : BitVec 14) (s : State) : Host.Outcome State Fault Refusal :=
  .next (branch c (wordRI 0x1D ra rb z off) z off (fun k => !(k.gpr ra).ult (k.gpr rb)) s)

/-- J (R316). -/
def execJ (c : Island) (off : BitVec 26) (s : State) : Host.Outcome State Fault Refusal :=
  .next (runPlain c (wordJ 0x20 off) true (fun s => advanceTo c ((getCore s c).pc + jumpOffset off) s) s)

/-- JAL (R316): the return address in g15. -/
def execJal (c : Island) (off : BitVec 26) (s : State) : Host.Outcome State Fault Refusal :=
  .next (runPlain c (wordJ 0x21 off) true (fun s =>
    let pc := (getCore s c).pc
    advanceTo c (pc + jumpOffset off) (modCore c (fun k => k.setGpr 15 (pc + 4)) s)) s)

/-- JALR (R316): a misaligned target takes ALIGN before rd is written. -/
def execJalr (c : Island) (rd ra z : RegF) (imm : BitVec 14) (s : State) : Host.Outcome State Fault Refusal :=
  .next ((fun s =>
    let t := (getCore s c).gpr ra + sext14 imm
    runInstr c (wordRI 0x22 rd ra z imm) (z == 0) (if t.toNat % 4 = 0 then none else some (0x02, t)) id (fun s =>
      let pc := (getCore s c).pc
      advanceTo c t (modCore c (fun k => k.setGpr rd (pc + 4)) s)) s) s)

/-- TRAP (R316): the TRAP trap with sval the immediate; rd and ra must be zero. -/
def execTrap (c : Island) (rd ra z : RegF) (imm : BitVec 14) (s : State) : Host.Outcome State Fault Refusal :=
  .next (runInstr c (wordRI 0x23 rd ra z imm) (rd == 0 && ra == 0 && z == 0) (some (0x06, zext14 imm)) id id s)

/-- WFI_WAKE (R318): the waiting wfi completes once an enabled line is pending. -/
def execWfiWake (c : Island) (s : State) : Host.Outcome State Fault Refusal :=
  .next (if canAct s c && ((getCore s c).wait == .wfi) && (pendingMasked s c != 0) then advance c s else s)

/-- INTERRUPT_ENTRY (R323, R326, R327): the lowest pending enabled line is taken at a boundary while IE is 1; a waiting
timed instruction is abandoned and runs again after reti, a waiting wfi has completed. -/
def execInterruptEntry (c : Island) (s : State) : Host.Outcome State Fault Refusal :=
  let k := getCore s c
  let n := lowestLine (pendingMasked s c)
  let waits : Bool := match k.wait with
    | .none => true
    | .wfi => true
    | .timed _ _ => true
    | _ => false
  .next
    (if canAct s c && hasCore c && !k.halted && !k.hold && waits && interruptDue s c && !impreciseDue s c then
      interruptEntry c n (if k.wait = .wfi then k.pc + 4 else k.pc) s
    else s)

/-- IMPRECISE_STATUS_TRAP (R312): the pending trap is taken at the next boundary with IT 0. -/
def execImpreciseStatusTrap (c : Island) (s : State) : Host.Outcome State Fault Refusal :=
  let k := getCore s c
  .next (match k.imprecise with
    | some a =>
      if atBoundary s c && !k.it then
        syncTrap c 0x05 true k.pc a (setCore c { k with imprecise := none } s)
      else s
    | none => s)

end Sys2Proof.Machine
end

