-- ==== Sys2Proof/Machine/ColotMem.lean ====
section
/-! DEFINITION. The meanings of the loads and stores, the messages and the timed instructions (R305 to R312, R319 to
R324). (DEDUCED, log entry 17.) -/

namespace Sys2Proof.Machine

/-- Whether a local access at `a` meets the BUSERR trap: no such SRAM, a sealed caisson, or an uncorrectable word (R308). -/
def busErr (s : State) (c : Nat) (a : Nat) (ecc : EccFinding) : Bool :=
  isLocal c a && (localBusErr s c a || (isLocalSram c a && ecc == .uncorrectable))

/-- The trap an access at `a` meets before any effect: ALIGN, then BUSERR (R306, R308). -/
def accessTrap (s : State) (c size : Nat) (a : Word) (ecc : EccFinding) : Option (Nat × Word) :=
  if a.toNat % size ≠ 0 then some (0x02, a)
  else if busErr s c a.toNat ecc then some (0x04, a)
  else none

/-- The uncorrectable word that such a trap reports to the parapet (R375). -/
def noteLocalEcc (c size : Nat) (a : Word) (ecc : EccFinding) (s : State) : State :=
  if a.toNat % size = 0 ∧ isLocalSram c a.toNat ∧ localBusErr s c a.toNat = false then noteEcc a.toNat ecc s else s

/-- A load of `size` bytes from ra + sext(imm14), locally or over the viaduct (R305 to R311). -/
def load (c : Nat) (word : Word) (size : Nat) (sg : Bool) (rd ra z : RegF) (imm : BitVec 14) (ecc : EccFinding) (s : State) : State :=
  let a := (getCore s c).gpr ra + sext14 imm
  runInstr c word (z == 0) (accessTrap s c size a ecc) (noteLocalEcc c size a ecc) (fun s =>
    if isLocal c a.toNat then
      let r := localRead c a.toNat 1 false (noteLocalEcc c size a ecc s)
      completeAccess c a r.status (fun k => k.setGpr rd (loadLane size sg (a.toNat % 4) (BitVec.ofNat 32 (r.data.getD 0 0)))) r.next
    else issueStalling c (.read 1) a.toNat false (.load rd size sg (a.toNat % 4)) s) s

/-- A store of `size` bytes to ra + sext(imm14), posted when it crosses the viaduct (R305 to R312). -/
def store (c : Nat) (word : Word) (size : Nat) (rd ra z : RegF) (imm : BitVec 14) (s : State) : State :=
  let k := getCore s c
  let a := k.gpr ra + sext14 imm
  let lane := a.toNat % 4
  runInstr c word (z == 0) (accessTrap s c size a .clean) id (fun s =>
    if isLocal c a.toNat then
      let r := localWrite c a.toNat [storeLane lane (k.gpr rd)] (storeStrobes size lane) false s
      completeAccess c a r.status id r.next
    else issuePosted c (.write [storeLane lane (k.gpr rd)] (storeStrobes size lane)) a.toNat false s) s

/-- LDW (R316). -/
def execLdw (c : Island) (rd ra z : RegF) (imm : BitVec 14) (ecc : EccFinding) (s : State) : Host.Outcome State Fault Refusal :=
  .next (load c (wordRI 0x0C rd ra z imm) 4 false rd ra z imm ecc s)

/-- LDH (R316). -/
def execLdh (c : Island) (rd ra z : RegF) (imm : BitVec 14) (ecc : EccFinding) (s : State) : Host.Outcome State Fault Refusal :=
  .next (load c (wordRI 0x0D rd ra z imm) 2 true rd ra z imm ecc s)

/-- LDHU (R316). -/
def execLdhu (c : Island) (rd ra z : RegF) (imm : BitVec 14) (ecc : EccFinding) (s : State) : Host.Outcome State Fault Refusal :=
  .next (load c (wordRI 0x0E rd ra z imm) 2 false rd ra z imm ecc s)

/-- LDB (R316). -/
def execLdb (c : Island) (rd ra z : RegF) (imm : BitVec 14) (ecc : EccFinding) (s : State) : Host.Outcome State Fault Refusal :=
  .next (load c (wordRI 0x0F rd ra z imm) 1 true rd ra z imm ecc s)

/-- LDBU (R316). -/
def execLdbu (c : Island) (rd ra z : RegF) (imm : BitVec 14) (ecc : EccFinding) (s : State) : Host.Outcome State Fault Refusal :=
  .next (load c (wordRI 0x10 rd ra z imm) 1 false rd ra z imm ecc s)

/-- STW (R316). -/
def execStw (c : Island) (rd ra z : RegF) (imm : BitVec 14) (s : State) : Host.Outcome State Fault Refusal :=
  .next (store c (wordRI 0x11 rd ra z imm) 4 rd ra z imm s)

/-- STH (R316). -/
def execSth (c : Island) (rd ra z : RegF) (imm : BitVec 14) (s : State) : Host.Outcome State Fault Refusal :=
  .next (store c (wordRI 0x12 rd ra z imm) 2 rd ra z imm s)

/-- STB (R316). -/
def execStb (c : Island) (rd ra z : RegF) (imm : BitVec 14) (s : State) : Host.Outcome State Fault Refusal :=
  .next (store c (wordRI 0x13 rd ra z imm) 1 rd ra z imm s)

/-- LDQ (R316): the quad receives one burst of four words; a register window answers 0x17. -/
def execLdq (c : Island) (rd ra z : RegF) (imm : BitVec 14) (ecc : EccFinding) (s : State) : Host.Outcome State Fault Refusal :=
  .next ((fun s =>
    let a := (getCore s c).gpr ra + sext14 imm
    runInstr c (wordRI 0x14 rd ra z imm) (z == 0 && isQuad rd) (accessTrap s c 16 a ecc) (noteLocalEcc c 16 a ecc) (fun s =>
      if isLocal c a.toNat then
        let r := localRead c a.toNat 4 true (noteLocalEcc c 16 a ecc s)
        completeAccess c a r.status (fun k => k.setQuad rd r.data) r.next
      else issueStalling c (.read 4) a.toNat true (.quad rd) s) s) s)

/-- STQ (R316): one burst of four words from the quad, posted when it crosses the viaduct. -/
def execStq (c : Island) (rd ra z : RegF) (imm : BitVec 14) (s : State) : Host.Outcome State Fault Refusal :=
  .next ((fun s =>
    let k := getCore s c
    let a := k.gpr ra + sext14 imm
    let ws := (k.quad rd).map BitVec.toNat
    runInstr c (wordRI 0x15 rd ra z imm) (z == 0 && isQuad rd) (accessTrap s c 16 a .clean) id (fun s =>
      if isLocal c a.toNat then
        let r := localWrite c a.toNat ws 0xF true s
        completeAccess c a r.status id r.next
      else issuePosted c (.write ws 0xF) a.toNat true s) s) s)

/-- Sending a quad to island t: locally into the core's own inbox (MSG_SELF if it is full), otherwise over the viaduct
(R319). `posted` makes the core go on at once; otherwise rd receives the status. -/
def sendQuad (c : Nat) (word : Word) (legal posted : Bool) (rd rq : RegF) (t : Nat) (s : State) : State :=
  let msg := (getCore s c).quadMsg rq
  runInstr c word (legal && isQuad rq) (if t = c ∧ 16 ≤ (inboxOf s c).length then some (0x07, 0) else none) id (fun s =>
    if t = c then
      completeAccess c (BitVec.ofNat 32 t) 0 (fun k => if posted then k else k.setGpr rd 0) (enterInbox c msg c s)
    else if posted then issuePosted c (.message t msg) (islandBase t) false s
    else issueStalling c (.message t msg) (islandBase t) false (.status rd) s) s

/-- VSEND (R319): the target is the immediate t. -/
def execVsend (c : Island) (rd rq t : RegF) (z : BitVec 10) (s : State) : Host.Outcome State Fault Refusal :=
  .next (sendQuad c (wordV rd rq t 0 z) (z == 0) false rd rq t.toNat s)

/-- VPOST (R319): rd must be zero. -/
def execVpost (c : Island) (rd rq t : RegF) (z : BitVec 10) (s : State) : Host.Outcome State Fault Refusal :=
  .next (sendQuad c (wordV rd rq t 1 z) (z == 0 && rd == 0) true rd rq t.toNat s)

/-- VSENDR (R319): the target is bits [3:0] of register t. -/
def execVsendr (c : Island) (rd rq t : RegF) (z : BitVec 10) (s : State) : Host.Outcome State Fault Refusal :=
  .next ((fun s => sendQuad c (wordV rd rq t 2 z) (z == 0) false rd rq (((getCore s c).gpr t).toNat % 16) s) s)

/-- VPOSTR (R319): the target is bits [3:0] of register t. -/
def execVpostr (c : Island) (rd rq t : RegF) (z : BitVec 10) (s : State) : Host.Outcome State Fault Refusal :=
  .next ((fun s => sendQuad c (wordV rd rq t 3 z) (z == 0 && rd == 0) true rd rq (((getCore s c).gpr t).toNat % 16) s) s)

/-- VRECV (R319): the oldest entry into the quad and its source into rd, or all ones. -/
def execVrecv (c : Island) (rd rq t : RegF) (z : BitVec 10) (s : State) : Host.Outcome State Fault Refusal :=
  .next (runPlain c (wordV rd rq t 4 z) (z == 0 && t == 0 && isQuad rq) (fun s =>
    match inboxOf s c with
    | [] => advance c (modCore c (fun k => k.setGpr rd 0xFFFFFFFF) s)
    | e :: rest => advance c (modCore c (fun k => (k.setQuad rq (msgWords e.msg)).setGpr rd (BitVec.ofNat 32 e.src)) (setInbox c rest s))) s)

/-- VCOUNT (R319). -/
def execVcount (c : Island) (rd rq t : RegF) (z : BitVec 10) (s : State) : Host.Outcome State Fault Refusal :=
  .next ((fun s => runResult c (wordV rd rq t 5 z) (z == 0 && rq == 0 && t == 0) rd (fun _ => BitVec.ofNat 32 (inboxOf s c).length) s) s)

/-- What a timed instruction does once it acts: twait goes on, temit stores a word, tsend posts a message (R321). A
store or message over the viaduct is posted. -/
def actTimed (c : Nat) (act : TimedAct) (s : State) : State :=
  match act with
  | .twait => advance c s
  | .temit a w =>
    if isLocal c a.toNat then
      if localBusErr s c a.toNat then syncTrap c 0x04 false (getCore s c).pc a s
      else
        let r := localWrite c a.toNat [w.toNat] 0xF false s
        completeAccess c a r.status id r.next
    else issuePosted c (.write [w.toNat] 0xF) a.toNat false s
  | .tsend t msg =>
    if t = c then
      if 16 ≤ (inboxOf s c).length then syncTrap c 0x07 false (getCore s c).pc 0 s
      else completeAccess c (BitVec.ofNat 32 t) 0 id (enterInbox c msg c s)
    else issuePosted c (.message t msg) (islandBase t) false s

/-- Whether the act issues a transaction while four are outstanding, and so stalls (R310). -/
def actStalls (s : State) (c : Nat) (act : TimedAct) : Bool :=
  match act with
  | .twait => false
  | .temit a _ => !isLocal c a.toNat && decide (4 ≤ outstanding s c)
  | .tsend t _ => t != c && decide (4 ≤ outstanding s c)

/-- A timed instruction issues for time `t`: on time it waits; otherwise it acts at once and sets LATE (R320). -/
def issueTimed (c t : Nat) (act : TimedAct) (s : State) : State :=
  if localTime s c < t then modCore c (fun k => { k with wait := .timed t act }) s
  else if actStalls s c act then s
  else actTimed c act (countEvent c 0x00D 1 (modCore c (fun k => { k with late := true }) s))

/-- TWAIT (R321). -/
def execTwait (c : Island) (tr ra rc : RegF) (off : BitVec 10) (s : State) : Host.Outcome State Fault Refusal :=
  .next (runPlain c (wordT 0 tr ra rc off) (isPair tr && ra == 0 && rc == 0 && off == 0) (fun s => issueTimed c ((getCore s c).pairTime tr) .twait s) s)

/-- TEMIT (R321): rc to the word at ra + 4 × sext(off10) at T. -/
def execTemit (c : Island) (tr ra rc : RegF) (off : BitVec 10) (s : State) : Host.Outcome State Fault Refusal :=
  .next ((fun s =>
    let k := getCore s c
    let a := k.gpr ra + timedOffset off
    runInstr c (wordT 1 tr ra rc off) (isPair tr) (if a.toNat % 4 = 0 then none else some (0x02, a)) id
      (fun s => issueTimed c (k.pairTime tr) (.temit a (k.gpr rc)) s) s) s)

/-- TSEND (R321): the quad rc to island ra (an immediate) at T. -/
def execTsend (c : Island) (tr ra rc : RegF) (off : BitVec 10) (s : State) : Host.Outcome State Fault Refusal :=
  .next ((fun s =>
    let k := getCore s c
    runPlain c (wordT 2 tr ra rc off) (isPair tr && isQuad rc && off == 0) (fun s => issueTimed c (k.pairTime tr) (.tsend ra.toNat (k.quadMsg rc)) s) s) s)

/-- TALARM (R322): a T already passed makes line 1 pending at once and sets LATE. -/
def execTalarm (c : Island) (tr ra rc : RegF) (off : BitVec 10) (s : State) : Host.Outcome State Fault Refusal :=
  .next (runPlain c (wordT 3 tr ra rc off) (isPair tr && ra == 0 && rc == 0 && off == 0) (fun s =>
    let t := (getCore s c).pairTime tr
    if localTime s c < t then advance c (modCore c (fun k => { k with alarm := some t, alarmPend := false }) s)
    else advance c (countEvent c 0x00D 1 (modCore c (fun k => { k with alarm := none, alarmPend := true, late := true }) s))) s)

/-- TCANCEL (R321). -/
def execTcancel (c : Island) (tr ra rc : RegF) (off : BitVec 10) (s : State) : Host.Outcome State Fault Refusal :=
  .next (runPlain c (wordT 4 tr ra rc off) (tr == 0 && ra == 0 && rc == 0 && off == 0) (fun s =>
    advance c (modCore c (fun k => { k with alarm := none, alarmPend := false }) s)) s)

/-- TIMED_ACTION (R320, R324): the waiting timed instruction acts once the local device time is at least T. -/
def execTimedAction (c : Island) (s : State) : Host.Outcome State Fault Refusal :=
  let k := getCore s c
  .next (match k.wait with
    | .timed t act =>
      if canAct s c && !k.halted && decide (t ≤ localTime s c) && !actStalls s c act then
        actTimed c act (modCore c (fun k => { k with wait := .none }) s)
      else s
    | _ => s)

/-- ALARM_FIRE (R322): line 1 becomes pending once the armed time is reached. -/
def execAlarmFire (c : Island) (s : State) : Host.Outcome State Fault Refusal :=
  let k := getCore s c
  .next (match k.alarm with
    | some t => if canAct s c && decide (t ≤ localTime s c) then modCore c (fun k => { k with alarm := none, alarmPend := true }) s else s
    | none => s)

end Sys2Proof.Machine
end

