-- ==== Sys2Proof/Machine/Viaduct.lean ====
section
/-! DEFINITION. Device time, register accesses, bursts, messages and responses as commands, the viaduct watchdog, and the
commands that hold, start and lock a core (R12, R27 to R33, R333, R376, R377). -/

namespace Sys2Proof.Machine

/-! ## Device time (R27, R28, R427) -/

/-- The next step of the master counter: its microseconds and the fraction left, in 1/1536 µs. One 32.768 kHz tick is
46,875 such units. (DESIGN CHOICE, log entry 15.) -/
def timeStep (t : TimeState) : Nat × Nat :=
  match t.src with
  | .reference => (1, 0)
  | .crystal => ((t.frac + 46875) / 1536, (t.frac + 46875) % 1536)
  | .rc4M => (1, t.frac)

/-- Whether another transaction waits behind a message held at island i's port (R33). (DEDUCED, log entry 17.) -/
def portWaits (s : State) (i : Nat) : Bool :=
  portBlocked s i && s.via.txns.toList.any (fun l => l.any (fun t => !t.held &&
    (match t.op with | .message g _ => g == i | _ => (placeOf t.addr).island == some i)))

/-- The cycle-driven events that occur in every cycle of the span island i has just counted (R428, R429). -/
def cycleEvents (s : State) (i : Nat) : List Nat :=
  [0x000] ++ (if (getCore s i).wait == .resp && hasCore i then [0x002] else []) ++
    (if portWaits s i then [0x007] else []) ++
    (if 16 ≤ (inboxOf s i).length then [0x009] else []) ++
    (if (getCore s i).wait == .wfi && hasCore i then [0x00E] else []) ++
    (if i == 2 && s.cipher.waitKeys then [0x042] else []) ++
    (if i == 3 && s.rf.req && !s.rf.gnt then [0x045] else [])

/-- `n` cycles of island i are counted in CYC and by the counters of cycle-driven events (R427). (DEDUCED, log entry 38.) -/
def countCycles (i n : Nat) (s : State) : State :=
  let s := (cycleEvents s i).foldl (fun s ev => countEvent i ev n s) s
  if bitOf (regValue s i .perfCtrl 0) 0 && isRun s i && !s.freeze.frozen then
    modPerf i (fun p => { p with cyc := (p.cyc + n) % 2 ^ 64 }) s
  else s

/-- A core's watchdog over `us` microseconds: it does not count while the core is HALTED or while freeze holds (R378). -/
def watchdogRuns (i us : Nat) (s : State) : State :=
  if canAct s i && hasCore i && !(getCore s i).halted then
    modCore i (fun k => { k with wdogLeft := k.wdogLeft.map (fun n => n - us) }) s
  else s

/-- DEVICE_TIME_STEP (R27, R28): the master counter advances by one step and every powered island's copy follows; the
cycles each island has run since the last step are counted. (DEDUCED, log entry 38.) -/
def execDeviceTimeStep (cycles : List Nat) (s : State) : Host.Outcome State Fault Refusal :=
  .next (let d := timeStep s.time
    let s := modTime (fun t => { t with us := t.us + d.1, frac := d.2, toStep := 48 }) s
    let s := modTime (fun t => { t with
      copies := Vector.ofFn (fun i => if pstate s i.val = .off then vget 0 t.copies i.val else t.us) }) s
    let s := if s.time.src = .crystal then countEvent 0 0x044 1 s else s
    allIslands.foldl (fun s i => watchdogRuns i d.1 (countCycles i (cycles.getD i 0) s)) s)

/-- REFERENCE_START (R27): the reference becomes valid, outside PARK. After AON reset AON then starts STORE and the
keystone, unless the TEST strap holds the part in reset (R451, R467). (DEDUCED, log entry 21.) -/
def execReferenceStart (s : State) : Host.Outcome State Fault Refusal :=
  .next (if s.time.src = .reference ∨ s.park.phase = .parked ∨ s.park.phase = .stopping then s
    else
      let s := startReference s
      if s.boot.stage = .rom ∧ s.boot.strapTest = false then
        [4, 2].foldl (fun s i => if pstate s i = .off then setPState i .starting s else s) s
      else s)

/-! ## Register accesses as whole transactions (R10, R12, R29) -/

/-- REGISTER_WRITE (R12): a word written through the viaduct, or locally in the initiator's own window. -/
def execRegisterWrite (ini : Island) (addr data : Word) (strb : BitVec 4) (s : State) : Host.Outcome State Fault Refusal :=
  .next (viaRegWrite ini addr.toNat data.toNat strb.toNat s)

/-- LO_READ_LATCH (R29): a read, which at a LO register latches the HI word for the initiator. -/
def execLoReadLatch (ini : Island) (addr : Word) (s : State) : Host.Outcome State Fault Refusal :=
  .next (viaRegRead ini addr.toNat s)

/-- RC_READ_CLEAR (R10): a read, which clears an RC field or pops a queue. -/
def execRcReadClear (ini : Island) (addr : Word) (s : State) : Host.Outcome State Fault Refusal :=
  .next (viaRegRead ini addr.toNat s)

/-- RNG_DATA_READ (R248, R264): a read of KEYS.RNG_DATA. -/
def execRngDataRead (ini : Island) (s : State) : Host.Outcome State Fault Refusal :=
  .next (viaRegRead ini (regAddr 2 .rngData 0) s)

/-- VIADUCT_BURST (R30, R31). -/
def execViaductBurst (ini : Island) (addr : Word) (op : BurstOp) (s : State) : Host.Outcome State Fault Refusal :=
  .next (viaServe ini addr.toNat (match op with
    | .read n => serveRead ini addr.toNat n true
    | .write ws => serveWrite ini addr.toNat (ws.map BitVec.toNat) 0xF true) s)

/-! ## Messages (R30, R33, R35, R319) -/

/-- A message answered by the abutment of an island that is off or frozen, or by the viaduct for island 14 or 15. -/
def messageStatus (s : State) (target : Nat) : Status := if 14 ≤ target then 0x17 else if canAct s target then 0x00 else 0x03

/-- The count of a message answered under R35. -/
def messageAnswered (ini target : Nat) (s : State) : State :=
  if messageStatus s target = 0x03 then noteOff ini (islandBase target) true false true s else s

/-- VIADUCT_MESSAGE (R30, R33): the message enters the inbox, waits at the target port while the inbox is full, or is
answered 0x03 or 0x17. A message to the sender's own full inbox is not taken. (DEDUCED, log entry 17.) -/
def execViaductMessage (ini : Island) (target : Fin 16) (msg : BitVec 128) (s : State) : Host.Outcome State Fault Refusal :=
  .next (if canReach s ini target = false then s
    else
      let s := countIssue ini target s
      let st := messageStatus s target
      if st ≠ 0 then setResp ini [] st (countStatus ini st (messageAnswered ini target s))
      else if (inboxOf s target).length < 16 then setResp ini [] 0x00 (enterInbox target msg ini (countServe ini target s))
      else if ini.val = target.val then s
      else modVia (fun v => { v with held := vset v.held target (vget [] v.held target ++ [⟨ini, msg, s.time.us⟩]) }) s)

/-- The message a core holds at a full inbox of island i, with the core. -/
def heldTxn (s : State) (i : Nat) : Option (Nat × Txn × BitVec 128) :=
  allIslands.findSome? (fun c => (vget [] s.via.txns c).findSome? (fun t =>
    match t.op with
    | .message g m => if t.held && g == i then some (c, t, m) else none
    | _ => none))

/-- A core's transaction leaves its list. -/
def dropTxn (c : Nat) (t : Txn) (s : State) : State :=
  modVia (fun v => { v with txns := vset v.txns c ((vget [] v.txns c).erase t) }) s

/-- MESSAGE_ENTERS_INBOX (R33): the message held at the island's full inbox enters once an entry has freed, and its
status is returned. (DEDUCED, log entry 17.) -/
def execMessageEntersInbox (target : Island) (s : State) : Host.Outcome State Fault Refusal :=
  .next (if canAct s target = false ∨ 16 ≤ (inboxOf s target).length then s
    else match vget [] s.via.held target with
      | h :: rest =>
        setResp h.src [] 0x00 (enterInbox target h.msg h.src (countServe h.src target
          (modVia (fun v => { v with held := vset v.held target rest }) s)))
      | [] => match heldTxn s target with
        | some (c, t, m) => coreResponse c t [] 0x00 (enterInbox target m c (countServe c target (dropTxn c t s)))
        | none => s)

/-! ## Responses to the cores (R32, R33, R36, R375, R376) -/

/-- The island a transaction is addressed to. -/
def txnIsland (t : Txn) : Option Nat :=
  match t.op with
  | .message g _ => if g < 14 then some g else none
  | _ => (placeOf t.addr).island

/-- Whether the target can answer a transaction now: no other message keeps its port, and a message that waits there
itself is answered only once the target has left RUN. (DESIGN CHOICE, log entry 16.) -/
def answerable (s : State) (t : Txn) : Bool :=
  match txnIsland t with
  | some i => if t.held then !canAct s i else !portBlocked s i || !canAct s i
  | none => true

/-- The transaction that the target serves, or none when a message finds the inbox full. -/
def serveTxn (c : Nat) (t : Txn) (s : State) : Option Served :=
  match t.op with
  | .read n => some (serveRead c t.addr n t.burst s)
  | .write ws strb => some (serveWrite c t.addr ws strb t.burst s)
  | .message g m =>
    let st := messageStatus s g
    if st ≠ 0 then some ⟨[], st, messageAnswered c g s⟩
    else if (inboxOf s g).length < 16 then some ⟨[], 0x00, enterInbox g m c (countServe c g s)⟩
    else none

/-- What the ECC of the first word that a read reaches does to its answer (R375). -/
def eccAnswer (t : Txn) (ecc : EccFinding) (r : Served) : Served :=
  match t.op with
  | .read n =>
    if r.status = 0 ∧ (sramIsland t.addr).isSome then
      (if ecc = .uncorrectable then ⟨List.replicate n 0, 0xD0, noteEcc t.addr ecc r.next⟩ else { r with next := noteEcc t.addr ecc r.next })
    else r
  | _ => r

/-- A parity failure between islands a, which finds it, and b (R376). -/
def parityFails (a b : Nat) (s : State) : State :=
  parapetEvent 0xD1 a b [] (modPar (fun p => { p with viaParity := satTo 0xFFFF (p.viaParity + 1) }) s)

/-- The response of transaction t reaches core c. -/
def deliver (c : Nat) (t : Txn) (parity : Parity) (ecc : EccFinding) (s : State) : State :=
  let s' := dropTxn c t s
  match parity, txnIsland t with
  | .requestBad, some i => coreResponse c t [] 0xD1 (parityFails i c s')
  | _, _ => match serveTxn c t s' with
    | none => modVia (fun v => { v with txns := vset v.txns c ((vget [] v.txns c).map (fun x => if x = t then { x with held := true } else x)) }) s
    | some r =>
      let r := eccAnswer t ecc r
      match parity, txnIsland t with
      | .responseBad, some i => coreResponse c t [] 0xD1 (parityFails c i r.next)
      | _, _ => coreResponse c t r.data r.status r.next

/-- VIADUCT_RESPONSE (R30, R32): the initiator's oldest transaction that its target can serve is served and answered; a
message that finds the inbox full waits at the port. (DESIGN CHOICE, log entry 16.) -/
def execViaductResponse (ini : Island) (parity : Parity) (ecc : EccFinding) (s : State) : Host.Outcome State Fault Refusal :=
  .next (if s.freeze.frozen ∨ pstate s ini = .off then s
    else match (vget [] s.via.txns ini).find? (answerable s) with
      | some t => deliver ini t parity ecc s
      | none => s)

/-- The expiry of a transaction of `ini` to `tgt` is counted and reported (R377). -/
def viaTimedOut (ini tgt : Nat) (s : State) : State :=
  parapetEvent 0xD2 ini tgt [] (modPar (fun p => { p with viaTimeout := satTo 0xFFFF (p.viaTimeout + 1) }) s)

/-- Whether a core's transaction has been out for 200 µs at a port that a held message keeps (R377). -/
def txnExpired (s : State) (t : Txn) : Bool :=
  decide (t.issued + 200 ≤ s.time.us) && (match txnIsland t with | some i => portBlocked s i | none => false)

/-- VIADUCT_WATCHDOG (R377): a transaction of the initiator that has been outstanding for 200 µs is withdrawn and answered
0xD2. -/
def execViaductWatchdog (ini : Island) (s : State) : Host.Outcome State Fault Refusal :=
  .next (if s.freeze.frozen then s
    else match (vget [] s.via.txns ini).find? (txnExpired s) with
      | some t => coreResponse ini t [] 0xD2 (viaTimedOut ini ((txnIsland t).getD 0) (dropTxn ini t s))
      | none =>
        let due : HeldMsg → Bool := fun h => h.src == ini.val && decide (h.since + 200 ≤ s.time.us)
        match allIslands.find? (fun g => (vget [] s.via.held g).any due) with
        | some g =>
          let s := modVia (fun v => { v with held := vset v.held g ((vget [] v.held g).filter (fun h => !due h)) }) s
          setResp ini [] 0xD2 (countStatus ini 0xD2 (viaTimedOut ini g s))
        | none => s)

/-! ## CORE_CTRL as commands (R333) -/

/-- A write of CORE_CTRL by its own row: the keystone core's alone, and only where a core is. -/
def coreCtrlRow (ini island : Nat) (act : State → State) (s : State) : State :=
  islandWrite ini island .coreCtrl (fun s =>
    if hasCore island = false then (0x17, s) else if ini ≠ 2 then (0x02, s) else (0x00, act s)) s

/-- CORE_HOLD (R333). -/
def execCoreHold (ini island : Island) (s : State) : Host.Outcome State Fault Refusal :=
  .next (coreCtrlRow ini island (holdWrite island true) s)

/-- CORE_RELEASE (R333). -/
def execCoreRelease (ini island : Island) (s : State) : Host.Outcome State Fault Refusal :=
  .next (coreCtrlRow ini island (holdWrite island false) s)

/-- CORE_LOCK (R333). -/
def execCoreLock (ini island : Island) (s : State) : Host.Outcome State Fault Refusal :=
  .next (coreCtrlRow ini island (lockWrite island) s)

end Sys2Proof.Machine
end

