-- ==== Sys2Proof/Machine/Host.lean ====
section
/-! DEFINITION. The host: its requests and their answers, SPI, Ethernet and the ring's DISPATCH_DOWN (R402, R409, R414 to
R419). (DEDUCED, log entry 1.) -/

namespace Sys2Proof.Machine

/-! ## Requests (R415) -/

/-- The toll class an answer names, or 0xFF. (DESIGN CHOICE, log entry 27.) -/
def hostClass (typ : Nat) : Nat :=
  match typ with
  | 0x01 => 2
  | 0x02 => 2
  | 0x08 => 10
  | 0x09 => 11
  | 0x0B => 15
  | 0x0D => 15
  | 0x10 => 8
  | 0x11 => 9
  | 0x12 => 13
  | _ => 0xFF

/-- A TYPE with a meaning from the host. -/
def hostType (typ : Nat) : Bool := (decide (1 ≤ typ) && decide (typ ≤ 0x12)) || (decide (0x60 ≤ typ) && decide (typ ≤ 0x7F))

/-- An answer of the request's own class. -/
def hostAnswer (r : HostReq) (st : Status) (body : List Byte) (s : State) : State := answerReq r st (hostClass r.typ) body s

/-- A request that the deck takes to the toll gate. -/
def hostAsk (r : HostReq) (kind : JobKind) (bay : Nat) (s : State) : State :=
  let q := deckRequest kind [hostClass r.typ] bay s
  if q.1 = 0 then q.2 else hostAnswer r q.1 [] q.2

/-- A word the deck reads for the host. -/
def hostReadWord (a : Nat) (s : State) : Nat × Status × State :=
  let x := serveRead 1 a 1 false (countIssueAddr 1 a s)
  (x.data.headD 0, x.status, countStatus 1 x.status x.next)

/-- REG_READ: the words from an address, and the status of the first that failed. (DESIGN CHOICE, log entry 27.) -/
def hostReadWords (a : Nat) : Nat → State → List Byte × Status × State
  | 0, s => ([], 0x00, s)
  | n + 1, s =>
    let x := hostReadWord a s
    let y := hostReadWords (a + 4) n x.2.2
    (leBytes 4 x.1 ++ y.1, if x.2.1 = 0 then y.2.1 else x.2.1, y.2.2)

/-- REG_WRITE: the words to an address, the first failing index and its status. (DESIGN CHOICE, log entry 27.) -/
def hostWriteWords (a i : Nat) : List Nat → State → Nat × Status × State
  | [], s => (0xFFFF, 0x00, s)
  | w :: ws, s =>
    let x := serveWrite 1 a [w] 0xF false (countIssueAddr 1 a s)
    let y := hostWriteWords (a + 4) (i + 1) ws (countStatus 1 x.status x.next)
    if x.status = 0 then y else (i, x.status, y.2.2)

/-- JRN_READ: records in order, up to the first absent one (R299). -/
def hostRecords (s : State) (n : Nat) : Nat → List Byte × Status
  | 0 => ([], 0x00)
  | k + 1 =>
    let r := readRecord s n
    if r.2 ≠ 0 then ([], r.2)
    else
      let q := hostRecords s (n + 1) k
      (r.1 ++ q.1, q.2)

/-- DB_COMMIT (R289): refused until every chunk of the current VERSION is written. -/
def hostCommit (r : HostReq) (version : Nat) (s : State) : State :=
  match s.store.update with
  | some u =>
    if u.version = version ∧ chunksWritten s = 1040 then
      requestChange (.cred (1 - s.store.ledger.credArea) version u.seed u.entries) (modSpan (fun p => { p with jobs := p.jobs ++ [⟨17, .dbCommit r, none⟩] }) s)
    else hostAnswer r 0xA9 [] s
  | none => hostAnswer r 0xA9 [] s

/-- IMAGE_DATA (R339, R415): the deck opens the inactive bank and writes the data there. -/
def hostImage (r : HostReq) (offset : Nat) (data : List Byte) (s : State) : State :=
  if data.length < 64 ∨ 16384 < data.length ∨ data.length % 64 ≠ 0 ∨ 0xA0000 < offset + data.length then hostAnswer r 0x02 [] s
  else
    let o := imgOpenWrite true s
    if o.1 ≠ 0 then hostAnswer r o.1 [] o.2
    else hostAnswer r 0x00 [] (memWriteBytes (imageBase (inactiveBank s) + offset) data o.2)

/-- IMAGE_COMMIT (R339): OPEN = 0, then the hash; the rest follows when the hash ends. -/
def hostImageEnd (r : HostReq) (s : State) : State :=
  let o := (imgOpenWrite false s).2
  let h := imgHashWrite o
  if h.1 ≠ 0 then hostAnswer r h.1 [] h.2
  else
    let t := modSpan (fun p => { p with jobs := p.jobs ++ [⟨16, .imageVerify r, none⟩] }) h.2
    if t.store.imgBusy then t else imageHashed t

/-- TAGWRITE (R154): with a full caution list an unlisted UID is refused before any air is used. -/
def hostTagWrite (r : HostReq) (uid : Nat) (data : List Byte) (s : State) : State :=
  let listed := (cautionFind s uid).isSome
  if listed = false ∧ cautionFree s = none then hostAnswer r 0x59 [] s
  else hostAsk r (.tagWrite r uid data listed) r.bay s

/-- A request that names a bay of the device, or 0x02. (DESIGN CHOICE, log entry 27.) -/
def hostBay (r : HostReq) (act : State → State) (s : State) : State := if r.bay < 64 then act s else hostAnswer r 0x02 [] s

/-- A request that needs STORE, or 0x03 (R35). -/
def hostStore (r : HostReq) (act : State → State) (s : State) : State := if canAct s 4 then act s else hostAnswer r 0x03 [] s

/-- What the deck does with a request (R50, R154, R260, R261, R271, R288, R289, R297, R299, R339, R345, R415, R484). `hook`
is what the HOSTFRAME hook answers. A body shorter than its fields reads as zero past its end.
(DESIGN CHOICE, log entry 27.) -/
def hostAct (r : HostReq) (body : List Byte) (hook : Status × List Byte) (s : State) : State :=
  match r.typ with
  | 0x01 => hostBay r (senseArrive 3 r.bay (sliceZ body 0 16) (some r)) s
  | 0x02 => hostBay r (fun s => let x := hostStopAct r.bay (leAt body 0 4) false s; hostAnswer r x.1 [] x.2) s
  | 0x03 => hostBay r (fun s => let x := hostStopAct r.bay (leAt body 0 4) true s; hostAnswer r x.1 [] x.2) s
  | 0x04 =>
    let n := leAt body 4 2
    if n = 0 ∨ 256 < n then hostAnswer r 0x02 [] s
    else let x := hostReadWords (leAt body 0 4) n s; hostAnswer r x.2.1 x.1 x.2.2
  | 0x05 =>
    let n := leAt body 4 2
    if n = 0 ∨ 256 < n then hostAnswer r 0x02 (leBytes 2 0) s
    else
      let x := hostWriteWords (leAt body 0 4) 0 ((List.range n).map (fun i => leAt body (6 + 4 * i) 4)) s
      hostAnswer r x.2.1 (leBytes 2 x.1) x.2.2
  | 0x06 =>
    let n := leAt body 8 1
    if n = 0 ∨ 32 < n then hostAnswer r 0x02 [] s
    else hostStore r (fun s => let x := hostRecords s (leAt body 0 8) n; hostAnswer r x.2 x.1 s) s
  | 0x07 => hostStore r (fun s => let x := jrnAckCommit (leAt body 0 8) s; hostAnswer r x.1 [] x.2) s
  | 0x08 => hostAsk r (.timeSet (some r) (leAt body 0 8) s.time.us) 0 s
  | 0x09 => hostAsk r (.dbChunk r (padTo 16560 body)) 0 s
  | 0x0A => hostStore r (hostCommit r (leAt body 0 8)) s
  | 0x0B => hostAsk r (.policy r (padTo 16384 body)) 0 s
  | 0x0C => hostStore r (hostImage r (leAt body 0 4) (body.drop 4)) s
  | 0x0D => hostStore r (hostImageEnd r) s
  | 0x0E =>
    if canAct s 2 then attestNext (modSpan (fun p => { p with jobs := p.jobs ++ [⟨18, .attest r (sliceZ body 0 16), none⟩] }) s)
    else hostAnswer r 0x03 [] s
  | 0x0F => hostStore r (fun s =>
      let n := min (leAt (memReadBytes s 0x1CF400 2) 0 2) 0xBFE
      hostAnswer r 0x00 (memReadBytes s 0x1CF400 (2 + n)) s) s
  | 0x10 => hostBay r (hostAsk r (.range r (leAt body 1 1) (leAt body 2 1) (leAt body 4 8)) r.bay) s
  | 0x11 => hostBay r (hostTagWrite r (leAt body 0 8) (sliceZ body 8 32)) s
  | 0x12 => hostBay r (hostAsk r (.tune r) r.bay) s
  | _ => hostAnswer r hook.1 hook.2 s

/-! ## A frame from the host is taken (R409, R414, R416) -/

/-- At most 8 requests await their answers; a START whose entry waits does not count (R416, R484).
(DESIGN CHOICE, log entry 26.) -/
def hostFull (s : State) : Bool := decide (8 ≤ (s.link.waiting.filter (fun r => r.typ != 1)).length)

/-- The device acts on a request of its own at most once (R416). (DESIGN CHOICE, log entry 26.) -/
def hostOwn (r : HostReq) (body : List Byte) (hook : Status × List Byte) (s : State) : State :=
  match s.link.seqs.find? (fun e => e.1 == r.seq) with
  | some (_, some st) => queueFrame (r.typ + 0x80) r.bay st (hostClass r.typ) r.seq [] r.dest s
  | some (_, none) => s
  | none =>
    if r.typ ≠ 1 ∧ hostFull s then queueFrame (r.typ + 0x80) r.bay 0x01 (hostClass r.typ) r.seq [] r.dest s
    else hostAct r body hook (modLink (fun l => { l with waiting := l.waiting ++ [r] }) (acceptSeq r.seq s))

/-- A well-formed frame from the host, from a port or the ring: it is the device's own, or the master sends it down the
ring (R409). (DESIGN CHOICE, log entry 26.) -/
def hostTake (typ device bay seq : Nat) (body : List Byte) (dest : HostDest) (hook : Status × List Byte) (s : State) : State :=
  if canAct s 5 = false ∨ canAct s 1 = false then s
  else
    let s := countEvent 5 0x040 1 s
    let down := fun (to_ : Nat) (all : Bool) (s : State) =>
      if ringMaster s ∧ dest ≠ .ring then ringSend 0x11 to_ all ringOutHold (dispatchBytes typ device bay 0 0xFF seq 0 body) s else s
    if device = 0xFF then hostOwn ⟨typ, bay, seq, dest⟩ body hook (down 0 true s)
    else if device = s.boot.strapId then hostOwn ⟨typ, bay, seq, dest⟩ body hook s
    else down (device % 16) false s

/-- A well-formed frame from the host: VERSION, TYPE, LENGTH and CRC (R414). (DESIGN CHOICE, log entry 26.) -/
def hostFrameOk (bs : List Byte) : Bool :=
  let n := leAt bs 2 2
  bs.length == 20 + n && leAt bs 0 1 == 1 && hostType (leAt bs 1 1) && leAt bs (16 + n) 4 == crc32c (bs.take (16 + n))

/-- The bytes of a frame from the host: a bad one is discarded and counted (R414). An integrator frame that comes so finds
no hook in the image, and takes the default of R345. -/
def hostBytes (bs : List Byte) (dest : HostDest) (s : State) : State :=
  if hostFrameOk bs then hostTake (leAt bs 1 1) (leAt bs 4 1) (leAt bs 5 1) (leAt bs 8 4) (sliceZ bs 16 (leAt bs 2 2)) dest (0x02, []) s
  else modLink (fun l => { l with bad := satTo 0xFFFF (l.bad + 1) }) s

/-- A host port takes frames. -/
def hostPortOn (s : State) (eth : Bool) : Bool := canAct s 5 && bitOf (regValue s 5 .hostCfg 0) (if eth then 1 else 0)

/-- A request that a row brings: its header's port, the Ethernet one with a source MAC that the row does not give.
(DESIGN CHOICE, log entry 26.) -/
def hostRow (typ : Nat) (h : HostHdr) (body : List Byte) (hook : Status × List Byte) (s : State) : State :=
  if hostPortOn s h.eth = false then s
  else
    let s := if h.eth ∧ s.link.lastMac = none then useFree (modLink (fun l => { l with lastMac := some (freeValue s % 2 ^ 48) }) s) else s
    hostTake typ h.device.toNat h.bay.toNat h.seq body (if h.eth then .eth s.link.lastMac else .spi) hook s

/-! ## The host's rows -/

/-- HOST_START (R484). -/
def execHostStart (h : HostHdr) (ident : List Byte) (s : State) : Host.Outcome State Fault Refusal :=
  .next (hostRow 0x01 h (padTo 16 ident) (0x02, []) s)

/-- HOST_STOP (R50). -/
def execHostStop (h : HostHdr) (spanId : Word) (s : State) : Host.Outcome State Fault Refusal :=
  .next (hostRow 0x02 h (leBytes 4 spanId.toNat) (0x02, []) s)

/-- HOST_CANCEL (R50). -/
def execHostCancel (h : HostHdr) (spanId : Word) (s : State) : Host.Outcome State Fault Refusal :=
  .next (hostRow 0x03 h (leBytes 4 spanId.toNat) (0x02, []) s)

/-- HOST_REG_READ (R415). -/
def execHostRegRead (h : HostHdr) (addr : Word) (count : Nat) (s : State) : Host.Outcome State Fault Refusal :=
  .next (hostRow 0x04 h (leBytes 4 addr.toNat ++ leBytes 2 (satTo 0xFFFF count)) (0x02, []) s)

/-- HOST_REG_WRITE (R415). -/
def execHostRegWrite (h : HostHdr) (addr : Word) (ws : List Word) (s : State) : Host.Outcome State Fault Refusal :=
  .next (hostRow 0x05 h (leBytes 4 addr.toNat ++ leBytes 2 (satTo 0xFFFF ws.length) ++ ws.flatMap (fun w => leBytes 4 w.toNat)) (0x02, []) s)

/-- HOST_JRN_READ (R299). -/
def execHostJrnRead (h : HostHdr) (first count : Nat) (s : State) : Host.Outcome State Fault Refusal :=
  .next (hostRow 0x06 h (leBytes 8 first ++ leBytes 1 (satTo 0xFF count)) (0x02, []) s)

/-- HOST_JRN_ACK (R297). -/
def execHostJrnAck (h : HostHdr) (seq : Nat) (s : State) : Host.Outcome State Fault Refusal :=
  .next (hostRow 0x07 h (leBytes 8 seq) (0x02, []) s)

/-- HOST_TIME_SET (R415). -/
def execHostTimeSet (h : HostHdr) (utc : Nat) (s : State) : Host.Outcome State Fault Refusal :=
  .next (hostRow 0x08 h (leBytes 8 utc) (0x02, []) s)

/-- HOST_DB_CHUNK (R288). -/
def execHostDbChunk (h : HostHdr) (chunk : List Byte) (s : State) : Host.Outcome State Fault Refusal :=
  .next (hostRow 0x09 h chunk (0x02, []) s)

/-- HOST_DB_COMMIT (R289). -/
def execHostDbCommit (h : HostHdr) (version : Nat) (s : State) : Host.Outcome State Fault Refusal :=
  .next (hostRow 0x0A h (leBytes 8 version) (0x02, []) s)

/-- HOST_POLICY (R271). -/
def execHostPolicy (h : HostHdr) (set : List Byte) (s : State) : Host.Outcome State Fault Refusal :=
  .next (hostRow 0x0B h set (0x02, []) s)

/-- HOST_IMAGE_DATA (R415). -/
def execHostImageData (h : HostHdr) (offset : Nat) (data : List Byte) (s : State) : Host.Outcome State Fault Refusal :=
  .next (hostRow 0x0C h (leBytes 4 offset ++ data) (0x02, []) s)

/-- HOST_IMAGE_COMMIT (R339). -/
def execHostImageCommit (h : HostHdr) (s : State) : Host.Outcome State Fault Refusal := .next (hostRow 0x0D h [] (0x02, []) s)

/-- HOST_ATTEST (R260). -/
def execHostAttest (h : HostHdr) (nonce : List Byte) (s : State) : Host.Outcome State Fault Refusal :=
  .next (hostRow 0x0E h (padTo 16 nonce) (0x02, []) s)

/-- HOST_CERT (R261). -/
def execHostCert (h : HostHdr) (s : State) : Host.Outcome State Fault Refusal := .next (hostRow 0x0F h [] (0x02, []) s)

/-- HOST_RANGE (R415). -/
def execHostRange (h : HostHdr) (cls primary use : Byte) (fobId : Nat) (s : State) : Host.Outcome State Fault Refusal :=
  .next (hostRow 0x10 h ([cls, primary, use, 0] ++ leBytes 8 fobId) (0x02, []) s)

/-- HOST_TAGWRITE (R154). -/
def execHostTagwrite (h : HostHdr) (uid : Nat) (data : List Byte) (s : State) : Host.Outcome State Fault Refusal :=
  .next (hostRow 0x11 h (leBytes 8 uid ++ padTo 32 data) (0x02, []) s)

/-- HOST_TUNE (R415). -/
def execHostTune (h : HostHdr) (s : State) : Host.Outcome State Fault Refusal := .next (hostRow 0x12 h [] (0x02, []) s)

/-- HOST_INTEGRATOR_FRAME (R345): TYPE 0x60 to 0x7F, answered with what the hook returned. (DEDUCED, log entry 29.) -/
def execHostIntegratorFrame (h : HostHdr) (typ : BitVec 5) (body : List Byte) (hookStatus : Status) (hookReply : List Byte) (s : State) :
    Host.Outcome State Fault Refusal :=
  .next (hostRow (0x60 + typ.toNat) h body (hookStatus, hookReply) s)

/-- DISPATCH_DOWN (R398, R409). -/
def execDispatchDown (port : ZwPort) (frame : RingFrame) (s : State) : Host.Outcome State Fault Refusal :=
  .next (ringReceive 0x11 (ZwPort.isUp port) frame (fun bs s => hostBytes bs .ring s) s)

/-! ## SPI (R418) -/

/-- SPI_STATUS: the device returns SPI_STAT. -/
def execSpiStatus (s : State) : Host.Outcome State Fault Refusal :=
  .next (if hostPortOn s false then emit (.spi (spiStat s) []) s else s)

/-- A frame longer than FREE is discarded and counted; else it is taken. -/
def spiWriteAct (frame : List Byte) (s : State) : State :=
  let t := emit (.spi (spiStat s) []) s
  if frame.length ≤ hostFree s then hostBytes frame .spi t else modLink (fun l => { l with dropped := satTo 0xFFFF (l.dropped + 1) }) t

/-- SPI_WRITE. -/
def execSpiWrite (frame : List Byte) (s : State) : Host.Outcome State Fault Refusal :=
  .next (if hostPortOn s false then spiWriteAct frame s else s)

/-- The oldest frame is clocked out, and leaves only when all its bytes have been; bytes past it read 0x00.
(DESIGN CHOICE, log entry 28.) -/
def spiReadAct (clocked : Nat) (s : State) : State :=
  match spiFirst s with
  | some f =>
    let bs := f.bytes s
    let t := emit (.spi (spiStat s) (bs.take clocked ++ List.replicate (clocked - bs.length) 0)) s
    if bs.length ≤ clocked then sendOut f (modLink (fun l => { l with queued := l.queued.erase f }) t) else t
  | none => emit (.spi (spiStat s) (List.replicate clocked 0)) s

/-- SPI_READ. -/
def execSpiRead (clocked : Nat) (s : State) : Host.Outcome State Fault Refusal :=
  .next (if hostPortOn s false then spiReadAct clocked s else s)

/-! ## Ethernet (R419) -/

/-- A whole message: what follows the frame's own length is padding. A well-formed request's source is remembered. -/
def ethMessage (mac : Nat) (bs : List Byte) (s : State) : State :=
  let bs := bs.take (20 + leAt bs 2 2)
  let t := hostBytes bs (.eth (some mac)) s
  if hostFrameOk bs then drainFrames (modLink (fun l => { l with lastMac := some mac }) t) else t

/-- A fragment joins its message, when it is the next one and within 10 ms of the first.
(DESIGN CHOICE, log entry 28; PRESUMED, log entry 47.) -/
def ethFragment (mac msg frag : Nat) (last : Bool) (data : List Byte) (s : State) : State :=
  let others := s.link.reasm.filter (fun r => !(r.mac == mac && r.msg == msg))
  let old := s.link.reasm.find? (fun r => r.mac == mac && r.msg == msg)
  let joined : Option Reasm :=
    if frag = 0 then some ⟨mac, msg, 1, data, s.time.us⟩
    else match old with
      | some r => if r.next = frag ∧ s.time.us < r.since + 10000 then some { r with next := frag + 1, data := r.data ++ data } else none
      | none => none
  match joined with
  | none => s
  | some r =>
    if last then ethMessage mac r.data (modLink (fun l => { l with reasm := others }) s)
    else modLink (fun l => { l with reasm := others ++ [r] }) s

/-- ETH_FRAME. -/
def execEthFrame (mac : BitVec 48) (msg : BitVec 16) (frag : Byte) (last : Bool) (data : List Byte) (s : State) : Host.Outcome State Fault Refusal :=
  .next (if hostPortOn s true ∧ data.length ≤ 1496 then ethFragment mac.toNat msg.toNat frag.toNat last data s else s)

/-- ETH_REASSEMBLY_TIMEOUT: a message still incomplete 10 ms after its first fragment is discarded and counted. -/
def execEthReassemblyTimeout (s : State) : Host.Outcome State Fault Refusal :=
  .next (if canAct s 5 then modLink (fun l => { l with
      reasm := l.reasm.filter (fun r => decide (s.time.us < r.since + 10000))
      dropped := satTo 0xFFFF (l.dropped + (l.reasm.filter (fun r => decide (r.since + 10000 ≤ s.time.us))).length) }) s
    else s)

end Sys2Proof.Machine
end

