-- ==== Sys2Proof/Machine/Observe.lean ====
section
/-! DEFINITION. Counters, snapshots, the dump engine, freeze and the Relor monitor (17_observability_and_freeze.md).
(DESIGN CHOICE, log entry 12.) -/

namespace Sys2Proof.Machine

/-! ## Counters (R427 to R433) -/

/-- PMC_OVERFLOW (R427): the counter of a cycle-driven event wraps to the remainder and sets OVFk. -/
def execPmcOverflow (island : Island) (k : Fin 8) (occurrences : Nat) (s : State) : Host.Outcome State Fault Refusal :=
  .next (if pmcCounts s island k ∧ 2 ^ 48 ≤ vget 0 (getPerf s island).pmc k + occurrences then
      modPerf island (fun p => { p with pmc := vset p.pmc k ((vget 0 p.pmc k + occurrences) % 2 ^ 48), ovf := p.ovf ||| 2 ^ k.val }) s
    else s)

/-- COUNTER_HI_WRITE (R431): a write at `addr` when a counter's HI register lies there. -/
def execCounterHiWrite (ini : Island) (addr data : Word) (s : State) : Host.Outcome State Fault Refusal :=
  .next (match decodeReg addr.toNat with
    | some (_, row, _) =>
      if row.reg = .cycHi ∨ row.reg = .pmcHi then viaRegWrite ini addr.toNat data.toNat 0xF s else s
    | none => s)

/-! ## Snapshots (R434) -/

/-- SNAPSHOT_STROBE (R434): at a multiple of PERIOD, while it is not 0 and freeze does not hold. -/
def execSnapshotStrobe (s : State) : Host.Outcome State Fault Refusal :=
  .next (let period := bitsOf (regValue s 0 .dumpPeriod 0) 0 24
    if period ≠ 0 ∧ s.time.us % period = 0 ∧ s.freeze.frozen = false then
      countEvent 0 0x045 1 (latchReg (dumpStep (captureAll s)) 0 .dumpPeriod 0)
    else s)

/-- DUMP_ENABLE (R438): a write of DUMP_CFG with ENABLE = 1 and its other fields as they are. (DESIGN CHOICE, log entry 45.) -/
def execDumpEnable (ini : Island) (s : State) : Host.Outcome State Fault Refusal :=
  .next (viaRegWrite ini (regAddr 1 .dumpCfg 0) (regValue s 1 .dumpCfg 0 ||| 1) 0x1 s)

/-! ## Freeze (R439 to R441) -/

/-- A freeze request: it fires wake source 7; it acts only in DEVELOP and outside PARK, and in PARK it acts at the resume
(R362, R439). -/
def freezeRequest (src : FreezeSource) (s : State) : State :=
  let s := fireWake 7 s
  if lifecycle s ≠ 1 then s
  else
    let s := { s with freeze := match src with
      | .pin => { s.freeze with pin := true }
      | .monitor => { s.freeze with mon := true } }
    if s.freeze.frozen then s
    else match s.park.phase with
      | .idle => freezeNow s
      | .querying => s
      | _ => modPark (fun k => { k with freezeAtResume := true }) s

/-- FREEZE_REQUEST (R439). -/
def execFreezeRequest (src : FreezeSource) (s : State) : Host.Outcome State Fault Refusal := .next (freezeRequest src s)

/-- A timed instruction still waiting whose time passed during the freeze sets LATE (R324). (DEDUCED, log entry 37.) -/
def markLate (s : State) : State :=
  allIslands.foldl (fun s i =>
    match (getCore s i).wait with
    | .timed t _ => if t ≤ s.time.us then countEvent i 0x00D 1 (modCore i (fun k => { k with late := true }) s) else s
    | _ => s) s

/-- The freeze is released once neither FREEZE_N nor the monitor holds it (R439, R441). -/
def tryRelease (s : State) : State :=
  if s.freeze.frozen ∧ s.freeze.pin = false ∧ s.freeze.mon = false then
    let start := s.freeze.start
    freezeAftermath start (markLate { s with freeze := { s.freeze with frozen := false } })
  else s

/-- FREEZE_RELEASE (R441): FREEZE_N rises. (DEDUCED, log entry 37.) -/
def execFreezeRelease (s : State) : Host.Outcome State Fault Refusal :=
  .next (tryRelease { s with freeze := { s.freeze with pin := false } })

/-! ## The Relor monitor (R443 to R446) -/

/-- Whether the recovery loader answers the monitor UART: in every lifecycle state but RETIRED (R452). -/
def loaderServes (s : State) : Bool := s.boot.stage == .loader && lifecycle s != 3 && !s.freeze.frozen

/-- Whether anything answers the monitor UART: the read-out engine in a freeze, the monitor on the deck, or the recovery
loader (R442, R452). -/
def monServed (s : State) : Bool := s.freeze.frozen || deckRuns s || loaderServes s

/-- One answer of the monitor. -/
def monAnswer (cmd : Nat) (st : Status) (data : List Byte) (s : State) : State :=
  modMon (fun m => { m with last := st, lastCmd := s.time.us, sent := m.sent ++ [{ cmd := cmd, status := st, data := data }] }) s

/-- The lifecycle states in which a command is permitted, FACTORY, DEVELOP, CLAIMED unlocked or not, RETIRED, as its
refusal or 0x00 (R445). `c` is the status in CLAIMED. -/
def monPermit (s : State) (factory develop : Bool) (claimed : Status) (retired : Bool) : Status :=
  match lifecycle s with
  | 0 => if factory then 0x00 else 0xE0
  | 1 => if develop then 0x00 else 0xE0
  | 2 => claimed
  | _ => if retired then 0x00 else 0xE0

/-- A monitor command: nothing answers it, the loader does not know it, it is not permitted, or it runs. -/
def monCommand (cmd : Nat) (permit : Status) (run : State → State) (s : State) : State :=
  if monServed s = false then s
  else if loaderServes s then monAnswer cmd 0xE3 [] s
  else if permit ≠ 0 then monAnswer cmd permit [] s
  else run s

/-- The payload of INFO (R444). -/
def monInfoData (s : State) : List Byte :=
  [BitVec.ofNat 8 (lifecycle s), BitVec.ofNat 8 (b2n s.mon.unlocked), BitVec.ofNat 8 (b2n s.freeze.frozen), 0] ++
    serialBytes ++ padTo 32 s.boot.digest ++ leBytes 8 s.time.us

/-- MON_INFO (R444), which the recovery loader answers too. -/
def execMonInfo (s : State) : Host.Outcome State Fault Refusal :=
  .next (if monServed s then monAnswer 0x01 0x00 (monInfoData s) s else s)

/-- The words of a READ from `addr`, and the first failing status, through the viaduct as accesses by the deck. -/
def monReadWords (addr : Nat) : Nat → State → List Byte × Status × State
  | 0, s => ([], 0, s)
  | n + 1, s =>
    let r := serveRead 1 addr 1 false (countIssueAddr 1 addr s)
    let (rest, st, s') := monReadWords (addr + 4) n r.next
    (leBytes 4 (r.data.getD 0 0) ++ rest, if r.status ≠ 0 then r.status else st, s')

/-- The words of a READ during a freeze, by the read-out engine, without a side effect (R442).
(DESIGN CHOICE, log entry 20.) -/
def monReadout (addr : Nat) : Nat → State → List Byte × Status
  | 0, _ => ([], 0)
  | n + 1, s =>
    let r := readoutWord s addr
    let (rest, st) := monReadout (addr + 4) n s
    (leBytes 4 r.1 ++ rest, if r.2 ≠ 0 then r.2 else st)

/-- MON_READ (R444). -/
def execMonRead (addr : Word) (count : Nat) (s : State) : Host.Outcome State Fault Refusal :=
  .next (monCommand 0x02 (monPermit s true true (if s.mon.unlocked then 0x00 else 0xE1) false) (fun s =>
    if count = 0 ∨ 128 < count then monAnswer 0x02 0xE2 [] s
    else if s.freeze.frozen then
      let r := monReadout addr.toNat count s
      monAnswer 0x02 r.2 r.1 s
    else
      let r := monReadWords addr.toNat count s
      monAnswer 0x02 r.2.1 r.1 r.2.2) s)

/-- The words of a WRITE, in order up to the first that fails: its index and status. -/
def monWriteWords (ini addr : Nat) : List Word → Nat → State → Option (Nat × Status) × State
  | [], _, s => (none, s)
  | w :: ws, i, s =>
    let r := serveWrite ini addr [w.toNat] 0xF false (countIssueAddr ini addr s)
    if r.status ≠ 0 then (some (i, r.status), r.next) else monWriteWords ini (addr + 4) ws (i + 1) r.next

/-- MON_WRITE (R444). -/
def execMonWrite (addr : Word) (ws : List Word) (s : State) : Host.Outcome State Fault Refusal :=
  .next (monCommand 0x03 (monPermit s true true 0xE0 false) (fun s =>
    if s.freeze.frozen then monAnswer 0x03 0xE5 [] s
    else if ws.length = 0 ∨ 128 < ws.length then monAnswer 0x03 0xE2 [] s
    else
      match monWriteWords 1 addr.toNat ws 0 s with
      | (some (i, st), s) => monAnswer 0x03 st (leBytes 2 i) s
      | (none, s) => monAnswer 0x03 0x00 (leBytes 2 0xFFFF) s) s)

/-- MON_FREEZE (R439, R444). -/
def execMonFreeze (s : State) : Host.Outcome State Fault Refusal :=
  .next (monCommand 0x04 (monPermit s false true 0xE0 false) (fun s => freezeRequest .monitor (monAnswer 0x04 0x00 [] s)) s)

/-- MON_RELEASE (R444). -/
def execMonRelease (s : State) : Host.Outcome State Fault Refusal :=
  .next (monCommand 0x05 (monPermit s false true 0xE0 false)
    (fun s => tryRelease { monAnswer 0x05 0x00 [] s with freeze := { s.freeze with mon := false } }) s)

/-- g0 to g15 of the bank in use, then special registers 0 to 15, 4 B each (R444). -/
def coreWords (s : State) (i : Nat) : List Byte :=
  ((List.range 16).map (fun r => leBytes 4 ((getCore s i).gpr (BitVec.ofNat 4 r)).toNat)).flatten ++
    ((List.range 16).map (fun n => leBytes 4 (readSpecial s i n).toNat)).flatten

/-- MON_CORE (R442, R444): the keystone reads as zero with 0xE8, an OFF island as zero with 0x03; an island without a
core has no register to read and answers 0x17. (DESIGN CHOICE, log entry 20.) -/
def execMonCore (island : Byte) (s : State) : Host.Outcome State Fault Refusal :=
  .next (monCommand 0x06 (monPermit s false true 0xE0 false) (fun s =>
    let i := island.toNat
    if s.freeze.frozen = false then monAnswer 0x06 0xE4 [] s
    else if hasCore i = false then monAnswer 0x06 0x17 (List.replicate 128 0) s
    else if pstate s i = .off then monAnswer 0x06 0x03 (List.replicate 128 0) s
    else if i = 2 then monAnswer 0x06 0xE8 (List.replicate 128 0) s
    else monAnswer 0x06 0x00 (coreWords s i) s) s)

/-- A captured transaction's kind for INFLIGHT, in the order of R30's table: 0 word read, 1 word write, 2 burst read, 3 burst write, 4 message. -/
def Txn.kind (t : Txn) : Nat :=
  match t.op with
  | .read _ => if t.burst then 2 else 0
  | .write _ _ => if t.burst then 3 else 1
  | .message _ _ => 4

/-- A captured transaction's 12 bytes; its handshake phase is a free value (R444). (DESIGN CHOICE, log entry 44.) -/
def inflightBytes (ini phase : Nat) (t : Txn) : List Byte :=
  let data := match t.op with
    | .write ws _ => ws.getD 0 0
    | .message _ m => (m.extractLsb' 0 32).toNat
    | .read _ => 0
  leBytes 1 ini ++ leBytes 1 ((txnIsland t).getD 15) ++ leBytes 1 t.kind ++ leBytes 1 phase ++ leBytes 4 t.addr ++ leBytes 4 data

/-- The transactions captured, each with its initiator, in the order of the islands. (DESIGN CHOICE, log entry 44.) -/
def inflightTxns (s : State) : List (Nat × Txn) := allIslands.flatMap (fun i => (vget [] s.via.txns i).map (fun t => (i, t)))

/-- The payload of INFLIGHT: one open value for each transaction's phase. -/
def inflightData : Nat → List (Nat × Txn) → List Byte
  | _, [] => []
  | n, (i, t) :: rest => inflightBytes i (Config.freeValue n) t ++ inflightData (n + 1) rest

/-- MON_INFLIGHT (R444). -/
def execMonInflight (s : State) : Host.Outcome State Fault Refusal :=
  .next (monCommand 0x07 (monPermit s false true 0xE0 false) (fun s =>
    if s.freeze.frozen = false then monAnswer 0x07 0xE4 [] s
    else
      let l := inflightTxns s
      monAnswer 0x07 0x00 (inflightData s.free l) { s with free := s.free + l.length }) s)

/-- MON_CHALLENGE (R446): a nonce from the software port, unless the unlock attempts are exhausted. -/
def execMonChallenge (s : State) : Host.Outcome State Fault Refusal :=
  .next (monCommand 0x08 (monPermit s false false 0x00 false) (fun s =>
    if s.time.us < s.mon.rateUntil then monAnswer 0x08 0xE7 [] s
    else
      match drawPort 4 s with
      | (.ok nonce, s) => monAnswer 0x08 0x00 nonce (modMon (fun m => { m with nonce := some (nonce, s.time.us) }) s)
      | (.error st, s) => monAnswer 0x08 st [] s) s)

/-- The message an unlock signature covers: "RLR1", SERIAL and NONCE (R446). -/
def unlockMessage (nonce : List Byte) : List Byte := [0x52, 0x4C, 0x52, 0x31] ++ serialBytes ++ nonce

/-- MON_UNLOCK (R446): the nonce serves one UNLOCK within 60 s; three failures in a row hold CHALLENGE off for 60 s. -/
def execMonUnlock (sig : List Byte) (s : State) : Host.Outcome State Fault Refusal :=
  .next (monCommand 0x09 (monPermit s false false 0x00 false) (fun s =>
    match s.mon.nonce with
    | none => monAnswer 0x09 0xE6 [] s
    | some (nonce, t) =>
      let s := modMon (fun m => { m with nonce := none }) s
      if t + 60000000 ≤ s.time.us then monAnswer 0x09 0xE6 [] s
      else if operatorVerifies s (unlockMessage nonce) sig then
        monAnswer 0x09 0x00 [] (modMon (fun m => { m with unlocked := true, failures := 0 }) s)
      else
        monAnswer 0x09 0x06 [] (modMon (fun m =>
          if 3 ≤ m.failures + 1 then { m with failures := 0, rateUntil := s.time.us + 60000000 } else { m with failures := m.failures + 1 }) s)) s)

/-- MON_LOCK (R446). -/
def execMonLock (s : State) : Host.Outcome State Fault Refusal :=
  .next (monCommand 0x0A (monPermit s false false 0x00 false) (fun s => monAnswer 0x0A 0x00 [] (modMon (fun m => { m with unlocked := false }) s)) s)

/-- MON_FRAME_GAP (R443): the frame is discarded without an answer; the block holds whole frames only, so nothing changes. -/
def execMonFrameGap (s : State) : Host.Outcome State Fault Refusal := .next s

/-- UNLOCK_TIMEOUT (R446): 600 s without a command frame. -/
def execUnlockTimeout (s : State) : Host.Outcome State Fault Refusal :=
  .next (if s.mon.unlocked ∧ s.mon.lastCmd + 600000000 ≤ s.time.us then modMon (fun m => { m with unlocked := false }) s else s)

/-! ## The recovery loader (R452) -/

/-- MON_LOAD (R452): data written to an image bank by the recovery loader; a bank, offset or length outside the rule is
answered as a bad frame. (DESIGN CHOICE, log entry 20.) -/
def execMonLoad (bank : Byte) (offset : Nat) (data : List Byte) (s : State) : Host.Outcome State Fault Refusal :=
  .next (if loaderServes s = false then (if monServed s then monAnswer 0x20 0xE3 [] s else s)
    else if bank.toNat < 2 ∧ offset % 4 = 0 ∧ data.length ≤ 1016 ∧ offset + data.length ≤ 0xA0000 then
      monAnswer 0x20 0x00 [] (memWriteBytes (imageBase bank.toNat + offset) data s)
    else monAnswer 0x20 0xE2 [] s)

/-- MON_BOOT (R452): the bank is verified; a valid one is named in the ledger and booted. -/
def execMonBoot (bank : Byte) (s : State) : Host.Outcome State Fault Refusal :=
  .next (if loaderServes s = false then (if monServed s then monAnswer 0x21 0xE3 [] s else s)
    else
      let b := bank.toNat
      if 2 ≤ b ∨ headerOk (imageHeader s b) = false then monAnswer 0x21 0x02 [] s
      else if bankValid s b = false then monAnswer 0x21 0x06 [] s
      else bootStep (bootFrom b false (requestChange (.imageBank b) (monAnswer 0x21 0x00 [] s))))

end Sys2Proof.Machine
end

