-- ==== Sys2Proof/Machine/Rows.lean ====
section
/-! DEFINITION. Rows of the span service, the toll gate and the field buses, and register commands as rows (R43 to R68,
R77, R88 to R93, R344, R374, R379, R420 to R424). (DEDUCED, log entry 32.) -/

namespace Sys2Proof.Machine

/-- A command that is a write of a register of island i by `ini`: who may write, then the write's effect (R12, R35). -/
def cmdWrite (ini i : Nat) (r : Reg) (act : State → Status × State) (s : State) : State :=
  islandWrite ini i r (fun s => if mayWrite ini i r then act s else (0x02, s)) s

/-- A register write whose effect has no status of its own. -/
def cmdDo (ini i : Nat) (r : Reg) (act : State → State) (s : State) : State := cmdWrite ini i r (fun s => (0x00, act s)) s

/-- An event of island i, which happens only while the island acts. (DESIGN CHOICE, log entry 3.) -/
def when_ (i : Nat) (s : State) (act : State → State) : State := if canAct s i then act s else s

/-! ## The span service (R43 to R68, R483, R484) -/

/-- The request of a host START that a sense request carries: one that already waits, or a new one over SPI. -/
def startReq (s : State) (bay seq : Nat) : HostReq :=
  (s.link.waiting.find? (fun r => r.typ == 1 && r.seq == seq)).getD ⟨1, bay, seq, .spi⟩

/-- SENSE_REQUEST (R43 to R47). -/
def execSenseRequest (src : SenseSource) (bay : Bay) (s : State) : Host.Outcome State Fault Refusal :=
  .next (when_ 1 s (fun s => match src with
    | .detuning => senseArrive 0 bay [] none s
    | .locatedFob => senseArrive 1 bay [] none s
    | .tagRead => senseArrive 2 bay [] none s
    | .hostStart ident q => senseArrive 3 bay (padTo 16 ident) (some (startReq s bay q)) s))

/-- BIRTH (R43). -/
def execBirth (s : State) : Host.Outcome State Fault Refusal := .next (birth s)

/-- QUEUE_ENTRY_TIMEOUT (R483). -/
def execQueueEntryTimeout (bay : Bay) (source : Fin 4) (s : State) : Host.Outcome State Fault Refusal := .next (entryTimeout bay source s)

/-- SPAN_DISABLE (R43): a write of DECK.SPAN_CTRL with ENABLE = 0. -/
def execSpanDisable (ini : Island) (s : State) : Host.Outcome State Fault Refusal := .next (cmdDo ini 1 .spanCtrl spanDisableAct s)

/-- AUTH_DEADLINE (R51). -/
def execAuthDeadline (bay : Bay) (s : State) : Host.Outcome State Fault Refusal := .next (authDeadlineAct bay s)

/-- RELEASE_DEADLINE (R52). -/
def execReleaseDeadline (bay : Bay) (s : State) : Host.Outcome State Fault Refusal := .next (releaseDeadlineAct bay s)

/-- TOKEN_NOT_AFTER (R63). -/
def execTokenNotAfter (bay : Bay) (s : State) : Host.Outcome State Fault Refusal := .next (tokenNotAfterAct bay s)

/-- INTERIM_INSTANT (R66). -/
def execInterimInstant (bay : Bay) (s : State) : Host.Outcome State Fault Refusal := .next (interimAct bay s)

/-- MAX_DURATION_REACHED (R48). -/
def execMaxDurationReached (bay : Bay) (s : State) : Host.Outcome State Fault Refusal := .next (maxDurationAct bay s)

/-! ## The toll gate (R77, R88 to R93) -/

/-- TOLL_REQ (R89): a write of DECK.TOLL_REQ. -/
def execTollReq (ini : Island) (word : Word) (s : State) : Host.Outcome State Fault Refusal :=
  .next (cmdWrite ini 1 .tollReqR (tollReqWrite word.toNat) s)

/-- TOLL_REQUEST_PROCESS (R88). -/
def execTollRequestProcess (s : State) : Host.Outcome State Fault Refusal := .next (tollProcess s)

/-- TOLL_CANCEL (R90): a write of DECK.TOLL_CANCEL. -/
def execTollCancel (ini : Island) (handle : Byte) (s : State) : Host.Outcome State Fault Refusal :=
  .next (cmdDo ini 1 .tollCancelR (tollCancelHandle handle.toNat) s)

/-- FRAME_BOUNDARY (R77). -/
def execFrameBoundary (s : State) : Host.Outcome State Fault Refusal := .next (frameOpen s)

/-- A miss (R93, R379): counted, raised as 0xD5, and answered with 0x05. The deck journals it when it pops the parapet's
log, or at once when the log is full. A CLOSE job that misses while its signature is owed leaves a SIG record with 0x11. -/
def missed (handle cls resource deadline : Nat) (s : State) : State :=
  let detail := leBytes 1 handle ++ leBytes 1 resource ++ leBytes 8 deadline
  let full := decide (8 ≤ s.par.log.length)
  let s := countEvent 1 0x043 1 (modToll (fun t => { t with missed := satTo 0xFFFF (t.missed + 1) }) s)
  let s := parapetEvent 0xD5 1 cls detail s
  let s := if full then deckFault 0xD5 1 cls s.time.us detail s else s
  let s := if cls = 6 ∧ s.store.sigOwed.isSome then sigAppend ⟨2, 0, 0, none, 0x11, .sig 0 s.store.head⟩ s else s
  missAnswer handle s

/-- JOB_MISS (R93): an admitted job that is not finished at its deadline. -/
def execJobMiss (handle : Byte) (cls : Fin 32) (resource : Fin 16) (deadline : Nat) (s : State) : Host.Outcome State Fault Refusal :=
  .next (if canAct s 1 ∧ s.toll.handles.contains handle.toNat ∧ deadline ≤ s.time.us then missed handle.toNat cls resource deadline s else s)

/-- HOOK_BUDGET_EXPIRY (R344): the hook is abandoned and a FAULT record names it. Its default result is what the step that
called it goes on with (R345). (DEDUCED, log entry 29.) -/
def execHookBudgetExpiry (hook : Fin 8) (_bay : Bay) (s : State) : Host.Outcome State Fault Refusal :=
  .next (if deckRuns s ∧ hook.val < 5 then deckFault 0xDE 1 hook s.time.us [] s else s)

/-! ## The field buses (R420 to R424) -/

/-- METER_LATCH (R422). -/
def execMeterLatch (s : State) : Host.Outcome State Fault Refusal := .next (meterLatchAct s)

/-- METER_READ (R421). -/
def execMeterRead (bay : Bay) (s : State) : Host.Outcome State Fault Refusal := .next (meterReadAct bay s)

/-- METER_REPLY (R421). -/
def execMeterReply (bay : Bay) (reply : MeterReply) (s : State) : Host.Outcome State Fault Refusal := .next (meterReplyAct bay reply s)

/-- METER_TIMEOUT (R420). -/
def execMeterTimeout (bay : Bay) (s : State) : Host.Outcome State Fault Refusal := .next (meterTimeoutAct bay s)

/-- DISP_TOKEN (R423). -/
def execDispToken (bay : Bay) (s : State) : Host.Outcome State Fault Refusal := .next (dispTokenAct bay s)

/-- TOKEN_LAST_BYTE (R48). -/
def execTokenLastByte (bay : Bay) (s : State) : Host.Outcome State Fault Refusal := .next (tokenLastByteAct bay s)

/-- DISP_BEACON (R424). -/
def execDispBeacon (s : State) : Host.Outcome State Fault Refusal := .next (dispBeaconAct s)

/-- DISP_POLL (R424). -/
def execDispPoll (bay : Bay) (s : State) : Host.Outcome State Fault Refusal := .next (dispPollAct bay s)

/-- DISP_STOP (R65). -/
def execDispStop (bay : Bay) (s : State) : Host.Outcome State Fault Refusal := .next (dispStopAct bay s)

/-- DISP_REPORT (R424). -/
def execDispReport (bay : Bay) (report : Fin 3) (code : Byte) (counter : Nat) (s : State) : Host.Outcome State Fault Refusal :=
  .next (dispReportAct bay report code (counter % 2 ^ 64) s)

/-- DISP_NONE (R423). -/
def execDispNone (bay : Bay) (s : State) : Host.Outcome State Fault Refusal := .next (dispNoneAct bay s)

/-- DISP_REPLY_TIMEOUT (R424). -/
def execDispReplyTimeout (bay : Bay) (s : State) : Host.Outcome State Fault Refusal := .next (dispTimeoutAct bay s)

/-- MDIO_ACCESS_DONE (R426): BUSY falls; a read places its data in DATA. -/
def execMdioAccessDone (data : BitVec 16) (s : State) : Host.Outcome State Fault Refusal :=
  .next (when_ 5 s (fun s => match s.link.mdio with
    | none => s
    | some rd =>
      let t := modLink (fun l => { l with mdio := none }) s
      if rd then putReg t 5 .mdio 0 (setField (regValue t 5 .mdio 0) 0 16 data.toNat) else t))

end Sys2Proof.Machine
end

