-- ==== Sys2Proof/Machine/KeysRows.lean ====
section
/-! DEFINITION. Rows of the cipher engine, the caissons, the random number generator and the signer (R212 to R264).
(DEDUCED, log entry 42.) -/

namespace Sys2Proof.Machine

/-! ## The cipher engine (R212, R217, R228 to R237) -/

/-- CIPHER_START (R237). -/
def execCipherStart (ini : Island) (ctx : Fin 2) (desc : BitVec 12) (s : State) : Host.Outcome State Fault Refusal :=
  .next (cmdWrite ini 2 .cipherCmd (cipherStartAct ctx desc.toNat) s)

/-- CIPHER_SUSPEND_AND_START (R229). -/
def execCipherSuspendAndStart (ini : Island) (ctx : Fin 2) (desc : BitVec 12) (s : State) : Host.Outcome State Fault Refusal :=
  .next (cmdWrite ini 2 .cipherCmd (cipherSuspendAct ctx desc.toNat) s)

/-- CIPHER_RESUME (R229). -/
def execCipherResume (ini : Island) (ctx : Fin 2) (s : State) : Host.Outcome State Fault Refusal :=
  .next (cmdWrite ini 2 .cipherCmd (cipherResumeAct ctx) s)

/-- CIPHER_ABORT (R229). -/
def execCipherAbort (ini : Island) (ctx : Fin 2) (s : State) : Host.Outcome State Fault Refusal :=
  .next (cmdWrite ini 2 .cipherCmd (cipherAbortAct ctx) s)

/-- CIPHER_BLOCK_BOUNDARY (R229). -/
def execCipherBlockBoundary (accessStatus : Status) (s : State) : Host.Outcome State Fault Refusal := .next (blockBoundary accessStatus s)

/-- CIPHER_MESSAGE_END (R212). -/
def execCipherMessageEnd (s : State) : Host.Outcome State Fault Refusal := .next (messageEnd s)

/-- LOCK_ACQUIRE (R228). -/
def execLockAcquire (ini : Island) (s : State) : Host.Outcome State Fault Refusal := .next (cmdWrite ini 2 .cipherLock lockAcquireWrite s)

/-- LOCK_RELEASE (R228): STORE releases through its private port, firmware through KEYS.CIPHER_LOCK. -/
def execLockRelease (ini : Island) (s : State) : Host.Outcome State Fault Refusal :=
  .next (if ini.val = 4 then (if canAct s 4 ∧ canAct s 2 then (lockReleaseWrite .store s).2 else s)
    else cmdWrite ini 2 .cipherLock (lockReleaseWrite .keys) s)

/-- STORE_LOCK_REQUEST (R231). -/
def execStoreLockRequest (s : State) : Host.Outcome State Fault Refusal := .next (when_ 4 s (fun s => when_ 2 s (lockRequest .store)))

/-- LOCK_GRANT (R228). -/
def execLockGrant (s : State) : Host.Outcome State Fault Refusal := .next (when_ 2 s lockServe)

/-- HOLD_EXPIRED (R230). -/
def execHoldExpired (s : State) : Host.Outcome State Fault Refusal := .next (holdExpiry s)

/-- SLOT_CLEAR (R217). -/
def execSlotClear (ini : Island) (slot : BitVec 7) (s : State) : Host.Outcome State Fault Refusal :=
  .next (cmdWrite ini 2 .slotCtrl (slotClearWrite slot.toNat) s)

/-- CAISSON_SEAL (R235). -/
def execCaissonSeal (ini : Island) (k : Fin 4) (s : State) : Host.Outcome State Fault Refusal :=
  .next (cmdWrite ini 2 .caissonCtrl (sealWrite k true) s)

/-- CAISSON_UNSEAL (R235). -/
def execCaissonUnseal (ini : Island) (k : Fin 4) (s : State) : Host.Outcome State Fault Refusal :=
  .next (cmdWrite ini 2 .caissonCtrl (sealWrite k false) s)

/-- CAISSON_ZEROING_DONE (R233). -/
def execCaissonZeroingDone (k : Fin 4) (s : State) : Host.Outcome State Fault Refusal := .next (zeroingDone k s)

/-! ## The random number generator (R241 to R251) -/

/-- RNG_ENABLE (R249). -/
def execRngEnable (ini : Island) (s : State) : Host.Outcome State Fault Refusal := .next (cmdDo ini 2 .rngCtrl (rngEnableWrite true) s)

/-- RNG_DISABLE (R264). -/
def execRngDisable (ini : Island) (s : State) : Host.Outcome State Fault Refusal := .next (cmdDo ini 2 .rngCtrl (rngEnableWrite false) s)

/-- RNG_RESEED_CMD (R246). -/
def execRngReseedCmd (ini : Island) (s : State) : Host.Outcome State Fault Refusal := .next (cmdDo ini 2 .rngCtrl rngAskReseed s)

/-- RNG_RESTART (R251). -/
def execRngRestart (ini : Island) (s : State) : Host.Outcome State Fault Refusal := .next (cmdDo ini 2 .rngCtrl rngRestartWrite s)

/-- RNG_WARMUP_END (R241). -/
def execRngWarmupEnd (s : State) : Host.Outcome State Fault Refusal := .next (rngWarmupDone s)

/-- RNG_STARTUP_TEST_END (R243). -/
def execRngStartupTestEnd (s : State) : Host.Outcome State Fault Refusal := .next (rngStartupDone s)

/-- RNG_INSTANTIATE (R249). -/
def execRngInstantiate (seed : BitVec 384) (s : State) : Host.Outcome State Fault Refusal := .next (rngInstantiated seed s)

/-- RNG_HEALTH_FAIL (R250). -/
def execRngHealthFail (aptTest : Bool) (s : State) : Host.Outcome State Fault Refusal := .next (rngHealthFailed aptTest s)

/-- RNG_RESEED_DONE (R246). -/
def execRngReseedDone (seed : BitVec 384) (s : State) : Host.Outcome State Fault Refusal := .next (rngReseeded seed s)

/-- RNG_PRIVATE_REQUEST (R247). -/
def execRngPrivateRequest (wire : Fin 3) (bytes : Nat) (s : State) : Host.Outcome State Fault Refusal := .next (when_ 2 s (rngRequest wire bytes))

/-- RNG_GENERATE (R248). -/
def execRngGenerate (s : State) : Host.Outcome State Fault Refusal := .next (rngGenerated s)

/-! ## The signer (R255 to R260) -/

/-- HASH256 (R255). -/
def execHash256 (ini : Island) (key : BitVec 3) (desc : BitVec 12) (s : State) : Host.Outcome State Fault Refusal :=
  .next (cmdWrite ini 2 .signCmd (signCmdWrite 0 key.toNat desc.toNat) s)

/-- HASH384 (R255). -/
def execHash384 (ini : Island) (key : BitVec 3) (desc : BitVec 12) (s : State) : Host.Outcome State Fault Refusal :=
  .next (cmdWrite ini 2 .signCmd (signCmdWrite 1 key.toNat desc.toNat) s)

/-- SIGN (R257). -/
def execSign (ini : Island) (key : BitVec 3) (desc : BitVec 12) (s : State) : Host.Outcome State Fault Refusal :=
  .next (cmdWrite ini 2 .signCmd (signCmdWrite 2 key.toNat desc.toNat) s)

/-- VERIFY (R255). -/
def execVerify (ini : Island) (key : BitVec 3) (desc : BitVec 12) (s : State) : Host.Outcome State Fault Refusal :=
  .next (cmdWrite ini 2 .signCmd (signCmdWrite 3 key.toNat desc.toNat) s)

/-- ATTEST (R260). -/
def execAttest (ini : Island) (key : BitVec 3) (desc : BitVec 12) (s : State) : Host.Outcome State Fault Refusal :=
  .next (cmdWrite ini 2 .signCmd (signCmdWrite 4 key.toNat desc.toNat) s)

/-- GEN_ID (R259). -/
def execGenId (ini : Island) (key : BitVec 3) (desc : BitVec 12) (s : State) : Host.Outcome State Fault Refusal :=
  .next (cmdWrite ini 2 .signCmd (signCmdWrite 5 key.toNat desc.toNat) s)

/-- SIGNER_NONCE_DELIVERED (R257). -/
def execSignerNonceDelivered (s : State) : Host.Outcome State Fault Refusal := .next (nonceDelivered s)

/-- SIGN_COMMAND_END (R256). -/
def execSignCommandEnd (s : State) : Host.Outcome State Fault Refusal := .next (signEnded s)

end Sys2Proof.Machine
end

