-- ==== Sys2Proof/Machine/LfRows.lean ====
section
/-! DEFINITION. Rows of the LF bay array and the LF air protocols (R101, R108 to R123, R129, R141 to R151, R408). -/

namespace Sys2Proof.Machine

/-! ## Commands to a pier (R111, R113, R123, R124) -/

/-- LF_DRIVE_START (R111). -/
def execLfDriveStart (ini : Island) (pier : PierId) (aerial : Fin 8) (txbits : BitVec 12) (s : State) : Host.Outcome State Fault Refusal :=
  .next (cmdWrite ini (6 + pier) .lfCmd (lfStart pier aerial 0 txbits.toNat) s)

/-- LF_PING_START (R111). -/
def execLfPingStart (ini : Island) (pier : PierId) (aerial : Fin 8) (s : State) : Host.Outcome State Fault Refusal :=
  .next (cmdWrite ini (6 + pier) .lfCmd (lfStart pier aerial 1 0) s)

/-- LF_TUNE_START (R117). -/
def execLfTuneStart (ini : Island) (pier : PierId) (aerial : Fin 8) (s : State) : Host.Outcome State Fault Refusal :=
  .next (cmdWrite ini (6 + pier) .lfCmd (lfStart pier aerial 2 0) s)

/-- LF_CHORD_ARM (R108). -/
def execLfChordArm (ini : Island) (pier : PierId) (aerial : Fin 8) (s : State) : Host.Outcome State Fault Refusal :=
  .next (cmdWrite ini (6 + pier) .lfCmd (lfStart pier aerial 3 0) s)

/-- LF_STOP (R113). -/
def execLfStop (ini : Island) (pier : PierId) (s : State) : Host.Outcome State Fault Refusal :=
  .next (cmdDo ini (6 + pier) .lfCmd (lfStop pier) s)

/-- LF_DISABLE (R113): a write of LF_CTRL.ENABLE = 0. -/
def execLfDisable (ini : Island) (pier : PierId) (s : State) : Host.Outcome State Fault Refusal :=
  .next (cmdDo ini (6 + pier) .lfCtrl (lfEnableWrite pier false) s)

/-- LF_TXD_PUSH (R124). -/
def execLfTxdPush (ini : Island) (pier : PierId) (data : Word) (s : State) : Host.Outcome State Fault Refusal :=
  .next (cmdWrite ini (6 + pier) .lfTxd (lfTxdPush pier data.toNat) s)

/-- LF_AER_CLR (R123). -/
def execLfAerClr (ini : Island) (pier : PierId) (mask : BitVec 8) (s : State) : Host.Outcome State Fault Refusal :=
  .next (cmdDo ini (6 + pier) .lfAerClrR (lfAerClear pier mask.toNat) s)

/-! ## What happens in a burst (R101, R110, R114, R115, R129) -/

/-- LF_CHORD_START (R108, R129): an armed chord whose T0 has come starts its burst. -/
def chordStart (p : Nat) (s : State) : State :=
  match (getPier s p).burst with
  | some b =>
    match b.armed with
    | some t => if t ≤ s.time.us then beginBurst p b s else s
    | none => s
  | none => s

/-- LF_CHORD_START (R129). -/
def execLfChordStart (pier : PierId) (s : State) : Host.Outcome State Fault Refusal := .next (when_ (6 + pier) s (chordStart pier))

/-- DRIVE_CHECK (R115): the cycle sample is LF_IQ's, and a DRIVE or CHORD burst that fails ends with 0x40. -/
def driveCheck (p : Nat) (i q : BitVec 16) (s : State) : State :=
  match (getPier s p).burst with
  | some b =>
    if b.armed = none ∧ (b.mode = 0 ∨ b.mode = 3) then
      modPier p (fun x => { x with iqI := i, iqQ := q, burst := some { b with opened := b.opened || driveFails i.toInt q.toInt } }) s
    else s
  | none => s

/-- DRIVE_CHECK (R115). -/
def execDriveCheck (pier : PierId) (i q : BitVec 16) (s : State) : Host.Outcome State Fault Refusal :=
  .next (when_ (6 + pier) s (driveCheck pier i q))

/-- A decoded word enters LF_RXD; a full FIFO of 32 loses it, and the next word stored says so (R110, R124, R143). -/
def uplinkWord (p bits count : Nat) (violation : Bool) (s : State) : State :=
  match (getPier s p).burst with
  | some b =>
    if b.armed = none ∧ b.mode = 0 then
      let s := countEvent (6 + p) 0x045 (b2n violation) (countEvent (6 + p) 0x044 count s)
      modPier p (fun q =>
        if q.rx.length < 32 then { q with rx := q.rx ++ [⟨bits / 2 ^ (16 - count) * 2 ^ (16 - count), count, violation, q.overrun⟩], overrun := false }
        else { q with overrun := true }) s
    else s
  | none => s

/-- UPLINK_WORD (R110). -/
def execUplinkWord (pier : PierId) (bits : BitVec 16) (count : Fin 17) (violation : Bool) (s : State) : Host.Outcome State Fault Refusal :=
  .next (when_ (6 + pier) s (uplinkWord pier bits.toNat count violation))

/-- The carrier cycles a burst has driven are counted as it ends: no more than have passed since its start (R429). -/
def countDriven (p : Nat) (s : State) : State :=
  match (getPier s p).burst with
  | some b => if b.armed = none then useFree (countEvent (6 + p) 0x041 (freeValue s % (carrierCycles s p b.start + 1)) s) else s
  | none => s

/-- LF_BURST_END (R114). (DESIGN CHOICE, log entry 34.) -/
def execLfBurstEnd (pier : PierId) (regLimit : Bool) (fundMv : Nat) (sweep : List SweepStep) (s : State) : Host.Outcome State Fault Refusal :=
  .next (when_ (6 + pier) s (fun s => lfBurstEnd pier regLimit fundMv sweep (countDriven pier s)))

/-- DRIVE_VALID_LOSS (R101): the strobe of a group whose pier is not acting has stopped, and its nine bridges open. -/
def execDriveValidLoss (pier : PierId) (s : State) : Host.Outcome State Fault Refusal :=
  .next (if canAct s (6 + pier) then s else modLf (fun l => { l with released := vset l.released pier true }) s)

/-! ## Pings (R118, R119, R408) -/

/-- PING_ROUND (R118): with a zone, a pier's round starts only in an owned frame (R408). -/
def execPingRound (owner : Option PierId) (s : State) : Host.Outcome State Fault Refusal :=
  .next (if owner.isSome ∧ zone s ≠ 0 ∧ frameTurn s (s.time.us / 1000) = none then s else pingRound (owner.map Fin.val) s)

/-- PING_DONE (R119). -/
def execPingDone (bay : Bay) (amp : BitVec 12) (phase : BitVec 9) (s : State) : Host.Outcome State Fault Refusal :=
  .next (pingDone bay amp.toNat phase.toNat s)

/-! ## Tags (R141 to R151) -/

/-- TAG_REPLY (R142). -/
def execTagReply (pier : PierId) (bits : List UpBit) (s : State) : Host.Outcome State Fault Refusal :=
  .next (when_ (6 + pier) s (tagReplied pier bits))

/-- TAG_REPLY_TIMEOUT (R141). -/
def execTagReplyTimeout (pier : PierId) (s : State) : Host.Outcome State Fault Refusal := .next (when_ (6 + pier) s (tagSilent pier))

/-- INVENTORY_RESERVATION_END (R146). -/
def execInventoryReservationEnd (pier : PierId) (s : State) : Host.Outcome State Fault Refusal := .next (inventoryOver pier s)

/-- KT_MAC_TIMEOUT (R151). -/
def execKtMacTimeout (pier : PierId) (s : State) : Host.Outcome State Fault Refusal := .next (ktMacLate pier s)

end Sys2Proof.Machine
end

