-- ==== Sys2Proof/Machine/RfRows.lean ====
section
/-! DEFINITION. Rows of the RF island and of the proximity exchange (R157 to R185, R193 to R208). -/

namespace Sys2Proof.Machine

/-! ## Commands (R159 to R163, R183, R185) -/

/-- A command written to RF.CMD. -/
def rfCmdRow (ini : Nat) (c : RfCmd) (s : State) : State := cmdWrite ini 3 .rfCmd (rfCommand c) s

/-- RF_CMD_OFF (R162). -/
def execRfCmdOff (ini : Island) (s : State) : Host.Outcome State Fault Refusal := .next (cmdWrite ini 3 .rfCmd (rfRestCommand 0 .off) s)

/-- RF_CMD_STANDBY (R162). -/
def execRfCmdStandby (ini : Island) (s : State) : Host.Outcome State Fault Refusal := .next (cmdWrite ini 3 .rfCmd (rfRestCommand 1 .standby) s)

/-- RF_CMD_SYNTH (R159). -/
def execRfCmdSynth (ini : Island) (ch : BitVec 7) (s : State) : Host.Outcome State Fault Refusal :=
  .next (rfCmdRow ini { op := 2, ch := ch.toNat, aerial := 0, pwr := 0, rate := false } s)

/-- RF_CMD_TX (R161). -/
def execRfCmdTx (ini : Island) (ch : BitVec 7) (aerial : Fin 4) (pwr : BitVec 6) (rate : Bool) (s : State) : Host.Outcome State Fault Refusal :=
  .next (rfCmdRow ini { op := 3, ch := ch.toNat, aerial := aerial, pwr := pwr.toNat, rate := rate } s)

/-- RF_CMD_RX (R163). -/
def execRfCmdRx (ini : Island) (ch : BitVec 7) (aerial : Fin 4) (rate : Bool) (s : State) : Host.Outcome State Fault Refusal :=
  .next (rfCmdRow ini { op := 4, ch := ch.toNat, aerial := aerial, pwr := 0, rate := rate } s)

/-- RF_CMD_WAKE (R162). -/
def execRfCmdWake (ini : Island) (s : State) : Host.Outcome State Fault Refusal := .next (cmdWrite ini 3 .rfCmd (rfRestCommand 5 .wake) s)

/-- RF_CMD_TEST (R183). -/
def execRfCmdTest (ini : Island) (ch : BitVec 7) (aerial : Fin 4) (pwr : BitVec 6) (s : State) : Host.Outcome State Fault Refusal :=
  .next (rfCmdRow ini { op := 6, ch := ch.toNat, aerial := aerial, pwr := pwr.toNat, rate := false } s)

/-- RF_CMD_CAL_ALL (R159). -/
def execRfCmdCalAll (ini : Island) (s : State) : Host.Outcome State Fault Refusal :=
  .next (rfCmdRow ini { op := 7, ch := 0, aerial := 0, pwr := 0, rate := false } s)

/-- RF_DISABLE (R185): a write of RF.CTRL with ENABLE = 0 acts as an OFF command. (DESIGN CHOICE, log entry 45.) -/
def execRfDisable (ini : Island) (s : State) : Host.Outcome State Fault Refusal :=
  .next (cmdDo ini 3 .rfCtrl (fun s => rfRestAct 0 .off (putReg s 3 .rfCtrl 0 0)) s)

/-- ANT_CLR (R183). -/
def execAntClr (ini : Island) (mask : BitVec 4) (s : State) : Host.Outcome State Fault Refusal :=
  .next (cmdDo ini 3 .antClrR (antClear mask.toNat) s)

/-! ## What the radio does (R158 to R183) -/

/-- RF_TRANSITION_DONE (R158). -/
def execRfTransitionDone (s : State) : Host.Outcome State Fault Refusal := .next (when_ 3 s rfTransitionDone)

/-- SYNTH_LOCK (R161). -/
def execSynthLock (s : State) : Host.Outcome State Fault Refusal := .next (when_ 3 s synthLock)

/-- SYNTH_LOCK_TIMEOUT (R160). -/
def execSynthLockTimeout (s : State) : Host.Outcome State Fault Refusal := .next (when_ 3 s synthLockTimeout)

/-- TX_PACKET_END (R165). -/
def execTxPacketEnd (s : State) : Host.Outcome State Fault Refusal := .next (when_ 3 s txPacketEnd)

/-- A packet in an open window; the chord listener keeps a report with good CRC (R137, R169). -/
def rxPacketAct (len : Nat) (payload : List Byte) (crc rssi time : Nat) (s : State) : State :=
  if s.rf.mode = .rx ∧ s.rf.phase = .active then
    let t := rxPacket len payload crc rssi time s
    if rxCheck len payload crc = 0x00 then keepReport (padTo len payload) time t else t
  else s

/-- RX_PACKET (R169). -/
def execRxPacket (len : Byte) (payload : List Byte) (crc : BitVec 24) (rssi : Byte) (time : Nat) (s : State) : Host.Outcome State Fault Refusal :=
  .next (when_ 3 s (rxPacketAct len.toNat payload crc.toNat rssi.toNat (time % 2 ^ 64)))

/-- RX_WINDOW_CLOSE (R173). -/
def execRxWindowClose (s : State) : Host.Outcome State Fault Refusal := .next (when_ 3 s rxWindowClose)

/-- REFLECTION_MEASURE (R182). -/
def execReflectionMeasure (mag : BitVec 6) (short : Bool) (s : State) : Host.Outcome State Fault Refusal :=
  .next (when_ 3 s (reflectionMeasure mag.toNat short))

/-- TEST_CARRIER_END (R183). -/
def execTestCarrierEnd (s : State) : Host.Outcome State Fault Refusal := .next (when_ 3 s testCarrierEnd)

/-! ## Coexistence (R177 to R179): the grant pin is seen in every state -/

/-- COEX_GRANT (R177). -/
def execCoexGrant (s : State) : Host.Outcome State Fault Refusal :=
  .next (if canAct s 3 then coexGrant s else modRf (fun r => { r with gnt := true }) s)

/-- COEX_WITHDRAW (R178). -/
def execCoexWithdraw (s : State) : Host.Outcome State Fault Refusal :=
  .next (if canAct s 3 then coexWithdraw s else modRf (fun r => { r with gnt := false }) s)

/-- COEX_GRANT_TIMEOUT (R178). -/
def execCoexGrantTimeout (s : State) : Host.Outcome State Fault Refusal := .next (when_ 3 s coexGrantTimeout)

/-- COEX_WAIT_TIMEOUT (R179). -/
def execCoexWaitTimeout (s : State) : Host.Outcome State Fault Refusal := .next (when_ 3 s coexWaitTimeout)

/-- COEX_WINDOW_EDGE (R177). -/
def execCoexWindowEdge (s : State) : Host.Outcome State Fault Refusal :=
  .next (when_ 3 s (fun s => if coexMode s then settlePri s else s))

/-! ## The wake receiver (R175, R176) -/

/-- A wake packet ends at a listening receiver: counted; an accepted one is a wake source, and outside PARK a fob hello of
the deck. -/
def wakePacket (site typ crc : Nat) (s : State) : State :=
  if wurxListens s then
    let t := wakeCounted site typ crc s
    if wakeAccepted s site typ crc then
      let t := fireWake 1 t
      if t.park.phase = .parked ∨ t.park.phase = .stopping then modPark (fun k => { k with wurxSite := some site }) t
      else sendMsg 0 1 fobHello id t
    else t
  else s

/-- WAKE_PACKET (R176). -/
def execWakePacket (site : BitVec 24) (typ crc : Byte) (s : State) : Host.Outcome State Fault Refusal :=
  .next (wakePacket site.toNat typ.toNat crc.toNat s)

/-! ## The exchange (R193 to R198, R207) -/

/-- PSR_START (R207): a write of RF.PSR_CTRL with START; ABORT in the same word takes precedence. -/
def execPsrStart (ini : Island) (word : Word) (s : State) : Host.Outcome State Fault Refusal :=
  .next (cmdDo ini 3 .psrCtrl (if bitOf word.toNat 1 then psrAbort word.toNat else psrStart word.toNat) s)

/-- PSR_ABORT (R207). -/
def execPsrAbort (ini : Island) (word : Word) (s : State) : Host.Outcome State Fault Refusal :=
  .next (cmdDo ini 3 .psrCtrl (psrAbort word.toNat) s)

/-- PSR_LEG (R194). -/
def execPsrLeg (leg : Fin 9) (s : State) : Host.Outcome State Fault Refusal := .next (when_ 3 s (psrLeg leg))

/-- PSR_EXCHANGE_END (R196). -/
def execPsrExchangeEnd (status : Status) (m : PsrMeasure) (s : State) : Host.Outcome State Fault Refusal := .next (when_ 3 s (psrEnd status m))

end Sys2Proof.Machine
end

