-- ==== Sys2Proof/Machine/StoreRows.lean ====
section
/-! DEFINITION. Rows of STORE: the ledger, the journal, flash, lookups and images (R274 to R301, R339).
(DEDUCED, log entry 42.) -/

namespace Sys2Proof.Machine

/-! ## The ledger and the ring (R274, R295) -/

/-- LEDGER_WRITE_START (R274). -/
def execLedgerWriteStart (s : State) : Host.Outcome State Fault Refusal := .next (ledgerWriteStart s)

/-- LEDGER_WRITE_DONE (R274); what the boot ROM waits for may follow (R451). -/
def execLedgerWriteDone (firstReadBack secondReadBack : Bool) (s : State) : Host.Outcome State Fault Refusal :=
  .next (bootStep (ledgerDone firstReadBack secondReadBack s))

/-- RING_RECOVERY_DONE (R295). -/
def execRingRecoveryDone (unreadable : List Nat) (s : State) : Host.Outcome State Fault Refusal := .next (bootStep (recoverRing unreadable s))

/-! ## The journal (R292, R294, R297) -/

/-- A record submitted by the deck. A SIG record ends what its signed record waited for. -/
def journalAppend (typ flags siteBay spanId time : Nat) (body : List Byte) (s : State) : State :=
  let act : JAfter := if typ = 0x05 then (match s.store.sigOwed with | some a => .signed (BitVec.ofNat 8 (leAt body 1 1)) a | none => .nothing) else .nothing
  submitRecord { typ := typ, signed := bitOf flags 0, siteBay := siteBay, spanId := spanId, time := time, body := body.take 104, after := act } s

/-- JOURNAL_APPEND (R292). -/
def execJournalAppend (typ flags : Byte) (siteBay : BitVec 16) (spanId : Word) (time : Nat) (body : List Byte) (s : State) :
    Host.Outcome State Fault Refusal :=
  .next (when_ 1 s (journalAppend typ.toNat flags.toNat siteBay.toNat spanId.toNat (time % 2 ^ 64) body))

/-- JOURNAL_RECORD_DURABLE (R292). -/
def execJournalRecordDurable (s : State) : Host.Outcome State Fault Refusal := .next (bootStep (journalDurable s))

/-- ARCHIVE_MOVE (R296). -/
def execArchiveMove (s : State) : Host.Outcome State Fault Refusal := .next (archiveMove s)

/-- JRN_ACK_WRITE (R297): a write of JRN_ACK_HI commits LO and HI together. -/
def execJrnAckWrite (ini : Island) (hi : Word) (s : State) : Host.Outcome State Fault Refusal :=
  .next (cmdWrite ini 4 .jrnAckHi (storeAct ini .jrnAckHi hi.toNat true) s)

/-! ## Lookups and flash (R277 to R288) -/

/-- LOOKUP (R283). -/
def execLookup (ident : List Byte) (s : State) : Host.Outcome State Fault Refusal := .next (lookupStart ident s)

/-- LOOKUP_ANSWER (R284). -/
def execLookupAnswer (bay : Bay) (s : State) : Host.Outcome State Fault Refusal := .next (lookupAnswer bay s)

/-- CRED_ERASE_DONE (R288). -/
def execCredEraseDone (s : State) : Host.Outcome State Fault Refusal := .next (credEraseDone s)

/-- FLASH_OP_DONE (R277). -/
def execFlashOpDone (ok : Bool) (s : State) : Host.Outcome State Fault Refusal := .next (flashDone ok s)

/-- FLASH_TIMEOUT (R280). -/
def execFlashTimeout (s : State) : Host.Outcome State Fault Refusal := .next (flashTimedOut s)

/-! ## Images (R339) -/

/-- IMG_OPEN (R339): a write of OPEN. -/
def execImgOpen (ini : Island) (opened : Bool) (s : State) : Host.Outcome State Fault Refusal :=
  .next (cmdWrite ini 4 .imgCtrl (imgOpenWrite opened) s)

/-- IMG_HASH (R339): a write of HASH. -/
def execImgHash (ini : Island) (s : State) : Host.Outcome State Fault Refusal := .next (cmdWrite ini 4 .imgCtrl imgHashWrite s)

/-- IMG_HASH_DONE (R339): the hash ends, and a host's image commit goes on. -/
def execImgHashDone (readable : Bool) (s : State) : Host.Outcome State Fault Refusal :=
  .next (when_ 4 s (fun s => if s.store.imgBusy then imageHashed (imgHashEnd readable s) else s))

end Sys2Proof.Machine
end

