-- ==== Sys2Proof/Machine/Dispatch.lean ====
section
/-! DEFINITION. The meaning of every command: one arm per row of the table. -/

namespace Sys2Proof.Machine

/-- A command's effect on everything but the queue. -/
def exec (i : Instr) (s : State) : Host.Outcome State Fault Refusal :=
  match i with
  | .registerWrite ini addr data strb => Sys2Proof.Machine.execRegisterWrite ini addr data strb s
  | .loReadLatch ini addr => Sys2Proof.Machine.execLoReadLatch ini addr s
  | .rcReadClear ini addr => Sys2Proof.Machine.execRcReadClear ini addr s
  | .deviceTimeStep cycles => Sys2Proof.Machine.execDeviceTimeStep cycles s
  | .referenceStart => Sys2Proof.Machine.execReferenceStart s
  | .viaductBurst ini addr op => Sys2Proof.Machine.execViaductBurst ini addr op s
  | .viaductMessage ini target msg => Sys2Proof.Machine.execViaductMessage ini target msg s
  | .messageEntersInbox target => Sys2Proof.Machine.execMessageEntersInbox target s
  | .viaductResponse ini parity ecc => Sys2Proof.Machine.execViaductResponse ini parity ecc s
  | .senseRequest src bay => Sys2Proof.Machine.execSenseRequest src bay s
  | .birth => Sys2Proof.Machine.execBirth s
  | .queueEntryTimeout bay source => Sys2Proof.Machine.execQueueEntryTimeout bay source s
  | .spanDisable ini => Sys2Proof.Machine.execSpanDisable ini s
  | .authDeadline bay => Sys2Proof.Machine.execAuthDeadline bay s
  | .releaseDeadline bay => Sys2Proof.Machine.execReleaseDeadline bay s
  | .tokenNotAfter bay => Sys2Proof.Machine.execTokenNotAfter bay s
  | .interimInstant bay => Sys2Proof.Machine.execInterimInstant bay s
  | .maxDurationReached bay => Sys2Proof.Machine.execMaxDurationReached bay s
  | .tollReq ini word => Sys2Proof.Machine.execTollReq ini word s
  | .tollRequestProcess => Sys2Proof.Machine.execTollRequestProcess s
  | .tollCancel ini handle => Sys2Proof.Machine.execTollCancel ini handle s
  | .frameBoundary => Sys2Proof.Machine.execFrameBoundary s
  | .jobMiss handle cls resource deadline => Sys2Proof.Machine.execJobMiss handle cls resource deadline s
  | .lfDriveStart ini pier aerial txbits => Sys2Proof.Machine.execLfDriveStart ini pier aerial txbits s
  | .lfPingStart ini pier aerial => Sys2Proof.Machine.execLfPingStart ini pier aerial s
  | .lfTuneStart ini pier aerial => Sys2Proof.Machine.execLfTuneStart ini pier aerial s
  | .lfChordArm ini pier aerial => Sys2Proof.Machine.execLfChordArm ini pier aerial s
  | .lfChordStart pier => Sys2Proof.Machine.execLfChordStart pier s
  | .lfStop ini pier => Sys2Proof.Machine.execLfStop ini pier s
  | .lfDisable ini pier => Sys2Proof.Machine.execLfDisable ini pier s
  | .lfTxdPush ini pier data => Sys2Proof.Machine.execLfTxdPush ini pier data s
  | .driveCheck pier iv q => Sys2Proof.Machine.execDriveCheck pier iv q s
  | .uplinkWord pier bits count violation => Sys2Proof.Machine.execUplinkWord pier bits count violation s
  | .lfBurstEnd pier regLimit fundMv sweep => Sys2Proof.Machine.execLfBurstEnd pier regLimit fundMv sweep s
  | .lfAerClr ini pier mask => Sys2Proof.Machine.execLfAerClr ini pier mask s
  | .driveValidLoss pier => Sys2Proof.Machine.execDriveValidLoss pier s
  | .pingRound owner => Sys2Proof.Machine.execPingRound owner s
  | .pingDone bay amp phase => Sys2Proof.Machine.execPingDone bay amp phase s
  | .tagReply pier bits => Sys2Proof.Machine.execTagReply pier bits s
  | .tagReplyTimeout pier => Sys2Proof.Machine.execTagReplyTimeout pier s
  | .inventoryReservationEnd pier => Sys2Proof.Machine.execInventoryReservationEnd pier s
  | .ktMacTimeout pier => Sys2Proof.Machine.execKtMacTimeout pier s
  | .rfCmdOff ini => Sys2Proof.Machine.execRfCmdOff ini s
  | .rfCmdStandby ini => Sys2Proof.Machine.execRfCmdStandby ini s
  | .rfCmdSynth ini ch => Sys2Proof.Machine.execRfCmdSynth ini ch s
  | .rfCmdTx ini ch aerial pwr rate => Sys2Proof.Machine.execRfCmdTx ini ch aerial pwr rate s
  | .rfCmdRx ini ch aerial rate => Sys2Proof.Machine.execRfCmdRx ini ch aerial rate s
  | .rfCmdWake ini => Sys2Proof.Machine.execRfCmdWake ini s
  | .rfCmdTest ini ch aerial pwr => Sys2Proof.Machine.execRfCmdTest ini ch aerial pwr s
  | .rfCmdCalAll ini => Sys2Proof.Machine.execRfCmdCalAll ini s
  | .rfDisable ini => Sys2Proof.Machine.execRfDisable ini s
  | .rfTransitionDone => Sys2Proof.Machine.execRfTransitionDone s
  | .synthLock => Sys2Proof.Machine.execSynthLock s
  | .synthLockTimeout => Sys2Proof.Machine.execSynthLockTimeout s
  | .txPacketEnd => Sys2Proof.Machine.execTxPacketEnd s
  | .rxPacket len payload crc rssi time => Sys2Proof.Machine.execRxPacket len payload crc rssi time s
  | .rxWindowClose => Sys2Proof.Machine.execRxWindowClose s
  | .reflectionMeasure mag short => Sys2Proof.Machine.execReflectionMeasure mag short s
  | .antClr ini mask => Sys2Proof.Machine.execAntClr ini mask s
  | .coexGrant => Sys2Proof.Machine.execCoexGrant s
  | .coexWithdraw => Sys2Proof.Machine.execCoexWithdraw s
  | .coexGrantTimeout => Sys2Proof.Machine.execCoexGrantTimeout s
  | .coexWaitTimeout => Sys2Proof.Machine.execCoexWaitTimeout s
  | .coexWindowEdge => Sys2Proof.Machine.execCoexWindowEdge s
  | .wakePacket site typ crc => Sys2Proof.Machine.execWakePacket site typ crc s
  | .psrStart ini word => Sys2Proof.Machine.execPsrStart ini word s
  | .psrAbort ini word => Sys2Proof.Machine.execPsrAbort ini word s
  | .psrLeg leg => Sys2Proof.Machine.execPsrLeg leg s
  | .psrExchangeEnd status m => Sys2Proof.Machine.execPsrExchangeEnd status m s
  | .cipherStart ini ctx desc => Sys2Proof.Machine.execCipherStart ini ctx desc s
  | .cipherSuspendAndStart ini ctx desc => Sys2Proof.Machine.execCipherSuspendAndStart ini ctx desc s
  | .cipherResume ini ctx => Sys2Proof.Machine.execCipherResume ini ctx s
  | .cipherAbort ini ctx => Sys2Proof.Machine.execCipherAbort ini ctx s
  | .cipherBlockBoundary accessStatus => Sys2Proof.Machine.execCipherBlockBoundary accessStatus s
  | .cipherMessageEnd => Sys2Proof.Machine.execCipherMessageEnd s
  | .lockAcquire ini => Sys2Proof.Machine.execLockAcquire ini s
  | .lockRelease ini => Sys2Proof.Machine.execLockRelease ini s
  | .storeLockRequest => Sys2Proof.Machine.execStoreLockRequest s
  | .lockGrant => Sys2Proof.Machine.execLockGrant s
  | .holdExpired => Sys2Proof.Machine.execHoldExpired s
  | .slotClear ini slot => Sys2Proof.Machine.execSlotClear ini slot s
  | .caissonSeal ini k => Sys2Proof.Machine.execCaissonSeal ini k s
  | .caissonUnseal ini k => Sys2Proof.Machine.execCaissonUnseal ini k s
  | .caissonZeroingDone k => Sys2Proof.Machine.execCaissonZeroingDone k s
  | .rngEnable ini => Sys2Proof.Machine.execRngEnable ini s
  | .rngDisable ini => Sys2Proof.Machine.execRngDisable ini s
  | .rngReseedCmd ini => Sys2Proof.Machine.execRngReseedCmd ini s
  | .rngRestart ini => Sys2Proof.Machine.execRngRestart ini s
  | .rngWarmupEnd => Sys2Proof.Machine.execRngWarmupEnd s
  | .rngStartupTestEnd => Sys2Proof.Machine.execRngStartupTestEnd s
  | .rngInstantiate seed => Sys2Proof.Machine.execRngInstantiate seed s
  | .rngHealthFail aptTest => Sys2Proof.Machine.execRngHealthFail aptTest s
  | .rngReseedDone seed => Sys2Proof.Machine.execRngReseedDone seed s
  | .rngPrivateRequest wire bytes => Sys2Proof.Machine.execRngPrivateRequest wire bytes s
  | .rngGenerate => Sys2Proof.Machine.execRngGenerate s
  | .rngDataRead ini => Sys2Proof.Machine.execRngDataRead ini s
  | .hash256 ini key desc => Sys2Proof.Machine.execHash256 ini key desc s
  | .hash384 ini key desc => Sys2Proof.Machine.execHash384 ini key desc s
  | .sign ini key desc => Sys2Proof.Machine.execSign ini key desc s
  | .verify ini key desc => Sys2Proof.Machine.execVerify ini key desc s
  | .attest ini key desc => Sys2Proof.Machine.execAttest ini key desc s
  | .genId ini key desc => Sys2Proof.Machine.execGenId ini key desc s
  | .signerNonceDelivered => Sys2Proof.Machine.execSignerNonceDelivered s
  | .signCommandEnd => Sys2Proof.Machine.execSignCommandEnd s
  | .ledgerWriteStart => Sys2Proof.Machine.execLedgerWriteStart s
  | .ledgerWriteDone firstReadBack secondReadBack => Sys2Proof.Machine.execLedgerWriteDone firstReadBack secondReadBack s
  | .ringRecoveryDone unreadable => Sys2Proof.Machine.execRingRecoveryDone unreadable s
  | .lookup ident => Sys2Proof.Machine.execLookup ident s
  | .lookupAnswer bay => Sys2Proof.Machine.execLookupAnswer bay s
  | .credEraseDone => Sys2Proof.Machine.execCredEraseDone s
  | .flashOpDone ok => Sys2Proof.Machine.execFlashOpDone ok s
  | .flashTimeout => Sys2Proof.Machine.execFlashTimeout s
  | .journalAppend typ flags siteBay spanId time body => Sys2Proof.Machine.execJournalAppend typ flags siteBay spanId time body s
  | .journalRecordDurable => Sys2Proof.Machine.execJournalRecordDurable s
  | .archiveMove => Sys2Proof.Machine.execArchiveMove s
  | .jrnAckWrite ini hi => Sys2Proof.Machine.execJrnAckWrite ini hi s
  | .imgOpen ini opened => Sys2Proof.Machine.execImgOpen ini opened s
  | .imgHash ini => Sys2Proof.Machine.execImgHash ini s
  | .imgHashDone readable => Sys2Proof.Machine.execImgHashDone readable s
  | .add c rd ra rb => Sys2Proof.Machine.execAdd c rd ra rb s
  | .sub c rd ra rb => Sys2Proof.Machine.execSub c rd ra rb s
  | .and c rd ra rb => Sys2Proof.Machine.execAnd c rd ra rb s
  | .or c rd ra rb => Sys2Proof.Machine.execOr c rd ra rb s
  | .xor c rd ra rb => Sys2Proof.Machine.execXor c rd ra rb s
  | .sll c rd ra rb => Sys2Proof.Machine.execSll c rd ra rb s
  | .srl c rd ra rb => Sys2Proof.Machine.execSrl c rd ra rb s
  | .sra c rd ra rb => Sys2Proof.Machine.execSra c rd ra rb s
  | .slt c rd ra rb => Sys2Proof.Machine.execSlt c rd ra rb s
  | .sltu c rd ra rb => Sys2Proof.Machine.execSltu c rd ra rb s
  | .mul c rd ra rb => Sys2Proof.Machine.execMul c rd ra rb s
  | .mulh c rd ra rb => Sys2Proof.Machine.execMulh c rd ra rb s
  | .mulhu c rd ra rb => Sys2Proof.Machine.execMulhu c rd ra rb s
  | .div c rd ra rb => Sys2Proof.Machine.execDiv c rd ra rb s
  | .divu c rd ra rb => Sys2Proof.Machine.execDivu c rd ra rb s
  | .rem c rd ra rb => Sys2Proof.Machine.execRem c rd ra rb s
  | .remu c rd ra rb => Sys2Proof.Machine.execRemu c rd ra rb s
  | .min c rd ra rb => Sys2Proof.Machine.execMin c rd ra rb s
  | .max c rd ra rb => Sys2Proof.Machine.execMax c rd ra rb s
  | .minu c rd ra rb => Sys2Proof.Machine.execMinu c rd ra rb s
  | .maxu c rd ra rb => Sys2Proof.Machine.execMaxu c rd ra rb s
  | .clz c rd ra rb => Sys2Proof.Machine.execClz c rd ra rb s
  | .bswap c rd ra rb => Sys2Proof.Machine.execBswap c rd ra rb s
  | .rds c rd ra rb => Sys2Proof.Machine.execRds c rd ra rb s
  | .wrs c rd ra rb => Sys2Proof.Machine.execWrs c rd ra rb s
  | .reti c rd ra rb => Sys2Proof.Machine.execReti c rd ra rb s
  | .wfi c rd ra rb => Sys2Proof.Machine.execWfi c rd ra rb s
  | .fence c rd ra rb => Sys2Proof.Machine.execFence c rd ra rb s
  | .addi c rd ra z imm => Sys2Proof.Machine.execAddi c rd ra z imm s
  | .andi c rd ra z imm => Sys2Proof.Machine.execAndi c rd ra z imm s
  | .ori c rd ra z imm => Sys2Proof.Machine.execOri c rd ra z imm s
  | .xori c rd ra z imm => Sys2Proof.Machine.execXori c rd ra z imm s
  | .slli c rd ra z imm => Sys2Proof.Machine.execSlli c rd ra z imm s
  | .srli c rd ra z imm => Sys2Proof.Machine.execSrli c rd ra z imm s
  | .srai c rd ra z imm => Sys2Proof.Machine.execSrai c rd ra z imm s
  | .slti c rd ra z imm => Sys2Proof.Machine.execSlti c rd ra z imm s
  | .sltiu c rd ra z imm => Sys2Proof.Machine.execSltiu c rd ra z imm s
  | .lhi c rd z imm => Sys2Proof.Machine.execLhi c rd z imm s
  | .ldw c rd ra z imm ecc => Sys2Proof.Machine.execLdw c rd ra z imm ecc s
  | .ldh c rd ra z imm ecc => Sys2Proof.Machine.execLdh c rd ra z imm ecc s
  | .ldhu c rd ra z imm ecc => Sys2Proof.Machine.execLdhu c rd ra z imm ecc s
  | .ldb c rd ra z imm ecc => Sys2Proof.Machine.execLdb c rd ra z imm ecc s
  | .ldbu c rd ra z imm ecc => Sys2Proof.Machine.execLdbu c rd ra z imm ecc s
  | .stw c rd ra z imm => Sys2Proof.Machine.execStw c rd ra z imm s
  | .sth c rd ra z imm => Sys2Proof.Machine.execSth c rd ra z imm s
  | .stb c rd ra z imm => Sys2Proof.Machine.execStb c rd ra z imm s
  | .ldq c rd ra z imm ecc => Sys2Proof.Machine.execLdq c rd ra z imm ecc s
  | .stq c rd ra z imm => Sys2Proof.Machine.execStq c rd ra z imm s
  | .beq c ra rb z off => Sys2Proof.Machine.execBeq c ra rb z off s
  | .bne c ra rb z off => Sys2Proof.Machine.execBne c ra rb z off s
  | .blt c ra rb z off => Sys2Proof.Machine.execBlt c ra rb z off s
  | .bge c ra rb z off => Sys2Proof.Machine.execBge c ra rb z off s
  | .bltu c ra rb z off => Sys2Proof.Machine.execBltu c ra rb z off s
  | .bgeu c ra rb z off => Sys2Proof.Machine.execBgeu c ra rb z off s
  | .j c off => Sys2Proof.Machine.execJ c off s
  | .jal c off => Sys2Proof.Machine.execJal c off s
  | .jalr c rd ra z imm => Sys2Proof.Machine.execJalr c rd ra z imm s
  | .trap c rd ra z imm => Sys2Proof.Machine.execTrap c rd ra z imm s
  | .vsend c rd rq t z => Sys2Proof.Machine.execVsend c rd rq t z s
  | .vpost c rd rq t z => Sys2Proof.Machine.execVpost c rd rq t z s
  | .vsendr c rd rq t z => Sys2Proof.Machine.execVsendr c rd rq t z s
  | .vpostr c rd rq t z => Sys2Proof.Machine.execVpostr c rd rq t z s
  | .vrecv c rd rq t z => Sys2Proof.Machine.execVrecv c rd rq t z s
  | .vcount c rd rq t z => Sys2Proof.Machine.execVcount c rd rq t z s
  | .twait c tr ra rc off => Sys2Proof.Machine.execTwait c tr ra rc off s
  | .temit c tr ra rc off => Sys2Proof.Machine.execTemit c tr ra rc off s
  | .tsend c tr ra rc off => Sys2Proof.Machine.execTsend c tr ra rc off s
  | .talarm c tr ra rc off => Sys2Proof.Machine.execTalarm c tr ra rc off s
  | .tcancel c tr ra rc off => Sys2Proof.Machine.execTcancel c tr ra rc off s
  | .timedAction c => Sys2Proof.Machine.execTimedAction c s
  | .alarmFire c => Sys2Proof.Machine.execAlarmFire c s
  | .wfiWake c => Sys2Proof.Machine.execWfiWake c s
  | .interruptEntry c => Sys2Proof.Machine.execInterruptEntry c s
  | .impreciseStatusTrap c => Sys2Proof.Machine.execImpreciseStatusTrap c s
  | .coreHold ini island => Sys2Proof.Machine.execCoreHold ini island s
  | .coreRelease ini island => Sys2Proof.Machine.execCoreRelease ini island s
  | .coreLock ini island => Sys2Proof.Machine.execCoreLock ini island s
  | .islandLoad island => Sys2Proof.Machine.execIslandLoad island s
  | .hookBudgetExpiry hook bay => Sys2Proof.Machine.execHookBudgetExpiry hook bay s
  | .msgSense bay time => Sys2Proof.Machine.execMsgSense bay time s
  | .msgWakeHello site => Sys2Proof.Machine.execMsgWakeHello site s
  | .msgChordArm pier bay tag drive header t0 => Sys2Proof.Machine.execMsgChordArm pier bay tag drive header t0 s
  | .msgTagread bay tag drive ktFirst openId => Sys2Proof.Machine.execMsgTagread bay tag drive ktFirst openId s
  | .msgTagwrite bay tag drive uid => Sys2Proof.Machine.execMsgTagwrite bay tag drive uid s
  | .msgTune bay tag => Sys2Proof.Machine.execMsgTune bay tag s
  | .msgStop bay tag => Sys2Proof.Machine.execMsgStop bay tag s
  | .msgDetune bay time => Sys2Proof.Machine.execMsgDetune bay time s
  | .msgTagResult bay tag status kind found lowest => Sys2Proof.Machine.execMsgTagResult bay tag status kind found lowest s
  | .msgTagMore bay tag ident => Sys2Proof.Machine.execMsgTagMore bay tag ident s
  | .msgBurstResult bay tag status mode outcome => Sys2Proof.Machine.execMsgBurstResult bay tag status mode outcome s
  | .msgAuthStart bay tag kind ident => Sys2Proof.Machine.execMsgAuthStart bay tag kind ident s
  | .msgToken bay tag addr => Sys2Proof.Machine.execMsgToken bay tag addr s
  | .msgSignHead tag seq => Sys2Proof.Machine.execMsgSignHead tag seq s
  | .msgAuthResult bay tag status => Sys2Proof.Machine.execMsgAuthResult bay tag status s
  | .msgTokenReady bay tag status counter => Sys2Proof.Machine.execMsgTokenReady bay tag status counter s
  | .msgSigned tag status seq => Sys2Proof.Machine.execMsgSigned tag status seq s
  | .msgKtChallenge bay tag rc => Sys2Proof.Machine.execMsgKtChallenge bay tag rc s
  | .msgKtMac bay tag mac => Sys2Proof.Machine.execMsgKtMac bay tag mac s
  | .msgKtReply bay tag r uid => Sys2Proof.Machine.execMsgKtReply bay tag r uid s
  | .msgKtOpened bay tag tw uid => Sys2Proof.Machine.execMsgKtOpened bay tag tw uid s
  | .msgChallenge bay tag offset => Sys2Proof.Machine.execMsgChallenge bay tag offset s
  | .msgMaskReady bay tag offset => Sys2Proof.Machine.execMsgMaskReady bay tag offset s
  | .msgResponse bay tag status offset => Sys2Proof.Machine.execMsgResponse bay tag status offset s
  | .msgResult bay tag status offset => Sys2Proof.Machine.execMsgResult bay tag status offset s
  | .msgChordReports bay tag status kept offset => Sys2Proof.Machine.execMsgChordReports bay tag status kept offset s
  | .msgFobHello wakeCtr fobId => Sys2Proof.Machine.execMsgFobHello wakeCtr fobId s
  | .msgPsrDone bay tag status offset => Sys2Proof.Machine.execMsgPsrDone bay tag status offset s
  | .msgChordListen tag t0 => Sys2Proof.Machine.execMsgChordListen tag t0 s
  | .msgRange bay tag primary use => Sys2Proof.Machine.execMsgRange bay tag primary use s
  | .pwrOn ini island tag => Sys2Proof.Machine.execPwrOn ini island tag s
  | .pwrOff ini island tag => Sys2Proof.Machine.execPwrOff ini island tag s
  | .pwrLevel ini island level tag => Sys2Proof.Machine.execPwrLevel ini island level tag s
  | .powerCommandServe => Sys2Proof.Machine.execPowerCommandServe s
  | .pwrReplyAccept ini => Sys2Proof.Machine.execPwrReplyAccept ini s
  | .pwrReplyDelay ini n => Sys2Proof.Machine.execPwrReplyDelay ini n s
  | .pwrReplyRefuse ini reason => Sys2Proof.Machine.execPwrReplyRefuse ini reason s
  | .queryNoReply island => Sys2Proof.Machine.execQueryNoReply island s
  | .queryRepeat island => Sys2Proof.Machine.execQueryRepeat island s
  | .islandStartDone island => Sys2Proof.Machine.execIslandStartDone island s
  | .islandStopDone island => Sys2Proof.Machine.execIslandStopDone island s
  | .levelChangeDone island => Sys2Proof.Machine.execLevelChangeDone island s
  | .parkRequest ini => Sys2Proof.Machine.execParkRequest ini s
  | .parkCommit refCycles => Sys2Proof.Machine.execParkCommit refCycles s
  | .wakeSource bit => Sys2Proof.Machine.execWakeSource bit s
  | .wakeEvent => Sys2Proof.Machine.execWakeEvent s
  | .parkResume refValid => Sys2Proof.Machine.execParkResume refValid s
  | .alarmArm ini hi => Sys2Proof.Machine.execAlarmArm ini hi s
  | .governorUpdate tj hvDie pCore pPing => Sys2Proof.Machine.execGovernorUpdate tj hvDie pCore pPing s
  | .lfCurrentLimit pier => Sys2Proof.Machine.execLfCurrentLimit pier s
  | .lfShort pier bay victim peak => Sys2Proof.Machine.execLfShort pier bay victim peak s
  | .vinUndervoltage vin => Sys2Proof.Machine.execVinUndervoltage vin s
  | .vinlfUndervoltage => Sys2Proof.Machine.execVinlfUndervoltage s
  | .vinlfUvClear => Sys2Proof.Machine.execVinlfUvClear s
  | .overvoltage vin => Sys2Proof.Machine.execOvervoltage vin s
  | .overvoltageClear vin => Sys2Proof.Machine.execOvervoltageClear vin s
  | .reversedInput => Sys2Proof.Machine.execReversedInput s
  | .overTemperature hvDie => Sys2Proof.Machine.execOverTemperature hvDie s
  | .thermalStopEnd => Sys2Proof.Machine.execThermalStopEnd s
  | .crystal48Fail refCycles => Sys2Proof.Machine.execCrystal48Fail refCycles s
  | .clockStopEnd => Sys2Proof.Machine.execClockStopEnd s
  | .crystal32Fail => Sys2Proof.Machine.execCrystal32Fail s
  | .busFault bus kind => Sys2Proof.Machine.execBusFault bus kind s
  | .viaductWatchdog ini => Sys2Proof.Machine.execViaductWatchdog ini s
  | .coreWatchdog c => Sys2Proof.Machine.execCoreWatchdog c s
  | .wdogKick ini island kick => Sys2Proof.Machine.execWdogKick ini island kick s
  | .restartWrite ini island => Sys2Proof.Machine.execRestartWrite ini island s
  | .warmRestart island => Sys2Proof.Machine.execWarmRestart island s
  | .rstLimitClear ini mask => Sys2Proof.Machine.execRstLimitClear ini mask s
  | .parapetLogPop ini => Sys2Proof.Machine.execParapetLogPop ini s
  | .linkUp port idOk partOk => Sys2Proof.Machine.execLinkUp port idOk partOk s
  | .linkDown port => Sys2Proof.Machine.execLinkDown port s
  | .sync port siteNs mhops arrivalNs => Sys2Proof.Machine.execSync port siteNs mhops arrivalNs s
  | .pdelayReq port id part t1 t2 => Sys2Proof.Machine.execPdelayReq port id part t1 t2 s
  | .pdelayResp port id part t2 t3 t4 => Sys2Proof.Machine.execPdelayResp port id part t2 t3 t4 s
  | .dispatchUp port frame => Sys2Proof.Machine.execDispatchUp port frame s
  | .dispatchDown port frame => Sys2Proof.Machine.execDispatchDown port frame s
  | .timemap port frame => Sys2Proof.Machine.execTimemap port frame s
  | .pdelayTimer => Sys2Proof.Machine.execPdelayTimer s
  | .syncTimer => Sys2Proof.Machine.execSyncTimer s
  | .syncLoss => Sys2Proof.Machine.execSyncLoss s
  | .timemapRepeat => Sys2Proof.Machine.execTimemapRepeat s
  | .heldFrameExpiry => Sys2Proof.Machine.execHeldFrameExpiry s
  | .hostStart h ident => Sys2Proof.Machine.execHostStart h ident s
  | .hostStop h spanId => Sys2Proof.Machine.execHostStop h spanId s
  | .hostCancel h spanId => Sys2Proof.Machine.execHostCancel h spanId s
  | .hostRegRead h addr count => Sys2Proof.Machine.execHostRegRead h addr count s
  | .hostRegWrite h addr ws => Sys2Proof.Machine.execHostRegWrite h addr ws s
  | .hostJrnRead h first count => Sys2Proof.Machine.execHostJrnRead h first count s
  | .hostJrnAck h seq => Sys2Proof.Machine.execHostJrnAck h seq s
  | .hostTimeSet h utc => Sys2Proof.Machine.execHostTimeSet h utc s
  | .hostDbChunk h chunk => Sys2Proof.Machine.execHostDbChunk h chunk s
  | .hostDbCommit h version => Sys2Proof.Machine.execHostDbCommit h version s
  | .hostPolicy h set => Sys2Proof.Machine.execHostPolicy h set s
  | .hostImageData h offset data => Sys2Proof.Machine.execHostImageData h offset data s
  | .hostImageCommit h => Sys2Proof.Machine.execHostImageCommit h s
  | .hostAttest h nonce => Sys2Proof.Machine.execHostAttest h nonce s
  | .hostCert h => Sys2Proof.Machine.execHostCert h s
  | .hostRange h cls primary use fobId => Sys2Proof.Machine.execHostRange h cls primary use fobId s
  | .hostTagwrite h uid data => Sys2Proof.Machine.execHostTagwrite h uid data s
  | .hostTune h => Sys2Proof.Machine.execHostTune h s
  | .hostIntegratorFrame h typ body hookStatus hookReply => Sys2Proof.Machine.execHostIntegratorFrame h typ body hookStatus hookReply s
  | .spiStatus => Sys2Proof.Machine.execSpiStatus s
  | .spiWrite frame => Sys2Proof.Machine.execSpiWrite frame s
  | .spiRead clocked => Sys2Proof.Machine.execSpiRead clocked s
  | .ethFrame mac msg frag last data => Sys2Proof.Machine.execEthFrame mac msg frag last data s
  | .ethReassemblyTimeout => Sys2Proof.Machine.execEthReassemblyTimeout s
  | .meterLatch => Sys2Proof.Machine.execMeterLatch s
  | .meterRead bay => Sys2Proof.Machine.execMeterRead bay s
  | .meterReply bay reply => Sys2Proof.Machine.execMeterReply bay reply s
  | .meterTimeout bay => Sys2Proof.Machine.execMeterTimeout bay s
  | .dispToken bay => Sys2Proof.Machine.execDispToken bay s
  | .tokenLastByte bay => Sys2Proof.Machine.execTokenLastByte bay s
  | .dispBeacon => Sys2Proof.Machine.execDispBeacon s
  | .dispPoll bay => Sys2Proof.Machine.execDispPoll bay s
  | .dispStop bay => Sys2Proof.Machine.execDispStop bay s
  | .dispReport bay report code counter => Sys2Proof.Machine.execDispReport bay report code counter s
  | .dispNone bay => Sys2Proof.Machine.execDispNone bay s
  | .dispReplyTimeout bay => Sys2Proof.Machine.execDispReplyTimeout bay s
  | .snapshotStrobe => Sys2Proof.Machine.execSnapshotStrobe s
  | .counterHiWrite ini addr data => Sys2Proof.Machine.execCounterHiWrite ini addr data s
  | .dumpEnable ini => Sys2Proof.Machine.execDumpEnable ini s
  | .freezeRequest src => Sys2Proof.Machine.execFreezeRequest src s
  | .freezeRelease => Sys2Proof.Machine.execFreezeRelease s
  | .monInfo => Sys2Proof.Machine.execMonInfo s
  | .monRead addr count => Sys2Proof.Machine.execMonRead addr count s
  | .monWrite addr ws => Sys2Proof.Machine.execMonWrite addr ws s
  | .monFreeze => Sys2Proof.Machine.execMonFreeze s
  | .monRelease => Sys2Proof.Machine.execMonRelease s
  | .monCore island => Sys2Proof.Machine.execMonCore island s
  | .monInflight => Sys2Proof.Machine.execMonInflight s
  | .monChallenge => Sys2Proof.Machine.execMonChallenge s
  | .monUnlock sig => Sys2Proof.Machine.execMonUnlock sig s
  | .monLock => Sys2Proof.Machine.execMonLock s
  | .monFrameGap => Sys2Proof.Machine.execMonFrameGap s
  | .unlockTimeout => Sys2Proof.Machine.execUnlockTimeout s
  | .monLoad bank offset data => Sys2Proof.Machine.execMonLoad bank offset data s
  | .monBoot bank => Sys2Proof.Machine.execMonBoot bank s
  | .aonReset cause straps => Sys2Proof.Machine.execAonReset cause straps s
  | .lcSubmit ini => Sys2Proof.Machine.execLcSubmit ini s
  | .lcClose ini => Sys2Proof.Machine.execLcClose ini s
  | .sessionTimeout => Sys2Proof.Machine.execSessionTimeout s
  | .vinUndervoltageClear vin => Sys2Proof.Machine.execVinUndervoltageClear vin s
  | .crystal32Restored => Sys2Proof.Machine.execCrystal32Restored s
  | .mdioAccessDone data => Sys2Proof.Machine.execMdioAccessDone data s
  | .testCarrierEnd => Sys2Proof.Machine.execTestCarrierEnd s
  | .pmcOverflow island k occurrences => Sys2Proof.Machine.execPmcOverflow island k occurrences s

end Sys2Proof.Machine
end

