-- ==== Sys2Proof/Safety.lean ====
section
/-! DEFINITION. What claims call a safe state and a safe run, and the words they share: who reaches what, and what an
initiator was answered. -/

namespace Sys2Proof.Machine

/-- Memory is in its canonical form: addresses strictly rising, and no entry equal to what its address reads as unlisted. -/
def MemoryCanonical (s : State) : Prop := Memory.wf s.mem = true

/-- An outcome is a next state. -/
def Completes (o : Host.Outcome State Fault Refusal) : Prop := ∃ t, o = .next t

/-- `n` steps of the block all answer a next state. -/
def RunsFor : Nat → State → Prop
  | 0, _ => True
  | n + 1, s => ∃ t, step s = .next t ∧ RunsFor n t

/-- A safe state: its memory is canonical, and its queue holds well-formed commands only. -/
def Safe (s : State) : Prop := MemoryCanonical s ∧ ∀ c ∈ s.pending, c.wellFormed = true

/-- A command of `ini` reaches register r of the running island i, and `ini` may write it (R12, R20, R33, R35). -/
def Accepts (s : State) (ini i : Nat) (r : Reg) : Prop :=
  canReach s ini i = true ∧ canAct s i = true ∧ mayWrite ini i r = true

/-- What an initiator's last transaction returned (R30). -/
def answerOf (s : State) (ini : Nat) : Resp := vget ⟨[], 0⟩ s.via.resp ini

/-- An outcome is the state with core c as `k`: beside that core, only the event counters have changed. -/
def Ends (o : Host.Outcome State Fault Refusal) (s : State) (c : Nat) (k : Core) : Prop :=
  ∃ p, o = .next (setCore c k { s with perf := p })

/-- Core c stands at a boundary where the instruction at its pc can be fetched and neither an imprecise trap nor an
interrupt comes first (R326, R327). (DEDUCED, log entry 14.) -/
def Ready (s : State) (c : Nat) : Prop :=
  atBoundary s c = true ∧ fetchOk c (getCore s c).pc = true ∧ impreciseDue s c = false ∧ interruptDue s c = false

/-- The core after a trap of `code` at the instruction (R325, R326). -/
def trapped (k : Core) (code : Nat) (sval : Word) : Core :=
  k.enter (BitVec.ofNat 32 code) k.pc sval (k.svec + BitVec.ofNat 32 (4 * code))

/-- The key of the word of its own SRAM that core c names by an aligned address, outside a sealed caisson (R305, R308). -/
def ownSram (s : State) (c a : Nat) : Option Nat :=
  if c = 2 then (if inKeysSram a && !inRom a then some a else none)
  else match placeOf a with
    | .sram i key => if i = c ∧ (i = 1 → quarantined s key = false) then some key else none
    | _ => none

/-- Outside the ring slot that the next journal record takes, memory `m` is that of `s`, in canonical form (R292). -/
def KeepsMemory (s : State) (m : Memory) : Prop :=
  MemoryCanonical s → Memory.wf m = true ∧
    ∀ a, a < ringSlot (s.store.head + 1) ∨ ringSlot (s.store.head + 1) + 128 ≤ a → Memory.read m a = Memory.read s.mem a

/-- From s to t only bay b's span, the span service's queues and jobs, the toll gate's handles, the journal's queue and the
counters have changed. -/
def BayStep (b : Nat) (s t : State) : Prop :=
  (∀ b', b' ≠ b → getSpan t b' = getSpan s b') ∧ KeepsMemory s t.mem ∧
    { t with span := s.span, store := s.store, toll := s.toll, mem := s.mem, perf := s.perf } = s

/-- A SPAN record of bay b's span stands in the queue of t: from its state in s to `nxt`, with a status (R48, R293). -/
def Recorded (b nxt : Nat) (st : Status) (s t : State) : Prop :=
  ∃ r ∈ t.store.queue, r.typ = 0x03 ∧ r.spanId = (getSpan s b).id ∧
    r.body.take 3 = [BitVec.ofNat 8 (getSpan s b).state, BitVec.ofNat 8 nxt, st]

/-- Bay b's span has ended in state `nxt` with a status: recorded, its timers, captures and handle gone, its token as it was
(R48, R49, R90). -/
def EndedAs (b nxt : Nat) (st : Status) (s t : State) : Prop :=
  let p := getSpan t b
  BayStep b s t ∧ Recorded b nxt st s t ∧ p.state = nxt ∧ p.status = st ∧ p.id = (getSpan s b).id ∧ p.handle = none ∧
    p.authLeft = none ∧ p.relLeft = none ∧ p.nextInterim = none ∧ p.caps = [] ∧ t.span.tokens = s.span.tokens ∧
    ∀ h, (getSpan s b).handle = some h → h ∉ t.toll.handles

/-- From s to t the parapet, otherwise as `p`, has raised an event: its pending bit, its log entry, or a mark on the newest
entry of a full log, and the PARAPET wake source (R359, R369, R392). -/
def Raised (code : Status) (island unit : Nat) (detail : List Byte) (p : ParapetState) (s t : State) : Prop :=
  t.par = { p with
    pend := p.pend ||| 2 ^ (code.toNat - 0xD0)
    log := if p.log.length < 8 then p.log ++ [⟨code, island, unit, s.time.us, false, detail⟩]
      else p.log.dropLast ++ p.log.getLast?.toList.map (fun e => { e with overrun := true }) } ∧
  t.park = { s.park with wakePend := s.park.wakePend ||| 0x20 }

/-- From s to t the bursts, armed chords and pings of some piers have ended with a status (R113, R123, R370, R372). -/
def PiersEnded (ns : List Nat) (st : Status) (s t : State) : Prop :=
  (∀ n ∈ ns, n < 8 → (getPier t n).burst = none ∧ (getPier t n).ping.slots = [] ∧
    ((getPier s n).burst ≠ none → (getPier t n).last = st ∧ (getPier t n).event &&& 1 = 1)) ∧
  ((∀ m ∈ ns, ∀ b, (getPier s m).burst = some b → b.aerial < 8) → ∀ n, n ∉ ns → getPier t n = getPier s n) ∧ KeepsMemory s t.mem

/-- The request that a host row's frame brings (R414, R416); the source MAC of an Ethernet frame is the one remembered, else
an open value. -/
def hostReqOf (h : HostHdr) (typ : Nat) (s : State) : HostReq :=
  let mac := match s.link.lastMac with | some m => some m | none => some (freeValue s % 2 ^ 48)
  ⟨typ, h.bay.toNat, h.seq, if h.eth then .eth mac else .spi⟩

/-- s once a frame of the host has come in by its port. -/
def hostHeard (h : HostHdr) (s : State) : State :=
  match h.eth, s.link.lastMac with
  | true, none => { s with free := s.free + 1, link := { s.link with lastMac := some (freeValue s % 2 ^ 48) } }
  | _, _ => s

/-- s once the device acts on the request of a host row: it awaits its answer, and its SEQ is among the last 8 (R416). -/
def hostAccepted (h : HostHdr) (typ : Nat) (s : State) : State :=
  let u := countEvent 5 0x040 1 (hostHeard h s)
  { u with link := { u.link with
    seqs := ((h.seq, none) :: s.link.seqs).take 8
    waiting := s.link.waiting ++ [hostReqOf h typ s] } }

/-- The host row's port is on, LINK and the deck act, and the frame names this device or every device.
(DESIGN CHOICE, log entry 26.) -/
def HostReaches (h : HostHdr) (s : State) : Prop :=
  canAct s 5 = true ∧ bitOf (regValue s 5 .hostCfg 0) (if h.eth then 1 else 0) = true ∧ canAct s 1 = true ∧ h.device.toNat = s.boot.strapId

/-- The device acts on the request: its SEQ is new, and fewer than 8 others await answers (R416).
(DESIGN CHOICE, log entry 26.) -/
def HostAccepts (h : HostHdr) (typ : Nat) (s : State) : Prop :=
  HostReaches h s ∧ (∀ e ∈ s.link.seqs, e.1 ≠ h.seq) ∧ (typ = 1 ∨ (s.link.waiting.filter (fun r => r.typ != 1)).length < 8)

/-- The boot is over: nothing of it waits for a ledger write, a key or a signature, and the deck has its spans (R451, R48). -/
def Settled (s : State) : Prop := s.boot.wait = .over ∧ s.boot.stage = .ready ∧ s.span.rebuilt = true

/-- The registers of which a write stores fields and does nothing else. -/
def storesOnly : Reg → Bool
  | .wdog | .perfCtrl | .perfSel | .pingCtrl | .pingThr | .pingMask | .pingPbase | .pingRbase | .wurxCfg | .wurxSite
  | .resumeMask | .resumeLvl | .wakeEn | .alarmLo | .thermCfg | .parapetFaultEn | .monCfg | .lcBuf | .tollCtrl
  | .tollFloor | .tollBuscap | .tollLfi | .tollPeek | .tollClass | .dumpBase | .dumpLen | .cipherHold | .ctrResv
  | .caissonBase | .caissonLen | .rngHealth | .rngPers | .rngPersLen | .autoReturn | .synthCfg | .bfp | .bfpAa
  | .rxWin | .txPtr | .rxPtr | .pwrMax | .pwrTable | .coexCfg | .coexPeriod | .coexWin | .coexPhase | .coexWait
  | .reflThr | .hostCfg | .ethType | .ethMacLo | .ethMacHi | .mbusCfg | .mbusDiv | .mbusReg | .dbusCfg | .dbusDiv
  | .dbusBeacon | .zwCfg | .zwTurn | .lfFreq | .lfDrive | .lfMod | .lfLen | .lfPing | .lfPthr | .chordCfg | .chordT0Lo
  | .chordT0Hi => true
  | _ => false

end Sys2Proof.Machine
end

