-- ==== Sys2Proof/Certificates/Slice0/Obligations.lean ====
section
/-! DEFINITION. The statements for the provers. -/

open Sys2Proof Sys2Proof.Machine

/-- A step is `exec` of the front command on the state with the queue's rest; an empty queue idles (the model's choice,
log entry 2). -/
def Obligations.StepRunsFront : Prop :=
  (∀ (c : Instr) (rest : List Instr) (s : State), s.pending = c :: rest → step s = exec c { s with pending := rest }) ∧
  (∀ s : State, s.pending = [] → step s = .next s)

/-- REGISTER_WRITE, LO_READ_LATCH and RC_READ_CLEAR where no register is accessed: the target is off or frozen (0x03,
counted), no register lies there (0x17), the register does not take this writer (0x02), or no byte is written (0x00). -/
def Obligations.RegisterAccessTurnedAway : Prop :=
  ∀ (ini : Island) (addr data : Word) (strb : BitVec 4) (s : State), canReachAddr s ini addr.toNat = true →
    (placeAnswers s (addr.toNat / 4 * 4) = false →
      ∀ c d, (c = Instr.registerWrite ini addr data strb ∧ d = []) ∨
          ((c = .loReadLatch ini addr ∨ c = .rcReadClear ini addr) ∧ d = [0]) → ∃ v p,
        exec c s = .next { s with via := v, perf := p } ∧
        vget ⟨[], 0⟩ v.resp ini = ⟨d, 0x03⟩ ∧ v.offCount = satTo 0xFFFFFFFF (s.via.offCount + 1) ∧
        v.inbox = s.via.inbox ∧ v.held = s.via.held ∧ v.txns = s.via.txns ∧ v.werr = s.via.werr) ∧
    (∀ i, placeOf (addr.toNat / 4 * 4) = .reg i → canAct s i = true →
      (decodeReg (addr.toNat / 4 * 4) = none →
        (∃ p, exec (.registerWrite ini addr data strb) s = .next (setResp ini [] 0x17 { s with perf := p })) ∧
        (∃ p, exec (.loReadLatch ini addr) s = .next (setResp ini [0] 0x17 { s with perf := p })) ∧
        (∃ p, exec (.rcReadClear ini addr) s = .next (setResp ini [0] 0x17 { s with perf := p }))) ∧
      (∀ row k, decodeReg (addr.toNat / 4 * 4) = some (i, row, k) →
        (mayWrite ini i row.reg = false →
          ∃ p, exec (.registerWrite ini addr data strb) s = .next (setResp ini [] 0x02 { s with perf := p })) ∧
        (mayWrite ini i row.reg = true → strb = 0 →
          ∃ p, exec (.registerWrite ini addr data strb) s = .next (setResp ini [] 0x00 { s with perf := p }))))

/-- REGISTER_WRITE of a register that only stores fields: the written fields, clamped as their tables say, are stored, and
nothing else but the answer and the event counters changes. -/
def Obligations.RegisterWriteStores : Prop :=
  ∀ (ini : Island) (addr data : Word) (s : State) (i : Nat) (row : RegRow) (k : Nat),
    canReachAddr s ini addr.toNat = true → placeOf (addr.toNat / 4 * 4) = .reg i → canAct s i = true →
    decodeReg (addr.toNat / 4 * 4) = some (i, row, k) → mayWrite ini i row.reg = true → storesOnly row.reg = true →
    writeMask row.reg row k ≠ 0 → (hFields row.reg = [] ∨ blockStopped s i row.reg k = true) →
    ∃ p, exec (.registerWrite ini addr data 0xF) s = .next (setResp ini [] 0x00
      { putReg s i row.reg k (storedWord row.reg
          (regValue s i row.reg k - (regValue s i row.reg k &&& writeMask row.reg row k) + (data.toNat &&& writeMask row.reg row k))) with perf := p })

/-- REGISTER_WRITE of H fields while the block runs (R15, R16): the fields keep their values, WERR is set and the first such
address kept, and the answer is 0x04. -/
def Obligations.RunningBlockKeepsHFields : Prop :=
  ∀ (ini : Island) (addr data : Word) (s : State) (i : Nat) (row : RegRow) (k : Nat),
    canReachAddr s ini addr.toNat = true → placeOf (addr.toNat / 4 * 4) = .reg i → canAct s i = true →
    decodeReg (addr.toNat / 4 * 4) = some (i, row, k) → mayWrite ini i row.reg = true →
    row.reg ∈ [.lfFreq, .caissonBase, .caissonLen, .bfp, .bfpAa, .ethType, .ethMacLo, .ethMacHi, .mbusDiv, .mbusReg, .dbusDiv,
      .zwCfg, .dumpBase, .dumpLen, .rngHealth] →
    blockStopped s i row.reg k = false →
    changedH (regValue s i row.reg k) (2 ^ 32 - 1) data.toNat (hFields row.reg) ≠ [] →
    ∃ t, exec (.registerWrite ini addr data 0xF) s = .next t ∧ answerOf t ini = ⟨[], 0x04⟩ ∧ t.cfg = s.cfg ∧
      vget false t.via.werr i = true ∧
      vget 0 t.via.werrAddr i = (if vget false s.via.werr i then vget 0 s.via.werrAddr i else addr.toNat / 4 * 4) ∧ t.mem = s.mem

/-- A word written to SRAM through the viaduct (R30): the bytes under the strobes, and no other byte, change; a sealed caisson
(R234) and a locked code region (R333) take nothing. -/
def Obligations.WordWriteToSram : Prop :=
  ∀ (ini : Island) (addr data : Word) (strb : BitVec 4) (s : State) (i key : Nat), MemoryCanonical s →
    canReachAddr s ini addr.toNat = true → placeOf (addr.toNat / 4 * 4) = .sram i key → canAct s i = true →
    ((i = 1 ∧ quarantined s key = true) → ∃ p,
      exec (.registerWrite ini addr data strb) s = .next (setResp ini [] 0x81 { s with perf := p })) ∧
    (¬(i = 1 ∧ quarantined s key = true) → codeLocked s i (keyOffset i key) = true → ∃ p,
      exec (.registerWrite ini addr data strb) s = .next (setResp ini [] 0x02 { s with perf := p })) ∧
    (¬(i = 1 ∧ quarantined s key = true) → codeLocked s i (keyOffset i key) = false → ∃ m p,
      exec (.registerWrite ini addr data strb) s = .next (setResp ini [] 0x00 { s with mem := m, perf := p }) ∧
      ∀ b, Memory.read m b = if key ≤ b ∧ b < key + 4 ∧ bitOf strb.toNat (b - key) = true
        then BitVec.ofNat 8 (data.toNat / 256 ^ (b - key)) else Memory.read s.mem b)

/-- LO_READ_LATCH and RC_READ_CLEAR: the word read, the latch of a pair, and the counters a read clears (R10, R29). -/
def Obligations.RegisterReads : Prop :=
  ∀ (ini : Island) (addr : Word) (s : State) (i : Nat) (row : RegRow) (k : Nat), ∀ c ∈ [Instr.loReadLatch ini addr, .rcReadClear ini addr],
    canReachAddr s ini addr.toNat = true → placeOf (addr.toNat / 4 * 4) = .reg i → canAct s i = true →
    decodeReg (addr.toNat / 4 * 4) = some (i, row, k) → row.reg ≠ .rngData →
    ∃ p q, let u := { s with perf := p }
      (∀ hi, hiOf row.reg = some hi → exec c s = .next (setResp ini [pairValue u i row.reg k % 2 ^ 32] 0x00
        (latchShadow ini i hi k (pairValue u i row.reg k / 2 ^ 32 % 2 ^ 32) { s with perf := q }))) ∧
      (∀ lo, loOf row.reg = some lo → exec c s = .next (setResp ini [readShadow s ini i row.reg k] 0x00 { s with perf := q })) ∧
      (row.reg = .offAccessCount → exec c s = .next (setResp ini [regWord u ini i row k] 0x00
        { s with perf := q, via := { s.via with offCount := 0 } })) ∧
      (row.reg = .parkCount → exec c s = .next (setResp ini [regWord u ini i row k] 0x00
        { s with perf := q, park := { s.park with entries := 0, aborts := 0 } })) ∧
      (row.reg = .eccCount → exec c s = .next (setResp ini [regWord u ini i row k] 0x00
        { s with perf := q, par := { s.par with eccCorr := 0, eccUncorr := 0 } })) ∧
      (row.reg = .viaCount → exec c s = .next (setResp ini [regWord u ini i row k] 0x00
        { s with perf := q, par := { s.par with viaParity := 0, viaTimeout := 0 } })) ∧
      (row.reg = .tollCount → exec c s = .next (setResp ini [regWord u ini i row k] 0x00
        { s with perf := q, toll := { s.toll with refused := 0, missed := 0 } })) ∧
      (row.reg = .dumpCount → exec c s = .next (setResp ini [regWord u ini i row k] 0x00
        { s with perf := q, dump := { s.dump with records := 0, dropped := 0 } })) ∧
      (row.reg = .coexCount → exec c s = .next (setResp ini [regWord u ini i row k] 0x00
        { s with perf := q, rf := { s.rf with denied := 0, preempted := 0 } })) ∧
      (row.reg = .jrnGapCount → exec c s = .next (setResp ini [regWord u ini i row k] 0x00
        { s with perf := q, store := { s.store with gaps := 0 } })) ∧
      (row.reg = .hostCount → exec c s = .next (setResp ini [regWord u ini i row k] 0x00
        { s with perf := q, link := { s.link with dropped := 0, bad := 0 } })) ∧
      (row.reg = .busCount → exec c s = .next (setResp ini [regWord u ini i row k] 0x00
        { s with perf := q, link := { s.link with mTimeout := 0, dNoReply := 0 } })) ∧
      (row.reg = .zwCount → exec c s = .next (setResp ini [regWord u ini i row k] 0x00
        { s with perf := q, zw := { s.zw with crc := 0, downs := 0, heldDrop := 0 } })) ∧
      (row.reg = .pwrRes → exec c s = .next (setResp ini [regWord u ini i row k] 0x00
        { s with perf := q, power := { s.power with results := s.power.results.drop 1 } }))

/-- DEVICE_TIME_STEP and REFERENCE_START (R27, R28, R370, R451). That a start outside its conditions changes nothing is the
model's choice (log entry 3). -/
def Obligations.DeviceTimeAdvances : Prop :=
  (∀ (cycles : List Nat) (s : State), s.time.frac < 1536 →
      ∃ t, exec (.deviceTimeStep cycles) s = .next t ∧
        (s.time.src = .reference → t.time.us = s.time.us + 1) ∧
        (s.time.src = .crystal → (t.time.us = s.time.us + 30 ∨ t.time.us = s.time.us + 31) ∧
          1536 * t.time.us + t.time.frac = 1536 * s.time.us + s.time.frac + 46875 ∧ t.time.frac < 1536) ∧
        (s.time.src = .rc4M → t.time.us = s.time.us + 1) ∧
        (∀ i, i < 14 → vget 0 t.time.copies i = if pstate s i = .off then vget 0 s.time.copies i else t.time.us) ∧
        t = { s with time := t.time, perf := t.perf, cores := t.cores } ∧ t.time.src = s.time.src ∧
        (∀ i, ∃ w, getCore t i = { getCore s i with wdogLeft := w })) ∧
  (∀ s : State,
      (s.time.src ≠ .reference → s.park.phase ≠ .parked → s.park.phase ≠ .stopping →
        (¬(s.boot.stage = .rom ∧ s.boot.strapTest = false) → exec .referenceStart s = .next { s with
          time := { s.time with src := .reference, toStep := 48 - 48 * s.time.frac / 1536, frac := 0 } }) ∧
        (s.boot.stage = .rom ∧ s.boot.strapTest = false → ∃ st, exec .referenceStart s = .next { s with
            time := { s.time with src := .reference, toStep := 48 - 48 * s.time.frac / 1536, frac := 0 },
            power := { s.power with st := st } } ∧
          ∀ i, i < 14 → vget .off st i = if (i = 4 ∨ i = 2) ∧ pstate s i = .off then .starting else vget .off s.power.st i)) ∧
      (s.time.src = .reference ∨ s.park.phase = .parked ∨ s.park.phase = .stopping → exec .referenceStart s = .next s))

/-- VIADUCT_MESSAGE and MESSAGE_ENTERS_INBOX (R30, R33, R35). -/
def Obligations.MessagesReachTheInbox : Prop :=
  (∀ (ini : Island) (target : Fin 16) (msg : BitVec 128) (s : State), canReach s ini target = true →
    (14 ≤ target.val → ∃ p, exec (.viaductMessage ini target msg) s = .next (setResp ini [] 0x17 { s with perf := p })) ∧
    (target.val < 14 → canAct s target = false → ∃ v p, exec (.viaductMessage ini target msg) s = .next { s with via := v, perf := p } ∧
      vget ⟨[], 0⟩ v.resp ini = ⟨[], 0x03⟩ ∧ v.offCount = satTo 0xFFFFFFFF (s.via.offCount + 1) ∧ v.inbox = s.via.inbox ∧
      v.held = s.via.held ∧ (s.via.offCount = 0 → v.offAddr = 0x40000000 + target.val * 0x01000000)) ∧
    (target.val < 14 → canAct s target = true → (inboxOf s target).length < 16 → ∃ p, exec (.viaductMessage ini target msg) s =
      .next (setResp ini [] 0x00 (setInbox target (inboxOf s target ++ [⟨msg, ini⟩]) { s with perf := p }))) ∧
    (target.val < 14 → canAct s target = true → 16 ≤ (inboxOf s target).length → ini.val ≠ target.val → ∃ p,
      exec (.viaductMessage ini target msg) s = .next { s with perf := p, via := { s.via with
        held := vset s.via.held target (vget [] s.via.held target ++ [⟨ini, msg, s.time.us⟩]) } })) ∧
  (∀ (target : Island) (s : State) (h : HeldMsg) (rest : List HeldMsg), canAct s target = true → (inboxOf s target).length < 16 →
    vget [] s.via.held target = h :: rest → ∃ p, exec (.messageEntersInbox target) s =
      .next (setResp h.src [] 0x00 (setInbox target (inboxOf s target ++ [⟨h.msg, h.src⟩])
        { s with perf := p, via := { s.via with held := vset s.via.held target rest } })))

/-- VIADUCT_BURST (R30, R31, R35). -/
def Obligations.BurstsAreServedWhole : Prop :=
  ∀ (ini : Island) (addr : Word) (n : Nat) (ws : List Word) (s : State), canReachAddr s ini addr.toNat = true →
    (placeAnswers s addr.toNat = true →
      (burstOk addr.toNat n = true → ∃ p, exec (.viaductBurst ini addr (.read n)) s = .next (setResp ini
        ((readWords s addr.toNat n).1 ++ List.replicate (n - (readWords s addr.toNat n).1.length) 0) (readWords s addr.toNat n).2
        { s with perf := p })) ∧
      (burstOk addr.toNat n = false → ∃ p, exec (.viaductBurst ini addr (.read n)) s =
        .next (setResp ini (List.replicate n 0) 0x17 { s with perf := p })) ∧
      (burstOk addr.toNat ws.length = true → ∃ p, exec (.viaductBurst ini addr (.write ws)) s = .next (setResp ini []
        (writeWords ini addr.toNat (ws.map BitVec.toNat) s).1
        { (writeWords ini addr.toNat (ws.map BitVec.toNat) s).2 with perf := p })) ∧
      (burstOk addr.toNat ws.length = false → ∃ p, exec (.viaductBurst ini addr (.write ws)) s =
        .next (setResp ini [] 0x17 { s with perf := p }))) ∧
    (placeAnswers s addr.toNat = false → ∀ op d, (op = BurstOp.read n ∧ d = List.replicate n 0) ∨ (op = .write ws ∧ d = []) →
      ∃ v p, exec (.viaductBurst ini addr op) s = .next { s with via := v, perf := p } ∧
        vget ⟨[], 0⟩ v.resp ini = ⟨d, 0x03⟩ ∧ v.offCount = satTo 0xFFFFFFFF (s.via.offCount + 1) ∧
        v.inbox = s.via.inbox ∧ v.held = s.via.held ∧ v.txns = s.via.txns)

/-- VIADUCT_RESPONSE and VIADUCT_WATCHDOG (R30, R32, R377): what the core is given is `coreResponse`, which writes a load's rd
or a message's status and goes on. -/
def Obligations.ResponsesReachTheCore : Prop :=
  (∀ (ini : Island) (s : State) (t : Txn), s.freeze.frozen = false → pstate s ini ≠ .off →
    (vget [] s.via.txns ini).find? (answerable s) = some t →
    (∀ off, t.op = .read 1 → t.burst = false → placeOf (t.addr / 4 * 4) = .mram off → canAct s 4 = true → ∃ p,
      exec (.viaductResponse ini .good .clean) s = .next (coreResponse ini t [leAt (memReadBytes s off 4) 0 4] 0x00
        { dropTxn ini t s with perf := p })) ∧
    (∀ g m, t.op = .message g m → g < 14 → canAct s g = true → (inboxOf s g).length < 16 → ∃ p,
      exec (.viaductResponse ini .good .clean) s = .next (coreResponse ini t [] 0x00
        (setInbox g (inboxOf s g ++ [⟨m, ini⟩]) { dropTxn ini t s with perf := p })))) ∧
  (∀ (ini : Island) (s : State) (t : Txn), s.freeze.frozen = false → (vget [] s.via.txns ini).find? (txnExpired s) = some t →
    exec (.viaductWatchdog ini) s =
      .next (coreResponse ini t [] 0xD2 (viaTimedOut ini ((txnIsland t).getD 0) (dropTxn ini t s)))) ∧
  (∀ (c : Nat) (t : Txn) (data : List Nat) (s : State) (rd : RegF), c < 14 → (getCore s c).hold = false →
    (t.dst = .load rd 4 false 0 → ∃ p, coreResponse c t data 0x00 s = setCore c
      { ((getCore s c).recordStatus 0x00).setGpr rd (BitVec.ofNat 32 (data.getD 0 0)) with
        pc := (getCore s c).pc + 4, wait := .none } { s with perf := p }) ∧
    (t.dst = .status rd → ∃ p, coreResponse c t data 0x00 s = setCore c
      { ((getCore s c).recordStatus 0x00).setGpr rd 0 with pc := (getCore s c).pc + 4, wait := .none } { s with perf := p }))

/-- CORE_HOLD, CORE_RELEASE and CORE_LOCK (R333). -/
def Obligations.CoreControl : Prop :=
  ∀ (ini island : Island) (s : State), canReach s ini island = true → canAct s island = true →
    (∀ c ∈ [Instr.coreHold ini island, .coreRelease ini island, .coreLock ini island],
      (hasCore island = false → ∃ p, exec c s = .next (setResp ini [] 0x17 { s with perf := p })) ∧
      (hasCore island = true → ini ≠ 2 → ∃ p, exec c s = .next (setResp ini [] 0x02 { s with perf := p }))) ∧
    (hasCore island = true → ini = 2 →
      (∃ p, exec (.coreLock ini island) s = .next (setResp ini [] 0x00
        (setCore island { getCore s island with lock := true } { s with perf := p }))) ∧
      (island ≠ 2 → ∃ p, exec (.coreHold ini island) s = .next (setResp ini [] 0x00 (setCore island { getCore s island with
        hold := true,
        halted := (getCore s island).halted || ((getCore s island).wait == .none && outstanding s island == 0) } { s with perf := p }))) ∧
      (island ≠ 2 → ∃ k p q, exec (.coreRelease ini island) s = .next (setResp ini [] 0x00
          (if island = 1 then { deckStarts (setCore island k { s with perf := p }) with perf := q }
            else setCore island k { s with perf := q })) ∧
        k.hold = false ∧ k.halted = false ∧ k.pc = (getCore s island).entry ∧ k.it = false ∧ k.ie = false ∧
        k.code = (getCore s island).code ∧ k.lock = (getCore s island).lock))

/-- The ALU group without division (R317): rd takes the result (g0 takes none, R302), the pc moves on, and nothing else but the
event counters changes. -/
def Obligations.AluResults : Prop :=
  ∀ (c : Island) (rd ra rb : RegF) (s : State), Ready s c →
    let k := getCore s c
    let a := k.gpr ra
    let b := k.gpr rb
    let r : Word → Core := fun w => { k.setGpr rd w with pc := k.pc + 4 }
    Ends (exec (.add c rd ra rb) s) s c (r (a + b)) ∧
    Ends (exec (.sub c rd ra rb) s) s c (r (a - b)) ∧
    Ends (exec (.and c rd ra rb) s) s c (r (a &&& b)) ∧
    Ends (exec (.or c rd ra rb) s) s c (r (a ||| b)) ∧
    Ends (exec (.xor c rd ra rb) s) s c (r (a ^^^ b)) ∧
    Ends (exec (.sll c rd ra rb) s) s c (r (a <<< (b.toNat % 32))) ∧
    Ends (exec (.srl c rd ra rb) s) s c (r (a >>> (b.toNat % 32))) ∧
    Ends (exec (.sra c rd ra rb) s) s c (r (a.sshiftRight (b.toNat % 32))) ∧
    Ends (exec (.slt c rd ra rb) s) s c (r (if a.toInt < b.toInt then 1 else 0)) ∧
    Ends (exec (.sltu c rd ra rb) s) s c (r (if a.toNat < b.toNat then 1 else 0)) ∧
    Ends (exec (.mul c rd ra rb) s) s c (r (a * b)) ∧
    Ends (exec (.mulh c rd ra rb) s) s c (r ((a.signExtend 64 * b.signExtend 64).extractLsb' 32 32)) ∧
    Ends (exec (.mulhu c rd ra rb) s) s c (r ((a.setWidth 64 * b.setWidth 64).extractLsb' 32 32)) ∧
    Ends (exec (.min c rd ra rb) s) s c (r (if a.toInt < b.toInt then a else b)) ∧
    Ends (exec (.max c rd ra rb) s) s c (r (if a.toInt < b.toInt then b else a)) ∧
    Ends (exec (.minu c rd ra rb) s) s c (r (if a.toNat < b.toNat then a else b)) ∧
    Ends (exec (.maxu c rd ra rb) s) s c (r (if a.toNat < b.toNat then b else a)) ∧
    (rb = 0 → ∃ n, n ≤ 32 ∧ (∀ j, 32 - n ≤ j → j < 32 → a.getLsbD j = false) ∧ (n < 32 → a.getLsbD (31 - n) = true) ∧
      Ends (exec (.clz c rd ra rb) s) s c (r (BitVec.ofNat 32 n))) ∧
    (rb = 0 → Ends (exec (.bswap c rd ra rb) s) s c
      (r (a.extractLsb' 0 8 ++ a.extractLsb' 8 8 ++ a.extractLsb' 16 8 ++ a.extractLsb' 24 8)))

/-- Division (R317, R330): results, DZ, and ILLEGAL on Colot-P. -/
def Obligations.DivisionNeverTraps : Prop :=
  ∀ (c : Island) (rd ra rb : RegF) (s : State), Ready s c →
    let k := getCore s c
    let a := k.gpr ra
    let b := k.gpr rb
    let r : Word → Bool → Core := fun w z => { k.setGpr rd w with pc := k.pc + 4, dz := k.dz || z }
    (c = 1 ∨ c = 2 →
      (b = 0 → Ends (exec (.div c rd ra rb) s) s c (r 0 true) ∧ Ends (exec (.divu c rd ra rb) s) s c (r 0 true) ∧
        Ends (exec (.rem c rd ra rb) s) s c (r a true) ∧ Ends (exec (.remu c rd ra rb) s) s c (r a true)) ∧
      (a = 0x80000000 → b = 0xFFFFFFFF →
        Ends (exec (.div c rd ra rb) s) s c (r 0x7FFFFFFF true) ∧ Ends (exec (.rem c rd ra rb) s) s c (r 0 true)) ∧
      (b ≠ 0 → ¬(a = 0x80000000 ∧ b = 0xFFFFFFFF) →
        Ends (exec (.div c rd ra rb) s) s c (r (BitVec.ofInt 32 (a.toInt.tdiv b.toInt)) false) ∧
        Ends (exec (.rem c rd ra rb) s) s c (r (BitVec.ofInt 32 (a.toInt.tmod b.toInt)) false)) ∧
      (b ≠ 0 → Ends (exec (.divu c rd ra rb) s) s c (r (BitVec.ofNat 32 (a.toNat / b.toNat)) false) ∧
        Ends (exec (.remu c rd ra rb) s) s c (r (BitVec.ofNat 32 (a.toNat % b.toNat)) false))) ∧
    (c ≠ 1 → c ≠ 2 → k.it = false →
      Ends (exec (.div c rd ra rb) s) s c (trapped k 0x01 (wordRR 0x00 rd ra rb 0x00D)) ∧
      Ends (exec (.divu c rd ra rb) s) s c (trapped k 0x01 (wordRR 0x00 rd ra rb 0x00E)) ∧
      Ends (exec (.rem c rd ra rb) s) s c (trapped k 0x01 (wordRR 0x00 rd ra rb 0x00F)) ∧
      Ends (exec (.remu c rd ra rb) s) s c (trapped k 0x01 (wordRR 0x00 rd ra rb 0x010)))

/-- The immediate instructions (R316), and ILLEGAL for a field that must be zero (R314). -/
def Obligations.ImmediateResults : Prop :=
  ∀ (c : Island) (rd ra z : RegF) (imm : BitVec 14) (imm18 : BitVec 18) (s : State), Ready s c →
    let k := getCore s c
    let a := k.gpr ra
    let r : Word → Core := fun w => { k.setGpr rd w with pc := k.pc + 4 }
    (z = 0 →
      Ends (exec (.addi c rd ra z imm) s) s c (r (a + imm.signExtend 32)) ∧
      Ends (exec (.andi c rd ra z imm) s) s c (r (a &&& imm.setWidth 32)) ∧
      Ends (exec (.ori c rd ra z imm) s) s c (r (a ||| imm.setWidth 32)) ∧
      Ends (exec (.xori c rd ra z imm) s) s c (r (a ^^^ imm.setWidth 32)) ∧
      Ends (exec (.slti c rd ra z imm) s) s c (r (if a.toInt < imm.toInt then 1 else 0)) ∧
      Ends (exec (.sltiu c rd ra z imm) s) s c (r (if a.toNat < (imm.signExtend 32).toNat then 1 else 0)) ∧
      Ends (exec (.lhi c rd z imm18) s) s c (r (imm18 ++ (0 : BitVec 14))) ∧
      (imm.toNat < 32 →
        Ends (exec (.slli c rd ra z imm) s) s c (r (a <<< imm.toNat)) ∧
        Ends (exec (.srli c rd ra z imm) s) s c (r (a >>> imm.toNat)) ∧
        Ends (exec (.srai c rd ra z imm) s) s c (r (a.sshiftRight imm.toNat)))) ∧
    (k.it = false →
      (z ≠ 0 →
        Ends (exec (.addi c rd ra z imm) s) s c (trapped k 0x01 (wordRI 0x02 rd ra z imm)) ∧
        Ends (exec (.andi c rd ra z imm) s) s c (trapped k 0x01 (wordRI 0x03 rd ra z imm)) ∧
        Ends (exec (.ori c rd ra z imm) s) s c (trapped k 0x01 (wordRI 0x04 rd ra z imm)) ∧
        Ends (exec (.xori c rd ra z imm) s) s c (trapped k 0x01 (wordRI 0x05 rd ra z imm)) ∧
        Ends (exec (.slti c rd ra z imm) s) s c (trapped k 0x01 (wordRI 0x09 rd ra z imm)) ∧
        Ends (exec (.sltiu c rd ra z imm) s) s c (trapped k 0x01 (wordRI 0x0A rd ra z imm)) ∧
        Ends (exec (.lhi c rd z imm18) s) s c (trapped k 0x01 (wordLhi 0x0B rd z imm18))) ∧
      (z ≠ 0 ∨ 32 ≤ imm.toNat →
        Ends (exec (.slli c rd ra z imm) s) s c (trapped k 0x01 (wordRI 0x06 rd ra z imm)) ∧
        Ends (exec (.srli c rd ra z imm) s) s c (trapped k 0x01 (wordRI 0x07 rd ra z imm)) ∧
        Ends (exec (.srai c rd ra z imm) s) s c (trapped k 0x01 (wordRI 0x08 rd ra z imm))))

/-- Branches, jumps and trap (R316, R325, R326, R328). -/
def Obligations.BranchesAndJumps : Prop :=
  ∀ (c : Island) (rd ra rb : RegF) (off : BitVec 14) (far : BitVec 26) (s : State), Ready s c →
    let k := getCore s c
    let a := k.gpr ra
    let b := k.gpr rb
    let t := a + off.signExtend 32
    let go : Bool → Core := fun x => { k with pc := if x then k.pc + (off.signExtend 32 <<< 2) else k.pc + 4 }
    Ends (exec (.beq c ra rb 0 off) s) s c (go (a == b)) ∧
    Ends (exec (.bne c ra rb 0 off) s) s c (go (a != b)) ∧
    Ends (exec (.blt c ra rb 0 off) s) s c (go (decide (a.toInt < b.toInt))) ∧
    Ends (exec (.bge c ra rb 0 off) s) s c (go (!decide (a.toInt < b.toInt))) ∧
    Ends (exec (.bltu c ra rb 0 off) s) s c (go (decide (a.toNat < b.toNat))) ∧
    Ends (exec (.bgeu c ra rb 0 off) s) s c (go (!decide (a.toNat < b.toNat))) ∧
    Ends (exec (.j c far) s) s c { k with pc := k.pc + (far.signExtend 32 <<< 2) } ∧
    Ends (exec (.jal c far) s) s c { k.setGpr 15 (k.pc + 4) with pc := k.pc + (far.signExtend 32 <<< 2) } ∧
    (t.toNat % 4 = 0 → Ends (exec (.jalr c rd ra 0 off) s) s c { k.setGpr rd (k.pc + 4) with pc := t }) ∧
    (t.toNat % 4 ≠ 0 → k.it = false → Ends (exec (.jalr c rd ra 0 off) s) s c (trapped k 0x02 t)) ∧
    (k.it = false → Ends (exec (.trap c 0 0 0 off) s) s c (trapped k 0x06 (off.setWidth 32))) ∧
    (k.it = true → exec (.trap c 0 0 0 off) s =
      .next (requestRestart c 0xD4 (setCore c { k with halted := true, wait := .none } s)))

/-- The SYS group (R303, R304, R313, R318). -/
def Obligations.SystemInstructions : Prop :=
  ∀ (c : Island) (rd ra rb : RegF) (s : State), Ready s c →
    let k := getCore s c
    let rds : Word → Prop := fun w => Ends (exec (.rds c rd 0 rb) s) s c { k.setGpr rd w with pc := k.pc + 4 }
    let wrs : Core → Prop := fun k' => Ends (exec (.wrs c 0 ra rb) s) s c { k' with pc := k.pc + 4 }
    (rb = 0 → rds k.spc ∧ wrs { k with spc := k.gpr ra }) ∧
    (rb = 1 → rds k.sflags ∧ wrs (k.setSflags (k.gpr ra))) ∧
    (rb = 2 → Ends (exec (.rds c rd 0 rb) s) s c { ({ k with timeHi := BitVec.ofNat 32 (localTime s c / 2 ^ 32) } : Core).setGpr rd
      (BitVec.ofNat 32 (localTime s c)) with pc := k.pc + 4 }) ∧
    (rb = 3 → rds k.timeHi) ∧
    (rb = 4 → rds k.scause ∧ wrs { k with scause := k.gpr ra &&& 0x3FF }) ∧
    (rb = 5 → rds k.svec ∧ wrs { k with svec := k.gpr ra &&& 0xFFFFFF80 }) ∧
    (rb = 6 → rds k.smask ∧ wrs (k.setSmask (k.gpr ra))) ∧
    (rb = 7 → rds ((pendingLines s c).setWidth 32)) ∧
    (rb = 8 → rds k.sval ∧ wrs { k with sval := k.gpr ra }) ∧
    (rb = 9 → rds (k.sstat (outstanding s c)) ∧ wrs { k with statFirst := 0 }) ∧
    (rb = 10 → rds (if k.active then 1 else 0)) ∧
    (rb = 11 → rds (sidWord c)) ∧
    (12 ≤ rb.toNat → rds (k.other (rb.toNat - 12)) ∧ wrs (k.setOther (rb.toNat - 12) (k.gpr ra))) ∧
    (specialRO rb.toNat = true → k.it = false →
      Ends (exec (.wrs c 0 ra rb) s) s c (trapped k 0x01 (wordRR 0x01 0 ra rb 0x001))) ∧
    Ends (exec (.reti c 0 0 0) s) s c { k with pc := k.spc, ie := k.pie, active := k.pbank, it := false } ∧
    (pendingMasked s c ≠ 0 → Ends (exec (.wfi c 0 0 0) s) s c { k with pc := k.pc + 4 }) ∧
    (pendingMasked s c = 0 → Ends (exec (.wfi c 0 0 0) s) s c { k with wait := .wfi }) ∧
    (outstanding s c = 0 → Ends (exec (.fence c 0 0 0) s) s c { k with pc := k.pc + 4 }) ∧
    (outstanding s c ≠ 0 → Ends (exec (.fence c 0 0 0) s) s c { k with wait := .fence })

/-- The wake of a wfi, interrupt entry and the imprecise trap (R312, R318, R325 to R327). The sval of an interrupt is a free value
(log entry 30). -/
def Obligations.InterruptsAndWake : Prop :=
  ∀ (c : Island) (s : State), canAct s c = true → (getCore s c).hold = false →
    let k := getCore s c
    (k.wait = .wfi → pendingMasked s c ≠ 0 → Ends (exec (.wfiWake c) s) s c { k with pc := k.pc + 4, wait := .none }) ∧
    (hasCore c = true → k.halted = false → k.wait = .none ∨ k.wait = .wfi → interruptDue s c = true → impreciseDue s c = false →
      ∃ p, exec (.interruptEntry c) s = .next (setCore c { k with
        spc := if k.wait = .wfi then k.pc + 4 else k.pc, scause := BitVec.ofNat 32 (256 + lowestLine (pendingMasked s c)),
        sval := BitVec.ofNat 32 (freeValue s), pie := k.ie, ie := false, it := true, pbank := k.active, active := true,
        pc := k.svec + BitVec.ofNat 32 (64 + 4 * lowestLine (pendingMasked s c)), wait := .none }
        { s with perf := p, free := s.free + 1 })) ∧
    (∀ a, k.imprecise = some a → atBoundary s c = true → k.it = false → Ends (exec (.impreciseStatusTrap c) s) s c { k with
      spc := k.pc, scause := BitVec.ofNat 32 0x205, sval := a, pie := k.ie, ie := false, it := true, pbank := k.active, active := true,
      pc := k.svec + BitVec.ofNat 32 20, imprecise := none, wait := .none })

/-- Loads (R305 to R311, R315, R316). -/
def Obligations.Loads : Prop :=
  ∀ (c : Island) (rd ra : RegF) (imm : BitVec 14) (s : State), Ready s c →
    let k := getCore s c
    let a := k.gpr ra + sext14 imm
    let loads : List (Instr × Nat × Bool) := [(.ldw c rd ra 0 imm .clean, 4, false), (.ldh c rd ra 0 imm .clean, 2, true),
      (.ldhu c rd ra 0 imm .clean, 2, false), (.ldb c rd ra 0 imm .clean, 1, true), (.ldbu c rd ra 0 imm .clean, 1, false)]
    let issued : TxnOp → Bool → TxnDst → State → State := fun op burst dst u => { u with via := { u.via with
      txns := vset u.via.txns c (vget [] u.via.txns c ++ [⟨op, a.toNat, burst, dst, s.time.us, false⟩]) } }
    (∀ i n sg, (i, n, sg) ∈ loads →
      (∀ key, isLocal c a.toNat = true → localBusErr s c a.toNat = false → a.toNat % n = 0 →
        ownSram s c (a.toNat / 4 * 4) = some key → canAct s c = true →
        Ends (exec i s) s c { (k.recordStatus 0x00).setGpr rd (loadLane n sg (a.toNat % 4)
          (BitVec.ofNat 32 (leAt (memReadBytes s key 4) 0 4))) with pc := k.pc + 4 }) ∧
      (isLocal c a.toNat = false → a.toNat % n = 0 → outstanding s c < 4 → ∃ p, exec i s = .next
        (setCore c { k with wait := .resp } (issued (.read 1) false (.load rd n sg (a.toNat % 4)) { s with perf := p }))) ∧
      (a.toNat % n ≠ 0 → k.it = false → Ends (exec i s) s c (trapped k 0x02 a))) ∧
    (isQuad rd = true →
      (isLocal c a.toNat = false → a.toNat % 16 = 0 → outstanding s c < 4 → ∃ p, exec (.ldq c rd ra 0 imm .clean) s = .next
        (setCore c { k with wait := .resp } (issued (.read 4) true (.quad rd) { s with perf := p }))) ∧
      (a.toNat % 16 ≠ 0 → k.it = false → Ends (exec (.ldq c rd ra 0 imm .clean) s) s c (trapped k 0x02 a)))

/-- Stores (R305 to R311, R316): the stored bytes and no other change. -/
def Obligations.Stores : Prop :=
  ∀ (c : Island) (rd ra : RegF) (imm : BitVec 14) (s : State), Ready s c →
    let k := getCore s c
    let a := k.gpr ra + sext14 imm
    let issued : TxnOp → Bool → State → State := fun op burst u => { u with via := { u.via with
      txns := vset u.via.txns c (vget [] u.via.txns c ++ [⟨op, a.toNat, burst, .posted, s.time.us, false⟩]) } }
    (∀ i n, (i, n) ∈ [(Instr.stw c rd ra 0 imm, 4), (.sth c rd ra 0 imm, 2), (.stb c rd ra 0 imm, 1)] →
      (∀ key, isLocal c a.toNat = true → localBusErr s c a.toNat = false → a.toNat % n = 0 →
        ownSram s c (a.toNat / 4 * 4) = some key → canAct s c = true → codeLocked s c (if c = 2 then key - keysSram else keyOffset c key) = false →
        MemoryCanonical s → ∃ m p, exec i s = .next (setCore c { k.recordStatus 0x00 with pc := k.pc + 4 } { s with mem := m, perf := p }) ∧
          ∀ b, Memory.read m b = if key + a.toNat % 4 ≤ b ∧ b < key + a.toNat % 4 + n
            then (k.gpr rd).extractLsb' (8 * (b - (key + a.toNat % 4))) 8 else Memory.read s.mem b) ∧
      (isLocal c a.toNat = false → a.toNat % n = 0 → outstanding s c < 4 → ∃ p, exec i s = .next
        (setCore c { k with pc := k.pc + 4 } (issued (.write [(k.gpr rd).toNat * 2 ^ (8 * (a.toNat % 4)) % 2 ^ 32]
          ((2 ^ n - 1) * 2 ^ (a.toNat % 4))) false { s with perf := p }))) ∧
      (a.toNat % n ≠ 0 → k.it = false → Ends (exec i s) s c (trapped k 0x02 a))) ∧
    (isQuad rd = true →
      (isLocal c a.toNat = false → a.toNat % 16 = 0 → outstanding s c < 4 → ∃ p, exec (.stq c rd ra 0 imm) s = .next
        (setCore c { k with pc := k.pc + 4 } (issued (.write ((k.quad rd).map BitVec.toNat) 0xF) true { s with perf := p }))) ∧
      (a.toNat % 16 ≠ 0 → k.it = false → Ends (exec (.stq c rd ra 0 imm) s) s c (trapped k 0x02 a)))

/-- VSEND, VPOST, VSENDR, VPOSTR, VRECV and VCOUNT (R319). -/
def Obligations.MessagesOfACore : Prop :=
  ∀ (c : Island) (rd rq t : RegF) (s : State), Ready s c → isQuad rq = true →
    let k := getCore s c
    let msg := k.quadMsg rq
    let out : Nat → TxnDst → State → State := fun g d u => { u with via := { u.via with
      txns := vset u.via.txns c (vget [] u.via.txns c ++ [⟨.message g msg, islandBase g, false, d, s.time.us, false⟩]) } }
    let sends : Instr → Instr → Nat → Prop := fun send post g =>
      (g = c.val → (inboxOf s c).length < 16 →
        Ends (exec send s) (setInbox c (inboxOf s c ++ [⟨msg, c⟩]) s) c { (k.recordStatus 0x00).setGpr rd 0 with pc := k.pc + 4 } ∧
        Ends (exec post s) (setInbox c (inboxOf s c ++ [⟨msg, c⟩]) s) c { k.recordStatus 0x00 with pc := k.pc + 4 }) ∧
      (g = c.val → 16 ≤ (inboxOf s c).length → k.it = false →
        Ends (exec send s) s c (trapped k 0x07 0) ∧ Ends (exec post s) s c (trapped k 0x07 0)) ∧
      (g ≠ c.val → outstanding s c < 4 →
        (∃ p, exec send s = .next (setCore c { k with wait := .resp } (out g (.status rd) { s with perf := p }))) ∧
        (∃ p, exec post s = .next (setCore c { k with pc := k.pc + 4 } (out g .posted { s with perf := p }))))
    sends (.vsend c rd rq t 0) (.vpost c 0 rq t 0) t.toNat ∧
    sends (.vsendr c rd rq t 0) (.vpostr c 0 rq t 0) ((k.gpr t).toNat % 16) ∧
    (∀ e rest, inboxOf s c = e :: rest → Ends (exec (.vrecv c rd rq 0 0) s) (setInbox c rest s) c
      { (k.setQuad rq (msgWords e.msg)).setGpr rd (BitVec.ofNat 32 e.src) with pc := k.pc + 4 }) ∧
    (inboxOf s c = [] → Ends (exec (.vrecv c rd rq 0 0) s) s c { k.setGpr rd 0xFFFFFFFF with pc := k.pc + 4 }) ∧
    Ends (exec (.vcount c rd 0 0 0) s) s c { k.setGpr rd (BitVec.ofNat 32 (inboxOf s c).length) with pc := k.pc + 4 }

/-- TWAIT, TEMIT, TSEND, TALARM, TCANCEL, TIMED_ACTION and ALARM_FIRE (R320 to R324). -/
def Obligations.TimedInstructions : Prop :=
  (∀ (c : Island) (tr ra rc : RegF) (off : BitVec 10) (s : State), Ready s c → isPair tr = true →
    let k := getCore s c
    let t := k.pairTime tr
    let a := k.gpr ra + (off.signExtend 32 <<< 2)
    (localTime s c < t →
      exec (.twait c tr 0 0 0) s = .next (setCore c { k with wait := .timed t .twait } s) ∧
      (a.toNat % 4 = 0 → exec (.temit c tr ra rc off) s = .next (setCore c { k with wait := .timed t (.temit a (k.gpr rc)) } s)) ∧
      (isQuad rc = true → exec (.tsend c tr ra rc 0) s =
        .next (setCore c { k with wait := .timed t (.tsend ra.toNat (k.quadMsg rc)) } s)) ∧
      Ends (exec (.talarm c tr 0 0 0) s) s c { k with pc := k.pc + 4, alarm := some t, alarmPend := false }) ∧
    (t ≤ localTime s c →
      Ends (exec (.twait c tr 0 0 0) s) s c { k with pc := k.pc + 4, late := true } ∧
      Ends (exec (.talarm c tr 0 0 0) s) s c { k with pc := k.pc + 4, alarm := none, alarmPend := true, late := true }) ∧
    (a.toNat % 4 ≠ 0 → k.it = false → Ends (exec (.temit c tr ra rc off) s) s c (trapped k 0x02 a)) ∧
    Ends (exec (.tcancel c 0 0 0 0) s) s c { k with pc := k.pc + 4, alarm := none, alarmPend := false }) ∧
  (∀ (c : Island) (t : Nat) (s : State), canAct s c = true → t ≤ localTime s c →
    let k := getCore s c
    (k.halted = false → k.hold = false →
      (k.wait = .timed t .twait → Ends (exec (.timedAction c) s) s c { k with pc := k.pc + 4, wait := .none }) ∧
      (∀ a w, k.wait = .timed t (.temit a w) → isLocal c a.toNat = false → outstanding s c < 4 → ∃ p,
        exec (.timedAction c) s = .next (setCore c { k with pc := k.pc + 4, wait := .none } { s with perf := p, via := { s.via with
          txns := vset s.via.txns c (vget [] s.via.txns c ++ [⟨.write [w.toNat] 0xF, a.toNat, false, .posted, s.time.us, false⟩]) } }))) ∧
    (k.alarm = some t → exec (.alarmFire c) s = .next (setCore c { k with alarm := none, alarmPend := true } s)))

/-- SENSE_REQUEST, QUEUE_ENTRY_TIMEOUT, SPAN_DISABLE and BIRTH (R43 to R48, R73, R483). -/
def Obligations.SpanRequests : Prop :=
  (∀ (src : SenseSource) (n : Nat) (bay : Bay) (s : State), canAct s 1 = true → spanEnabled s = true →
    (src, n) ∈ [(SenseSource.detuning, 0), (.locatedFob, 1), (.tagRead, 2)] →
    ((getSpan s bay).live = false → vget 0 s.span.retry bay ≤ s.time.us → s.span.queue.length < 256 →
      s.span.queue.find? (fun e => e.bay == bay.val && e.source == n) = none →
      exec (.senseRequest src bay) s =
        .next { s with span := { s.span with queue := s.span.queue ++ [⟨n, bay, s.time.us, [], none⟩] } }) ∧
    ((getSpan s bay).live = true → ∃ p, exec (.senseRequest src bay) s =
      .next { s with perf := p, span := { s.span with merged := satTo 0xFFFFFFFF (s.span.merged + 1) } }) ∧
    ((getSpan s bay).live = false → vget 0 s.span.retry bay ≤ s.time.us → s.span.queue.length = 256 →
      s.span.queue.find? (fun e => e.bay == bay.val && e.source == n) = none →
      exec (.senseRequest src bay) s =
        .next { s with span := { s.span with drops := satTo 0xFFFFFFFF (s.span.drops + 1) } })) ∧
  (∀ (bay : Bay) (ident : List Byte) (q : Nat) (s : State), canAct s 1 = true → spanEnabled s = true →
    ((getSpan s bay).live = false ∨ (getSpan s bay).state = 8 → s.span.queue.length < 256 →
      s.span.queue.find? (fun e => e.bay == bay.val && e.source == 3) = none →
      exec (.senseRequest (.hostStart ident q) bay) s = .next { s with span := { s.span with
        queue := s.span.queue ++ [⟨3, bay, s.time.us, padTo 16 ident, some (startReq s bay q)⟩] } }) ∧
    ((getSpan s bay).live = true → (getSpan s bay).state ≠ 8 → ∃ l z o p, exec (.senseRequest (.hostStart ident q) bay) s =
      .next { s with link := l, zw := z, sent := o, perf := p })) ∧
  (∀ (bay : Bay) (source : Fin 4) (e : QEntry) (s : State), canAct s 1 = true → e.stamp + 1000000 ≤ s.time.us →
    s.span.queue.find? (fun e => e.bay == bay.val && e.source == source.val) = some e → ∃ l z o p,
      exec (.queueEntryTimeout bay source) s = .next { s with link := l, zw := z, sent := o, perf := p,
                                                               span := { s.span with queue := s.span.queue.filter (fun x => x ≠ e) } }) ∧
  (∀ (ini : Island) (s : State), Accepts s ini 1 .spanCtrl → ∃ l z o p, exec (.spanDisable ini) s =
    .next (setResp ini [] 0x00 { putReg s 1 .spanCtrl 0 (setField (regValue s 1 .spanCtrl 0) 0 1 0) with
      link := l, zw := z, sent := o, perf := p, span := { s.span with queue := [] } })) ∧
  (∀ (e : QEntry) (s : State), canAct s 1 = true → accepting s = true → e.bay < 64 →
    s.span.queue.find? (fun e => (getSpan s e.bay).state == 0) = some e → s.span.lastId < 0xFFFFFFFE →
    s.span.lastId + 1 < s.store.ledger.spanHwm → ∃ t, exec .birth s = .next t ∧ t.span.lastId = s.span.lastId + 1 ∧
      t.span.queue = s.span.queue.filter (fun x => x ≠ e) ∧ (getSpan t e.bay).id = s.span.lastId + 1 ∧
      (getSpan t e.bay).source = e.source ∧ ((getSpan t e.bay).state = 1 ∨ (getSpan t e.bay).state = 10) ∧
      ∀ b, b ≠ e.bay → getSpan t b = getSpan s b)

/-- AUTH_DEADLINE, RELEASE_DEADLINE, MAX_DURATION_REACHED, INTERIM_INSTANT and TOKEN_NOT_AFTER (R48 to R52, R63, R66). -/
def Obligations.SpanDeadlines : Prop :=
  ∀ (bay : Bay) (s : State), canAct s 1 = true →
    let p := getSpan s bay
    let fails : Status := if p.lastFail = 0 then 0x05 else p.lastFail
    (∀ d, p.authLeft = some d → d ≤ s.time.us → 2 ≤ p.state → p.state ≤ 4 →
      ∃ t, exec (.authDeadline bay) s = .next t ∧ EndedAs bay 10 fails s t) ∧
    (∀ d, p.relLeft = some d → d ≤ s.time.us → p.state = 5 →
      ∃ t, exec (.releaseDeadline bay) s = .next t ∧ EndedAs bay 10 fails s t) ∧
    (p.state = 7 → p.maxDur ≠ 0 → p.relAt + 60000000 * p.maxDur ≤ s.time.us →
      ∃ t, exec (.maxDurationReached bay) s = .next t ∧ BayStep bay s t ∧ Recorded bay 8 0x00 s t ∧
        getSpan t bay = { p with state := 8, status := 0x00, closeReason := 2, nextInterim := none,
                                 caps := p.caps ++ [⟨2, s.time.us, none, false⟩] } ∧
        vget none t.span.stops bay = some ⟨p.counter, 10⟩ ∧ t.span.tokens = s.span.tokens) ∧
    (∀ d, p.nextInterim = some d → d ≤ s.time.us → p.state = 7 →
      exec (.interimInstant bay) s = .next (modBay bay (fun _ => { p with
        caps := p.caps ++ [⟨1, d, none, false⟩], nextInterim := some (d + 60000000 * p.interim) }) s)) ∧
    (∀ k, getToken s bay = some k → k.notAfter ≤ s.time.us → ∃ t, exec (.tokenNotAfter bay) s = .next t ∧
      t.span.tokens = vset s.span.tokens bay none ∧ (∀ b, b ≠ bay.val → getSpan t b = getSpan s b) ∧
      (if (p.state = 6 ∨ p.state = 7) ∧ p.counter = k.counter ∧ p.accepted = false
        then (getSpan t bay).state = 8 ∧ (getSpan t bay).status = 0x2A ∧ (getSpan t bay).closeReason = 4
        else getSpan t bay = p))

/-- TOLL_REQ, TOLL_REQUEST_PROCESS, TOLL_CANCEL, FRAME_BOUNDARY, JOB_MISS and HOOK_BUDGET_EXPIRY (R77, R81, R88 to R99, R344). -/
def Obligations.TollGate : Prop :=
  (∀ (ini : Island) (word : Word) (s : State), Accepts s ini 1 .tollReqR → s.toll.parking = none →
    (inFlight s < 4 → freeHandle s ≠ none → ∃ p, exec (.tollReq ini word) s = .next (setResp ini [] 0x00
      { s with perf := p, toll := { s.toll with reqs := s.toll.reqs ++ [word.toNat] } })) ∧
    (4 ≤ inFlight s ∨ freeHandle s = none → ∃ p, exec (.tollReq ini word) s = .next (setResp ini [] 0x01 { s with perf := p }))) ∧
  (∀ (w : Nat) (rest : List Nat) (s : State), canAct s 1 = true → s.toll.reqs = w :: rest → ∃ (t : State) (a : TollAnswer),
    exec .tollRequestProcess s = .next t ∧ t.toll.reqs = rest ∧ t.toll.answers = s.toll.answers ++ [a] ∧
    a.tag = bitsOf w 28 4 ∧ a.time = s.time.us ∧ (a.status = 0x00 ∨ a.status = 0x01 ∨ a.status = 0x02) ∧
    (bitOf (regValue s 1 .tollCtrl 0) 0 = false → a.status = 0x02) ∧
    (a.status ≠ 0x00 → t.toll.resvs = s.toll.resvs ∧ t.toll.bearings = s.toll.bearings ∧ t.toll.handles = s.toll.handles) ∧
    (a.status = 0x00 → (∀ x ∈ s.toll.resvs, x ∈ t.toll.resvs) ∧ t.toll.handles = a.handle :: s.toll.handles ∧
      a.handle ∉ s.toll.handles) ∧
    t.toll.refused = (if a.status = 0x01 then satTo 0xFFFF (s.toll.refused + 1) else s.toll.refused) ∧
    { t with toll := s.toll, latched := s.latched, perf := s.perf, free := s.free } = s) ∧
  (∀ (ini : Island) (h : Byte) (s : State), Accepts s ini 1 .tollCancelR → ∃ (t : State) (p : _),
    exec (.tollCancel ini h) s = .next (setResp ini [] 0x00 { t with perf := p }) ∧ { t with toll := s.toll } = s ∧
    t.toll.handles = s.toll.handles.filter (fun x => x != h.toNat) ∧
    t.toll.bearings = s.toll.bearings.filter (fun b => b.handle != h.toNat) ∧
    (∀ x ∈ t.toll.resvs, x.handle = h.toNat → x.first ≤ s.time.us / 1000 ∧ x.first + x.frames ≤ s.time.us / 1000 + 1) ∧
    t.toll.resvs.filter (fun x => x.handle != h.toNat) = s.toll.resvs.filter (fun x => x.handle != h.toNat) ∧
    t.toll.reqs = s.toll.reqs ∧ t.toll.answers = s.toll.answers) ∧
  (∀ s : State, canAct s 1 = true → s.toll.frame < s.time.us / 1000 → ∃ l, exec .frameBoundary s = .next { s with
    latched := l
    toll := { s.toll with frame := s.time.us / 1000
                          resvs := s.toll.resvs.filter (fun x => decide (s.time.us / 1000 < x.first + x.frames)) } }) ∧
  (∀ (h : Byte) (cls : Fin 32) (r : Fin 16) (deadline : Nat) (s : State), canAct s 1 = true → h.toNat ∈ s.toll.handles →
    deadline ≤ s.time.us → ∃ t, exec (.jobMiss h cls r deadline) s = .next t ∧
      t.toll.missed = satTo 0xFFFF (s.toll.missed + 1) ∧ t.par.pend = s.par.pend ||| 2 ^ 5 ∧
      t.par.log = logPush ⟨0xD5, 1, cls, s.time.us, false, leBytes 1 h.toNat ++ leBytes 1 r ++ leBytes 8 deadline⟩ s.par.log) ∧
  (∀ (hook : Fin 8) (bay : Bay) (s : State), deckRuns s = true → hook.val < 5 → ∃ st m p,
    exec (.hookBudgetExpiry hook bay) s = .next { s with store := st, mem := m, perf := p } ∧ KeepsMemory s m ∧
    ∃ r ∈ st.queue, r.typ = 0x0D ∧ r.time = s.time.us ∧ r.body.take 3 = [0xDE, 1, BitVec.ofNat 8 hook])

/-- DISP_TOKEN, TOKEN_LAST_BYTE, DISP_STOP, DISP_POLL, DISP_BEACON, DISP_REPORT, DISP_NONE and DISP_REPLY_TIMEOUT (R48, R63 to
R65, R423, R424). -/
def Obligations.DispenserBus : Prop :=
  ∀ (bay : Bay) (s : State),
    let p := getSpan s bay
    let out : Nat → Nat → List Byte → State → State := fun a typ pay u =>
      { u with sent := u.sent ++ [.disp a typ pay], par := { u.par with dFault := 0 } }
    (dispOn s = true →
      (p.state = 5 → s.par.dFault = 0 → p.built = true → p.sending = false → getToken s bay = none →
        oldTokenHolds s bay s.time.us = false → ∃ q, exec (.dispToken bay) s =
          .next { out (leAt p.policy 9 1) 0x01 p.token (modBay bay (fun x => { x with sending := true }) s) with perf := q }) ∧
      (s.link.dPoll = none →
        (∀ r, vget none s.span.stops bay = some r → ∃ q, exec (.dispStop bay) s =
          .next { out (dispAddr s bay) 0x04 (leBytes 8 r.counter) s with
            perf := q
            span := { s.span with stops := vset s.span.stops bay (if r.left ≤ 1 then none else some ⟨r.counter, r.left - 1⟩) } }) ∧
        (pollDue s bay = true → ∃ q, exec (.dispPoll bay) s = .next { out (dispAddr s bay) 0x03 [] s with
          perf := q
          link := { s.link with dPoll := some bay, polled := vset s.link.polled bay s.time.us } }) ∧
        (s.time.us / 1000 % 100 = 0 → s.link.lastBeacon = none → ∃ l q, exec .dispBeacon s =
          .next { out 0xFF 0x02 (leBytes 8 s.time.us) s with
            perf := q
            latched := l
            link := { s.link with lastBeacon := some (s.time.us / 1000) } })) ∧
      (s.link.dPoll = some bay.val →
        (∃ q, exec (.dispNone bay) s = .next { s with perf := q, link := { s.link with dPoll := none } }) ∧
        exec (.dispReplyTimeout bay) s =
          .next { s with link := { s.link with dPoll := none, dNoReply := satTo 0xFFFF (s.link.dNoReply + 1) } } ∧
        (∀ (report : Fin 3) (code : Byte) (n : Nat), n < 2 ^ 64 →
          (deckTakes s = true → vget none s.span.reports bay ≠ some (report.val, n) → ∃ t,
            exec (.dispReport bay report code n) s = .next t ∧ t.link.dPoll = none ∧
            vget none t.span.reports bay = some (report.val, n) ∧ (∀ b, b ≠ bay.val → getSpan t b = getSpan s b) ∧
            (∃ r ∈ t.store.queue, r.typ = 0x0B ∧ r.body.take 12 = [BitVec.ofNat 8 report, code, 0, 0] ++ leBytes 8 n) ∧
            (p.counter = n → p.state = 7 →
              (report.val = 0 → getSpan t bay = { p with accepted := true }) ∧
              (report.val = 1 → (getSpan t bay).state = 8 ∧ (getSpan t bay).status = 0x29 ∧ (getSpan t bay).closeReason = 3) ∧
              (report.val = 2 → (getSpan t bay).state = 8 ∧ (getSpan t bay).status = 0x00 ∧ (getSpan t bay).closeReason = 0))) ∧
          (deckTakes s = false → s.link.held.length < 16 → ∃ q, exec (.dispReport bay report code n) s = .next { s with
            perf := q
            link := { s.link with dPoll := none, held := s.link.held ++ [.report bay report code.toNat n] } })))) ∧
    (canAct s 1 = true → p.state = 5 → s.par.dFault ≠ 0 → ∃ t, exec (.dispToken bay) s = .next t ∧ EndedAs bay 10 0x05 s t) ∧
    (canAct s 5 = true → canAct s 1 = true → p.state = 5 → p.sending = true → ∃ t, exec (.tokenLastByte bay) s = .next t ∧
      getSpan t bay = { p with state := 6, sending := false, built := false, relAt := s.time.us, relLeft := none, lastFail := 0,
                               caps := p.caps ++ [⟨0, s.time.us, none, false⟩] } ∧
      getToken t bay = some ⟨p.counter, p.notAfter⟩ ∧ Recorded bay 6 0x00 s t ∧ ∀ b, b ≠ bay.val → getSpan t b = getSpan s b)

/-- METER_LATCH, METER_READ, METER_REPLY and METER_TIMEOUT (R66, R420 to R422). -/
def Obligations.MeterBus : Prop :=
  ∀ (bay : Bay) (s : State), meterOn s = true →
    let p := getSpan s bay
    let served : State → Status → Status → Nat → Prop := fun t st mst e =>
      t.link.mRead = none ∧ getSpan t bay = { p with caps := p.caps.filter (fun c => !c.reading) } ∧
      (∀ b, b ≠ bay.val → getSpan t b = getSpan s b) ∧ KeepsMemory s t.mem ∧
      ∀ c ∈ p.caps, c.reading = true → ∃ r ∈ t.store.queue, r.typ = 0x04 ∧ r.spanId = p.id ∧
        r.body.take 20 = [BitVec.ofNat 8 c.kind, mst, BitVec.ofNat 8 (leAt p.policy 8 1), st] ++ leBytes 8 c.reqTime ++ leBytes 8 e
    (s.link.mRead = none →
      (s.par.mFault = 0 → ∃ x q, exec .meterLatch s = .next { s with perf := q, span := x, sent := s.sent ++ [.meterLatch s.time.us] } ∧
        { x with bays := s.span.bays } = s.span ∧ ∀ b, b < 64 → vget Span.reset x.bays b = { getSpan s b with
          caps := (getSpan s b).caps.map (fun c =>
            if c.stamp.isNone ∧ c.reqTime ≤ s.time.us + 1000 then { c with stamp := some s.time.us } else c) }) ∧
      ((∃ c ∈ p.caps, c.stamp.isSome ∧ c.reading = false) → ∃ q, exec (.meterRead bay) s =
        .next { modBay bay (fun x => { x with caps := x.caps.map (fun c => if c.stamp.isSome then { c with reading := true } else c) }) s with
          perf := q
          sent := s.sent ++ [.meterRead (leAt p.policy 8 1)]
          link := { s.link with mRead := some bay } })) ∧
    (s.link.mRead = some bay.val →
      (deckTakes s = true →
        (∀ (reply : MeterReply) (raw : List Byte) (e : Nat) (c st mst : Byte) (n : Nat),
          (reply, st, mst, n) ∈ [(MeterReply.normal raw e, 0x00, 0x00, e % 2 ^ 64), (.exception raw c, 0x05, c, 2 ^ 64 - 1), (.bad raw, 0x05, 0xFF, 2 ^ 64 - 1)] →
          ∃ t, exec (.meterReply bay reply) s = .next t ∧ served t st mst n) ∧
        (∃ t, exec (.meterTimeout bay) s = .next t ∧ served t 0x05 0xFF (2 ^ 64 - 1) ∧
          t.link.mTimeout = satTo 0xFFFF (s.link.mTimeout + 1))) ∧
      (deckTakes s = false → s.link.held.length < 16 → ∀ reply, ∃ q, exec (.meterReply bay reply) s = .next { s with
        perf := q
        link := { s.link with mRead := none, held := s.link.held ++ [.meter bay reply] } }))

/-- LF_DRIVE_START, LF_PING_START, LF_TUNE_START, LF_CHORD_ARM, LF_CHORD_START, LF_STOP, LF_DISABLE, LF_TXD_PUSH and LF_AER_CLR
(R108 to R113, R123, R124, R129). -/
def Obligations.PierCommands : Prop :=
  ∀ (ini : Island) (pier : PierId) (k : Fin 8) (txb : BitVec 12) (s : State),
    let p := getPier s pier
    let only : State → Prop := fun t => (∀ n, n ≠ pier.val → getPier t n = getPier s n) ∧ answerOf t ini = ⟨[], 0x00⟩ ∧
      { t with via := s.via, lf := s.lf, latched := s.latched, perf := s.perf } = s
    (Accepts s ini (6 + pier) .lfCmd →
      (∀ i mode n, (i, mode, n) ∈ [(Instr.lfDriveStart ini pier k txb, 0, txb.toNat), (.lfPingStart ini pier k, 1, 0),
          (.lfTuneStart ini pier k, 2, 0), (.lfChordArm ini pier k, 3, 0)] →
        let st : Status := if p.burst ≠ none then 0x45
          else if lfEnabled s pier = false ∨ s.par.thermalStop ∨ s.par.clockStop then 0x02
          else if aerialFault s (8 * pier + k) then 0x0D
          else if s.par.uvVinlf then 0x44
          else if mode = 3 ∧ chordT0 s pier < s.time.us + 300 then 0x49 else 0x00
        (st ≠ 0x00 → ∃ q, exec i s = .next (setResp ini [] st { s with perf := q })) ∧
        (st = 0x00 → ∃ t, exec i s = .next t ∧ only t ∧ (getPier t pier).mode = mode ∧ (getPier t pier).aerial = k.val ∧
          (mode = 3 → (getPier t pier).burst = some (Burst.fresh k 3 0 (some (chordT0 s pier)))) ∧
          (mode ≠ 3 → (getPier t pier).ping = { p.ping with slots := p.ping.slots.drop 1, left := p.ping.left - 1 } ∧
            ∃ c, (getPier t pier).burst = some { Burst.fresh k mode n none with start := s.time.us, clamped := c }))) ∧
      (∀ b, p.burst = some b → b.armed = none → ∃ q, exec (.lfStop ini pier) s = .next (setResp ini [] 0x00
        { modPier pier (fun x => { x with burst := some { b with stopped := true } }) s with perf := q })) ∧
      (∀ b, p.burst = some b → b.armed ≠ none → ∃ t, exec (.lfStop ini pier) s = .next t ∧ only t ∧
        (getPier t pier).burst = none ∧ (getPier t pier).last = 0x48 ∧ (getPier t pier).event = p.event ||| 1)) ∧
    (∀ b d, canAct s (6 + pier) = true → p.burst = some b → b.armed = some d → d ≤ s.time.us → ∃ t c,
      exec (.lfChordStart pier) s = .next t ∧ (∀ n, n ≠ pier.val → getPier t n = getPier s n) ∧
      (getPier t pier).burst = some { b with armed := none, start := s.time.us, clamped := c }) ∧
    (Accepts s ini (6 + pier) .lfCtrl → p.burst = none → ∃ q, exec (.lfDisable ini pier) s = .next (setResp ini [] 0x00
      { putReg (modPier pier (fun x => { x with ping := { x.ping with slots := [], left := 0 } }) s) (6 + pier) .lfCtrl 0 0 with
        perf := q })) ∧
    (∀ data : Word, Accepts s ini (6 + pier) .lfTxd → (∀ b, p.burst = some b → b.armed ≠ none ∨ b.mode ≠ 0 ∨ b.stopped = true) →
      (p.tx.length < 32 → ∃ q, exec (.lfTxdPush ini pier data) s = .next (setResp ini [] 0x00
        { modPier pier (fun x => { x with tx := x.tx ++ [data.toNat] }) s with perf := q })) ∧
      (32 ≤ p.tx.length → ∃ q, exec (.lfTxdPush ini pier data) s = .next (setResp ini [] 0x45 { s with perf := q }))) ∧
    (∀ mask : BitVec 8, Accepts s ini (6 + pier) .lfAerClrR → ∃ a q, exec (.lfAerClr ini pier mask) s =
      .next (setResp ini [] 0x00 { s with perf := q, lf := { s.lf with aerials := a } }) ∧
      ∀ b, b < 64 → vget ⟨3, 0⟩ a b = if b / 8 = pier.val ∧ bitOf mask.toNat (b % 8) = true then ⟨3, 0⟩ else getAerial s b)

/-- DRIVE_CHECK, UPLINK_WORD, LF_BURST_END, DRIVE_VALID_LOSS, PING_ROUND and PING_DONE (R101, R110, R114 to R123). -/
def Obligations.BurstsAndPings : Prop :=
  ∀ (pier : PierId) (s : State),
    let p := getPier s pier
    let others : State → Prop := fun t => ∀ n, n ≠ pier.val → getPier t n = getPier s n
    let struck : Aerial → Bool → Aerial := fun a failed => if a.state = 2 then a
      else if failed then (if 2 ≤ a.strikes then ⟨2, 3⟩ else ⟨1, a.strikes + 1⟩) else ⟨0, 0⟩
    (canAct s (6 + pier) = true → ∀ b, p.burst = some b → b.armed = none → b.aerial < 8 →
      (b.mode = 0 ∨ b.mode = 3 → ∀ i q : BitVec 16, exec (.driveCheck pier i q) s = .next (modPier pier (fun x => { x with
        iqI := i, iqQ := q, burst := some { b with opened := b.opened ||
          (decide (i.toInt * i.toInt + q.toInt * q.toInt < 16) || !(decide (0 ≤ i.toInt) && decide (q.toInt * q.toInt ≤ 3 * i.toInt * i.toInt))) } }) s)) ∧
      (b.mode = 0 → ∀ (bits : BitVec 16) (n : Fin 17) (v : Bool), ∃ c, exec (.uplinkWord pier bits n v) s =
        .next { modPier pier (fun x => if p.rx.length < 32
          then { x with rx := p.rx ++ [⟨bits.toNat / 2 ^ (16 - n.val) * 2 ^ (16 - n.val), n, v, p.overrun⟩], overrun := false }
          else { x with overrun := true }) s with perf := c }) ∧
      (b.mode ≠ 2 → (b.mode = 0 → b.stopped = true) → ∀ limit mv steps, ∃ t, exec (.lfBurstEnd pier limit mv steps) s = .next t ∧
        let st : Status := if b.overcurrent then 0x41 else if b.opened then 0x40 else if b.stopped then 0x48
          else if limit = true ∧ b.mode ≠ 1 ∧ b.mode < 4 then 0x46 else if b.clamped then 0x47 else 0x00
        others t ∧ (getPier t pier).burst = none ∧ (getPier t pier).last = st ∧ bitOf (getPier t pier).event 0 = true ∧
        getAerial t (8 * pier + b.aerial) = struck (getAerial s (8 * pier + b.aerial)) (st == 0x40 || st == 0x41) ∧
        ∀ a, a ≠ 8 * pier.val + b.aerial → getAerial t a = getAerial s a) ∧
      (b.mode = 2 → ∀ limit mv steps, ∃ t, exec (.lfBurstEnd pier limit mv steps) s = .next t ∧ others t ∧
        (getPier t pier).burst = none ∧ bitOf (getPier t pier).event 0 = true) ∧
      (b.mode = 1 → engineOwns s = false → ∀ (k : Fin 8) (amp : BitVec 12) (ph : BitVec 9), b.aerial = k.val → ∀ bay : Bay,
        bay.val = 8 * pier.val + k.val → ∃ t, exec (.pingDone bay amp ph) s = .next t ∧ others t ∧ (getPier t pier).burst = none ∧
          (getPier t pier).last = if amp.toNat < 4 then 0x40 else if b.stopped then 0x48 else 0x00)) ∧
    (canAct s (6 + pier) = false → exec (.driveValidLoss pier) s =
      .next { s with lf := { s.lf with released := vset s.lf.released pier true } }) ∧
    (canAct s (6 + pier) = true → lfEnabled s pier = true → bitOf (regValue s (6 + pier) .lfPing 0) 0 = true →
      s.par.thermalStop = false → s.par.clockStop = false → s.par.uvVinlf = false → zone s = 0 → ∃ l, exec (.pingRound (some pier)) s =
        .next { modPier pier (fun x => { x with ping := { x.ping with
          slots := x.ping.carry.toList ++ List.range 8, left := 8, carry := none } }) s with latched := l }) ∧
    (engineOwns s = true → s.par.uvVinlf = false → ∃ l, exec (.pingRound none) s = .next { s with
      latched := l
      lf := { s.lf with engine := s.lf.engine.map (fun g => { g with slots := g.carry.toList ++ List.range 8, left := 8, carry := none }) } }) ∧
    (engineOwns s = false → canAct s (6 + pier) = true → p.burst = none → ∀ (bay : Bay) (k : Nat) (rest : List Nat) (n : Nat),
      PingGroup.pass (fun k => pingSkips s false (8 * pier + k)) p.ping.slots p.ping.left = (k :: rest, n) → k < 8 → bay.val = 8 * pier + k →
      bitOf (regValue s 0 .pingRbase bay) 31 = false → ∀ (amp : BitVec 12) (ph : BitVec 9), 4 ≤ amp.toNat → ∃ t,
        exec (.pingDone bay amp ph) s = .next t ∧ others t ∧ (getPier t pier).ping.slots = rest ∧ (getPier t pier).ping.left = n - 1 ∧
        t.cfg = (putReg s 0 .pingRbase bay (baseWord amp.toNat ph.toNat)).cfg ∧ getAerial t bay = struck (getAerial s bay) false)

/-- TAG_REPLY, TAG_REPLY_TIMEOUT, INVENTORY_RESERVATION_END and KT_MAC_TIMEOUT (R141 to R151). -/
def Obligations.TagExchanges : Prop :=
  ∀ (pier : PierId) (j : TagJob) (s : State), (getPier s pier).job = some j →
    let ended : TagJob → Status → TagJob := fun x st => { x with phase := .done, status := st, more := x.found.drop 1 }
    let is_ : Instr → TagJob → Prop := fun i x => exec i s = .next (modPier pier (fun q => { q with job := some x }) s)
    let num : List UpBit → Nat := fun l => bitsNat (l.map upValue)
    (tagBurst s pier = true → ∀ bits : List UpBit,
      (j.phase = .ktReq → ((bits.drop 4).take 96).any upBad = false → replyFramed bits 96 = true → replyCrcOk bits 96 [] = true →
        is_ (.tagReply pier bits) { ended { j with kind := 1, uid := num ((bits.drop 4).take 64), found := [num ((bits.drop 4).take 64)] } 0x00 with
          data := beBytes 4 (num (((bits.drop 4).drop 64).take 32)), since := s.time.us }) ∧
      (∀ cmd, j.phase = .inventory cmd → j.pre = [] →
        (((bits.drop 4).take 64).any upBad = false → replyFramed bits 64 = true → replyCrcOk bits 64 [] = true → j.stack = [] →
          is_ (.tagReply pier bits) { ended { j with found := j.found ++ [num ((bits.drop 4).take 64)] } 0x00 with since := s.time.us }) ∧
        (((bits.drop 4).take 64).any upBad = true →
          let known : List Bool := (((bits.drop 4).take 64).take (((bits.drop 4).take 64).findIdx upBad)).map upValue
          is_ (.tagReply pier bits) { j with
            stack := (known.length, known) :: j.stack, pre := known ++ [false], phase := .inventory (.split known.length),
            retried := false, since := s.time.us }) ∧
        (((bits.drop 4).take 64).any upBad = false → (replyFramed bits 64 && replyCrcOk bits 64 []) = false →
          is_ (.tagReply pier bits) (if j.retried then { ended j 0x51 with since := s.time.us }
            else { j with retried := true, since := s.time.us })))) ∧
    (tagBurst s pier = true →
      (j.phase = .ktReq → is_ (.tagReplyTimeout pier) (if j.openId
        then { j with kind := 2, phase := .inventory .req, pre := [], stack := [], retried := false } else ended j 0x50)) ∧
      (∀ cmd, j.phase = .inventory cmd → j.stack = [] → is_ (.tagReplyTimeout pier) (ended j (if j.found = [] then 0x50 else 0x00))) ∧
      (∀ x, j.phase = .open_ x → is_ (.tagReplyTimeout pier) (ended j 0x58))) ∧
    (canAct s (6 + pier) = true →
      (∀ cmd, j.phase = .inventory cmd → is_ (.inventoryReservationEnd pier) (ended j 0x53)) ∧
      (∀ x b, j.phase = .waitMac x → (getPier s pier).burst = some b → b.armed = none →
        exec (.ktMacTimeout pier) s = .next (modPier pier (fun q => { q with
          job := some (ended j 0x05), burst := some { b with stopped := true } }) s)))

/-- RF_CMD_SYNTH, RF_CMD_TX, RF_CMD_RX, RF_CMD_TEST, RF_CMD_CAL_ALL, RF_CMD_OFF, RF_CMD_STANDBY, RF_CMD_WAKE, RF_DISABLE and
ANT_CLR (R158 to R165, R181, R183, R185). -/
def Obligations.RadioCommands : Prop :=
  ∀ (ini : Island) (ch : BitVec 7) (aerial : Fin 4) (pwr : BitVec 6) (rate : Bool) (s : State),
    let rest : State → Prop := fun t => answerOf t ini = ⟨[], 0x00⟩ ∧
      { t with via := s.via, rf := s.rf, latched := s.latched, perf := s.perf } = s
    let txLen := (Memory.read s.mem (rfSram + bitsOf (regValue s 3 .txPtr 0) 2 13 * 4)).toNat
    (Accepts s ini 3 .rfCmd →
      (∀ i c, (i, c) ∈ [(Instr.rfCmdSynth ini ch, RfCmd.mk 2 ch.toNat 0 0 false), (.rfCmdTx ini ch aerial pwr rate, ⟨3, ch.toNat, aerial, pwr.toNat, rate⟩),
          (.rfCmdRx ini ch aerial rate, ⟨4, ch.toNat, aerial, 0, rate⟩), (.rfCmdTest ini ch aerial pwr, ⟨6, ch.toNat, aerial, pwr.toNat, false⟩),
          (.rfCmdCalAll ini, ⟨7, 0, 0, 0, false⟩)] →
        let air := c.op = 3 ∨ c.op = 4 ∨ c.op = 6
        let st : Status := if bitOf (regValue s 3 .rfCtrl 0) 0 = false then 0x02
          else if c.op ≠ 7 ∧ (c.ch < 2 ∨ 81 < c.ch) then 0x69
          else if air ∧ (vget ⟨3, 0⟩ s.rf.ants c.aerial).state = 2 then 0x0D
          else if c.op = 3 ∧ (txLen = 0 ∨ 128 < txLen) then 0x67 else 0x00
        (st ≠ 0x00 → ∃ q, exec i s = .next (setResp ini [] st { s with perf := q })) ∧
        (st = 0x00 → ∃ t, exec i s = .next t ∧ rest t ∧
          (rfMoving s = true ∨ onAir s = true ∨ s.psr.busy = true →
            (s.rf.held ≠ none → t.rf.last = 0x60 ∧ bitOf t.rf.event 0 = true) ∧
            ((∃ k, s.rf.phase = .calibrating k ∧ c.op ≠ 7 ∧ c.ch ≠ k) → t.rf.phase = .calibrating c.ch ∧ t.rf.cur = some c ∧ t.rf.held = none) ∧
            ((∀ k, s.rf.phase = .calibrating k → c.op = 7 ∨ c.ch = k) → t.rf.held = some c ∧ t.rf.phase = s.rf.phase ∧ t.rf.cur = s.rf.cur)) ∧
          (rfMoving s = false → onAir s = false → s.psr.busy = false →
            t.rf.req = decide air ∧
            (c.op = 7 → t.rf.mode = .synth ∧ t.rf.phase = .calibrating 2 ∧ t.rf.cur = some { c with ch := 2 }) ∧
            (c.op ≠ 7 → ¬ (s.rf.locked = true ∧ s.rf.ch = c.ch) → t.rf.mode = .synth ∧ t.rf.phase = .calibrating c.ch ∧ t.rf.cur = some c) ∧
            (c.op = 2 → s.rf.locked = true → s.rf.ch = c.ch → t.rf.mode = .synth ∧ t.rf.phase = .idle ∧ t.rf.locked = true ∧ t.rf.last = 0x00) ∧
            (air → s.rf.locked = true → s.rf.ch = c.ch → t.rf.rfsel = c.aerial ∧ t.rf.cur = some { c with pwr := min c.pwr (regField s 3 .pwrMax 0 0 6) } ∧
              t.rf.phase = if coexMode t = true ∧ s.rf.gnt = false then .waitGrant else .moving (if c.op = 4 then .rx else .tx))))) ∧
      (∀ i m, (i, m) ∈ [(Instr.rfCmdOff ini, RfMode.off), (.rfCmdStandby ini, .standby), (.rfCmdWake ini, .wake)] →
        (rfEnabled s = false → ∃ q, exec i s = .next (setResp ini [] 0x02 { s with perf := q })) ∧
        (rfEnabled s = true → ∃ t, exec i s = .next t ∧ rest { t with psr := s.psr } ∧ t.rf.mode = m ∧ t.rf.held = none ∧ t.rf.req = false ∧
          t.rf.locked = false ∧ t.rf.rfsel = (if m = .standby then s.rf.rfsel else 0) ∧
          t.rf.phase = (if s.rf.mode = m then .idle else .moving m) ∧
          (s.psr.busy = true → t.psr = { s.psr with busy := false, last := 0x63, owed := true })))) ∧
    (Accepts s ini 3 .rfCtrl → ∃ t, exec (.rfDisable ini) s = .next t ∧ t.cfg = (putReg s 3 .rfCtrl 0 0).cfg ∧ t.rf.mode = .off ∧
      t.rf.held = none ∧ t.rf.req = false ∧ rest { t with psr := s.psr, cfg := s.cfg }) ∧
    (∀ mask : BitVec 4, Accepts s ini 3 .antClrR → ∃ a q, exec (.antClr ini mask) s =
      .next (setResp ini [] 0x00 { s with perf := q, rf := { s.rf with ants := a } }) ∧
      ∀ k, k < 4 → vget ⟨3, 0⟩ a k = if bitOf mask.toNat k = true then ⟨3, 0⟩ else vget ⟨3, 0⟩ s.rf.ants k)

/-- RF_TRANSITION_DONE, SYNTH_LOCK, SYNTH_LOCK_TIMEOUT, TX_PACKET_END, RX_PACKET, RX_WINDOW_CLOSE, REFLECTION_MEASURE and
TEST_CARRIER_END (R158 to R173, R182, R183). -/
def Obligations.RadioEvents : Prop :=
  ∀ s : State, canAct s 3 = true →
    let r := s.rf
    let ret : Nat → State → Prop := fun code t => t.rf.phase = .moving (match code with | 0 => .standby | 1 => .synth | 2 => .rx | _ => .wake) ∧
      (code = 2 ∨ t.rf.req = false)
    let frame : State → Prop := fun t => { t with rf := s.rf, perf := s.perf, sent := s.sent } = s
    (r.held = none →
      (∀ m, r.phase = .moving m → r.cur = none → exec .rfTransitionDone s = .next (modRf (fun r => { r with
        mode := m, phase := .idle, locked := r.locked && (m == .synth || m == .tx || m == .rx) }) s)) ∧
      (∀ m c, r.phase = .moving m → r.cur = some c → ∃ t, exec .rfTransitionDone s = .next t ∧ frame t ∧ t.rf.mode = m ∧
        (c.op = 0 ∨ c.op = 1 ∨ c.op = 5 → t.rf.phase = .idle ∧ t.rf.cur = none ∧ t.rf.last = 0x00 ∧ t.sent = s.sent) ∧
        (¬ (c.op = 0 ∨ c.op = 1 ∨ c.op = 5) → m = .tx ∨ m = .rx → t.rf.phase = .active ∧
          t.sent = if m = .tx ∧ c.op = 3 then s.sent ++ [.packet c.ch c.aerial r.air] else s.sent)) ∧
      (∀ k c, r.phase = .calibrating k → r.cur = some c →
        (c.op = 2 → ∃ t, exec .synthLock s = .next t ∧ frame t ∧ t.rf.mode = .synth ∧ t.rf.phase = .idle ∧ t.rf.locked = true ∧ t.rf.last = 0x00) ∧
        (c.op = 3 ∨ c.op = 4 ∨ c.op = 6 → ∃ t, exec .synthLock s = .next t ∧ frame { t with latched := s.latched } ∧ t.rf.locked = true ∧
          t.rf.rfsel = c.aerial ∧ t.rf.req = true ∧
          t.rf.phase = if coexMode t = true ∧ r.gnt = false then .waitGrant else .moving (if c.op = 4 then .rx else .tx)) ∧
        (c.op = 7 → ∃ t, exec .synthLock s = .next t ∧ frame t ∧ (k, s.therm.tj) ∈ t.rf.cal ∧
          (k < 81 → t.rf.phase = .calibrating (k + 1) ∧ t.rf.cur = some { c with ch := k + 1 }) ∧
          (81 ≤ k → t.rf.mode = .standby ∧ t.rf.phase = .idle ∧ t.rf.last = 0x00 ∧ t.rf.cur = none))) ∧
      (∀ c, onAir s = true → r.cur = some c →
        (c.op = 3 → ∃ t, exec .txPacketEnd s = .next t ∧ frame t ∧ t.rf.last = r.earned ∧ bitOf t.rf.event 0 = true ∧
          ret (liveField s 3 .autoReturn 0 0 2) t) ∧
        (c.op = 6 → ∃ t, exec .testCarrierEnd s = .next t ∧ frame t ∧ t.rf.mode = .synth ∧ t.rf.phase = .idle ∧ t.rf.last = r.earned ∧
          t.rf.req = false)) ∧
      (r.mode = .rx → r.phase = .active → r.listen = none →
        (∃ t, exec .rxWindowClose s = .next t ∧ frame t ∧ t.rf.last = 0x61 ∧ ret (liveField s 3 .autoReturn 0 2 2) t) ∧
        (∀ (len : Byte) (payload : List Byte) (crc : BitVec 24) (rssi : Byte) (time : Nat),
          let p := padTo len.toNat payload
          let st : Status := if len = 0 ∨ 128 < len.toNat then 0x67 else if crc24 (len :: p) ≠ crc.toNat then 0x62
            else if (leAt p 0 1 ∈ [0x43, 0x48, 0x51, 0x52, 0x54, 0x55, 0x56, 0x57]) then 0x00 else 0x68
          ∃ t, exec (.rxPacket len payload crc rssi time) s = .next t ∧ frame { t with mem := s.mem, store := s.store } ∧
            t.rf.rxLen = len.toNat ∧ t.rf.rxRssi = rssi.toNat ∧ t.rf.rxStatus = st ∧ t.rf.rxTime = time % 2 ^ 64 ∧ t.rf.rxAerial = r.rfsel ∧
            t.rf.last = st ∧ ret (liveField s 3 .autoReturn 0 2 2) t ∧
            t.mem = if st = 0x00 then Memory.writeBytes s.mem (rfSram + liveField s 3 .rxPtr 0 2 13 * 4) (len :: p) else s.mem))) ∧
    (∀ k, r.phase = .calibrating k → ∃ t, exec .synthLockTimeout s = .next t ∧ frame { t with psr := s.psr } ∧ t.rf.mode = .standby ∧
      t.rf.phase = .moving .standby ∧ t.rf.cur = none ∧ t.rf.held = none ∧ t.rf.last = 0x0B ∧ t.rf.cal = r.cal.filter (fun e => e.1 != k) ∧
      bitOf t.rf.event 3 = true ∧ (s.psr.busy = true → t.psr = { s.psr with busy := false, last := 0x0B, owed := true })) ∧
    (∀ (mag : BitVec 6) (short : Bool), onAir s = true → r.rfsel < 4 →
      let a := vget ⟨3, 0⟩ r.ants r.rfsel
      let bad := regField s 3 .reflThr 0 0 6 < mag.toNat ∨ 51 ≤ mag.toNat
      ∃ t, exec (.reflectionMeasure mag short) s = .next t ∧ t.rf.reflMag = mag.toNat ∧ t.rf.reflShort = short ∧ t.rf.reflAerial = r.rfsel ∧
        t.rf.reflValid = true ∧ (bad → t.rf.earned = 0x64) ∧ (¬ bad → t.rf.earned = r.earned) ∧
        vget ⟨3, 0⟩ t.rf.ants r.rfsel = (if a.state = 2 then a else if bad then (if 2 ≤ a.strikes then ⟨2, 3⟩ else ⟨1, a.strikes + 1⟩) else ⟨0, 0⟩) ∧
        (a.state = 2 ∨ ¬ (bad ∧ 2 ≤ a.strikes) → { t with rf := r } = s))

/-- COEX_GRANT, COEX_WITHDRAW, COEX_GRANT_TIMEOUT, COEX_WAIT_TIMEOUT, COEX_WINDOW_EDGE, WAKE_PACKET, PSR_START, PSR_ABORT,
PSR_LEG and PSR_EXCHANGE_END (R175 to R180, R194 to R198, R207). -/
def Obligations.CoexistenceWakeAndRanging : Prop :=
  ∀ s : State,
    let r := s.rf
    let w := inCoexWindow s
    let lost : Status → Bool → State → Prop := fun outside pre t =>
      t.rf.mode = .synth ∧ t.rf.phase = .idle ∧ t.rf.cur = none ∧ t.rf.req = false ∧ bitOf t.rf.event 0 = true ∧
      t.rf.last = (if w then 0x0C else outside) ∧ t.rf.denied = (if w then satTo 0xFFFF (r.denied + 1) else r.denied) ∧
      t.rf.preempted = (if w = false ∧ pre = true then satTo 0xFFFF (r.preempted + 1) else r.preempted) ∧
      (w = true ∨ pre = true → bitOf t.rf.event 4 = true) ∧ { t with rf := r, psr := s.psr } = s ∧
      (s.psr.busy = true ∧ w = true → t.psr = { s.psr with busy := false, last := 0x0C, owed := true })
    (exec .coexGrant s = .next { s with rf := { r with
      gnt := true
      phase := match r.phase, r.cur with
        | .waitGrant, some c => if canAct s 3 = true then .moving (if c.op = 4 then .rx else .tx) else .waitGrant
        | ph, _ => ph } }) ∧
    (canAct s 3 = false ∨ coexMode s = false ∨ r.req = false ∨ r.cur = none ∨ (r.mode ≠ .tx ∧ r.mode ≠ .rx) →
      exec .coexWithdraw s = .next { s with rf := { r with gnt := false } }) ∧
    (canAct s 3 = true → r.held = none →
      (coexMode s = true → r.req = true → r.cur ≠ none → r.mode = .tx ∨ r.mode = .rx →
        ∃ t, exec .coexWithdraw s = .next t ∧ lost 0x65 true t ∧ t.rf.gnt = false) ∧
      (r.phase = .waitGrant → (w = true → ∃ t, exec .coexGrantTimeout s = .next t ∧ lost 0x0C false t) ∧
        (w = false → ∃ t, exec .coexWaitTimeout s = .next t ∧ lost 0x66 false t))) ∧
    (canAct s 3 = true → coexMode s = true → exec .coexWindowEdge s = .next { s with rf := { r with pri := w } }) ∧
    (∀ (site : BitVec 24) (typ crc : Byte),
      (wurxListens s = false → exec (.wakePacket site typ crc) s = .next s) ∧
      (wurxListens s = true →
        let good := wakeCrc site.toNat typ.toNat = crc.toNat
        let ok := good ∧ typ = 0x48 ∧ (bitOf (regValue s 0 .wurxCfg 0) 8 = true ∨ site.toNat = regField s 0 .wurxSite 0 0 24)
        (¬ ok → exec (.wakePacket site typ crc) s = .next { s with rf := { r with
          wurxBad := satTo 0xFFFF (r.wurxBad + 1)
          wurxSite := if good then site.toNat else r.wurxSite
          wurxTyp := if good then typ.toNat else r.wurxTyp } }) ∧
        (ok → ∃ t, exec (.wakePacket site typ crc) s = .next t ∧ { t.rf with
          wurxHello := r.wurxHello, wurxSite := r.wurxSite, wurxTyp := r.wurxTyp } = r ∧
          t.rf.wurxHello = satTo 0xFFFF (r.wurxHello + 1) ∧ t.rf.wurxSite = site.toNat ∧ t.rf.wurxTyp = 0x48))) ∧
    (∀ (ini : Island) (word : Word), Accepts s ini 3 .psrCtrl → r.held = none →
      let sto := putReg s 3 .psrCtrl 0 (word.toNat &&& (rowFor 3 .psrCtrl).rw)
      (bitOf word.toNat 1 = false → s.psr.busy = false → ∃ l q, exec (.psrStart ini word) s = .next (setResp ini [] 0x00 { sto with
        perf := q
        latched := l
        psr := ⟨true, 0, s.psr.last, false, s.psr.bay, s.psr.tag, Vector.replicate 4 0, Vector.replicate 4 0, Vector.replicate 4 0, 0, 0,
          none, none⟩ })) ∧
      (s.psr.busy = true → ∀ i ∈ [Instr.psrAbort ini word, .psrStart ini (word ||| 2)], ∃ t, exec i s = .next t ∧
        t.psr = { s.psr with busy := false, last := 0x63, owed := true } ∧ t.rf = r)) ∧
    (canAct s 3 = true → s.psr.busy = true →
      (∀ leg : Fin 9, leg.val = s.psr.leg ∨ leg.val = s.psr.leg + 1 →
        exec (.psrLeg leg) s = .next { s with psr := { s.psr with leg := leg } }) ∧
      (r.held = none → ∀ (st : Status) (m : PsrMeasure), ∃ p, exec (.psrExchangeEnd st m) s = .next { s with psr := p } ∧
        p.busy = false ∧ p.last = st ∧ p.owed = true ∧ p.t4mt1 = m.t4mt1 ∧ p.t4 = m.t4Device ∧ p.pong = m.pong ∧ p.result = m.result ∧
        ∀ a, a < 4 → ∀ g, m.ranges[a]? = some g → bitOf (liveField s 3 .psrCtrl 0 4 4) a = true →
          vget 0 p.s a = g.s ∧ vget 0 p.q a = g.q ∧ vget 0 p.snr a = g.snr))

/-- CIPHER_START, CIPHER_SUSPEND_AND_START, CIPHER_RESUME, CIPHER_ABORT, SLOT_CLEAR, CAISSON_SEAL and CAISSON_UNSEAL (R217 to
R240). -/
def Obligations.CipherCommands : Prop :=
  ∀ (ini : Island) (ctx : Fin 2) (desc : BitVec 12) (s : State),
    let x := getCtx s ctx
    let d := readDesc s desc.toNat
    let k := getSlot s d.slot
    let busy := (getCtx s 0).st = .active ∨ (getCtx s 1).st = .active
    let named := d.op ≠ 0x0A ∧ d.op ≠ 0x0B
    let locked : Status → Status := fun st => if s.cipher.lock ≠ some .keys then 0x12 else st
    let descSt : Status := if descOk s d = false then 0x84
      else if named ∧ (96 ≤ d.slot ∨ k.st = .empty) then 0x82
      else if policyAllows s d = false then 0x80
      else if (d.op = 0x07 ∧ slotInUse s d.dest = true) ∨ (d.op = 0x0A ∧ slotInUse s (bitsOf (blobPolicy s d) 16 7) = true) then 0x83
      else if (d.op = 0x01 ∨ d.op = 0x03) ∧ k.st = .spent then 0x08
      else if (d.op = 0x01 ∨ d.op = 0x03) ∧ bitOf k.policy 11 = true ∧ k.ready = false then 0x10
      else if d.op = 0x02 ∧ 4096 < d.dataLen ∧ longCaisson s d = none then 0x85 else 0x00
    (Accepts s ini 2 .cipherCmd →
      (∀ i st, (i, st) ∈ [(Instr.cipherStart ini ctx desc, if x.st ≠ .free ∨ busy then 0x86 else locked descSt),
          (.cipherSuspendAndStart ini ctx desc, if x.st ≠ .free ∨ ¬ busy ∨ s.cipher.pendingStart ≠ none then 0x86 else locked descSt),
          (.cipherResume ini ctx, if x.st ≠ .suspended ∨ x.owner ≠ .keys ∨ busy then 0x86 else locked 0x00),
          (.cipherAbort ini ctx, if x.st = .free ∨ x.owner ≠ .keys then 0x86 else locked 0x00)] →
        (st ≠ 0x00 → ∃ q, exec i s = .next (setResp ini [] st { modCtx ctx (fun x => { x with status := st }) s with perf := q }))) ∧
      (x.st = .free → ¬ busy → s.cipher.lock = some .keys → descSt = 0x00 → ∃ t, exec (.cipherStart ini ctx desc) s = .next t ∧
        answerOf t ini = ⟨[], 0x00⟩ ∧ { t with via := s.via, cipher := s.cipher, rng := s.rng, store := s.store, latched := s.latched, perf := s.perf } = s ∧
        let y := getCtx t ctx
        let counts := (d.op = 0x01 ∨ d.op = 0x03) ∧ (bitOf k.policy 10 = true ∨ k.st = .derived)
        let short := bitOf k.policy 11 = true ∧ k.hwm ≤ k.ctr
        y.st = .active ∧ y.owner = .keys ∧ y.desc.op = d.op ∧ y.desc.slot = d.slot ∧ y.caisson = longCaisson s d ∧
        (∀ n, n ≠ ctx.val → getCtx t n = getCtx s n) ∧ (∀ n, n ≠ d.slot → getSlot t n = getSlot s n) ∧
        (∀ m, longCaisson s d = some m → (getCaisson t m).busy = true) ∧
        (¬ counts → y.value = none ∧ t.cipher.slots = s.cipher.slots) ∧
        (counts → short → y.value = none ∧ (y.waits = true ∨ y.fail = 0x10) ∧ (getSlot t d.slot).ctr = k.ctr) ∧
        (counts → ¬ short → y.value = some k.ctr ∧ (getSlot t d.slot).ctr = k.ctr + 1 ∧
          (getSlot t d.slot).st = if k.ctr + 1 = (if k.st = .derived then k.limit else 0xFFFFFFFFFFFFFFFF) then .spent else k.st)) ∧
      (x.st = .free → busy → s.cipher.pendingStart = none → s.cipher.lock = some .keys → descSt = 0x00 →
        ∃ q, exec (.cipherSuspendAndStart ini ctx desc) s = .next (setResp ini [] 0x00
          { s with perf := q, cipher := { s.cipher with pendingStart := some (ctx.val, d) } })) ∧
      (x.st = .suspended → x.owner = .keys → ¬ busy → s.cipher.lock = some .keys → ∃ q, exec (.cipherResume ini ctx) s =
        .next (setResp ini [] 0x00 { modCtx ctx (fun x => { x with st := .active, switches := x.switches + 1 }) s with perf := q })) ∧
      (x.st = .active → x.owner = .keys → s.cipher.lock = some .keys → ∃ q, exec (.cipherAbort ini ctx) s =
        .next (setResp ini [] 0x00 { modCtx ctx (fun x => { x with abort := true }) s with perf := q })) ∧
      (x.st = .suspended → x.owner = .keys → s.cipher.lock = some .keys → ∃ t, exec (.cipherAbort ini ctx) s = .next t ∧
        answerOf t ini = ⟨[], 0x00⟩ ∧ (getCtx t ctx).st = .free ∧ (getCtx t ctx).status = 0x87 ∧ (getCtx t ctx).done = true ∧
        bitOf t.cipher.event ctx = true)) ∧
    (∀ slot : BitVec 7, Accepts s ini 2 .slotCtrl →
      (96 ≤ slot.toNat → ∃ q, exec (.slotClear ini slot) s = .next (setResp ini [] 0x00 { s with perf := q })) ∧
      (slot.toNat < 96 → slotInUse s slot.toNat = true → ∃ q, exec (.slotClear ini slot) s = .next (setResp ini [] 0x83 { s with perf := q })) ∧
      (slot.toNat < 96 → slotInUse s slot.toNat = false → ∃ q, exec (.slotClear ini slot) s = .next (setResp ini [] 0x00
        { modSlot slot.toNat (fun k => { k with st := .empty, key := [], policy := 0, keyId := 0, limit := 0, ctr := if bitOf k.policy 11 then k.ctr else 0 }) s with
          perf := q }))) ∧
    (∀ m : Fin 4, Accepts s ini 2 .caissonCtrl →
      (∃ q, exec (.caissonSeal ini m) s = .next (setResp ini [] 0x00 { setCaisson m { getCaisson s m with isSealed := true } s with perf := q })) ∧
      ((getCaisson s m).busy = true ∨ (getCaisson s m).zeroing = true → ∃ q, exec (.caissonUnseal ini m) s =
        .next (setResp ini [] 0x88 { s with perf := q })) ∧
      ((getCaisson s m).busy = false → (getCaisson s m).zeroing = false → ∃ q, exec (.caissonUnseal ini m) s =
        .next (setResp ini [] 0x00 { setCaisson m { getCaisson s m with isSealed := false, written := 0 } s with perf := q })))

/-- LOCK_ACQUIRE, LOCK_RELEASE, STORE_LOCK_REQUEST, LOCK_GRANT, HOLD_EXPIRED, CIPHER_BLOCK_BOUNDARY, CIPHER_MESSAGE_END and
CAISSON_ZEROING_DONE (R212, R228 to R233, R238). -/
def Obligations.CipherLockAndProgress : Prop :=
  ∀ (ini : Island) (s : State),
    let e := s.cipher
    let room := (getCtx s 0).st = .free ∨ (getCtx s 1).st = .free
    let kept : State → Prop := fun t => { t with via := s.via, cipher := s.cipher, latched := s.latched, perf := s.perf } = s
    let granted : Owner → State → Prop := fun o t => kept t ∧ t.cipher = { e with
      lock := some o, lastServed := o, expiring := false
      waitKeys := t.cipher.waitKeys, waitStore := t.cipher.waitStore }
    (Accepts s ini 2 .cipherLock →
      (e.lock ≠ none → ∃ q, exec (.lockAcquire ini) s = .next (setResp ini [] 0x12 { s with perf := q, cipher := { e with waitKeys := true } })) ∧
      (e.lock = none → e.waitStore = false → room → ∃ t, exec (.lockAcquire ini) s = .next t ∧ answerOf t ini = ⟨[], 0x00⟩ ∧
        granted .keys t ∧ t.cipher.waitKeys = false) ∧
      (ini.val ≠ 4 →
        (e.lock ≠ some .keys → ∃ q, exec (.lockRelease ini) s = .next (setResp ini [] 0x00 { s with perf := q })) ∧
        (e.lock = some .keys → (∃ c, activeCtx s = some c ∧ (getCtx s c).owner = .keys) →
          ∃ q, exec (.lockRelease ini) s = .next (setResp ini [] 0x86 { s with perf := q })) ∧
        (e.lock = some .keys → (∀ c, activeCtx s = some c → (getCtx s c).owner ≠ .keys) →
          ∃ q, exec (.lockRelease ini) s = .next (setResp ini [] 0x00 { s with perf := q, cipher := { e with lock := none, expiring := false } })))) ∧
    (canAct s 2 = true →
      (canAct s 4 = true →
        (e.lock ≠ none → exec .storeLockRequest s = .next { s with cipher := { e with waitStore := true } }) ∧
        (e.lock = none → e.waitKeys = false → room → ∃ t, exec .storeLockRequest s = .next t ∧ granted .store t ∧ t.cipher.waitStore = false) ∧
        (ini.val = 4 → e.lock = some .store → activeCtx s = none →
          exec (.lockRelease ini) s = .next { s with cipher := { e with lock := none, expiring := false } })) ∧
      (e.lock = none → room →
        (e.waitKeys = true → e.waitStore = true → ∃ t, exec .lockGrant s = .next t ∧
          granted (if e.lastServed = .keys then .store else .keys) t ∧
          t.cipher.waitKeys = decide (e.lastServed = .keys) ∧ t.cipher.waitStore = decide (e.lastServed ≠ .keys)) ∧
        (e.waitKeys = true → e.waitStore = false → ∃ t, exec .lockGrant s = .next t ∧ granted .keys t ∧ t.cipher.waitKeys = false) ∧
        (e.waitKeys = false → e.waitStore = true → ∃ t, exec .lockGrant s = .next t ∧ granted .store t ∧ t.cipher.waitStore = false)) ∧
      (e.lock ≠ none →
        (activeCtx s = none → ∃ t, exec .holdExpired s = .next t ∧ kept t ∧ t.cipher.lock = none ∧ t.cipher.pendingStart = none ∧
          bitOf t.cipher.event 2 = true ∧ ∀ c d, e.pendingStart = some (c, d) → c < 2 → (getCtx t c).status = 0x13) ∧
        (activeCtx s ≠ none → exec .holdExpired s = .next { s with cipher := { e with expiring := true } })) ∧
      (∀ c, activeCtx s = some c →
        let x := getCtx s c
        let ended : State → Status → Prop := fun t st => (getCtx t c).st = .free ∧ (getCtx t c).status = st ∧ (getCtx t c).done = true ∧
          bitOf t.cipher.event c = true ∧ ∀ n, n ≠ c → getCtx t n = getCtx s n
        (∀ access : Status,
          let fail : Status := if x.abort = true then 0x87 else if x.fail ≠ 0x00 then x.fail else access
          (fail ≠ 0x00 → e.expiring = false → e.pendingStart = none → ∃ t, exec (.cipherBlockBoundary access) s = .next t ∧ ended t fail ∧ t.mem = s.mem) ∧
          (fail = 0x00 → e.expiring = false → e.pendingStart = none → ∃ q, exec (.cipherBlockBoundary access) s = .next { s with perf := q }) ∧
          (fail = 0x00 → e.expiring = true → ∃ t, exec (.cipherBlockBoundary access) s = .next t ∧ (getCtx t c).st = .suspended ∧
            (getCtx t c).status = 0x13 ∧ t.cipher.lock = none ∧ bitOf t.cipher.event 2 = true ∧ t.mem = s.mem) ∧
          (fail = 0x00 → e.expiring = false → ∀ n d, e.pendingStart = some (n, d) → n < 2 → n ≠ c → ∃ t, exec (.cipherBlockBoundary access) s = .next t ∧
            (getCtx t c).st = .suspended ∧ (getCtx t c).switches = x.switches + 1 ∧ (getCtx t n).st = .active ∧ t.cipher.pendingStart = none ∧ t.mem = s.mem)) ∧
        (x.waits = false → x.caisson = none → x.desc.op ≠ 0x0B → x.abort = false → x.fail = 0x00 → x.value = none → e.expiring = false →
          e.pendingStart = none →
          let en := opEnd s x
          (en.status ≠ 0x00 → ∃ t, exec .cipherMessageEnd s = .next t ∧ ended t en.status ∧ t.mem = s.mem ∧ t.cipher.slots = e.slots) ∧
          (en.status = 0x00 → ∃ t, exec .cipherMessageEnd s = .next t ∧ ended t (engineWrites en.writes s).1 ∧ t.mem = (engineWrites en.writes s).2.mem ∧
            ((engineWrites en.writes s).1 = 0x00 → ∀ i k, en.slot = some (i, k) → i < 96 → getSlot t i = k)) ∧
          (x.desc.op = 0x01 → bitOf (getSlot s x.desc.slot).policy 10 = false → ∀ iv aad inp, engineRead s x.desc.ivPtr 12 = (iv, 0x00) →
            engineRead s x.desc.aadPtr x.desc.aadLen = (aad, 0x00) → engineRead s x.desc.inPtr x.desc.dataLen = (inp, 0x00) →
            let ct := gcmCrypt (getSlot s x.desc.slot).key iv inp
            let w := engineWrites [(x.desc.outPtr, ct), (x.desc.tagPtr, gcmTag (getSlot s x.desc.slot).key iv aad ct)] s
            ∃ t, exec .cipherMessageEnd s = .next t ∧ ended t w.1 ∧ t.mem = w.2.mem)))) ∧
    (∀ k : Fin 4, canAct s 1 = true → (getCaisson s k).zeroing = true →
      let base := deckSram + (caissonSpan s k).1
      ((getCaisson s k).report = none → exec (.caissonZeroingDone k) s = .next { setCaisson k ⟨false, false, false, 0, none⟩ s with
        mem := Memory.clear base (base + (getCaisson s k).written) s.mem }) ∧
      (∀ c st, (getCaisson s k).report = some (c, st) → c < 2 → e.expiring = false → e.pendingStart = none →
        ∃ t, exec (.caissonZeroingDone k) s = .next t ∧ t.mem = Memory.clear base (base + (getCaisson s k).written) s.mem ∧
        getCaisson t k = ⟨false, false, false, 0, none⟩ ∧ (getCtx t c).st = .free ∧ (getCtx t c).status = st ∧ (getCtx t c).done = true))

/-- RNG_ENABLE, RNG_DISABLE, RNG_RESEED_CMD, RNG_RESTART, RNG_WARMUP_END, RNG_STARTUP_TEST_END, RNG_INSTANTIATE,
RNG_HEALTH_FAIL, RNG_RESEED_DONE, RNG_PRIVATE_REQUEST, RNG_GENERATE and RNG_DATA_READ (R241 to R251, R264). -/
def Obligations.RandomNumbers : Prop :=
  ∀ (ini : Island) (s : State),
    let r := s.rng
    let unseeded : RngState := { r with
      running := true, st := .unseeded, phase := .warmup, fails := 0, drbg := none, served := 0, reseed := false, fifo := [] }
    let enable : Nat → State := fun b => putReg s 2 .rngCtrl 0 (setField (regValue s 2 .rngCtrl 0) 0 1 b)
    let told : RngState → Status → Prop := fun x st => ∀ w, w < 3 → vget none x.waits w = none ∧
      vget none x.ends w = if vget none r.waits w ≠ none then some ⟨st, []⟩ else vget none r.ends w
    (Accepts s ini 2 .rngCtrl →
      (∃ q, exec (.rngEnable ini) s = .next (setResp ini [] 0x00 { enable 1 with perf := q, rng := if r.running then r else unseeded })) ∧
      (∃ q x, exec (.rngDisable ini) s = .next (setResp ini [] 0x00 { enable 0 with perf := q, rng := x }) ∧ x.running = false ∧
        x.st = .unseeded ∧ x.drbg = none ∧ x.fifo = [] ∧ told x 0x0A) ∧
      (∃ q, exec (.rngReseedCmd ini) s = .next (setResp ini [] 0x00 { s with
        perf := q
        rng := if r.st = .ready then { r with reseed := true, phase := .collect } else r })) ∧
      (∃ q, exec (.rngRestart ini) s = .next (setResp ini [] 0x00 { s with
        perf := q
        rng := if r.st = .halted then unseeded else r }))) ∧
    (canAct s 2 = true → r.running = true → r.st ≠ .halted →
      (r.phase = .warmup → exec .rngWarmupEnd s = .next { s with rng := { r with phase := .startup } }) ∧
      (r.phase = .startup → exec .rngStartupTestEnd s = .next { s with rng := { r with phase := .collect } }) ∧
      (∀ seed : BitVec 384, r.phase = .collect → r.st ≠ .ready → ∃ t, exec (.rngInstantiate seed) s = .next t ∧
        { t with rng := r, latched := s.latched } = s ∧ t.rng = { r with
          st := .ready, phase := .steady, fails := 0, served := 0, reseed := false, event := r.event ||| 1
          drbg := some (DrbgSt.of (drbgInstantiate (beBytes 48 seed.toNat ++ leBytes 8 (localTime s 2) ++ serialBytes.take 8) (rngPersonal t))) }) ∧
      (∀ apt : Bool, r.phase ≠ .warmup → ∃ x, exec (.rngHealthFail apt) s = .next { s with rng := x } ∧
        let n := if r.st = .ready then r.fails else r.fails + 1
        x.drbg = none ∧ x.fifo = [] ∧ x.reseed = false ∧ x.st = (if 3 ≤ n then .halted else .recovering) ∧ x.phase = .warmup ∧ x.fails = n ∧
        x.failures = satTo 0xFFFF (r.failures + 1) ∧ told x 0x09 ∧ bitOf x.event 1 = true ∧ bitOf x.event 4 = apt ∧ bitOf x.event 3 = !apt ∧
        (3 ≤ n → bitOf x.event 2 = true)) ∧
      (∀ (seed : BitVec 384) d, r.st = .ready → r.drbg = some d → r.reseed = true → ∃ l, exec (.rngReseedDone seed) s =
        .next { s with latched := l, rng := { r with
          drbg := some (DrbgSt.of (drbgReseed d.toDrbg (beBytes 48 seed.toNat))), served := 0, reseed := false, phase := .steady
          reseeds := satTo 0xFFFF (r.reseeds + 1) } }) ∧
      (∀ d, r.st = .ready → r.drbg = some d → r.reseed = false →
        (rngInterval s ≤ r.served → exec .rngGenerate s = .next { s with rng := { r with reseed := true, phase := .collect } }) ∧
        (∀ w n, r.served < rngInterval s → w < 3 → vget none r.waits w = some n → (∀ v, v < w → vget none r.waits v = none) →
          let g := drbgGenerate d.toDrbg n
          exec .rngGenerate s = .next { s with rng := { r with
            drbg := some (DrbgSt.of g.2), served := r.served + 1, waits := vset r.waits w none, ends := vset r.ends w (some ⟨0x00, g.1⟩) } }) ∧
        (r.served = 0 → 0 < rngInterval s → (∀ v, v < 3 → vget none r.waits v = none) → r.fifo.length ≤ 8 →
          let room := 16 - r.fifo.length
          let g := drbgGenerate d.toDrbg (4 * room)
          ∃ l, exec .rngGenerate s = .next { s with latched := l, rng := { r with
            drbg := some (DrbgSt.of g.2), served := 1, fifo := r.fifo ++ wordsOf g.1 room } }))) ∧
    (canAct s 2 = true → ∀ (w : Fin 3) (n : Nat),
      (vget none r.waits w ≠ none → exec (.rngPrivateRequest w n) s = .next s) ∧
      (vget none r.waits w = none →
        (∀ st : Status, st = (if r.running = false then 0x0A else if r.st = .recovering then 0x09 else if r.st = .halted then 0x91 else 0x00) →
          st ≠ 0x00 → exec (.rngPrivateRequest w n) s = .next { s with rng := { r with ends := vset r.ends w (some ⟨st, []⟩) } }) ∧
        (r.running = true → r.st = .ready ∨ r.st = .unseeded → ∃ t, exec (.rngPrivateRequest w n) s = .next t ∧
          { t with rng := r, latched := s.latched } = s ∧ vget none t.rng.waits w = some n ∧ vget none t.rng.ends w = none ∧
          (r.st = .ready → w.val = 2 → t.rng.reseed = true ∧ t.rng.phase = .collect)))) ∧
    (canReach s ini 2 = true → canAct s 2 = true →
      let st : Status := if r.running = false ∨ r.st = .unseeded then 0x0A else if r.st = .recovering then 0x09 else if r.st = .halted then 0x91
        else if r.fifo = [] then 0x90 else 0x00
      ∃ q, exec (.rngDataRead ini) s = .next (if st = 0x00 then setResp ini [r.fifo.headD 0] st { s with perf := q, rng := { r with fifo := r.fifo.drop 1 } }
        else setResp ini [0] st { s with perf := q }))

/-- HASH256, HASH384, SIGN, VERIFY, ATTEST, GEN_ID, SIGNER_NONCE_DELIVERED and SIGN_COMMAND_END (R254 to R260). -/
def Obligations.SignerCommands : Prop :=
  ∀ (ini : Island) (key : BitVec 3) (desc : BitVec 12) (s : State),
    let p : Nat → Nat := fun k => leAt (memReadBytes s (keysSram + 32 * desc.toNat) 32) (4 * k) 4
    let agree : Nat → Prop := fun op => op ≤ 1 ∨ (op = 2 ∧ key = 0) ∨ (op = 3 ∧ key ∈ [2, 3, 7]) ∨ (op = 4 ∧ key = 1) ∨ (op = 5 ∧ key = 0)
    let empty : Nat → Prop := fun op => (op = 2 ∧ getKey s 0 = none) ∨ (op = 3 ∧ key ≠ 7 ∧ getKey s key.toNat = none) ∨ (op = 4 ∧ getKey s 1 = none)
    (Accepts s ini 2 .signCmd → ∀ i op, (i, op) ∈ [(Instr.hash256 ini key desc, 0), (.hash384 ini key desc, 1), (.sign ini key desc, 2),
        (.verify ini key desc, 3), (.attest ini key desc, 4), (.genId ini key desc, 5)] →
      (s.signer.job ≠ none → ∃ q, exec i s = .next (setResp ini [] 0x95 { s with perf := q })) ∧
      (s.signer.job = none → ∃ st : Status,
        (¬ agree op ∨ p 6 ≠ 0 ∨ p 7 ≠ 0 → st = 0x93) ∧
        (agree op → p 6 = 0 → p 7 = 0 →
          (op = 5 → s.boot.claiming = none → st = 0x97) ∧ (op = 5 → s.boot.claiming ≠ none → getKey s 0 ≠ none → st = 0x96) ∧
          (empty op → st = 0x92) ∧ (op ≠ 5 → ¬ empty op → st = 0x00) ∧ (op = 5 → s.boot.claiming ≠ none → getKey s 0 = none → st = 0x00)) ∧
        (st ≠ 0x00 → ∃ q, exec i s = .next (setResp ini [] st { s with perf := q, signer := { s.signer with status := st, done := true } })) ∧
        (st = 0x00 → ∃ t, exec i s = .next t ∧ answerOf t ini = ⟨[], 0x00⟩ ∧ { t with via := s.via, perf := s.perf, signer := s.signer, rng := s.rng, latched := s.latched } = s ∧
          t.signer = { s.signer with job := some ⟨op, key.toNat, desc.toNat, none, 0x00, .command⟩ } ∧
          (op = 0 ∨ op = 1 ∨ op = 3 → t.rng = s.rng) ∧
          (op = 2 ∨ op = 4 ∨ op = 5 → s.rng.running = true → s.rng.st = .ready ∨ s.rng.st = .unseeded → vget none s.rng.waits (signWire op) = none →
            vget none t.rng.waits (signWire op) = some (signSize s op))))) ∧
    (∀ j e, canAct s 2 = true → s.signer.job = some j → signNeeds s j = true → vget none s.rng.ends (signWire j.op) = some e →
      let taken := { s.rng with ends := vset s.rng.ends (signWire j.op) none }
      (e.status ≠ 0x00 → exec .signerNonceDelivered s = .next { s with rng := taken, signer := { s.signer with job := some { j with fail := e.status, nonce := some [] } } }) ∧
      (e.status = 0x00 → j.op ≠ 5 → exec .signerNonceDelivered s = .next { s with rng := taken, signer := { s.signer with job := some { j with nonce := some e.data } } }) ∧
      (e.status = 0x00 → j.op = 5 → j.nonce = none → e.data.length = signSize s 5 → ∃ t, exec .signerNonceDelivered s = .next t ∧
        { t with rng := s.rng, signer := s.signer, latched := s.latched } = s ∧
        t.signer.job = some (if candidateOk s e.data = true then { j with nonce := some e.data } else j))) ∧
    (∀ j : SignJob, canAct s 2 = true → Settled s → s.signer.job = some j → j.use = .command → j.desc = desc.toNat → signNeeds s j = false →
      (∀ x ∈ s.span.jobs, x.tag ≠ 18) →
      let ended : Status → List (Nat × List Byte) → State → Prop := fun st w t => let m := engineWrites w s
        exec .signCommandEnd s = .next t ∧ t.signer.job = none ∧ t.signer.done = true ∧ t.signer.status = (if st = 0x00 then m.1 else st) ∧
        t.mem = (if st = 0x00 then m.2.mem else s.mem)
      (j.fail ≠ 0x00 → ∃ t, ended j.fail [] t) ∧
      (j.fail = 0x00 →
        (j.op = 0 → ∀ d, engineRead s (p 0) (p 1) = (d, 0x00) → ∃ t, ended 0x00 [(p 2, sha256 d)] t) ∧
        (j.op = 1 → ∀ d, engineRead s (p 0) (p 1) = (d, 0x00) → ∃ t, ended 0x00 [(p 2, sha384 d)] t) ∧
        (j.op = 2 → ∀ k d, getKey s 0 = some k → engineRead s (p 2) k.curve.size = (d, 0x00) →
          ∃ t, ended 0x00 [(p 3, signWith k d (j.nonce.getD []))] t) ∧
        (j.op = 3 → j.key ≠ 7 → ∀ k h g, getKey s j.key = some k → onCurve k.curve k.x k.y = true → engineRead s (p 2) k.curve.size = (h, 0x00) →
          engineRead s (p 3) (2 * k.curve.size) = (g, 0x00) → ∃ t, ended (if verifyWith k h g then 0x00 else 0x06) [] t) ∧
        (j.op = 4 → ∀ k n, getKey s 1 = some k → engineRead s (p 0) 16 = (n, 0x00) →
          ∃ t, ended 0x00 [(p 5, attestation s n ++ signWith k (sha256 (attestation s n)) (j.nonce.getD []))] t) ∧
        (j.op = 5 → ∀ n, j.nonce = some n →
          let sz := signSize s 5
          let k := privateKey (sz == 48) (ofBe (n.take sz))
          let blob := signerBlob (sz == 48) (n.take sz) (n.drop sz)
          let m := engineWrites [(p 5, blob ++ pointBytes k)] s
          m.1 = 0x00 → ∃ t, exec .signCommandEnd s = .next t ∧ t.signer.job = none ∧ t.signer.status = 0x00 ∧ getKey t 0 = some k ∧
            t.mem = if s.boot.claiming = none then m.2.mem else Memory.writeBytes m.2.mem signerArea (padTo 128 blob))))

/-- LEDGER_WRITE_START, LEDGER_WRITE_DONE, RING_RECOVERY_DONE, JOURNAL_APPEND, JOURNAL_RECORD_DURABLE, ARCHIVE_MOVE and
JRN_ACK_WRITE (R274, R290 to R297). -/
def Obligations.LedgerAndJournal : Prop :=
  ∀ s : State,
    let x := s.store
    let runs := isRun s 4 = true ∧ s.freeze.frozen = false
    (runs → s.time.us % 1000 = 0 → x.taken = true → x.write = none → x.changes ≠ [] → ∃ q, exec .ledgerWriteStart s = .next { s with
      perf := q
      store := { x with
        changes := []
        write := some ⟨1 - x.bank, x.changes.foldl (fun l c => applyChange c l) { x.ledger with generation := x.ledger.generation + 1 }, x.changes, false⟩ } }) ∧
    (∀ w (a b : Bool), runs → Settled s → x.write = some w → ∃ t, exec (.ledgerWriteDone a b) s = .next t ∧ t.store.write = none ∧
      ((a || b) = true → t.store.bank = w.bank ∧ t.store.ledger = w.image ∧ t.store.fault = false ∧
        (MemoryCanonical s → ∀ k, k < ringSlot (x.head + 1) ∨ ringSlot (x.head + 1) + 128 ≤ k →
          Memory.read t.mem k = Memory.read (Memory.writeBytes s.mem (ledgerBase w.bank) w.image.bytes) k)) ∧
      ((a || b) = false → t.store.bank = x.bank ∧ t.store.ledger = x.ledger ∧ t.store.fault = true ∧ KeepsMemory s t.mem)) ∧
    (∀ bad : List Nat, runs → Settled s → x.ready = false → ∃ t, exec (.ringRecoveryDone bad) s = .next t ∧ t.store.ready = true ∧
      t.store.ledger = x.ledger ∧ x.ledger.tailSeq ≤ t.store.head ∧ t.store.head ≤ x.ledger.tailSeq + 4096 ∧
      (∀ n, x.ledger.tailSeq < n → n ≤ t.store.head → leAt (memReadBytes s (ringSlot n) 8) 0 8 = n) ∧
      (t.store.head < x.ledger.tailSeq + 4096 → leAt (memReadBytes s (ringSlot (t.store.head + 1)) 8) 0 8 ≠ t.store.head + 1) ∧
      (bad = [] → t.store.chain = chainOver s (x.ledger.tailSeq + 1) x.ledger.tailChain (t.store.head - x.ledger.tailSeq)) ∧
      (∀ n ∈ bad, x.ledger.tailSeq < n → n ≤ t.store.head → ∃ r ∈ t.store.queue, r.typ = 0x08 ∧ r.signed = true ∧
        r.body = [2] ++ List.replicate 7 0 ++ leBytes 8 n ++ leBytes 8 n ++ List.replicate 32 0)) ∧
    (∀ (typ flags : Byte) (siteBay : BitVec 16) (spanId : Word) (time : Nat) (body : List Byte), canAct s 1 = true →
      ∃ t, exec (.journalAppend typ flags siteBay spanId time body) s = .next t ∧ KeepsMemory s t.mem ∧
        { t with store := x, mem := s.mem, perf := s.perf } = s ∧ ∃ r ∈ t.store.queue, r.typ = typ.toNat ∧ r.signed = bitOf flags.toNat 0 ∧
          r.siteBay = siteBay.toNat ∧ r.spanId = spanId.toNat ∧ r.time = time % 2 ^ 64 ∧ r.body = body.take 104) ∧
    (∀ r rest, runs → Settled s → x.queue = r :: rest → x.opened = true → ∃ t, exec .journalRecordDurable s = .next t ∧
      let n := x.head + 1
      t.store.head = n ∧ t.store.chain = sha256 ((if r.typ = 0x01 then List.replicate 32 0 else x.chain) ++ r.bytes n) ∧
      t.store.sigOwed = (if r.signed = true then some r.after else none) ∧
      (MemoryCanonical s → leAt (memReadBytes t (ringSlot n) 8) 0 8 = n % 2 ^ 64)) ∧
    (runs → x.ready = true → x.flash = .ready → x.flashOp = none → x.archiving = false → x.ledger.arcSeq < x.head →
      x.ledger.tailSeq ≤ x.ledger.arcSeq → archiveWaits s = false →
      let first := x.ledger.arcSeq + 1
      exec .archiveMove s = .next { s with store := { x with
        archiving := true
        flashOp := some (.archive first (min (x.head + 1 - first) (32 - (first + 31) % 32))) } }) ∧
    (∀ (ini : Island) (hi : Word), Accepts s ini 4 .jrnAckHi →
      let n := SMap.get 0 (shadowKey ini (regAddr 4 .jrnAckLo 0)) s.wshadow + 2 ^ 32 * hi.toNat
      ∃ w q, exec (.jrnAckWrite ini hi) s = .next (if x.head < n then setResp ini [] 0xAB { s with perf := q, wshadow := w }
        else if n ≤ x.ledger.ackSeq then setResp ini [] 0x00 { s with perf := q, wshadow := w }
        else setResp ini [] 0x00 { s with perf := q, wshadow := w, store := { x with changes := x.changes ++ [.ack n] } }))

/-- LOOKUP, LOOKUP_ANSWER, CRED_ERASE_DONE, FLASH_OP_DONE, FLASH_TIMEOUT, IMG_OPEN, IMG_HASH and IMG_HASH_DONE (R277 to R288,
R296, R339). -/
def Obligations.LookupsFlashAndImages : Prop :=
  ∀ (ini : Island) (bay : Bay) (s : State),
    let x := s.store
    let runs := isRun s 4 = true ∧ s.freeze.frozen = false
    (∀ ident, runs → ∃ q, exec (.lookup ident) s = .next { s with
      perf := q
      store := { x with lookups := x.lookups ++ [⟨padTo 16 ident, x.ledger.credArea, x.ledger.credSeed, x.ledger.credValid⟩] } }) ∧
    (canAct s 1 = true → (getSpan s bay).state = 4 →
      (∀ l, runs → x.lookups.find? (fun l => l.ident == padTo 16 (getSpan s bay).ident) = some l →
        let r := lookupEntry s l
        let st : Status := if r.1 = 0x24 then 0x24 else if r.1 ≠ 0x00 then 0x10 else entryStatus s bay r.2
        ∃ t, exec (.lookupAnswer bay) s = .next t ∧ (st ≠ 0x00 → EndedAs bay 10 st s t) ∧
          (st = 0x00 → BayStep bay s t ∧ (getSpan t bay).state = 5 ∧ (getSpan t bay).account = sliceZ r.2 28 16 ∧
            (getSpan t bay).cls = leAt r.2 16 1 ∧ (getSpan t bay).authLeft = none)) ∧
      (isRun s 4 = false → x.lookups = [] → ∃ t, exec (.lookupAnswer bay) s = .next t ∧ EndedAs bay 10 0x10 s t)) ∧
    (runs → x.erasing = true →
      let a := flashBase + credBase (1 - x.ledger.credArea)
      exec .credEraseDone s = .next { s with store := { x with erasing := false }, mem := Memory.clear a (a + 0x1040000) s.mem }) ∧
    (∀ op, runs → x.flashOp = some op →
      (∀ ok : Bool, ∃ t, exec (.flashOpDone ok) s = .next t ∧ t.store.flashLast = (if ok = true then 0x00 else 0xA5) ∧ t.store.timeouts = 0 ∧
        t.store.flash = (if ok = false then .failed else if op = .format then .ready else x.flash) ∧
        (ok = false → t.mem = s.mem) ∧
        (∀ c body f u k, ok = true → op = .chunk c body f → x.update = some u → storeKey s = some k →
          let off := chunkOffset (1 - x.ledger.credArea) c
          t.mem = Memory.writeBytes s.mem (flashBase + off) (chunkCipher k off body) ∧
          (s.span.jobs = [] → t.store.update = some { u with written := u.written ||| 2 ^ c })) ∧
        (∀ first n, ok = true → op = .archive first n → LedgerChange.arc (first + n - 1) ∈ t.store.changes) ∧
        (ok = true → op = .format → t.mem = Memory.writeBytes s.mem flashBase ([0x51, 0x46, 0x48, 0x31] ++ serialBytes ++ leBytes 4 (archiveSlots s)) ∧
          t.store.changes = x.changes ++ [.credInvalid, .archiveEmpty x.ledger.tailSeq x.ledger.tailChain])) ∧
      (∃ t, exec .flashTimeout s = .next t ∧ t.mem = s.mem ∧ t.store.flashLast = 0xA4 ∧ t.store.timeouts = x.timeouts + 1 ∧
        t.store.flash = if 3 ≤ x.timeouts + 1 then .failed else x.flash)) ∧
    (Accepts s ini 4 .imgCtrl →
      (∃ q, exec (.imgOpen ini false) s = .next (setResp ini [] 0x00 { s with perf := q, store := { x with imgOpen := false } })) ∧
      (∃ q, exec (.imgOpen ini true) s = .next (if x.imgBusy = true then setResp ini [] 0x02 { s with perf := q }
        else setResp ini [] 0x00 { s with perf := q, store := { x with imgOpen := true, imgDone := false } })) ∧
      (∃ q, exec (.imgHash ini) s = .next (if x.imgOpen = true ∨ x.imgBusy = true then setResp ini [] 0x02 { s with perf := q }
        else if imageLengthOk s (inactiveBank s) = true then setResp ini [] 0x00 { s with perf := q, store := { x with imgBusy := true, imgDone := false } }
        else setResp ini [] 0x00 { s with perf := q, store := { x with imgDone := true, imgStatus := 0x02 } }))) ∧
    (∀ readable : Bool, canAct s 4 = true → x.imgBusy = true → (∀ j ∈ s.span.jobs, j.tag ≠ 16) → exec (.imgHashDone readable) s =
      .next { s with store := { x with
        imgBusy := false, imgDone := true, imgStatus := if readable then 0x00 else 0xA0
        imgDigest := if readable then imageDigest s (inactiveBank s) else x.imgDigest } })

/-- MSG_CHORD_ARM, MSG_TAGREAD, MSG_TAGWRITE, MSG_TUNE and MSG_STOP (R111 to R117, R131 to R150, R342). -/
def Obligations.MessagesToPiers : Prop :=
  ∀ (bay : Bay) (tag : Byte) (drive : Word) (id : Nat) (s : State),
    let p := bay.val / 8
    let k := bay.val % 8
    let rest : State → Prop := fun t => answerOf t 1 = ⟨[], 0x00⟩ ∧ (∀ n, n ≠ p → getPier t n = getPier s n) ∧
      { t with via := s.via, perf := s.perf, lf := s.lf, cfg := s.cfg, latched := s.latched } = s
    let begun : State → Nat → Prop := fun t mode => ∃ c, (getPier t p).burst = some { Burst.fresh k mode 0 none with start := s.time.us, clamped := c }
    (canReach s 1 (6 + p) = true → canAct s (6 + p) = true →
      (∀ kt op : Bool, (tagReadOk s bay kt op = false → exec (.msgTagread bay tag drive kt op) s = .next s) ∧
        (tagReadOk s bay kt op = true →
          let u := pierPrepare p drive.toNat s
          let st := lfStartStatus u p k 0
          let j := { TagJob.fresh bay tag.toNat .waitRc with openId := op }
          let j := if kt then j else if op then j.inventory else j.ended 0x50
          ∃ t, exec (.msgTagread bay tag drive kt op) s = .next t ∧ rest t ∧ t.cfg = u.cfg ∧
            (getPier t p).job = some (if st = 0x00 then j else j.ended st) ∧ (st = 0x00 → begun t 0) ∧
            (st ≠ 0x00 → (getPier t p).burst = (getPier s p).burst))) ∧
      (∀ uid : Nat,
        let u := pierPrepare p drive.toNat s
        let st := lfStartStatus u p k 0
        let check := (cautionFind s uid).isSome
        let j := { TagJob.fresh bay tag.toNat (.open_ check) with
          write := true, check := check, kind := 1, uid := uid, data := memReadBytes s (sramKey (6 + p) 0xFF00) 32 }
        ∃ t, exec (.msgTagwrite bay tag drive uid) s = .next t ∧ rest t ∧ t.cfg = u.cfg ∧
          (getPier t p).job = some (if st = 0x00 then j else j.ended st) ∧ (st = 0x00 → begun t 0) ∧
          (st ≠ 0x00 → (getPier t p).burst = (getPier s p).burst)) ∧
      (let u := if lfEnabled s p then s else putReg s (6 + p) .lfCtrl 0 1
       ∃ t, exec (.msgTune bay tag) s = .next t ∧ rest t ∧ t.cfg = u.cfg ∧ (lfStartStatus u p k 2 = 0x00 → begun t 2) ∧
         (lfStartStatus u p k 2 ≠ 0x00 → (getPier t p).burst = (getPier s p).burst)) ∧
      (∃ t, exec (.msgStop bay tag) s = .next t ∧ rest t ∧
        ((getPier s p).burst = none → t.lf = s.lf) ∧
        (∀ b, (getPier s p).burst = some b → b.armed = none → (getPier t p).burst = some { b with stopped := true }))) ∧
    (canReach s 1 (6 + p) = true → canAct s (6 + p) = false →
      let off : State → Prop := fun t => answerOf t 1 = ⟨[], 0x03⟩ ∧ t.via.offCount = satTo 0xFFFFFFFF (s.via.offCount + 1)
      (∀ i ∈ [Instr.msgTune bay tag, .msgStop bay tag, .msgTagwrite bay tag drive id], ∃ t, exec i s = .next t ∧ off t ∧ { t with via := s.via, perf := s.perf } = s) ∧
      (∀ kt op : Bool, tagReadOk s bay kt op = true → ∃ t, exec (.msgTagread bay tag drive kt op) s = .next t ∧ off t ∧
        { t with via := s.via, perf := s.perf } = (if (getSpan s bay).live then modBay bay (fun q => { q with lastFail := 0x03 }) s else s))) ∧
    (∀ (pier : PierId) (b : Byte) (dr : BitVec 24) (header : BitVec 6) (t0 : Nat) (c : Nat), plannedBay s tag.toNat pier = some c →
      (c ≠ b.toNat → exec (.msgChordArm pier b tag dr header t0) s = .next s) ∧
      (c = b.toNat → canReach s 1 (6 + pier) = true →
        (canAct s (6 + pier) = true → ∃ t, exec (.msgChordArm pier b tag dr header t0) s = .next t ∧ answerOf t 1 = ⟨[], 0x00⟩ ∧
          (∀ n, n ≠ pier.val → getPier t n = getPier s n) ∧ (tag.toNat < 64 → (getSpan t tag.toNat).chordT0 = t0) ∧
          (b.toNat / 8 ≠ pier.val → getPier t pier = getPier s pier) ∧
          (b.toNat / 8 = pier.val →
            let u := pierLoad pier dr.toNat header.toNat t0 s
            (lfStartStatus u pier (b.toNat % 8) 3 = 0x00 → (getPier t pier).burst = some (Burst.fresh (b.toNat % 8) 3 0 (some (chordT0 u pier)))) ∧
            (lfStartStatus u pier (b.toNat % 8) 3 ≠ 0x00 → (getPier t pier).burst = (getPier u pier).burst))) ∧
        (canAct s (6 + pier) = false → tag.toNat < 64 → bitOf (getSpan s tag.toNat).present pier = true → ∃ t, exec (.msgChordArm pier b tag dr header t0) s = .next t ∧
          answerOf t 1 = ⟨[], 0x03⟩ ∧ (getSpan t tag.toNat).present = (getSpan s tag.toNat).present - 2 ^ pier.val ∧
          (pier.val = tag.toNat / 8 → (getSpan t tag.toNat).state = 10 ∧ (getSpan t tag.toNat).status = 0x03) ∧
          (pier.val ≠ tag.toNat / 8 → (getSpan t tag.toNat).state = (getSpan s tag.toNat).state))))

/-- MSG_SENSE, MSG_DETUNE, MSG_WAKE_HELLO, MSG_FOB_HELLO, MSG_TAG_MORE, MSG_TAG_RESULT and MSG_BURST_RESULT (R43 to R48, R137,
R138, R146, R153, R342). -/
def Obligations.MessagesToTheDeck : Prop :=
  ∀ (bay : Bay) (tag : Byte) (time : Nat) (site : BitVec 24) (ctr : Word) (fob : Nat) (s : State), canAct s 1 = true →
    let p := bay.val / 8
    let free := (getSpan s bay).live = false ∧ s.span.queue.length < 256
    (∀ i src, (i, src) ∈ [(Instr.msgSense bay time, 0), (.msgDetune bay time, 6 + p)] → canReach s src 1 = true → spanEnabled s = true →
      (free → vget 0 s.span.retry bay ≤ s.time.us → s.span.queue.find? (fun e => e.bay == bay.val && e.source == 0) = none →
        ∃ q, exec i s = .next (setResp src [] 0x00 { s with perf := q, span := { s.span with queue := s.span.queue ++ [⟨0, bay, s.time.us, [], none⟩] } })) ∧
      ((getSpan s bay).live = true → ∃ q, exec i s = .next (setResp src [] 0x00
        { s with perf := q, span := { s.span with merged := satTo 0xFFFFFFFF (s.span.merged + 1) } }))) ∧
    (∀ i src, (i, src) ∈ [(Instr.msgWakeHello site, 0), (.msgFobHello ctr fob, 3)] → canReach s src 1 = true →
      (s.span.sweep ≠ none → ∃ q, exec i s = .next (setResp src [] 0x00 { s with perf := q })) ∧
      (s.span.sweep = none → s.toll.parking = none → ∃ t, exec i s = .next t ∧ answerOf t src = ⟨[], 0x00⟩ ∧
        { t with via := s.via, perf := s.perf, span := s.span, toll := s.toll } = s ∧
        (inFlight s < 4 → freeHandle s ≠ none → t.toll.reqs.length = s.toll.reqs.length + 1 ∧
          t.span.sweep = some ⟨[], (List.range 8).map (chordOrder s none), 0⟩ ∧ ∃ j ∈ t.span.jobs, j.kind = .chordSweep 0) ∧
        (4 ≤ inFlight s ∨ freeHandle s = none → t.toll = s.toll ∧ t.span.sweep = none ∧ t.span.jobs = s.span.jobs))) ∧
    (∀ j, (getPier s p).job = some j → j.bay = bay.val → j.tag = tag.toNat → j.phase = .done → canReach s (6 + p) 1 = true →
      let gone : State → State := fun t => { s with via := t.via, lf := t.lf }
      (∀ ident more, j.more = ident :: more → free → spanEnabled s = true → s.span.queue.find? (fun e => e.bay == bay.val && e.source == 2) = none →
        ∃ q, exec (.msgTagMore bay tag ident) s = .next (setResp (6 + p) [] 0x00 { setJob p { j with more := more } s with
          perf := q, span := { s.span with queue := s.span.queue ++ [⟨2, bay, s.time.us, [], none⟩] } })) ∧
      (j.write = false → j.more = [] → ∀ kind : Fin 3, j.kind = kind.val → ∃ t, exec (.msgTagResult bay tag j.status kind j.found.length (j.found.headD 0)) s = .next t ∧
        answerOf t (6 + p) = ⟨[], 0x00⟩ ∧ (getPier t p).job = none ∧
        (awaitsTag s bay = false → { t with perf := s.perf } = gone t) ∧
        (awaitsTag s bay = true →
          (j.found = [] → j.status = 0x50 ∨ j.status = 0x00 → EndedAs bay 10 0x23 (gone t) t) ∧
          (j.found = [] → ¬ (j.status = 0x50 ∨ j.status = 0x00) → { t with perf := s.perf } = modBay bay (fun x => { x with lastFail := j.status }) (gone t)) ∧
          (∀ id more, j.found = id :: more → (getSpan t bay).ident = ident8 j.kind id ∧ (getSpan t bay).kind = j.kind ∧ (getSpan t bay).evLf = some j.since ∧
            ∀ b, b ≠ bay.val → getSpan t b = getSpan s b))) ∧
      (j.write = true → ∀ outcome : Fin 4, j.outcome = outcome.val → ∃ t, exec (.msgBurstResult bay tag j.status 0 outcome) s = .next t ∧
        answerOf t (6 + p) = ⟨[], 0x00⟩ ∧ (getPier t p).job = none ∧ ∃ r ∈ t.store.queue, r.typ = 0x0C ∧ r.siteBay = siteBay s bay ∧
          r.body = leBytes 8 j.uid ++ leBytes 1 j.outcome ++ [j.status] ++ leBytes 2 (pageCrc j.data) ++ leBytes 2 j.pcrc)) ∧
    ((getPier s p).job = none → (getPier s p).burst = none → canReach s (6 + p) 1 = true → tag.toNat < 64 → ∀ (st : Status) (outcome : Fin 4),
      (st = 0x00 ∨ awaitsChord s tag.toNat = false ∨ bitOf (getSpan s tag.toNat).present p = false →
        ∃ q, exec (.msgBurstResult bay tag st 3 outcome) s = .next (setResp (6 + p) [] 0x00 { s with perf := q })) ∧
      (st ≠ 0x00 → awaitsChord s tag.toNat = true → bitOf (getSpan s tag.toNat).present p = true →
        ∃ t, exec (.msgBurstResult bay tag st 3 outcome) s = .next t ∧ (getSpan t tag.toNat).present = (getSpan s tag.toNat).present - 2 ^ p ∧
          (p = tag.toNat / 8 → (getSpan t tag.toNat).state = 10 ∧ (getSpan t tag.toNat).status = st) ∧
          (p ≠ tag.toNat / 8 → (getSpan t tag.toNat).state = (getSpan s tag.toNat).state)))

/-- MSG_AUTH_START, MSG_TOKEN, MSG_SIGN_HEAD, MSG_AUTH_RESULT, MSG_TOKEN_READY, MSG_SIGNED, MSG_KT_CHALLENGE, MSG_KT_MAC,
MSG_KT_REPLY and MSG_KT_OPENED (R48, R61 to R63, R148 to R151, R172, R294, R342). -/
def Obligations.KeystoneMessages : Prop :=
  ∀ (bay : Bay) (tag : Byte) (s : State),
    let p := getSpan s bay
    let n := bay.val / 8
    let sid := if p.state = 3 then p.id else 0
    let ok : Nat → State → Prop := fun src t => answerOf t src = ⟨[], 0x00⟩ ∧ ∀ b, b ≠ bay.val → getAuth t b = getAuth s b
    (canReach s 1 2 = true → canAct s 2 = true →
      (∀ ident, ∃ t, exec (.msgAuthStart bay tag 0 ident) s = .next t ∧ ok 1 t ∧ getAuth t bay = some (AuthJob.fresh tag.toNat 0 ident sid) ∧
        { t with via := s.via, perf := s.perf, span := s.span, rng := s.rng, latched := s.latched } = s ∧
        (s.rng.running = true → s.rng.st = .ready ∨ s.rng.st = .unseeded → vget none s.rng.waits 0 = none → vget none t.rng.waits 0 = some 16)) ∧
      (∀ ident, let a := (getAuth s bay).getD (AuthJob.fresh tag.toNat 1 ident 0)
        ∃ q, exec (.msgAuthStart bay tag 1 ident) s = .next (setResp 1 [] 0x00 { setAuth bay (some { a with
          tag := tag.toNat, kind := 1, id := ident, spanId := sid, st := some (ktCheck s a ident) }) s with perf := q })) ∧
      (∀ ident, ∃ q, exec (.msgAuthStart bay tag 2 ident) s = .next (setResp 1 [] 0x00 { s with perf := q })) ∧
      (∀ addr : Word, canAct s 1 = true → p.state = 5 → p.authDurable = true → p.built = false → getToken s bay = none →
        oldTokenHolds s bay s.time.us = false →
        let k := getSlot s bay
        let at_ := deckSram + addr.toNat % 0x100000
        let head := (tokenHead s bay 0).take 24
        let a := { AuthJob.fresh tag.toNat 4 0 p.id with sent := head }
        (∀ st : Status, st = (if k.st = .empty then 0x82 else if k.st = .spent then 0x08
            else if bitOf k.policy 11 = true ∧ k.ready = false then 0x10 else 0x00) → st ≠ 0x00 →
          ∃ q, exec (.msgToken bay tag addr) s = .next (setResp 1 [] 0x00 { setAuth bay (some { a with st := some st }) s with
            perf := q, mem := Memory.writeBytes s.mem at_ head })) ∧
        (k.st = .loaded ∨ k.st = .derived → bitOf k.policy 11 = false ∨ (k.ready = true ∧ k.ctr < k.hwm) →
          let h := head ++ leBytes 8 k.ctr
          let w := h ++ gcmTag (k.key.take (16 + 8 * bitsOf k.policy 0 2)) (leBytes 2 (siteBay s bay) ++ [0, 0] ++ leBytes 8 k.ctr) h []
          ∃ t, exec (.msgToken bay tag addr) s = .next t ∧ ok 1 t ∧ getAuth t bay = some { a with st := some 0x00, rc := k.ctr, plain := w } ∧
            (getSlot t bay).ctr = k.ctr + 1 ∧ t.mem = Memory.writeBytes (Memory.writeBytes s.mem at_ head) (at_ + 24) (w.drop 24))) ∧
      (s.store.sigOwed ≠ none → s.signer.job = none → ∃ t, exec (.msgSignHead tag s.store.head) s = .next t ∧ answerOf t 1 = ⟨[], 0x00⟩ ∧
        t.signer = { s.signer with job := some ⟨2, 0, 0, none, 0x00, .sig tag.toNat s.store.head⟩ } ∧
        { t with via := s.via, perf := s.perf, signer := s.signer, rng := s.rng, latched := s.latched } = s)) ∧
    (canReach s 1 2 = true → canAct s 2 = false → ∀ addr : Word, p.state = 5 → p.authDurable = true → p.built = false → getToken s bay = none →
      oldTokenHolds s bay s.time.us = false → ∃ t, exec (.msgToken bay tag addr) s = .next t ∧ (getSpan t bay).state = 10 ∧ (getSpan t bay).status = 0x11) ∧
    (canReach s 2 1 = true → canAct s 1 = true →
      (∀ (st : Status) (q : Nat), ∃ c, exec (.msgSigned tag st q) s = .next (setResp 2 [] 0x00 { s with perf := c })) ∧
      (∀ a st, getAuth s bay = some a → a.tag = tag.toNat → a.st = some st →
        let via : State → State := fun t => { s with via := t.via }
        (a.kind < 4 → p.state = 3 → a.spanId = p.id → p.kind = a.kind →
          (st ∈ [(0x06 : Status), 0x07, 0x0B, 0x0C] → ∃ t, exec (.msgAuthResult bay tag st) s = .next t ∧ EndedAs bay 10 st (via t) t) ∧
          (st ∉ [(0x00 : Status), 0x06, 0x07, 0x0B, 0x0C] → ∃ c, exec (.msgAuthResult bay tag st) s =
            .next (setResp 2 [] 0x00 { modBay bay (fun x => { x with lastFail := st }) s with perf := c })) ∧
          (st = 0x00 → a.kind = 0 → ∃ c, exec (.msgAuthResult bay tag st) s =
            .next (setResp 2 [] 0x00 { modBay bay (fun x => { x with evAuth := some a.rxTime }) s with perf := c }))) ∧
        (a.kind = 4 → p.state = 5 → p.id = a.spanId →
          (st = 0x00 → ∃ c, exec (.msgTokenReady bay tag st a.rc) s = .next (setResp 2 [] 0x00
            { modBay bay (fun x => { x with token := a.plain, counter := a.rc, built := true }) (setAuth bay none s) with perf := c })) ∧
          (st ≠ 0x00 → ∀ c, ∃ t, exec (.msgTokenReady bay tag st c) s = .next t ∧ EndedAs bay 10 st (via t) t ∧ getAuth t bay = none)))) ∧
    (canReach s 2 (6 + n) = true → canAct s (6 + n) = true → ∀ j, (getPier s n).job = some j → j.bay = bay.val →
      (∀ rc : Word, s.rng.st = .ready → j.phase = .waitRc → ∃ c, exec (.msgKtChallenge bay tag rc) s = .next (setResp 2 [] 0x00
        { setJob n { j with phase := .ktReq } (setAuth bay (some { AuthJob.fresh tag.toNat 1 0 0 with rc := rc.toNat }) s) with perf := c })) ∧
      (∀ a mac tw, getAuth s bay = some a → a.kind = 5 → j.phase = .waitMac tw → ktWriteMac s bay a = some (mac : Word).toNat →
        ∃ c, exec (.msgKtMac bay tag mac) s = .next (setResp 2 [] 0x00 { setJob n { j with phase := .writing, since := s.time.us } s with perf := c }))) ∧
    (∀ rc : Word, s.rng.st ≠ .ready → exec (.msgKtChallenge bay tag rc) s = .next s) ∧
    (canReach s (6 + n) 2 = true → canAct s 2 = true → ∀ j, (getPier s n).job = some j → j.bay = bay.val →
      (∀ a uid r, j.tag = tag.toNat → j.phase = .done → j.kind = 1 → j.write = false → j.found = [uid] → ofLe j.data = (r : Word).toNat →
        getAuth s bay = some a → ∃ c, exec (.msgKtReply bay tag r uid) s = .next (setResp (6 + n) [] 0x00
          { setAuth bay (some { a with r := r.toNat, fobId := uid }) s with perf := c })) ∧
      (∀ tw : BitVec 16, j.phase = .waitMac tw.toNat → ∃ c, exec (.msgKtOpened bay tag tw j.uid) s = .next (setResp (6 + n) [] 0x00
        { setAuth bay (some { AuthJob.fresh tag.toNat 5 j.uid 0 with fobId := j.uid, r := tw.toNat }) s with perf := c })))

/-- MSG_CHALLENGE, MSG_MASK_READY, MSG_RESPONSE, MSG_RESULT, MSG_CHORD_REPORTS, MSG_CHORD_LISTEN, MSG_RANGE and MSG_PSR_DONE (R135,
R137, R171 to R173, R187 to R205, R342). -/
def Obligations.RadioMessagesAndVerdicts : Prop :=
  (∀ (bay : Bay) (tag : Byte) (offset : Word) (s : State),
    let p := getSpan s bay
    let at_ := rfSram + offset.toNat % 0x8000
    (canReach s 2 3 = true → canAct s 3 = true → ∀ a, getAuth s bay = some a → a.tag = tag.toNat →
      (∀ e, a.kind = 0 → a.sent = [] → vget none s.rng.ends 0 = some e →
        let taken := modRng (fun r => { r with ends := vset r.ends 0 none }) s
        (e.status ≠ 0x00 → exec (.msgChallenge bay tag offset) s = .next (setAuth bay (some { a with st := some e.status }) taken)) ∧
        (e.status = 0x00 → ∃ t, exec (.msgChallenge bay tag offset) s = .next t ∧ answerOf t 2 = ⟨[], 0x00⟩ ∧
          let pay := [0x51] ++ beBytes 8 a.id ++ beBytes 2 (siteBay s bay) ++ beBytes 4 a.spanId ++ padTo 16 (padTo 16 e.data)
          getAuth t bay = some { a with ch := padTo 16 e.data, sent := pay } ∧ t.mem = Memory.writeBytes s.mem at_ (31 :: pay) ∧
          t.cfg = (putReg s 3 .txPtr 0 (offset.toNat % 0x8000 / 4 * 4)).cfg ∧ vget none t.rng.ends 0 = none)) ∧
      (a.ks ≠ none → ∃ c, exec (.msgMaskReady bay tag offset) s = .next (setResp 2 [] 0x00
        { putReg s 3 .psrCtrl 0 (setField (regValue s 3 .psrCtrl 0) 16 14 (offset.toNat % 0x8000 / 4)) with
          perf := c, mem := Memory.writeBytes s.mem at_ a.ms }))) ∧
    (canReach s 3 2 = true → canAct s 2 = true → ∀ a, getAuth s bay = some a → a.tag = tag.toNat → a.kind = 0 →
      (∀ st : Status, a.st = none →
        let d := memReadBytes s at_ 29
        let fob := ofBe (sliceZ d 1 8)
        let done : AuthJob → Prop := fun x => ∃ c, exec (.msgResponse bay tag st offset) s = .next (setResp 3 [] 0x00 { setAuth bay (some x) s with perf := c })
        (st ≠ 0x00 → done { a with st := some st }) ∧
        (st = 0x00 → fobKey s fob = none → done { a with st := some 0x82 }) ∧
        (∀ k, st = 0x00 → fobKey s fob = some k →
          let good := leAt d 0 1 = 0x52 ∧ a.sent ≠ [] ∧ gcmTag k (sliceZ a.ch 0 12) (a.sent ++ sliceZ d 0 13) [] = sliceZ d 13 16
          let ks := sessionKey k a.spanId (ofBe (sliceZ d 9 4)) a.ch
          (¬ good → done { a with st := some 0x06 }) ∧
          (good → done { a with
            st := some 0x00, fobId := fob, wakeCtr := ofBe (sliceZ d 9 4), rxTime := s.rf.rxTime, ks := some ks, ms := maskStream ks a.spanId }))) ∧
      (∀ r, s.psr.result = some r → ∃ t, exec (.msgResult bay tag 0x00 offset) s = .next t ∧ answerOf t 3 = ⟨[], 0x00⟩ ∧
        t.mem = Memory.writeBytes s.mem at_ (padTo 113 r) ∧ (a.ks = none → getAuth t bay = some { a with res := 0x07 }) ∧
        ∀ k, a.ks = some k →
          let iv := leBytes 4 a.spanId ++ [0x52, 0x45, 0x53, 0x31, 0, 0, 0, 0]
          let d := memReadBytes t at_ 113
          getAuth t bay = some (if leAt d 0 1 = 0x57 ∧ gcmTag k iv (sliceZ d 0 5) (sliceZ d 5 92) = sliceZ d 97 16
            then { a with plain := gcmCrypt k iv (sliceZ d 5 92), res := 0x00 } else { a with res := 0x07 }))) ∧
    (canReach s 1 3 = true → canAct s 3 = true →
      (∀ t0, ∃ c, exec (.msgChordListen tag t0) s = .next (setResp 1 [] 0x00 { s with perf := c, rf := { s.rf with listen := some (tag.toNat, t0, []) } })) ∧
      (∀ primary use : Byte, s.psr.busy = false → ∃ t, exec (.msgRange bay tag primary use) s = .next t ∧ answerOf t 1 = ⟨[], 0x00⟩ ∧
        t.psr.busy = true ∧ t.psr.leg = 0 ∧ t.psr.bay = bay.val ∧ t.psr.tag = tag.toNat ∧ t.psr.result = none ∧ t.psr.pong = none)) ∧
    (canReach s 3 1 = true → canAct s 1 = true →
      let gone : State → State := fun t => { s with via := t.via, rf := t.rf, psr := t.psr }
      (∀ (st : Status) t0 reps (b : Byte), s.rf.listen = some (tag.toNat, t0, reps) → b.toNat < 64 → awaitsChord s b.toNat = false → ∃ c,
        exec (.msgChordReports b tag st reps.length offset) s = .next (setResp 3 [] 0x00 { s with
          perf := c, rf := { s.rf with listen := none }, mem := Memory.writeBytes s.mem at_ (reps.flatMap (padTo 66)) })) ∧
      (∀ (st : Status) t0 (b : Byte), s.rf.listen = some (tag.toNat, t0, []) → b.toNat < 64 → awaitsChord s b.toNat = true →
        (st ∈ [(0x00 : Status), 0x5A, 0x5B, 0x61] → ∃ t, exec (.msgChordReports b tag st 0 offset) s = .next t ∧ t.rf.listen = none ∧ EndedAs b.toNat 10 0x23 (gone t) t) ∧
        (st ∉ [(0x00 : Status), 0x5A, 0x5B, 0x61] → ∃ t, exec (.msgChordReports b tag st 0 offset) s = .next t ∧ t.rf.listen = none ∧
          { t with perf := s.perf } = modBay b.toNat (fun x => { x with lastFail := st }) (gone t))) ∧
      (s.psr.owed = true → s.psr.busy = false → s.psr.bay = bay.val → p.state = 3 → p.kind = 0 →
        let st := match getAuth s bay with | some a => (if a.res ≠ 0x00 then a.res else s.psr.last) | none => s.psr.last
        (st ∈ [(0x07 : Status), 0x0B, 0x0C] → ∃ t, exec (.msgPsrDone bay tag st offset) s = .next t ∧ t.psr = { s.psr with owed := false } ∧
          EndedAs bay 10 st (gone t) t) ∧
        (∀ a, st ∉ [(0x07 : Status), 0x0B, 0x0C] → p.reqBits ≠ 0 → getAuth s bay = some a →
          let i := pxInput s bay (fobBound p a) (some { s.psr with owed := false }) a.plain (sliceZ a.ms 328 8)
          let v := i.verdict
          ∃ t, exec (.msgPsrDone bay tag st offset) s = .next t ∧ (getSpan t bay).verdict = v.1 ∧ (getSpan t bay).reason = v.2 ∧
            (v.1 = 3 → (getSpan t bay).state = 10 ∧ (getSpan t bay).status = 0x0F) ∧
            (v.1 = 1 ∨ v.1 = 2 → (getSpan t bay).state = 10 ∧ (getSpan t bay).status = 0x0E) ∧
            (v.1 = 0 → (getSpan t bay).state = if (i.evidence &&& p.reqBits) = p.reqBits then 4 else 10))))) ∧
  (∀ i : PxIn,
    let rAuth := bitOf i.req 0
    let rLf := bitOf i.req 1
    let rPsr := bitOf i.req 2
    i.verdict = (([(i.fob && !i.bound, 3, 0x7C), (i.maskFails, 3, 0x7A), (i.row3, 3, 0x78), (i.row4, 3, 0x79), (i.row5, 3, 0x7B),
      (rAuth && i.stale i.evAuth || rLf && i.stale i.evLf || rPsr && i.stale i.evPsr, 1, 0x70), ((rLf || rPsr) && !i.geo, 1, 0x7E),
      (rLf && i.fob && i.lfWeak, 2, 0x71), (rPsr && i.far, 2, 0x75), (rLf && i.fob && i.saturated, 1, 0x73), (rLf && i.fob && i.lfMargin, 1, 0x72),
      (rLf && i.fob && i.unmeasured && !rPsr, 1, 0x74), (rPsr && !i.answered, 1, 0x7D), (rPsr && i.near, 1, 0x76), (rPsr && i.few, 1, 0x77)] :
        List (Bool × Nat × Status)).find? (fun r => r.1)).elim (0, 0x00) (fun r => r.2))

/-- PWR_ON, PWR_OFF, PWR_LEVEL, POWER_COMMAND_SERVE, PWR_REPLY_ACCEPT, PWR_REPLY_DELAY, PWR_REPLY_REFUSE, QUERY_NO_REPLY,
QUERY_REPEAT, ISLAND_START_DONE, ISLAND_STOP_DONE and LEVEL_CHANGE_DONE (R26, R36, R349 to R357, R402). -/
def Obligations.PowerCommands : Prop :=
  ∀ s : State,
    (∀ (ini : Island) (i tag : Fin 16) (level : Fin 4), canReach s ini 0 = true →
      let busy := 4 ≤ s.power.queue.length + s.power.results.length + (if s.power.serving = none then 0 else 1) +
        (if s.par.restarting = none then 0 else 1) ∨ s.park.phase ≠ .idle
      let st : PwrOp → Status := fun op => if ini.val ≠ 1 ∧ ini.val ≠ 2 then 0x02 else if busy then 0xC2
        else if i.val = 0 ∨ 14 ≤ i.val ∨ op = .off ∧ (i.val = 1 ∨ i.val = ini.val) then 0xC4
        else if op = .level ∧ i.val = 3 ∧ 2 ≤ level.val then 0xC1
        else if op = .level ∧ tollFloor s i < level.val then 0xC0
        else if op = .off ∧ islandInUse s i = true then 0xC3 else 0x00
      let answers : PwrOp → Nat → Host.Outcome State Fault Refusal → Prop := fun op l o => ∃ q, o = .next (setResp ini [] (st op)
        (if st op = 0x00 then { s with perf := q, power := { s.power with queue := s.power.queue ++ [⟨op, i, l, tag, ini⟩] } } else { s with perf := q }))
      answers .on 0 (exec (.pwrOn ini i tag) s) ∧ answers .off 0 (exec (.pwrOff ini i tag) s) ∧ answers .level level (exec (.pwrLevel ini i level tag) s)) ∧
    (∀ c rest, s.power.queue = c :: rest → s.power.serving = none → s.par.restarting = none → s.park.phase = .idle → s.freeze.frozen = false →
      c.island < 14 →
      let i := c.island
      let p := { s.power with queue := rest }
      let ends : Status → (PowerState → PowerState) → Prop := fun st f => exec .powerCommandServe s =
        .next { s with power := f { p with results := s.power.results ++ [⟨st, 0, i, c.tag⟩] } }
      let serves : PwrPhase → (PowerState → PowerState) → Prop := fun ph f => exec .powerCommandServe s =
        .next { s with power := f { p with serving := some ⟨c, s.time.us, ph⟩ } }
      let asks : Nat → Nat → PowerState → PowerState := fun k l x => { x with query := vset x.query i ⟨k, l, (getQuery s i).outcome, .awaiting s.time.us⟩ }
      let byItself := hasCore i = true ∧ (getCore s i).halted = true
      let none_ := ∀ q ∈ s.power.query.toList, q.phase = .idle
      (c.op = .on → (pstate s i ≠ .off → ends 0x00 id) ∧
        (pstate s i = .off → serves .starting (fun x => { x with
          st := vset x.st i .starting, level := vset x.level i (min (getLevel s i) (tollFloor s i)) }))) ∧
      (c.op = .off → (islandInUse s i = true → ends 0xC3 id) ∧ (islandInUse s i = false →
        (pstate s i = .off → ends 0x00 id) ∧ (pstate s i = .run → ¬ byItself → serves .querying (asks 2 0)) ∧
        (pstate s i = .run → byItself → none_ → ∃ t, exec .powerCommandServe s = .next t ∧ t.power.serving = some ⟨c, s.time.us, .stopping⟩ ∧
          pstate t i = .stopping))) ∧
      (c.op = .level → (tollFloor s i < c.level → ends 0xC0 id) ∧ (c.level ≤ tollFloor s i →
        (getLevel s i = c.level → ends 0x00 id) ∧
        (getLevel s i ≠ c.level → pstate s i = .off → ends 0x00 (fun x => { x with level := vset x.level i c.level })) ∧
        (getLevel s i ≠ c.level → pstate s i = .run → i ≠ c.writer → ¬ byItself → serves .querying (asks 1 c.level)) ∧
        (getLevel s i ≠ c.level → pstate s i = .run → i = c.writer ∨ byItself → none_ → ∃ t, exec .powerCommandServe s = .next t ∧
          t.power.serving = some ⟨c, s.time.us, .changing⟩ ∧ { t with power := s.power } = s)))) ∧
    (∀ ini : Island, canReach s ini 0 = true →
      let q := getQuery s ini
      let hw := ini.val = 4 ∨ ini.val = 5
      let busy := ini.val = 4 ∧ storeBusy s = true ∨ ini.val = 5 ∧ linkBusy s = true
      let keeps := ini.val = 5 ∧ q.kind = 3 ∧ ringMaster s = true
      let first := match s.power.serving with | some v => v.first | none => s.park.first
      let late := first + 8000 ≤ s.time.us
      let refused : Nat → Host.Outcome State Fault Refusal → Prop := fun reason o => ∃ t, o = .next t ∧ answerOf t ini = ⟨[], 0x00⟩ ∧
        (s.power.serving ≠ none ∨ s.park.phase = .querying → ∀ j : Island, (getQuery t j).phase = .idle ∧
          (j ≠ ini → (getQuery s j).phase = .accepted → (getQuery t j).outcome = 2)) ∧
        (∀ v, s.power.serving = some v → t.power.serving = none ∧ t.power.results = s.power.results ++ [⟨0xC5, reason, v.cmd.island, v.cmd.tag⟩] ∧
          { t with power := s.power, via := s.via, perf := s.perf } = s) ∧
        (s.power.serving = none → s.park.phase = .querying → t.park = { s.park with phase := .idle, last := 0x15, refuser := ini, reason := reason } ∧
          { t with power := s.power, park := s.park, via := s.via, perf := s.perf, span := s.span, toll := s.toll } = s)
      let replies : Nat → Nat → Nat → Host.Outcome State Fault Refusal → Prop := fun a n r o =>
        (a = 0 → (∀ v, s.power.serving = some v → v.phase = .querying →
            ∃ j : Island, j ≠ ini ∧ (getQuery s j).phase ≠ .idle ∧ (getQuery s j).phase ≠ .accepted) → ∃ c, o = .next (setResp ini [] 0x00 { setQueryPhase ini .accepted s with perf := c })) ∧
        (a = 0 → (∀ j : Island, j ≠ ini → (getQuery s j).phase = .idle ∨ (getQuery s j).phase = .accepted) →
          ∀ v, s.power.serving = some v → v.phase = .querying → ∃ t, o = .next t ∧ answerOf t ini = ⟨[], 0x00⟩ ∧
            (v.cmd.op = .level → t.power.serving = some { v with phase := .changing } ∧ { t with power := s.power, via := s.via, perf := s.perf } = s) ∧
            (v.cmd.op = .off → 0 < v.cmd.island → v.cmd.island < 14 → pstate s v.cmd.island = .run →
              t.power.serving = some { v with phase := .stopping } ∧ pstate t v.cmd.island = .stopping)) ∧
        (a = 1 → ¬ late → ∃ c, o = .next (setResp ini [] 0x00 { setQueryPhase ini (.delayed (s.time.us + 100 * max 1 (min 80 n))) s with perf := c })) ∧
        (a = 1 → late → refused 4 o) ∧ (a = 2 → refused r o)
      let asked : Nat → Nat → Nat → Host.Outcome State Fault Refusal → Prop := fun a n r o =>
        if keeps then replies 2 n 1 o else if hw then (if busy then replies 1 1 r o else replies 0 n r o) else replies a n r o
      let outside : Host.Outcome State Fault Refusal → Prop := fun o => ∃ c, o = .next (setResp ini [] 0x02 { s with perf := c })
      (∀ t0, q.phase = .awaiting t0 → asked 0 0 0 (exec (.pwrReplyAccept ini) s) ∧ (∀ n, asked 1 n.toNat 0 (exec (.pwrReplyDelay ini n) s)) ∧
        ∀ r, asked 2 0 r.val (exec (.pwrReplyRefuse ini r) s)) ∧
      ((∀ t0, q.phase ≠ .awaiting t0) → outside (exec (.pwrReplyAccept ini) s) ∧ (∀ n, outside (exec (.pwrReplyDelay ini n) s)) ∧
        ∀ r, outside (exec (.pwrReplyRefuse ini r) s))) ∧
    (∀ i : Island,
      (∀ t0 v, (getQuery s i).phase = .awaiting t0 → t0 + 1000 ≤ s.time.us → s.power.serving = some v → ∃ t, exec (.queryNoReply i) s = .next t ∧
        t.power.serving = none ∧ t.power.results = s.power.results ++ [⟨0xC5, 5, v.cmd.island, v.cmd.tag⟩] ∧ { t with power := s.power } = s) ∧
      (∀ t0, (getQuery s i).phase = .delayed t0 → t0 ≤ s.time.us → exec (.queryRepeat i) s = .next (setQueryPhase i (.awaiting s.time.us) s)) ∧
      (pstate s i = .starting → s.park.phase ≠ .waking → s.freeze.frozen = false → ∃ t, exec (.islandStartDone i) s = .next t ∧
        pstate t i = .run ∧ localTime t i = s.time.us ∧
        ∀ v, s.power.serving = some v → v.cmd.island = i.val → v.phase = .starting → t.power.serving = none ∧
          t.power.results = s.power.results ++ [⟨0x00, 0, v.cmd.island, v.cmd.tag⟩]) ∧
      (pstate s i = .stopping → vget [] s.via.txns i = [] → (∀ j : Island, ∀ h ∈ vget [] s.via.held j, h.src ≠ i.val) → vget [] s.via.held i = [] →
        s.park.phase ≠ .stopping →
        (isRestarting s i = true → s.freeze.frozen = false → ∃ t, exec (.islandStopDone i) s = .next t ∧ pstate t i = .starting ∧
          (hasCore i = true → (getCore t i).hold = true ∧ (getCore t i).lock = false)) ∧
        (isRestarting s i = false → ∃ t, exec (.islandStopDone i) s = .next t ∧ pstate t i = .off ∧ inboxOf t i = [] ∧
          (∀ v, s.power.serving = some v → v.cmd.island = i.val → v.phase = .stopping → t.power.serving = none ∧
            t.power.results = s.power.results ++ [⟨0x00, 0, v.cmd.island, v.cmd.tag⟩]) ∧
          ∀ (r : Reg) (k : Nat), inWindow i (regAddr i r k) = true → abutmentKeeps (regAddr i r k) = false → regValue t i r k = regValue State.reset i r k)) ∧
      (∀ l, vget none s.power.raising i = some l → exec (.levelChangeDone i) s =
        .next { s with power := { s.power with level := vset s.power.level i l, raising := vset s.power.raising i none } }) ∧
      (∀ v, vget none s.power.raising i = none → s.power.serving = some v → v.cmd.island = i.val → v.phase = .changing → exec (.levelChangeDone i) s =
        .next { s with power := { s.power with
          level := vset s.power.level i v.cmd.level, serving := none
          results := s.power.results ++ [⟨0x00, 0, v.cmd.island, v.cmd.tag⟩] } }))

/-- PARK_REQUEST, PARK_COMMIT, WAKE_SOURCE, WAKE_EVENT, PARK_RESUME and ALARM_ARM (R27, R357 to R362, R367). -/
def Obligations.ParkEntryAndExit : Prop :=
  ∀ s : State,
    let aborted : State → Prop := fun t => t.park = { s.park with phase := .idle, last := 0x14, aborts := min 0xFFFF (s.park.aborts + 1) } ∧
      t.toll.parking = none ∧ ∀ h, s.toll.parking = some h → h ∉ t.toll.handles
    (∀ ini : Island, canReach s ini 0 = true →
      let may := (ini.val = 1 ∨ ini.val = 2) ∧ s.toll.parking ≠ none
      let idle := s.power.queue = [] ∧ s.power.serving = none ∧ s.par.restarting = none ∧ s.park.phase = .idle
      (¬ may → ∃ p, exec (.parkRequest ini) s = .next (setResp ini [] 0x02 { s with perf := p })) ∧
      (may → ¬ idle → ∃ p, exec (.parkRequest ini) s = .next (setResp ini [] 0xC2 { s with perf := p })) ∧
      (may → idle → wakeDue s ≠ 0 → ∃ t, exec (.parkRequest ini) s = .next t ∧ answerOf t ini = ⟨[], 0x14⟩ ∧ aborted t ∧
        { t with park := s.park, toll := s.toll, span := s.span, via := s.via, perf := s.perf } = s) ∧
      (may → idle → wakeDue s = 0 → ∃ t, exec (.parkRequest ini) s = .next t ∧ answerOf t ini = ⟨[], 0x00⟩ ∧
        t.park = { s.park with phase := .querying, first := s.time.us } ∧
        (∀ j : Island, getQuery t j = if j.val ≠ 0 ∧ j.val ≠ 1 ∧ j ≠ ini ∧ pstate s j = .run then
            ⟨3, 0, (getQuery s j).outcome, if hasCore j = true ∧ (getCore s j).halted = true then .accepted else .awaiting s.time.us⟩
          else getQuery s j) ∧
        { t with park := s.park, power := { t.power with query := s.power.query }, via := s.via, perf := s.perf } = s)) ∧
    (∀ φ : Fin 48, s.park.phase = .querying → (∀ q ∈ s.power.query.toList, q.phase = .idle ∨ q.phase = .accepted) →
      (wakeDue s ≠ 0 → ∃ t, exec (.parkCommit φ) s = .next t ∧ aborted t ∧
        (∀ j : Island, (getQuery t j).phase = .idle ∧ ((getQuery s j).phase = .accepted → (getQuery t j).outcome = 2)) ∧
        { t with park := s.park, power := s.power, toll := s.toll, span := s.span } = s) ∧
      (wakeDue s = 0 → ∃ t, exec (.parkCommit φ) s = .next t ∧
        t.park = { s.park with
          phase := if ∀ j : Island, j.val ≠ 0 → pstate s j = .off then .parked else .stopping
          last := 0x00
          entries := min 0xFFFF (s.park.entries + 1)
          woken := false } ∧
        (∀ j : Island, j.val ≠ 0 → pstate t j = if pstate s j = .run then .stopping else pstate s j) ∧
        (∀ j : Island, (getQuery t j).phase = .idle) ∧ t.toll.parking = none ∧
        t.time = { s.time with src := if s.time.xtal32Failed then .rc4M else .crystal, frac := 32 * φ.val })) ∧
    (∀ bit : Fin 8, bit.val ≠ 3 → exec (.wakeSource bit) s = .next { s with park := { s.park with wakePend := s.park.wakePend ||| 2 ^ bit.val } }) ∧
    (∀ at_, s.park.alarm = some at_ → exec (.wakeSource 3) s =
      .next (if at_ ≤ s.time.us then { s with park := { s.park with alarm := none, wakePend := s.park.wakePend ||| 8 } } else s)) ∧
    (∀ (ini : Island) (hi : Word), canReach s ini 0 = true →
      let at_ := regValue s 0 .alarmLo 0 + 2 ^ 32 * hi.toNat
      ∃ p, exec (.alarmArm ini hi) s = .next (setResp ini [] 0x00 { putReg s 0 .alarmHi 0 hi.toNat with
        perf := p
        park := if at_ ≤ s.time.us then { s.park with alarm := none, wakePend := s.park.wakePend ||| 8 } else { s.park with alarm := some at_ } })) ∧
    (s.park.woken = false → wakeDue s ≠ 0 →
      let woken := { s.park with wakeLast := wakeDue s, wakeTime := s.time.us, woken := true }
      (s.park.phase = .stopping → ∃ t, exec .wakeEvent s = .next t ∧ t.park = woken ∧ { t with park := s.park, lf := s.lf, perf := s.perf } = s) ∧
      (s.park.phase = .parked → ∃ t, exec .wakeEvent s = .next t ∧ t.park = { woken with phase := .waking } ∧
        (∀ j : Island, j.val ≠ 0 →
          let starts := bitOf (regValue s 0 .resumeMask 0) j = true ∧ pstate s j = .off
          pstate t j = (if starts then .starting else pstate s j) ∧
          getLevel t j = if starts then min (bitsOf (regValue s 0 .resumeLvl 0) (2 * j) 2) (tollFloor s j) else getLevel s j) ∧
        { t with park := s.park, lf := s.lf, perf := s.perf, power := { t.power with st := s.power.st, level := s.power.level } } = s)) ∧
    (∀ refValid : Bool, s.park.phase = .waking → s.park.wakeTime + 2000 ≤ s.time.us → ∃ t, exec (.parkResume refValid) s = .next t ∧
      t.park.phase = .idle ∧ t.park.woken = false ∧ t.park.pingBay = none ∧ t.park.freezeAtResume = false ∧
      (∀ j : Island, j.val ≠ 0 → pstate t j = (if pstate s j = .starting then .run else pstate s j) ∧
        (pstate s j = .starting → localTime t j = s.time.us)) ∧
      (refValid = false → t.par.clockStop = true) ∧ (refValid = true → t.par.clockStop = s.par.clockStop) ∧
      t.freeze.frozen = (s.freeze.frozen || s.park.freezeAtResume))

/-- GOVERNOR_UPDATE, LF_CURRENT_LIMIT, LF_SHORT, VIN_UNDERVOLTAGE, VIN_UNDERVOLTAGE_CLEAR, VINLF_UNDERVOLTAGE, VINLF_UV_CLEAR,
OVERVOLTAGE, OVERVOLTAGE_CLEAR and REVERSED_INPUT (R364, R369 to R371). -/
def Obligations.SuppliesAndGovernor : Prop :=
  ∀ s : State,
    let raised : Status → Nat → Nat → List Byte → ParapetState → State → Prop := fun code i unit d p t => Raised code i unit d p s t
    let quiet : State → Prop := fun t => { t with par := s.par, park := s.park, perf := s.perf } = s
    let stops : List Nat → Status → State → Prop := fun ns st t =>
      PiersEnded ns st s t ∧
      { t with
        par := s.par, park := s.park, lf := s.lf, store := s.store, mem := s.mem, link := s.link, zw := s.zw, sent := s.sent, perf := s.perf } = s
    (∀ (tj : Int) (hv : Bool) (pCore pPing : Nat),
      let cfg : Nat := regValue s 0 .thermCfg 0
      let limit : Nat := cfg % 2 ^ 12
      let cap : Nat := cfg / 2 ^ 12 % 2 ^ 12
      let knee : Nat := cfg / 2 ^ 24 % 2 ^ 8
      let a : Int := (limit : Int) - pCore - pPing
      let derated : Int := if tj < (knee : Int) then a else a * (125 - tj) / (125 - (knee : Int))
      let target := min cap derated.toNat
      ((∃ i : Island, i.val ≠ 0 ∧ pstate s i = .run) → exec (.governorUpdate tj hv pCore pPing) s = .next { latchReg s 0 .thermCfg 0 with
        therm := ⟨if target < s.therm.budget then target else min target (s.therm.budget + s.therm.budget / 8 + 16), tj, hv, pCore⟩ }) ∧
      ((∀ i : Island, i.val ≠ 0 → pstate s i ≠ .run) → exec (.governorUpdate tj hv pCore pPing) s = .next s)) ∧
    (∀ pier : PierId, ∃ p, exec (.lfCurrentLimit pier) s = .next { s with perf := p }) ∧
    (∀ (pier : PierId) (bay : Bay) (victim peak : Byte), ∃ t, exec (.lfShort pier bay victim peak) s = .next t ∧
      raised 0xDB (6 + pier.val) bay.val [victim, peak] s.par t ∧ stops [pier.val] 0x41 t) ∧
    (∀ v : BitVec 12,
      (v.toNat < 340 → s.par.uvVin = false → ∃ t, exec (.vinUndervoltage v) s = .next t ∧
        raised 0xD7 0 0 [] { s.par with vin := v.toNat, uvVin := true } t ∧ quiet t) ∧
      (340 ≤ v.toNat ∨ s.par.uvVin = true → exec (.vinUndervoltage v) s = .next { s with par := { s.par with vin := v.toNat } }) ∧
      exec (.vinUndervoltageClear v) s = .next { s with par := { s.par with vin := v.toNat, uvVin := decide (v.toNat < 340) && s.par.uvVin } } ∧
      (800 < v.toNat → s.par.ov = false → ∃ t, exec (.overvoltage v) s = .next t ∧
        raised 0xD8 0 0 [] { s.par with vin := v.toNat, ov := true } t ∧ stops (List.range 8) 0x41 t) ∧
      (v.toNat ≤ 800 ∨ s.par.ov = true → exec (.overvoltage v) s = .next { s with par := { s.par with vin := v.toNat } }) ∧
      exec (.overvoltageClear v) s = .next { s with par := { s.par with vin := v.toNat, ov := decide (770 ≤ v.toNat) && s.par.ov } }) ∧
    (s.par.uvVinlf = false → ∃ t, exec .vinlfUndervoltage s = .next t ∧ raised 0xD7 0 1 [] { s.par with uvVinlf := true } t ∧ stops (List.range 8) 0x48 t) ∧
    (s.par.uvVinlf = true → exec .vinlfUndervoltage s = .next s) ∧
    exec .vinlfUvClear s = .next { s with par := { s.par with uvVinlf := false } } ∧
    exec .reversedInput s = .next { s with par := { s.par with reversalCell := true } }

/-- OVER_TEMPERATURE, THERMAL_STOP_END, CRYSTAL_48_FAIL, CLOCK_STOP_END, CRYSTAL_32_FAIL, CRYSTAL_32_RESTORED and BUS_FAULT (R27,
R369 to R374). -/
def Obligations.StopsAndBusFaults : Prop :=
  ∀ s : State,
    let silenced : State → Prop := fun t => PiersEnded (List.range 8) 0x48 s t ∧ t.rf.mode = .off ∧ t.rf.phase = .idle ∧ t.rf.cur = none ∧
      t.rf.held = none ∧ t.rf.req = false ∧ t.psr.busy = false ∧
      (s.rf.phase = .active → t.rf.last = 0x63 ∧ (s.rf.mode = .rx → t.rf.rxStatus = 0x63)) ∧ (s.psr.busy = true → t.psr.last = 0x63 ∧ t.psr.owed = true) ∧
      { t with
        par := s.par, park := s.park, lf := s.lf, store := s.store, mem := s.mem, link := s.link, zw := s.zw, sent := s.sent, perf := s.perf, rf := s.rf
        psr := s.psr, time := s.time } = s
    (∀ hv : Bool, let hot := if hv then s.par.hotHv else s.par.hotLogic
      (hot = false → ∃ t, exec (.overTemperature hv) s = .next t ∧ silenced t ∧ t.time = s.time ∧ Raised 0xD6 0 (if hv then 1 else 0) []
        { s.par with hotHv := s.par.hotHv || hv, hotLogic := s.par.hotLogic || !hv, thermalStop := true } s t) ∧
      (hot = true → exec (.overTemperature hv) s = .next s)) ∧
    exec .thermalStopEnd s = .next { s with par := { s.par with hotHv := false, hotLogic := false, thermalStop := false } } ∧
    (∀ φ : Fin 48, (s.par.clockStop = false → ∃ t, exec (.crystal48Fail φ) s = .next t ∧ silenced t ∧ Raised 0xDA 0 0 [] { s.par with clockStop := true } s t ∧
        t.time = if s.time.src = .reference then { s.time with src := if s.time.xtal32Failed then .rc4M else .crystal, frac := 32 * φ.val } else s.time) ∧
      (s.par.clockStop = true → exec (.crystal48Fail φ) s = .next s)) ∧
    (s.par.clockStop = true → s.time.src = .reference → ∃ t, exec .clockStopEnd s = .next t ∧ t.par = { s.par with clockStop := false } ∧
      (∀ i : Island, localTime t i = s.time.us) ∧ { t with par := s.par, time := { t.time with copies := s.time.copies } } = s) ∧
    (s.time.xtal32Failed = false → ∃ t, exec .crystal32Fail s = .next t ∧ Raised 0xDA 0 1 [] s.par s t ∧
      t.time = { s.time with xtal32Failed := true, src := if s.time.src = .crystal then .rc4M else s.time.src } ∧
      { t with par := s.par, park := s.park, perf := s.perf, time := s.time } = s) ∧
    (s.time.xtal32Failed = true → exec .crystal32Fail s = .next s) ∧
    exec .crystal32Restored s = .next { s with time := { s.time with
      xtal32Failed := false
      src := if s.time.src = .rc4M then .crystal else s.time.src } } ∧
    (∀ kind : BusFaultKind, canAct s 5 = true →
      let code : Nat := match kind with | .opened => 1 | .contention => 2 | .stuck => 3
      let same : State → Prop := fun t => KeepsMemory s t.mem ∧
        { t with par := s.par, park := s.park, link := s.link, span := s.span, toll := s.toll, store := s.store, mem := s.mem, perf := s.perf } = s
      (∃ t, exec (.busFault .meter kind) s = .next t ∧ same t ∧ Raised 0xDC 5 0 [BitVec.ofNat 8 code] { s.par with mFault := code } s t ∧
        t.link = { s.link with mRead := none } ∧ (canAct s 1 = false → t.span = s.span) ∧
        (canAct s 1 = true → ∀ b : Bay,
          (getSpan t b).caps = (getSpan s b).caps.filter (fun c => c.stamp.isNone && !c.reading) ∧
          ∀ c ∈ (getSpan s b).caps, c.stamp.isSome = true → ∃ r ∈ t.store.queue, r.typ = 0x04 ∧ r.spanId = (getSpan s b).id ∧
            r.body.take 4 = leBytes 1 c.kind ++ [0xFF] ++ leBytes 1 (leAt (getSpan s b).policy 8 1) ++ [0x05])) ∧
      (∃ t, exec (.busFault .dispenser kind) s = .next t ∧ same t ∧ Raised 0xDC 5 1 [BitVec.ofNat 8 code] { s.par with dFault := code } s t ∧
        t.link = { s.link with dPoll := none } ∧ (canAct s 1 = false → t.span = s.span) ∧
        (canAct s 1 = true → ∀ b : Bay, if (getSpan s b).state = 5 then (getSpan t b).state = 10 ∧ (getSpan t b).status = 0x05 ∧ (getSpan t b).handle = none
          else getSpan t b = getSpan s b)))

/-- CORE_WATCHDOG, WDOG_KICK, RESTART_WRITE, WARM_RESTART, RST_LIMIT_CLEAR and PARAPET_LOG_POP (R369, R378 to R384, R390, R392). -/
def Obligations.RestartsAndWatchdogs : Prop :=
  ∀ s : State,
    let queued : List (Nat × Status) → ParapetState := fun l => { s.par with rstQueue := s.par.rstQueue ++ l }
    let asks : Nat → Status → ParapetState := fun i c => match s.par.restarting with | some (j, _) => queued (if j = i then [] else [(i, c)]) | none => queued [(i, c)]
    (∀ c : Island, canAct s c = true → hasCore c = true → (getCore s c).halted = false → (getCore s c).wdogLeft = some 0 → wdogTimeout s c ≠ 0 →
      exec (.coreWatchdog c) s = .next { setCore c { getCore s c with wdogLeft := none } s with par := asks c 0xD3 }) ∧
    (∀ (ini i : Island) (kick : Bool), canReach s ini i = true → canAct s i = true → ∃ p, exec (.wdogKick ini i kick) s = .next (
      if ini ≠ i then setResp ini [] 0x02 { s with perf := p }
      else setResp ini [] 0x00 (if kick then setCore i { getCore s i with wdogLeft := some (regValue s i .wdog 0 % 2 ^ 24) } { s with perf := p } else { s with perf := p }))) ∧
    (∀ (ini : Island) (i : Fin 16), canReach s ini 0 = true →
      let denied := i.val = 0 ∨ 14 ≤ i.val ∨ i.val = ini.val ∨ (ini.val ≠ 1 ∧ ini.val ≠ 2) ∨ ini.val = 2 ∧ i.val ≠ 1
      ∃ p, exec (.restartWrite ini i) s = .next (if denied then setResp ini [] 0xC4 { s with perf := p }
        else if pstate s i = .off then setResp ini [] 0x00 { s with perf := p }
        else setResp ini [] 0x00 { s with perf := p, par := asks i 0x00 })) ∧
    (∀ (i : Island) cause, i.val ≠ 0 → s.par.restarting = none → s.freeze.frozen = false →
      s.par.rstQueue.find? (fun e => e.1 == i.val) = some (i.val, cause) →
      (let rank : Nat → Nat := fun j => [2, 3, 6, 7, 8, 9, 10, 11, 12, 13, 1, 4, 5].idxOf j
       ∀ e ∈ s.par.rstQueue, rank i ≤ rank e.1) →
      let recent := ((vget [] s.par.rstTimes i).filter (fun x => decide (s.time.us < x + 10000000))).length
      let rest := s.par.rstQueue.filter (fun e => e.1 != i.val)
      (pstate s i = .off → exec (.warmRestart i) s = .next { s with par := { s.par with rstQueue := rest } }) ∧
      (pstate s i ≠ .off → 3 ≤ recent → ∃ t, exec (.warmRestart i) s = .next t ∧ t.par = { s.par with rstQueue := rest, rstLimit := s.par.rstLimit ||| 2 ^ i.val } ∧
        pstate t i = (if pstate s i = .run ∨ pstate s i = .stopping then .stopping else .off)) ∧
      (pstate s i ≠ .off → recent < 3 → ∃ t, exec (.warmRestart i) s = .next t ∧
        t.par = { s.par with
          rstQueue := rest
          restarting := some (i.val, cause)
          rstIsland := i.val
          rstCause := cause
          rstCount := min 0xFFFF (s.par.rstCount + 1)
          rstTimes := vset s.par.rstTimes i ((s.time.us :: vget [] s.par.rstTimes i).take 4) } ∧
        pstate t i = (if pstate s i = .run ∨ pstate s i = .stopping then .stopping else .starting) ∧
        (i.val = 1 → (∀ b : Bay, getSpan t b = Span.reset) ∧ t.span.jobs = [] ∧ t.span.queue = [] ∧ t.span.rebuilt = false) ∧
        (i.val ≠ 1 → canAct s 1 = true →
          (∃ r ∈ t.store.queue, r.typ = 0x0A ∧ r.body.take 2 = leBytes 1 i.val ++ [cause]) ∧
          ∀ b : Bay, i.val = 2 ∧ 3 ≤ (getSpan s b).state ∧ (getSpan s b).state ≤ 5 ∨ i.val = 3 ∧ (awaitsChord s b = true ∨ (getSpan s b).state = 3) ∨
            i.val = 4 ∧ (getSpan s b).state = 4 → (getSpan t b).state = 11 ∧ (getSpan t b).status = 0x11))) ∧
    (∀ (ini : Island) (mask : BitVec 14), canReach s ini 0 = true →
      (ini.val ≠ 1 → ∃ p, exec (.rstLimitClear ini mask) s = .next (setResp ini [] 0x02 { s with perf := p })) ∧
      (ini.val = 1 → ∃ t, exec (.rstLimitClear ini mask) s = .next t ∧ answerOf t ini = ⟨[], 0x00⟩ ∧
        (∀ j : Island, j.val ≠ 0 → bitOf t.par.rstLimit j = (bitOf s.par.rstLimit j && !bitOf mask.toNat j) ∧
          (bitOf mask.toNat j = false → vget [] t.par.rstTimes j = vget [] s.par.rstTimes j) ∧
          (bitOf mask.toNat j = true → vget [] t.par.rstTimes j = [])) ∧
        { t with par := { t.par with rstLimit := s.par.rstLimit, rstTimes := s.par.rstTimes }, via := s.via, perf := s.perf } = s)) ∧
    (∀ ini : Island, canReach s ini 0 = true →
      (s.par.log = [] → ∃ p, exec (.parapetLogPop ini) s = .next (setResp ini [0] 0x00 { latchShadow ini 0 .parapetLogTime 0 0 s with perf := p })) ∧
      (∀ e rest, s.par.log = e :: rest →
        let w := e.code.toNat + 2 ^ 8 * e.island + 2 ^ 12 * e.unit + 2 ^ 20 + 2 ^ 21 * (if e.overrun then 1 else 0)
        let latched := latchShadow ini 0 .parapetLogTime 0 (e.time % 2 ^ 32) s
        (ini.val ≠ 1 → ∃ p, exec (.parapetLogPop ini) s = .next (setResp ini [w] 0x00 { latched with perf := p })) ∧
        (ini.val = 1 → ∃ t, exec (.parapetLogPop ini) s = .next t ∧ answerOf t ini = ⟨[w], 0x00⟩ ∧ t.par = { s.par with log := rest } ∧
          (∃ r ∈ t.store.queue, r.typ = 0x0D ∧ r.time = e.time ∧ r.body.take 3 = [e.code] ++ leBytes 1 e.island ++ leBytes 1 e.unit) ∧
          KeepsMemory s t.mem ∧ { t with par := s.par, via := s.via, perf := s.perf, store := s.store, mem := s.mem } = { latched with perf := s.perf })))

/-- LINK_UP, LINK_DOWN, SYNC, PDELAY_REQ, PDELAY_RESP, PDELAY_TIMER, SYNC_TIMER, SYNC_LOSS, TIMEMAP, TIMEMAP_REPEAT, DISPATCH_UP,
DISPATCH_DOWN and HELD_FRAME_EXPIRY (R394 to R409). -/
def Obligations.CascadeRing : Prop :=
  ∀ s : State, canAct s 5 = true → bitOf (regValue s 5 .zwCfg 0) 0 = true →
    let n := regField s 5 .zwCfg 0 8 4 + 1
    let z := s.zw
    let now := s.time.us
    (∀ port : ZwPort,
      let u : Bool := match port with | .up => true | .down => false
      let p := zwPort s u
      let right : Fin 16 → BitVec 16 → Prop := fun id part => id.val = (s.boot.strapId + (if u then n - 1 else 1)) % n ∧ part = 0x6480
      let conflict := { s with zw := { z with conflict := true } }
      (∀ idOk partOk, p.up = false →
        (idOk = false ∨ partOk = false → exec (.linkUp port idOk partOk) s = .next conflict) ∧
        (idOk = true → partOk = true → ∃ t, exec (.linkUp port idOk partOk) s = .next t ∧
          t.sent = s.sent ++ (z.held.filter (fun h => h.toUp == u)).map (fun h => .ring u 0x11 h.frame) ∧
          { t with sent := s.sent } = modPort u (fun x => { x with up := true, mhops := 255, t1 := none })
            { s with zw := { z with held := z.held.filter (fun h => h.toUp != u) } })) ∧
      (p.up = true → exec (.linkDown port) s = .next (modPort u (fun x => { x with up := false, mhops := 255, t1 := none })
        { s with zw := { z with downs := min 0x3FF (z.downs + 1) } })) ∧
      (∀ siteNs mhops arrival : Nat, s.boot.strapId ≠ 0 → p.up = true →
        let other := zwPort s (!u)
        let follows := other.up = false ∨ mhops < other.mhops ∨ mhops = other.mhops ∧ u = true
        let noted := modPort u (fun x => { x with mhops := mhops }) s
        let target : Int := (siteNs : Int) + p.delay - arrival
        let good := if (target - z.ofs).natAbs ≤ 100 * (mhops + 1) then min 4 (z.good + 1) else 0
        let lim : Int := ((now - z.lastSync.getD now) / 10 : Nat)
        (¬ follows → exec (.sync port siteNs mhops arrival) s = .next noted) ∧
        (follows → exec (.sync port siteNs mhops arrival) s = .next { noted with zw := { noted.zw with
          ofs := if z.everSynced then max (z.ofs - lim) (min (z.ofs + lim) target) else target
          hops := (mhops + 1) % 16
          good := good
          lastSync := some now
          synced := z.synced || good == 4
          everSynced := z.everSynced || good == 4 } })) ∧
      (∀ (id : Fin 16) (part : BitVec 16) (t1 t2 : Nat), ∃ x, x / 1000 = now ∧ exec (.pdelayReq port id part t1 t2) s =
        .next { (if ¬ right id part ∧ p.up = false then conflict else s) with sent := s.sent ++ [.pdelayResp u t2 x], free := s.free + 1 }) ∧
      (∀ (id : Fin 16) (part : BitVec 16) (t2 t3 t4 x : Nat), p.t1 = some x →
        (right id part → exec (.pdelayResp port id part t2 t3 t4) s =
          .next (modPort u (fun y => { y with t1 := none, delay := (((t4 : Int) - x) - ((t3 : Int) - t2)) / 2 }) s)) ∧
        (¬ right id part → exec (.pdelayResp port id part t2 t3 t4) s = .next (if p.up then s else conflict))) ∧
      (∀ (typ : Nat) (f : RingFrame) (c : Instr), (typ = 0x10 ∧ c = .dispatchUp port f) ∨ (typ = 0x11 ∧ c = .dispatchDown port f) ∨ (typ = 0x12 ∧ c = .timemap port f) →
        p.up = true → f.src.val ≠ s.boot.strapId →
        let mine := f.bcast = true ∨ f.dst.val = s.boot.strapId
        let later := match vget none z.lastSeq f.src.val with
          | none => True
          | some l => 1 ≤ (f.seq + 65536 - l % 65536) % 65536 ∧ (f.seq + 65536 - l % 65536) % 65536 < 32768
        let onward : RingFrame := { f with hops := f.hops - 1 }
        let leaves : Sent := if u then (if z.downPort.up then .ring false typ onward else .ring true typ { onward with wrapped := true })
          else (if z.upPort.up then .ring true typ onward else .ring false typ { onward with wrapped := false })
        let keeps := typ = 0x11 ∧ (zwPort s (!u)).up = false ∧ f.dst.val = (s.boot.strapId + (if u then 1 else n - 1)) % n
        (¬ mine → f.hops ≤ 1 → exec c s = .next s) ∧
        (¬ mine → 1 < f.hops → ∃ t, exec c s = .next t ∧ t.sent = s.sent ++ [leaves] ∧
          t.zw = { z with
            crc := if f.crcGood then z.crc else min 0xFFF (z.crc + 1)
            held := if keeps ∧ z.held.length < 4 then z.held ++ [⟨!u, onward, now⟩] else z.held
            heldDrop := if keeps ∧ 4 ≤ z.held.length then min 0x3FF (z.heldDrop + 1) else z.heldDrop } ∧
          { t with sent := s.sent, zw := z, perf := s.perf } = s) ∧
        (f.dst.val = s.boot.strapId → f.bcast = false → f.crcGood = false ∨ ¬ later → exec c s = .next s) ∧
        (f.dst.val = s.boot.strapId → f.bcast = false → f.crcGood = true → later → f.first = true →
          let seen : ZwState := { z with lastSeq := vset z.lastSeq f.src.val (some (f.seq % 65536)) }
          let at_ : State := { s with zw := { seen with partialMsg := none } }
          (f.last = false → exec c s = .next { s with zw := { seen with partialMsg := some (f.src.val, (f.seq + 1) % 65536, f.payload) } }) ∧
          (f.last = true →
            (typ = 0x11 → exec c s = .next (hostBytes f.payload .ring at_)) ∧
            (typ = 0x10 → s.boot.strapId = 0 → bitOf (regValue s 5 .hostCfg 0) 2 = false → (∀ g ∈ s.link.queued, g.dest = .spi) →
              ∃ g : Frame, g.raw = f.payload ∧ g.dest = .spi ∧ exec c s = .next { at_ with link := { s.link with queued := s.link.queued ++ [g] } }) ∧
            (typ = 0x12 → z.synced = false ∨ canAct s 1 = false → exec c s = .next at_) ∧
            (typ = 0x12 → z.synced = true → canAct s 1 = true →
              let utc := leAt f.payload 0 8
              let dev : Int := (leAt f.payload 8 8 : Int) - z.ofs / 1000
              let l := s.store.ledger
              let near := (((utc : Int) - dev) - ((l.tsUtc : Int) - l.tsDevice)).natAbs ≤ 1000 ∧ l.tsBoot = l.bootCount
              (near → exec c s = .next at_) ∧
              (¬ near → exec c s = .next (deckRequest (.timeSet none ((utc : Int) + (now - dev)).toNat now) [10] 0 at_).2)))))) ∧
    (∃ t x y, exec .pdelayTimer s = .next t ∧ x / 1000 = now ∧ y / 1000 = now ∧
      t.sent = s.sent ++ (if z.upPort.up then [.pdelayReq true x] else []) ++ (if z.downPort.up then [.pdelayReq false y] else []) ∧
      t.zw = { z with
        upPort := if z.upPort.up then { z.upPort with t1 := some x } else z.upPort
        downPort := if z.downPort.up then { z.downPort with t1 := some y } else z.downPort } ∧
      { t with sent := s.sent, zw := z, free := s.free } = s) ∧
    (siteSynced s = true → ∃ t x y, exec .syncTimer s = .next t ∧ x / 1000 = now ∧ y / 1000 = now ∧
      let hops := if s.boot.strapId = 0 then 0 else z.hops
      t.sent = s.sent ++ (if z.upPort.up then [.sync true ((x : Nat) + siteOfs s).toNat hops] else []) ++
        (if z.downPort.up then [.sync false ((y : Nat) + siteOfs s).toNat hops] else []) ∧
      { t with sent := s.sent, free := s.free } = s) ∧
    (s.boot.strapId ≠ 0 → z.synced = true → z.lastSync.getD 0 + 5000000 ≤ now → exec .syncLoss s = .next { s with zw := { z with synced := false, good := 0 } }) ∧
    (s.boot.strapId = 0 → s.store.ledger.tsBoot = s.store.ledger.bootCount → s.store.ledger.tsCount ≠ 0 →
      let f : RingFrame := ⟨0, 0, true, 32, true, true, false, z.seq, leBytes 8 s.store.ledger.tsUtc ++ leBytes 8 s.store.ledger.tsDevice, true⟩
      exec .timemapRepeat s = .next { s with
        zw := { z with seq := (z.seq + 1) % 65536 }
        sent := s.sent ++ (if z.downPort.up then [.ring false 0x12 f] else if z.upPort.up then [.ring true 0x12 { f with wrapped := true }] else []) }) ∧
    (let old := z.held.filter (fun h => decide (h.since + 10000 ≤ now))
     exec .heldFrameExpiry s = .next { s with zw := { z with
       held := z.held.filter (fun h => decide (now < h.since + 10000))
       heldDrop := min 0x3FF (z.heldDrop + old.length) } })

/-- HOST_START, HOST_STOP, HOST_CANCEL, HOST_REG_READ, HOST_REG_WRITE, HOST_JRN_READ, HOST_JRN_ACK, HOST_TIME_SET, HOST_DB_CHUNK,
HOST_DB_COMMIT, HOST_POLICY, HOST_IMAGE_DATA, HOST_IMAGE_COMMIT, HOST_ATTEST, HOST_CERT, HOST_RANGE, HOST_TAGWRITE, HOST_TUNE and
HOST_INTEGRATOR_FRAME (R402, R409, R414 to R419). -/
def Obligations.HostRequestsAreTaken : Prop :=
  (∀ (s : State) (c : Instr) (h : HostHdr) (typ : Nat) (body : List Byte) (hook : Status × List Byte),
    (hook = (0x02, []) ∧
      ((∃ d, c = .hostStart h d ∧ typ = 0x01 ∧ body = padTo 16 d) ∨ (∃ i : Word, c = .hostStop h i ∧ typ = 0x02 ∧ body = leBytes 4 i.toNat) ∨
       (∃ i : Word, c = .hostCancel h i ∧ typ = 0x03 ∧ body = leBytes 4 i.toNat) ∨
       (∃ (a : Word) (n : Nat), c = .hostRegRead h a n ∧ typ = 0x04 ∧ body = leBytes 4 a.toNat ++ leBytes 2 (min 0xFFFF n)) ∨
       (∃ (a : Word) (ws : List Word), c = .hostRegWrite h a ws ∧ typ = 0x05 ∧
         body = leBytes 4 a.toNat ++ leBytes 2 (min 0xFFFF ws.length) ++ ws.flatMap (fun w => leBytes 4 w.toNat)) ∨
       (∃ q n : Nat, c = .hostJrnRead h q n ∧ typ = 0x06 ∧ body = leBytes 8 q ++ leBytes 1 (min 0xFF n)) ∨
       (∃ q : Nat, c = .hostJrnAck h q ∧ typ = 0x07 ∧ body = leBytes 8 q) ∨ (∃ v : Nat, c = .hostTimeSet h v ∧ typ = 0x08 ∧ body = leBytes 8 v) ∨
       (∃ d, c = .hostDbChunk h d ∧ typ = 0x09 ∧ body = d) ∨ (∃ v : Nat, c = .hostDbCommit h v ∧ typ = 0x0A ∧ body = leBytes 8 v) ∨
       (∃ d, c = .hostPolicy h d ∧ typ = 0x0B ∧ body = d) ∨ (∃ (o : Nat) (d : List Byte), c = .hostImageData h o d ∧ typ = 0x0C ∧ body = leBytes 4 o ++ d) ∨
       (c = .hostImageCommit h ∧ typ = 0x0D ∧ body = []) ∨ (∃ d, c = .hostAttest h d ∧ typ = 0x0E ∧ body = padTo 16 d) ∨
       (c = .hostCert h ∧ typ = 0x0F ∧ body = []) ∨
       (∃ (x y z : Byte) (f : Nat), c = .hostRange h x y z f ∧ typ = 0x10 ∧ body = [x, y, z, 0] ++ leBytes 8 f) ∨
       (∃ (f : Nat) (d : List Byte), c = .hostTagwrite h f d ∧ typ = 0x11 ∧ body = leBytes 8 f ++ padTo 32 d) ∨ (c = .hostTune h ∧ typ = 0x12 ∧ body = [])) ∨
     ∃ x : BitVec 5, c = .hostIntegratorFrame h x body hook.1 hook.2 ∧ typ = 0x60 + x.toNat) →
    let on := canAct s 5 = true ∧ bitOf (regValue s 5 .hostCfg 0) (if h.eth then 1 else 0) = true
    let r := hostReqOf h typ s
    let down : Nat → Bool → State → State := fun d all u =>
      if ringMaster s then ringSend 0x11 d all ringOutHold (dispatchBytes typ h.device.toNat h.bay.toNat 0 0xFF h.seq 0 body) u else u
    let acts : (State → State) → Prop := fun f =>
      let heard : State := f (countEvent 5 0x040 1 (hostHeard h s))
      let again : Status → State := fun a => queueFrame (typ + 0x80) r.bay a (hostClass typ) r.seq [] r.dest heard
      let full := typ ≠ 1 ∧ 8 ≤ (s.link.waiting.filter (fun x => x.typ != 1)).length
      let found := s.link.seqs.find? (fun e => e.1 == h.seq)
      (∀ q a, found = some (q, some a) → exec c s = .next (again a)) ∧
      (∀ q, found = some (q, none) → exec c s = .next heard) ∧
      (found = none → full → exec c s = .next (again 0x01)) ∧
      (found = none → ¬ full → exec c s = .next (hostAct r body hook { heard with link := { heard.link with
        seqs := ((h.seq, none) :: s.link.seqs).take 8
        waiting := s.link.waiting ++ [r] } }))
    (¬ on → exec c s = .next s) ∧
    (on → canAct s 1 = false → exec c s = .next (hostHeard h s)) ∧
    (on → canAct s 1 = true → h.device.toNat ≠ s.boot.strapId → h.device ≠ 0xFF → exec c s =
      .next (down (h.device.toNat % 16) false (countEvent 5 0x040 1 (hostHeard h s)))) ∧
    (on → canAct s 1 = true → h.device.toNat = s.boot.strapId → h.device ≠ 0xFF → acts id) ∧
    (on → canAct s 1 = true → h.device = 0xFF → acts (down 0 true))) ∧
  (∀ (typ bay : Nat) (a : Status) (cls ref : Nat) (body : List Byte) (u : State),
    let f : HostDest → Frame := fun d => ⟨typ, bay, a, cls, u.link.seqNext, ref, body, d, []⟩
    let next := (u.link.seqNext + 1) % 2 ^ 32
    (∀ g ∈ u.link.queued, g.dest = .spi) →
    queueFrame typ bay a cls ref body .spi u = { u with link := { u.link with queued := u.link.queued ++ [f .spi], seqNext := next } } ∧
    (∀ m, canAct u 5 = true → bitOf (regValue u 5 .hostCfg 0) 1 = true → ∃ p, queueFrame typ bay a cls ref body (.eth (some m)) u =
      { u with perf := p, sent := u.sent ++ [.frame (f (.eth (some m)))], link := { u.link with seqNext := next, sentCount := u.link.sentCount + 1 } }))

/-- The effects of HOST_START, HOST_STOP, HOST_CANCEL, HOST_REG_READ, HOST_REG_WRITE, HOST_JRN_READ, HOST_JRN_ACK, HOST_TIME_SET,
HOST_DB_CHUNK, HOST_DB_COMMIT, HOST_POLICY, HOST_IMAGE_DATA, HOST_IMAGE_COMMIT, HOST_ATTEST, HOST_CERT, HOST_RANGE,
HOST_TAGWRITE, HOST_TUNE and HOST_INTEGRATOR_FRAME (R50, R154, R260 to R299, R339, R345, R415). -/
def Obligations.HostRequestEffects : Prop :=
  ∀ (s : State) (h : HostHdr), h.device ≠ 0xFF →
    let at_ : Nat → State := fun typ => hostAccepted h typ s
    let r : Nat → HostReq := fun typ => hostReqOf h typ s
    let ans : Nat → Status → List Byte → State → State := fun typ a body u => answerReq (r typ) a (hostClass typ) body u
    let does : Nat → Instr → State → Prop := fun typ c t => HostAccepts h typ s → exec c s = .next t
    let asks : Nat → Instr → JobKind → Nat → Prop := fun typ c kind b => does typ c (let q := deckRequest kind [hostClass typ] b (at_ typ)
      if q.1 = 0x00 then q.2 else ans typ q.1 [] q.2)
    let b := h.bay.toNat
    let p := getSpan s b
    let off := canAct s 4 = false
    (64 ≤ b → (∀ d, does 0x01 (.hostStart h d) (ans 0x01 0x02 [] (at_ 0x01))) ∧ (∀ i, does 0x02 (.hostStop h i) (ans 0x02 0x02 [] (at_ 0x02))) ∧
      (∀ i, does 0x03 (.hostCancel h i) (ans 0x03 0x02 [] (at_ 0x03))) ∧ (∀ x y z f, does 0x10 (.hostRange h x y z f) (ans 0x10 0x02 [] (at_ 0x10))) ∧
      (∀ f d, does 0x11 (.hostTagwrite h f d) (ans 0x11 0x02 [] (at_ 0x11))) ∧ does 0x12 (.hostTune h) (ans 0x12 0x02 [] (at_ 0x12))) ∧
    (b < 64 →
      (∀ d, p.live = false → spanEnabled s = true → s.span.queue.length < 256 → (∀ e ∈ s.span.queue, ¬ (e.bay = b ∧ e.source = 3)) →
        does 0x01 (.hostStart h d) { at_ 0x01 with span := { s.span with queue := s.span.queue ++ [⟨3, b, s.time.us, padTo 16 d, some (r 0x01)⟩] } }) ∧
      (∀ i : Word,
        (p.id ≠ i.toNat ∨ p.live = false → does 0x02 (.hostStop h i) (ans 0x02 0x02 [] (at_ 0x02)) ∧ does 0x03 (.hostCancel h i) (ans 0x03 0x02 [] (at_ 0x03))) ∧
        (p.id = i.toNat → p.live = true → p.state < 6 →
          (∃ v, EndedAs b 10 0x2C (at_ 0x02) v ∧ does 0x02 (.hostStop h i) (ans 0x02 0x00 [] v)) ∧
          (∃ v, EndedAs b 10 0x2C (at_ 0x03) v ∧ does 0x03 (.hostCancel h i) (ans 0x03 0x00 [] v))) ∧
        (p.id = i.toNat → p.live = true → p.state = 7 → ∃ v, BayStep b (at_ 0x02) v ∧ Recorded b 8 0x00 (at_ 0x02) v ∧ (getSpan v b).state = 8 ∧
          (getSpan v b).closeReason = 1 ∧ (getSpan v b).caps = p.caps ++ [⟨2, s.time.us, none, false⟩] ∧
          (vget none v.span.stops b).map (·.counter) = some p.counter ∧ does 0x02 (.hostStop h i) (ans 0x02 0x00 [] v)) ∧
        (p.id = i.toNat → p.live = true → p.state = 6 ∨ p.state = 8 → does 0x02 (.hostStop h i) (ans 0x02 0x00 [] (at_ 0x02))) ∧
        (p.id = i.toNat → p.live = true → 6 ≤ p.state → does 0x03 (.hostCancel h i) (ans 0x03 0x02 [] (at_ 0x03)))) ∧
      (∀ (x y z : Byte) (f : Nat), f < 2 ^ 64 → asks 0x10 (.hostRange h x y z f) (.range (r 0x10) y.toNat z.toNat f) b) ∧
      (∀ (f : Nat) d, f < 2 ^ 64 →
        (cautionFind s f = none → cautionFree s = none → does 0x11 (.hostTagwrite h f d) (ans 0x11 0x59 [] (at_ 0x11))) ∧
        (cautionFind s f ≠ none ∨ cautionFree s ≠ none →
          asks 0x11 (.hostTagwrite h f d) (.tagWrite (r 0x11) f (padTo 32 d) (cautionFind s f).isSome) b)) ∧
      asks 0x12 (.hostTune h) (.tune (r 0x12)) b) ∧
    (∀ (a : Word) (n : Nat), does 0x04 (.hostRegRead h a n) (if n = 0 ∨ 256 < n then ans 0x04 0x02 [] (at_ 0x04)
      else let x := hostReadWords a.toNat n (at_ 0x04); ans 0x04 x.2.1 x.1 x.2.2)) ∧
    (∀ (a : Word) (ws : List Word), does 0x05 (.hostRegWrite h a ws) (if ws.length = 0 ∨ 256 < ws.length then ans 0x05 0x02 [0, 0] (at_ 0x05)
      else let x := hostWriteWords a.toNat 0 (ws.map (·.toNat)) (at_ 0x05); ans 0x05 x.2.1 (leBytes 2 x.1) x.2.2)) ∧
    (∀ q n : Nat, q < 2 ^ 64 →
      (n = 0 ∨ 32 < n → does 0x06 (.hostJrnRead h q n) (ans 0x06 0x02 [] (at_ 0x06))) ∧
      (1 ≤ n → n ≤ 32 → (off → does 0x06 (.hostJrnRead h q n) (ans 0x06 0x03 [] (at_ 0x06))) ∧
        (¬ off → ∀ k, k ≤ n → (∀ i, i < k → (readRecord s (q + i)).2 = 0x00) → k < n → (readRecord s (q + k)).2 ≠ 0x00 →
          does 0x06 (.hostJrnRead h q n) (ans 0x06 (readRecord s (q + k)).2 ((List.range k).flatMap (fun i => (readRecord s (q + i)).1)) (at_ 0x06))) ∧
        (¬ off → (∀ i, i < n → (readRecord s (q + i)).2 = 0x00) →
          does 0x06 (.hostJrnRead h q n) (ans 0x06 0x00 ((List.range n).flatMap (fun i => (readRecord s (q + i)).1)) (at_ 0x06))))) ∧
    (∀ q : Nat, q < 2 ^ 64 → does 0x07 (.hostJrnAck h q) (
      let u := at_ 0x07
      if canAct s 4 = false then ans 0x07 0x03 [] u else if s.store.head < q then ans 0x07 0xAB [] u
      else if q ≤ s.store.ledger.ackSeq then ans 0x07 0x00 [] u
      else ans 0x07 0x00 [] { u with store := { s.store with changes := s.store.changes ++ [.ack q] } })) ∧
    (∀ utc : Nat, utc < 2 ^ 64 → asks 0x08 (.hostTimeSet h utc) (.timeSet (some (r 0x08)) utc s.time.us) 0) ∧
    (∀ d, asks 0x09 (.hostDbChunk h d) (.dbChunk (r 0x09) (padTo 16560 d)) 0 ∧ asks 0x0B (.hostPolicy h d) (.policy (r 0x0B) (padTo 16384 d)) 0) ∧
    (∀ v : Nat, v < 2 ^ 64 →
      (off → does 0x0A (.hostDbCommit h v) (ans 0x0A 0x03 [] (at_ 0x0A))) ∧
      (¬ off → (∀ x, s.store.update = some x → x.version ≠ v ∨ chunksWritten s ≠ 1040) → does 0x0A (.hostDbCommit h v) (ans 0x0A 0xA9 [] (at_ 0x0A))) ∧
      (∀ x, ¬ off → s.store.update = some x → x.version = v → chunksWritten s = 1040 → does 0x0A (.hostDbCommit h v) { at_ 0x0A with
        store := { s.store with changes := s.store.changes ++ [.cred (1 - s.store.ledger.credArea) v x.seed x.entries] }
        span := { s.span with jobs := s.span.jobs ++ [⟨17, .dbCommit (r 0x0A), none⟩] } })) ∧
    (∀ (o : Nat) (d : List Byte), o < 2 ^ 32 →
      let bad := d.length < 64 ∨ 16384 < d.length ∨ d.length % 64 ≠ 0 ∨ 0xA0000 < o + d.length
      (off → does 0x0C (.hostImageData h o d) (ans 0x0C 0x03 [] (at_ 0x0C))) ∧
      (¬ off → bad ∨ s.store.imgBusy = true → does 0x0C (.hostImageData h o d) (ans 0x0C 0x02 [] (at_ 0x0C))) ∧
      (¬ off → ¬ bad → s.store.imgBusy = false → does 0x0C (.hostImageData h o d) (ans 0x0C 0x00 [] { at_ 0x0C with
        mem := Memory.writeBytes s.mem (0xA0000 * (1 - s.store.ledger.imageBank) + o) d, store := { s.store with imgOpen := true, imgDone := false } }))) ∧
    (let closed : StoreState := { s.store with imgOpen := false }
     (off → does 0x0D (.hostImageCommit h) (ans 0x0D 0x03 [] (at_ 0x0D))) ∧
     (¬ off → s.store.imgBusy = true → does 0x0D (.hostImageCommit h) (ans 0x0D 0x02 [] { at_ 0x0D with store := closed })) ∧
     (¬ off → s.store.imgBusy = false → imageLengthOk s (1 - s.store.ledger.imageBank) = true → does 0x0D (.hostImageCommit h) { at_ 0x0D with
        store := { closed with imgBusy := true, imgDone := false }, span := { s.span with jobs := s.span.jobs ++ [⟨16, .imageVerify (r 0x0D), none⟩] } }) ∧
     (¬ off → s.store.imgBusy = false → imageLengthOk s (1 - s.store.ledger.imageBank) = false → (∀ j ∈ s.span.jobs, j.tag ≠ 16) →
       does 0x0D (.hostImageCommit h) (ans 0x0D 0x02 [] { at_ 0x0D with store := { closed with imgDone := true, imgStatus := 0x02 } }))) ∧
    (∀ d, (canAct s 2 = false → does 0x0E (.hostAttest h d) (ans 0x0E 0x03 [] (at_ 0x0E))) ∧
      (canAct s 2 = true → ∀ j, s.signer.job = some j → does 0x0E (.hostAttest h d) { at_ 0x0E with
        span := { s.span with jobs := s.span.jobs ++ [⟨18, .attest (r 0x0E) (padTo 16 d), none⟩] } }) ∧
      (canAct s 2 = true → s.signer.job = none → (∀ j ∈ s.span.jobs, j.tag ≠ 18) → (∀ j ∈ s.span.jobs, j.kind ≠ .attest (r 0x0E) (padTo 16 d)) →
        does 0x0E (.hostAttest h d) (signerStart ⟨4, 1, 0, none, 0, .attest (r 0x0E) (padTo 16 d)⟩ (at_ 0x0E)))) ∧
    does 0x0F (.hostCert h) (if canAct s 4 = false then ans 0x0F 0x03 [] (at_ 0x0F)
      else ans 0x0F 0x00 (memReadBytes s 0x1CF400 (2 + min (leAt (memReadBytes s 0x1CF400 2) 0 2) 0xBFE)) (at_ 0x0F)) ∧
    (∀ (x : BitVec 5) d a reply, does (0x60 + x.toNat) (.hostIntegratorFrame h x d a reply) (ans (0x60 + x.toNat) a reply (at_ (0x60 + x.toNat))))

/-- SPI_STATUS, SPI_WRITE, SPI_READ, ETH_FRAME, ETH_REASSEMBLY_TIMEOUT and MDIO_ACCESS_DONE (R414, R418, R419, R426). -/
def Obligations.HostPorts : Prop :=
  ∀ s : State,
    let on : Nat → Prop := fun b => canAct s 5 = true ∧ bitOf (regValue s 5 .hostCfg 0) b = true
    let l := s.link
    let first := l.queued.find? (fun f => f.dest == .spi)
    let free := min 65535 Config.hostBuffer
    let stat := free + 65536 * ((match first with | some f => (f.bytes s).length | none => 0) % 65536)
    let clocked : List Byte → State := fun bs => { s with sent := s.sent ++ [.spi stat bs] }
    let parts : List Byte → Nat → Nat → Nat → Nat → List Byte → Prop := fun bs typ device bay q body =>
      ∃ st cls ref : Nat, bs = dispatchBytes typ device bay st cls q ref body ∧ hostType typ = true ∧ device < 256 ∧ bay < 256 ∧ q < 2 ^ 32 ∧ body.length < 65536
    let crcBad : List Byte → Prop := fun bs => bs.length ≠ 20 + leAt bs 2 2 ∨ leAt bs 0 1 ≠ 1 ∨ leAt bs (16 + leAt bs 2 2) 4 ≠ crc32c (bs.take (16 + leAt bs 2 2))
    (¬ on 0 → exec .spiStatus s = .next s ∧ (∀ f, exec (.spiWrite f) s = .next s) ∧ ∀ n, exec (.spiRead n) s = .next s) ∧
    (on 0 → exec .spiStatus s = .next (clocked []) ∧
      (∀ bs : List Byte, free < bs.length → exec (.spiWrite bs) s = .next { clocked [] with link := { l with dropped := min 0xFFFF (l.dropped + 1) } }) ∧
      (∀ bs : List Byte, bs.length ≤ free → crcBad bs → exec (.spiWrite bs) s = .next { clocked [] with link := { l with bad := min 0xFFFF (l.bad + 1) } }) ∧
      (∀ bs typ device bay q body, bs.length ≤ free → parts bs typ device bay q body → exec (.spiWrite bs) s =
        .next (hostTake typ device bay q body .spi (0x02, []) (clocked []))) ∧
      (∀ n, first = none → exec (.spiRead n) s = .next (clocked (List.replicate n 0))) ∧
      (∀ n f, first = some f → let bs := f.bytes s
        (n < bs.length → exec (.spiRead n) s = .next (clocked (bs.take n))) ∧
        (bs.length ≤ n → ∃ p, exec (.spiRead n) s = .next { s with
          perf := p
          sent := s.sent ++ [.spi stat (bs ++ List.replicate (n - bs.length) 0), .frame f]
          link := { l with queued := l.queued.erase f, sentCount := l.sentCount + 1 } }))) ∧
    (∀ (mac : BitVec 48) (msg : BitVec 16) (frag : Byte) (last : Bool) (data : List Byte),
      let c : Instr := .ethFrame mac msg frag last data
      let others := l.reasm.filter (fun r => !(r.mac == mac.toNat && r.msg == msg.toNat))
      let old := l.reasm.find? (fun r => r.mac == mac.toNat && r.msg == msg.toNat)
      let ends : List Byte → Prop := fun m =>
        let bs := m.take (20 + leAt m 2 2)
        let u := { s with link := { l with reasm := others } }
        (crcBad bs → exec c s = .next { u with link := { u.link with bad := min 0xFFFF (l.bad + 1) } }) ∧
        (∀ typ device bay q body, parts bs typ device bay q body → exec c s = .next (drainFrames (modLink (fun x => { x with lastMac := some mac.toNat })
          (hostTake typ device bay q body (.eth (some mac.toNat)) (0x02, []) u))))
      (¬ on 1 ∨ 1496 < data.length → exec c s = .next s) ∧
      (on 1 → data.length ≤ 1496 →
        (frag = 0 → last = false → exec c s = .next { s with link := { l with reasm := others ++ [⟨mac.toNat, msg.toNat, 1, data, s.time.us⟩] } }) ∧
        (frag = 0 → last = true → ends data) ∧
        (frag ≠ 0 → (∀ x, old = some x → x.next ≠ frag.toNat ∨ x.since + 10000 ≤ s.time.us) → exec c s = .next s) ∧
        (∀ x, frag ≠ 0 → old = some x → x.next = frag.toNat → s.time.us < x.since + 10000 →
          (last = false → exec c s = .next { s with link := { l with reasm := others ++ [{ x with next := frag.toNat + 1, data := x.data ++ data }] } }) ∧
          (last = true → ends (x.data ++ data))))) ∧
    (canAct s 5 = true →
      exec .ethReassemblyTimeout s = .next { s with link := { l with
        reasm := l.reasm.filter (fun r => decide (s.time.us < r.since + 10000))
        dropped := min 0xFFFF (l.dropped + (l.reasm.filter (fun r => decide (r.since + 10000 ≤ s.time.us))).length) } } ∧
      ∀ data, (l.mdio = none → exec (.mdioAccessDone data) s = .next s) ∧
        (l.mdio = some false → exec (.mdioAccessDone data) s = .next { s with link := { l with mdio := none } }) ∧
        (l.mdio = some true → exec (.mdioAccessDone data) s = .next { putReg s 5 .mdio 0 (setField (regValue s 5 .mdio 0) 0 16 data.toNat) with
          link := { l with mdio := none } })) ∧
    (canAct s 5 = false → exec .ethReassemblyTimeout s = .next s ∧ ∀ data, exec (.mdioAccessDone data) s = .next s)

/-- COUNTER_HI_WRITE, PMC_OVERFLOW, SNAPSHOT_STROBE, DUMP_ENABLE, FREEZE_REQUEST and FREEZE_RELEASE (R362, R427 to R441). -/
def Obligations.CountersAndFreeze : Prop :=
  ∀ s : State,
    (∀ (ini i : Island) (d : Word), canReach s ini i = true → canAct s i = true →
      let lo : Reg → Nat → Nat := fun r k => SMap.get 0 (shadowKey ini (regAddr i r k)) s.wshadow
      let kept : State → Prop := fun t => answerOf t ini = ⟨[], 0x00⟩ ∧ { t with via := s.via, perf := s.perf, wshadow := s.wshadow } = s
      (∃ t, exec (.counterHiWrite ini (BitVec.ofNat 32 (regAddr i .cycHi 0)) d) s = .next t ∧ kept t ∧ (getPerf t i).cyc = lo .cycLo 0 + 2 ^ 32 * d.toNat) ∧
      ∀ k : Fin 8, ∃ t, exec (.counterHiWrite ini (BitVec.ofNat 32 (regAddr i .pmcHi k)) d) s = .next t ∧ kept t ∧ (getPerf t i).cyc = (getPerf s i).cyc ∧
        vget 0 (getPerf t i).pmc k = lo .pmcLo k + 2 ^ 32 * (d.toNat % 2 ^ 16)) ∧
    (∀ (i : Island) (k : Fin 8) (n : Nat),
      let p := getPerf s i
      let counts := bitOf (regValue s i .perfCtrl 0) (1 + k) = true ∧ pstate s i = .run ∧ s.freeze.frozen = false
      (counts → 2 ^ 48 ≤ vget 0 p.pmc k + n → exec (.pmcOverflow i k n) s = .next { s with perf := vset s.perf i { p with
        pmc := vset p.pmc k ((vget 0 p.pmc k + n) % 2 ^ 48)
        ovf := p.ovf ||| 2 ^ k.val } }) ∧
      (¬ counts → exec (.pmcOverflow i k n) s = .next s)) ∧
    (let period := regValue s 0 .dumpPeriod 0 % 2 ^ 24
     (period = 0 ∨ s.time.us % period ≠ 0 ∨ s.freeze.frozen = true → exec .snapshotStrobe s = .next s) ∧
     (period ≠ 0 → s.time.us % period = 0 → s.freeze.frozen = false → ∃ t, exec .snapshotStrobe s = .next t ∧ t.latched = (latchReg s 0 .dumpPeriod 0).latched ∧
       { t with perf := s.perf, latched := s.latched, dump := s.dump, mem := s.mem, mon := s.mon } = s ∧
       (∀ i : Island, let p := getPerf s i
         let q := getPerf t i
         (q.snapCyc, q.snapPmc, q.snapOvf) = if pstate s i = .run then (p.cyc, p.pmc, p.ovf) else (p.snapCyc, p.snapPmc, p.snapOvf)) ∧
       let cfg := regValue s 1 .dumpCfg 0
       let mask := if cfg / 2 ^ 16 % 2 ^ 14 = 0 then 0x3FFF else cfg / 2 ^ 16 % 2 ^ 14
       let ids := (List.range 14).filter (fun i => bitOf mask i)
       let size := 16 + 64 * ids.length
       let slots := 64 * regValue s 1 .dumpLen 0 / size
       let off := regValue s 1 .dumpBase 0 + s.dump.wptr * size
       let full := slots < 2 ∨ (s.dump.wptr + 1) % slots = s.dump.rptr ∨ 2 ^ 20 < off + size ∨ sealedRange s off size = true
       let absent := (ids.map (fun i => if pstate s i = .run then 0 else 2 ^ i)).foldl (· + ·) 0
       let block : Nat → List Byte := fun i => let p := getPerf s i
         if pstate s i = .run then leBytes 8 p.cyc ++ p.pmc.toList.flatMap (leBytes 6) ++ leBytes 1 p.ovf ++ leBytes 1 i ++ [2, 0, 0, 0, 0, 0]
         else List.replicate 56 0 ++ [0] ++ leBytes 1 i ++ leBytes 1 (pstateCode (pstate s i)) ++ [0, 0, 0, 0, 0]
       let record := leBytes 4 s.dump.seq ++ leBytes 2 mask ++ leBytes 2 absent ++ leBytes 8 s.time.us ++ ids.flatMap block
       let streams := bitOf cfg 1 = true ∧ lifecycle s ≠ 3 ∧ (lifecycle s = 2 → s.mon.unlocked = true)
       (¬ (bitOf cfg 0 = true ∧ pstate s 1 = .run) → t.dump = s.dump ∧ t.mem = s.mem ∧ t.mon = s.mon) ∧
       (bitOf cfg 0 = true → pstate s 1 = .run → full → t.dump = { s.dump with dropped := min 0xFFFF (s.dump.dropped + 1) } ∧ t.mem = s.mem ∧ t.mon = s.mon) ∧
       (bitOf cfg 0 = true → pstate s 1 = .run → ¬ full → t.mem = Memory.writeBytes s.mem (deckSram + off) record ∧
         t.dump = { s.dump with
           seq := (s.dump.seq + 1) % 2 ^ 32
           wptr := (s.dump.wptr + 1) % slots
           rptr := if streams then (s.dump.wptr + 1) % slots else s.dump.rptr
           recPend := true
           records := min 0xFFFF (s.dump.records + 1) } ∧
         t.mon = if streams then { s.mon with sent := s.mon.sent ++ [⟨0x90, 0x00, record⟩] } else s.mon))) ∧
    (∀ ini : Island, canReach s ini 1 = true → canAct s 1 = true → ∃ p, exec (.dumpEnable ini) s = .next (setResp ini [] 0x00
      { putReg s 1 .dumpCfg 0 (regValue s 1 .dumpCfg 0 - regValue s 1 .dumpCfg 0 % 2 + 1) with perf := p, dump := { s.dump with seq := 0, wptr := 0, rptr := 0 } })) ∧
    (∀ src : FreezeSource,
      let woken := { s.park with wakePend := s.park.wakePend ||| 0x80 }
      let asked := match src with | .pin => { s.freeze with pin := true } | .monitor => { s.freeze with mon := true }
      (lifecycle s ≠ 1 → exec (.freezeRequest src) s = .next { s with park := woken }) ∧
      (lifecycle s = 1 → s.freeze.frozen = true ∨ s.park.phase = .querying → exec (.freezeRequest src) s = .next { s with park := woken, freeze := asked }) ∧
      (lifecycle s = 1 → s.freeze.frozen = false → s.park.phase ≠ .idle → s.park.phase ≠ .querying →
        exec (.freezeRequest src) s = .next { s with park := { woken with freezeAtResume := true }, freeze := asked }) ∧
      (lifecycle s = 1 → s.freeze.frozen = false → s.park.phase = .idle → ∃ t, exec (.freezeRequest src) s = .next t ∧
        t.freeze = { asked with frozen := true, start := s.time.us } ∧ t.park = woken ∧ t.rf = { s.rf with air := [] } ∧
        t.lf = { s.lf with released := Vector.replicate 8 true } ∧
        (∀ i : Island, i.val ≠ 0 → canAct t i = false ∧ vget [] t.via.held i = []) ∧
        { t with freeze := s.freeze, park := s.park, rf := s.rf, lf := s.lf, via := s.via, perf := s.perf } = s)) ∧
    (s.freeze.frozen = false ∨ s.freeze.mon = true → exec .freezeRelease s = .next { s with freeze := { s.freeze with pin := false } }) ∧
    (s.freeze.frozen = true → s.freeze.mon = false → ∃ t, exec .freezeRelease s = .next t ∧ t.freeze = { s.freeze with pin := false, frozen := false } ∧
      (∀ i : Island, pstate t i = pstate s i ∧ ∀ at_ tgt, (getCore s i).wait = .timed at_ tgt →
        getCore t i = { getCore s i with late := (getCore s i).late || decide (at_ ≤ s.time.us) }) ∧
      (∀ n : Fin 8, vget false t.lf.released n = !(pstate s (6 + n) == .run)) ∧
      (pstate s 1 = .run →
        (∃ r ∈ t.store.queue, r.typ = 0x09 ∧ r.body.take 16 = leBytes 8 s.freeze.start ++ leBytes 8 s.time.us) ∧
        ∀ b : Bay, let p := getSpan s b
          let passed : Option Nat → Prop := fun d => ∃ x, d = some x ∧ s.freeze.start < x ∧ x ≤ s.time.us
          (2 ≤ p.state ∧ p.state ≤ 4 ∧ passed p.authLeft ∨ p.state = 5 ∧ passed p.relLeft →
            (getSpan t b).state = 11 ∧ (getSpan t b).status = 0x16)))

/-- MON_INFO, MON_READ, MON_WRITE, MON_FREEZE, MON_RELEASE, MON_CORE, MON_INFLIGHT, MON_CHALLENGE, MON_UNLOCK, MON_LOCK,
MON_FRAME_GAP, UNLOCK_TIMEOUT, MON_LOAD and MON_BOOT (R439 to R446, R452). -/
def Obligations.RelorMonitor : Prop :=
  ∀ s : State,
    let lc := lifecycle s
    let loader := s.boot.stage = .loader ∧ lc ≠ 3 ∧ s.freeze.frozen = false
    let served := s.freeze.frozen = true ∨ deckRuns s = true ∨ loader
    let tells : Nat → Status → List Byte → State → State := fun cmd st data u =>
      { u with mon := { u.mon with last := st, lastCmd := u.time.us, sent := u.mon.sent ++ [⟨cmd, st, data⟩] } }
    let gate : Nat → Instr → Status → Prop → Prop := fun cmd c st runs => (¬ served → exec c s = .next s) ∧
      (loader → exec c s = .next (tells cmd 0xE3 [] s)) ∧ (served → ¬ loader → if st = 0x00 then runs else exec c s = .next (tells cmd st [] s))
    let dev : Status := if lc = 1 then 0x00 else 0xE0
    let claimed : Status := if lc = 2 then 0x00 else 0xE0
    (¬ served → exec .monInfo s = .next s) ∧
    (served → exec .monInfo s = .next (tells 0x01 0x00 (leBytes 1 lc ++ leBytes 1 (if s.mon.unlocked then 1 else 0) ++ leBytes 1 (if s.freeze.frozen then 1 else 0) ++ [0] ++
      leBytes 16 Config.serial.toNat ++ padTo 32 s.boot.digest ++ leBytes 8 s.time.us) s)) ∧
    (∀ (a : Word) (n : Nat), gate 0x02 (.monRead a n) (if lc ≤ 1 then 0x00 else if lc = 2 then (if s.mon.unlocked then 0x00 else 0xE1) else 0xE0)
      (exec (.monRead a n) s = .next (
        if n = 0 ∨ 128 < n then tells 0x02 0xE2 [] s
        else if s.freeze.frozen then
          let w := fun i => readoutWord s (a.toNat + 4 * i)
          tells 0x02 ((((List.range n).map (fun i => (w i).2)).find? (fun x => x != 0)).getD 0x00) ((List.range n).flatMap (fun i => leBytes 4 (w i).1)) s
        else let x := monReadWords a.toNat n s; tells 0x02 x.2.1 x.1 x.2.2))) ∧
    (∀ (a : Word) (ws : List Word), gate 0x03 (.monWrite a ws) (if lc ≤ 1 then 0x00 else 0xE0)
      (exec (.monWrite a ws) s = .next (
        if s.freeze.frozen then tells 0x03 0xE5 [] s
        else if ws.length = 0 ∨ 128 < ws.length then tells 0x03 0xE2 [] s
        else match monWriteWords 1 a.toNat ws 0 s with
          | (some (i, st), u) => tells 0x03 st (leBytes 2 i) u
          | (none, u) => tells 0x03 0x00 [0xFF, 0xFF] u))) ∧
    gate 0x04 .monFreeze dev (exec .monFreeze s = exec (.freezeRequest .monitor) (tells 0x04 0x00 [] s)) ∧
    gate 0x05 .monRelease dev (let u := { tells 0x05 0x00 [] s with freeze := { s.freeze with mon := false } }
      exec .monRelease s = if s.freeze.pin then .next u else exec .freezeRelease u) ∧
    (∀ i : Byte, gate 0x06 (.monCore i) dev (exec (.monCore i) s = .next (
      let zeros : List Byte := List.replicate 128 0
      if s.freeze.frozen = false then tells 0x06 0xE4 [] s
      else if hasCore i.toNat = false then tells 0x06 0x17 zeros s
      else if pstate s i.toNat = .off then tells 0x06 0x03 zeros s
      else if i = 2 then tells 0x06 0xE8 zeros s
      else tells 0x06 0x00 ((List.range 16).flatMap (fun r => leBytes 4 ((getCore s i.toNat).gpr (BitVec.ofNat 4 r)).toNat) ++
        (List.range 16).flatMap (fun r => leBytes 4 (readSpecial s i.toNat r).toNat)) s))) ∧
    gate 0x07 .monInflight dev (
      (s.freeze.frozen = false → exec .monInflight s = .next (tells 0x07 0xE4 [] s)) ∧
      (s.freeze.frozen = true → ∃ ph : Nat → Nat, let l := (List.range 14).flatMap (fun i => (vget [] s.via.txns i).map (fun t => (i, t)))
        exec .monInflight s = .next (tells 0x07 0x00 (l.zipIdx.flatMap (fun x => leBytes 1 x.1.1 ++ leBytes 1 ((txnIsland x.1.2).getD 15) ++
          leBytes 1 (match x.1.2.op with | .read _ => if x.1.2.burst then 2 else 0 | .write _ _ => if x.1.2.burst then 3 else 1 | .message _ _ => 4) ++
          leBytes 1 (ph x.2) ++ leBytes 4 x.1.2.addr ++
          leBytes 4 (match x.1.2.op with | .write ws _ => ws.getD 0 0 | .message _ m => (m.extractLsb' 0 32).toNat | .read _ => 0)))
          { s with free := s.free + l.length }))) ∧
    gate 0x08 .monChallenge claimed (exec .monChallenge s = .next (if s.time.us < s.mon.rateUntil then tells 0x08 0xE7 [] s
      else match drawPort 4 s with
        | (.ok nonce, u) => tells 0x08 0x00 nonce { u with mon := { u.mon with nonce := some (nonce, s.time.us) } }
        | (.error st, u) => tells 0x08 st [] u)) ∧
    (∀ sig, gate 0x09 (.monUnlock sig) claimed (
      (s.mon.nonce = none → exec (.monUnlock sig) s = .next (tells 0x09 0xE6 [] s)) ∧
      (∀ nonce t0, s.mon.nonce = some (nonce, t0) →
        let ends : Status → MonState → Prop := fun st m => exec (.monUnlock sig) s = .next (tells 0x09 st [] { s with mon := { m with nonce := none } })
        let good := slotVerify s 3 ([0x52, 0x4C, 0x52, 0x31] ++ leBytes 16 Config.serial.toNat ++ nonce) sig = 0x00
        (t0 + 60000000 ≤ s.time.us → ends 0xE6 s.mon) ∧
        (s.time.us < t0 + 60000000 → good → ends 0x00 { s.mon with unlocked := true, failures := 0 }) ∧
        (s.time.us < t0 + 60000000 → ¬ good → ends 0x06 (if 2 ≤ s.mon.failures then { s.mon with failures := 0, rateUntil := s.time.us + 60000000 }
          else { s.mon with failures := s.mon.failures + 1 }))))) ∧
    gate 0x0A .monLock claimed (exec .monLock s = .next (tells 0x0A 0x00 [] { s with mon := { s.mon with unlocked := false } })) ∧
    exec .monFrameGap s = .next s ∧
    (s.mon.unlocked = true → s.mon.lastCmd + 600000000 ≤ s.time.us → exec .unlockTimeout s = .next { s with mon := { s.mon with unlocked := false } }) ∧
    (s.time.us < s.mon.lastCmd + 600000000 → exec .unlockTimeout s = .next s) ∧
    (∀ (b : Byte) (o : Nat) (d : List Byte),
      (¬ served → exec (.monLoad b o d) s = .next s ∧ exec (.monBoot b) s = .next s) ∧
      (served → ¬ loader → exec (.monLoad b o d) s = .next (tells 0x20 0xE3 [] s) ∧ exec (.monBoot b) s = .next (tells 0x21 0xE3 [] s)) ∧
      (loader → exec (.monLoad b o d) s = .next (if b.toNat < 2 ∧ o % 4 = 0 ∧ d.length ≤ 1016 ∧ o + d.length ≤ 0xA0000
        then tells 0x20 0x00 [] { s with mem := Memory.writeBytes s.mem (0xA0000 * b.toNat + o) d } else tells 0x20 0xE2 [] s)) ∧
      (loader → 2 ≤ b.toNat ∨ headerOk (imageHeader s b.toNat) = false → exec (.monBoot b) s = .next (tells 0x21 0x02 [] s)) ∧
      (loader → b.toNat < 2 → headerOk (imageHeader s b.toNat) = true → bankValid s b.toNat = false → exec (.monBoot b) s = .next (tells 0x21 0x06 [] s)) ∧
      (loader → b.toNat < 2 → bankValid s b.toNat = true → s.boot.wait = .over → ∃ t, exec (.monBoot b) s = .next t ∧ t.mon = (tells 0x21 0x00 [] s).mon ∧
        t.boot = { s.boot with
          stage := .load
          bank := b.toNat
          fallback := false
          digest := imageDigest s b.toNat
          imageVersion := leAt (imageHeader s b.toNat) 8 8 } ∧ .imageBank b.toNat ∈ t.store.changes))

/-- AON_RESET, LC_SUBMIT, LC_CLOSE, SESSION_TIMEOUT and ISLAND_LOAD (R331 to R334, R371, R381, R449 to R451, R461, R462, R467). -/
def Obligations.ResetAndLoading : Prop :=
  ∀ s : State,
    (∀ (cause : ResetCause) (x : Straps),
      let due := ∃ at_, s.boot.submitAt = some at_ ∧ at_ ≤ s.time.us
      (cause = .lifecycle → ¬ due → exec (.aonReset cause x) s = .next s) ∧
      (cause ≠ .lifecycle ∨ due → ∃ t, exec (.aonReset cause x) s = .next t ∧
        let z := State.reset
        { t with
          boot := z.boot, store := z.store, par := z.par, park := z.park, perf := z.perf, cfg := z.cfg, mem := z.mem, sent := z.sent, pending := z.pending
          free := z.free } = z ∧
        (t.sent, t.pending, t.free) = (s.sent, s.pending, s.free) ∧
        t.boot = { z.boot with
          cause := match cause with | .power => 0 | .pin => 1 | .brownout => 2 | .lifecycle => 3
          strapId := x.id
          strapBoot := x.boot
          strapTest := x.test } ∧
        t.store = { z.store with fitted := s.store.fitted, arcFloor := s.store.arcFloor } ∧
        (s.par.reversalCell = false → t.par = z.par ∧ t.park = z.park) ∧
        (s.par.reversalCell = true → Raised 0xD9 0 0 [] { z.par with reversed := true } z t) ∧
        (∀ (i : Nat) (r : Reg) (k : Nat), cause ≠ .lifecycle ∨ regAddr i r k < regAddr 0 .lcBuf 0 ∨ regAddr 0 .lcBuf 0 + 256 ≤ regAddr i r k →
          regValue t i r k = regValue z i r k) ∧
        (MemoryCanonical s → MemoryCanonical t ∧ ∀ a, Memory.read t.mem a = if a < 0x200000 ∨ flashBase ≤ a then Memory.read s.mem a else memDefault a))) ∧
    (∀ ini : Island, canReach s ini 0 = true →
      (∃ p, exec (.lcSubmit ini) s = .next (setResp ini [] 0x00 { s with
        perf := p, boot := { s.boot with submitAt := some (s.boot.submitAt.getD (s.time.us + 1000)) } })) ∧
      (∃ p, exec (.lcClose ini) s = .next (setResp ini [] 0x00 { s with perf := p, boot := { s.boot with session := none } }))) ∧
    (∀ t0, s.boot.session = some t0 → exec .sessionTimeout s = .next (if t0 + 1800000000 ≤ s.time.us then { s with boot := { s.boot with session := none } } else s)) ∧
    (∀ i : Island, hasCore i = true → canAct s 2 = true → pstate s 4 = .run → (getCore s i).lock = false → s.boot.wait = .over → s.store.sigOwed = none →
      s.store.ready = false ∨ s.boot.stage = .ready ∧ s.span.rebuilt = true →
      let order := [3, 6, 7, 8, 9, 10, 11, 12, 13, 1]
      (i.val = 2 ∧ (s.boot.stage = .load ∨ s.boot.stage = .ready)) ∨ (i.val ≠ 2 ∧ s.boot.stage = .ready ∧ pstate s i = .run ∧ (getCore s i).hold = true) ∨
        (i.val ≠ 2 ∧ s.boot.stage = .load ∧ (pstate s i = .off ∨ pstate s i = .run) ∧ ∀ j ∈ order.takeWhile (fun j => j != i.val), (getCore s j).lock = true) →
      ∃ t, exec (.islandLoad i) s = .next t ∧ pstate t i = .run ∧
        (let base := if i.val = 2 then keysSram else sramKey i 0
         let size := if i.val = 2 then 0x20000 else sramSize i
         let segs := (imageSegments (imageHeader s s.boot.bank)).filter (fun e => bitOf (leAt e 0 2) i)
         t.mem = segs.foldl (fun m e => Memory.writeBytes m (base + if leAt e 2 1 = 1 then 0 else leAt e 12 4)
             (memReadBytes s (0xA0000 * s.boot.bank + leAt e 4 4) (leAt e 8 4))) (Memory.clear base (base + size) s.mem) ∧
         (MemoryCanonical s → s.boot.bank ≤ 1 → ∀ e, segs.find? (fun e => leAt e 2 1 == 1) = some e →
           let k := getCore t i
           let entry : Word := BitVec.ofNat 32 (islandBase i + 0x800000 + leAt e 12 4)
           k.lock = true ∧ k.code = leAt e 8 4 / 64 ∧ k.entry = entry ∧ k.pc = entry ∧ k.hold = false ∧ k.halted = false)) ∧
        (∀ c, s.par.restarting = some (i.val, c) → t.par.restarting = none) ∧
        (if i.val = 1 ∧ s.boot.stage = .load then t.boot.stage = .deck ∧ t.power.queue = s.power.queue ++ [⟨.on, 5, 0, 0, 1⟩]
         else t.boot.stage = s.boot.stage ∧ t.power.queue = s.power.queue))

/-- A command that names a channel outside 2 to 81 is refused with 0x69, and the radio's state does not change (R156). -/
def Obligations.BadChannelRefused : Prop :=
  ∀ (ini : Island) (ch : BitVec 7) (aerial : Fin 4) (pwr : BitVec 6) (rate : Bool) (w : Word) (s : State),
    Accepts s ini 3 .rfCmd → bitOf (regValue s 3 .rfCtrl 0) 0 = true →
      (ch.toNat < 2 ∨ 81 < ch.toNat → ∀ i ∈ [Instr.rfCmdSynth ini ch, .rfCmdTx ini ch aerial pwr rate, .rfCmdRx ini ch aerial rate,
          .rfCmdTest ini ch aerial pwr], ∃ p, exec i s = .next (setResp ini [] 0x69 { s with perf := p })) ∧
      (bitsOf w.toNat 0 3 ∈ [2, 3, 4, 6] → bitsOf w.toNat 3 7 < 2 ∨ 81 < bitsOf w.toNat 3 7 →
        ∃ p, exec (.registerWrite ini (BitVec.ofNat 32 (regAddr 3 .rfCmd 0)) w 0xF) s = .next (setResp ini [] 0x69 { s with perf := p }))

/-- With ZW_CFG.ENABLE = 1 the master's LINK refuses every PARK query with reason 1, so the master never parks (R402). -/
def Obligations.MasterRefusesPark : Prop :=
  ∀ s : State, s.boot.strapId = 0 → bitOf (regValue s 5 .zwCfg 0) 0 = true →
    (∀ t0, s.power.serving = none → s.park.phase = .querying → (getQuery s 5).kind = 3 → (getQuery s 5).phase = .awaiting t0 →
      (canReach s 5 0 = true → ∀ (n : BitVec 7) (r : Fin 8), ∀ i ∈ [Instr.pwrReplyAccept 5, .pwrReplyDelay 5 n, .pwrReplyRefuse 5 r],
        ∃ t, exec i s = .next t ∧ answerOf t 5 = ⟨[], 0x00⟩ ∧
          t.park = { s.park with phase := .idle, last := 0x15, refuser := 5, reason := 1 } ∧
          (∀ j : Island, (getQuery t j).phase = .idle) ∧ ∀ φ, exec (.parkCommit φ) t = .next t) ∧
      ∀ φ, exec (.parkCommit φ) s = .next s) ∧
    (∀ ini : Island, ini.val ≠ 5 → pstate s 5 = .run → ∀ t, exec (.parkRequest ini) s = .next t → s.park.phase ≠ .querying → t.park.phase = .querying →
      (getQuery t 5).kind = 3 ∧ (getQuery t 5).phase = .awaiting s.time.us)

/-- A request that finds the queue full is refused with 0x21 and counted; a host start is answered with that status (R46). -/
def Obligations.FullQueueRefuses : Prop :=
  ∀ (bay : Bay) (s : State), canAct s 1 = true → spanEnabled s = true → s.span.queue.length = 256 →
    let counted : State → State := fun t => { t with span := { s.span with drops := min 0xFFFFFFFF (s.span.drops + 1) } }
    let new : Nat → Prop := fun source => ∀ e ∈ s.span.queue, ¬ (e.bay = bay.val ∧ e.source = source)
    ((getSpan s bay).live = false →
      (∀ src n, (src, n) ∈ [(SenseSource.detuning, 0), (.locatedFob, 1)] → new n → vget 0 s.span.retry bay ≤ s.time.us →
        exec (.senseRequest src bay) s = .next (counted s)) ∧
      (new 2 → exec (.senseRequest .tagRead bay) s = .next (counted s))) ∧
    ((getSpan s bay).live = false ∨ (getSpan s bay).state = 8 → new 3 →
      (∀ ident q, exec (.senseRequest (.hostStart ident q) bay) s = .next (answerReq (startReq s bay q) 0x21 2 [] (counted s))) ∧
      (∀ h ident, h.bay.toNat = bay.val → HostAccepts h 0x01 s →
        exec (.hostStart h ident) s = .next (answerReq (hostReqOf h 0x01 s) 0x21 2 [] (counted (hostAccepted h 0x01 s)))))

/-- Decoding and encoding of the Colot instructions agree, both ways (R314 to R321). -/
def Obligations.ColotWordsRoundTrip : Prop :=
  (∀ (i : Instr) (c : Island) (w : Word), encodeColot i = some (c, w) → decodeColot c (colotEcc i) w = some i) ∧
  (∀ (i : Instr) (c : Island) (ecc : EccFinding) (w : Word), decodeColot c ecc w = some i →
    encodeColot i = some (c, w) ∧ (colotEcc i = ecc ∨ colotEcc i = .clean))

/-- Every step keeps a safe state safe, whatever command stands at the front. -/
def Obligations.StepKeepsSafe : Prop :=
  ∀ s t : State, Safe s → step s = .next t → Safe t ∧ t.pending = s.pending.tail

/-- The machine after reset, where the spec gives its values (R9, R27, R83, R157, R449). -/
def Obligations.ResetState : Prop :=
  let s := State.reset
  Safe s ∧ s.mem = [] ∧ s.pending = [] ∧ s.time.us = 0 ∧ (∀ i : Island, pstate s i = if i.val = 0 then .run else .off) ∧
    (∀ i : Island, inboxOf s i = [] ∧ vget [] s.via.txns i = [] ∧ vget [] s.via.held i = []) ∧ (∀ b : Bay, (getSpan s b).live = false) ∧
    s.link.waiting = [] ∧ s.link.queued = [] ∧ s.rf.mode = .off ∧ s.toll.reqs = [] ∧
    (∀ x ∈
      [(7, Reg.perfCtrl, 0x1), (0, .pingCtrl, 0x420481), (0, .pingThr, 0x40C10), (0, .wurxCfg, 0x51),
        (0, .resumeLvl, 0xFFFFF7C), (0, .wakeEn, 0xFF), (0, .alarmLo, 0xFFFFFFFF), (0, .alarmHi, 0xFFFFFFFF),
        (0, .thermCfg, 0x694B0BB8), (0, .parapetFaultEn, 0x7FFF), (0, .monCfg, 0x1A1), (1, .spanCtrl, 0x1F42),
        (1, .tollFloor, 0x7FF), (1, .tollBuscap, 0xC0000), (1, .tollLfi, 0xFAFAFAFA), (1, .dumpCfg, 0x3FFF0000),
        (1, .dumpLen, 0x40), (2, .cipherHold, 0x100), (2, .ctrResv, 0x400), (2, .rngCtrl, 0x10000009),
        (2, .rngHealth, 0x31B29), (3, .synthCfg, 0x10), (3, .bfp, 0x1A), (3, .bfpAa, 0x6E5A19C3), (3, .pwrMax, 0x3C),
        (3, .coexWait, 0x3E8), (3, .reflThr, 0x20), (3, .psrCtrl, 0x1410), (5, .hostCfg, 0x1), (5, .ethType, 0x88B5),
        (5, .mbusCfg, 0x3200), (5, .mbusDiv, 0x30), (5, .mbusReg, 0x1000000), (5, .dbusCfg, 0x641400), (5, .dbusDiv, 0x30),
        (5, .dbusBeacon, 0x1F4), (5, .zwTurn, 0x20000), (6, .lfFreq, 0x1E8480), (13, .lfDrive, 0x48FA19),
        (6, .lfPing, 0xFF010810), (6, .lfPthr, 0x40C10)],
      regValue s x.1 x.2.1 0 = x.2.2) ∧
    bitsOf (regValue s 1 .tollClass 64) 16 16 = 5 ∧ regValue s 1 .tollClass 65 = 2 + 65536 * 50 ∧
    bitsOf (regValue s 1 .tollClass 352) 16 16 = 2000 ∧ regValue s 1 .tollClass 353 = 500 + 65536 * 2047
end

