-- ==== Sys2Proof/Laws/Memory.lean ====
section
/-! SUPPORT. Every memory operation keeps the canonical form; a read after a write gives the byte written at its key and
the byte that was there at every other. -/

namespace Sys2Proof.Machine

/-- A memory above a key stays above a lower one. -/
theorem Memory.above_of_lt {a b : Nat} (m : Memory) (hab : a < b) (h : Memory.above b m = true) : Memory.above a m = true := by
  cases m with
  | nil => rfl
  | cons e m => simp only [Memory.above, decide_eq_true_eq] at h ⊢; omega

/-- Writing at a key above `a` leaves the memory above `a`. -/
theorem Memory.above_write {a k : Nat} (v : Byte) (m : Memory) (hk : a < k) (hw : Memory.wf m = true)
    (h : Memory.above a m = true) : Memory.above a (Memory.write m k v) = true := by
  cases m with
  | nil => simp only [Memory.write]; split <;> simp [Memory.above, hk]
  | cons e m =>
    obtain ⟨j, b⟩ := e
    simp only [Memory.wf, Bool.and_eq_true, decide_eq_true_eq] at hw
    simp only [Memory.above, decide_eq_true_eq] at h
    simp only [Memory.write]
    split
    · split
      · exact Memory.above_of_lt m h hw.1.2
      · simp [Memory.above, hk]
    · split
      · split <;> simp [Memory.above, h, hk]
      · simp [Memory.above, h]

/-- A write keeps the canonical form. -/
theorem Memory.wf_write (k : Nat) (v : Byte) (m : Memory) (hw : Memory.wf m = true) :
    Memory.wf (Memory.write m k v) = true := by
  induction m with
  | nil => simp only [Memory.write]; split <;> simp_all [Memory.wf, Memory.above]
  | cons e m ih =>
    obtain ⟨j, b⟩ := e
    have hw' := hw
    simp only [Memory.wf, Bool.and_eq_true, decide_eq_true_eq] at hw'
    simp only [Memory.write]
    split
    · rename_i hj
      subst hj
      split
      · exact hw'.2
      · simp_all [Memory.wf]
    · split
      · split
        · exact hw
        · simp_all [Memory.wf, Memory.above]
      · simp only [Memory.wf, Bool.and_eq_true, decide_eq_true_eq]
        exact ⟨⟨hw'.1.1, Memory.above_write v m (by omega) hw'.2 hw'.1.2⟩, ih hw'.2⟩

/-- A run of bytes written keeps the canonical form. -/
theorem Memory.wf_writeBytes (bs : List Byte) (a : Nat) (m : Memory) (hw : Memory.wf m = true) :
    Memory.wf (Memory.writeBytes m a bs) = true := by
  induction bs generalizing a m with
  | nil => exact hw
  | cons b bs ih => exact ih _ _ (Memory.wf_write a b m hw)

/-- Clearing a range leaves the memory above a key above it. -/
theorem Memory.above_clear {a : Nat} (lo hi : Nat) (m : Memory) (hw : Memory.wf m = true) (h : Memory.above a m = true) :
    Memory.above a (Memory.clear lo hi m) = true := by
  induction m with
  | nil => rfl
  | cons e m ih =>
    obtain ⟨j, b⟩ := e
    simp only [Memory.wf, Bool.and_eq_true, decide_eq_true_eq] at hw
    simp only [Memory.above, decide_eq_true_eq] at h
    simp only [Memory.clear]
    split
    · exact ih hw.2 (Memory.above_of_lt m h hw.1.2)
    · simp [Memory.above, h]

/-- Clearing a range keeps the canonical form. -/
theorem Memory.wf_clear (lo hi : Nat) (m : Memory) (hw : Memory.wf m = true) : Memory.wf (Memory.clear lo hi m) = true := by
  induction m with
  | nil => rfl
  | cons e m ih =>
    obtain ⟨j, b⟩ := e
    simp only [Memory.wf, Bool.and_eq_true, decide_eq_true_eq] at hw
    simp only [Memory.clear]
    split
    · exact ih hw.2
    · simp only [Memory.wf, Bool.and_eq_true, decide_eq_true_eq]
      exact ⟨⟨hw.1.1, Memory.above_clear lo hi m hw.2 hw.1.2⟩, ih hw.2⟩

/-- A key below everything listed reads as unlisted. -/
theorem Memory.read_above {a : Nat} (m : Memory) (h : Memory.above a m = true) : Memory.read m a = memDefault a := by
  cases m with
  | nil => rfl
  | cons e m =>
    simp only [Memory.above, decide_eq_true_eq] at h
    simp [Memory.read, h, Nat.ne_of_gt h]

/-- A read after a write: the byte written at its key, what was there at every other. -/
theorem Memory.read_write (k : Nat) (v : Byte) (m : Memory) (hw : Memory.wf m = true) (a : Nat) :
    Memory.read (Memory.write m k v) a = if a = k then v else Memory.read m a := by
  induction m with
  | nil =>
    by_cases ha : a = k
    · subst ha
      by_cases hv : v = memDefault a
      · rw [Memory.write, if_pos hv, if_pos rfl, hv]; rfl
      · rw [Memory.write, if_neg hv, if_pos rfl, Memory.read, if_pos rfl]
    · rw [if_neg ha, Memory.write]
      split
      · rfl
      · show (if k = a then v else if a < k then memDefault a else Memory.read [] a) = memDefault a
        rw [if_neg (Ne.symm ha)]; split <;> rfl
  | cons e m ih =>
    obtain ⟨j, b⟩ := e
    simp only [Memory.wf, Bool.and_eq_true, decide_eq_true_eq] at hw
    have hr := Memory.read_above m hw.1.2
    rw [Memory.write]
    by_cases hj : j = k
    · subst hj
      rw [if_pos rfl]
      by_cases ha : a = j
      · subst ha
        rw [if_pos rfl]
        by_cases hv : v = memDefault a
        · rw [if_pos hv, hr, hv]
        · rw [if_neg hv, Memory.read, if_pos rfl]
      · rw [if_neg ha, Memory.read, if_neg (Ne.symm ha)]
        by_cases hv : v = memDefault j
        · rw [if_pos hv]
          split
          · exact Memory.read_above m (Memory.above_of_lt m (by assumption) hw.1.2)
          · rfl
        · rw [if_neg hv, Memory.read, if_neg (Ne.symm ha)]
    · rw [if_neg hj]
      by_cases hk : k < j
      · rw [if_pos hk]
        by_cases ha : a = k
        · subst ha
          rw [if_pos rfl]
          by_cases hv : v = memDefault a
          · rw [if_pos hv, Memory.read, if_neg hj, if_pos hk, hv]
          · rw [if_neg hv, Memory.read, if_pos rfl]
        · rw [if_neg ha]
          by_cases hv : v = memDefault k
          · rw [if_pos hv]
          · rw [if_neg hv, Memory.read, if_neg (Ne.symm ha)]
            by_cases hak : a < k
            · rw [if_pos hak, Memory.read, if_neg (by omega), if_pos (by omega)]
            · rw [if_neg hak]
      · rw [if_neg hk, Memory.read, ih hw.2]
        by_cases ha : a = k
        · subst ha
          rw [if_neg hj, if_neg hk, if_pos rfl, if_pos rfl]
        · simp only [if_neg ha, Memory.read]

/-- The bytes a word's strobes select keep the canonical form. -/
theorem strobeBytes_wf (strb w a : Nat) (s : State) (h : MemoryCanonical s) : MemoryCanonical (strobeBytes strb w a s) := by
  unfold strobeBytes
  generalize List.range 4 = l
  induction l generalizing s with
  | nil => exact h
  | cons i l ih =>
    simp only [List.foldl_cons]
    apply ih
    split
    · exact Memory.wf_write _ _ _ h
    · exact h

/-- Memory bytes written keep the canonical form. -/
theorem memWriteBytes_wf (a : Nat) (bs : List Byte) (s : State) (h : MemoryCanonical s) : MemoryCanonical (memWriteBytes a bs s) :=
  Memory.wf_writeBytes bs a s.mem h

/-- Memory cleared keeps the canonical form. -/
theorem memClear_wf (lo hi : Nat) (s : State) (h : MemoryCanonical s) : MemoryCanonical (memClear lo hi s) :=
  Memory.wf_clear lo hi s.mem h

/-- A word written through the map keeps the canonical form. -/
theorem memWordWrite_wf (ini a w strb : Nat) (s : State) (h : MemoryCanonical s) : MemoryCanonical (memWordWrite ini a w strb s).2 := by
  unfold memWordWrite
  split
  · split
    · exact strobeBytes_wf _ _ _ s h
    · exact h
  · split
    · exact h
    · split
      · exact h
      · exact strobeBytes_wf _ _ _ s h
  · exact h

/-- The memory after reset is canonical. -/
theorem reset_memoryCanonical : MemoryCanonical State.reset := rfl

end Sys2Proof.Machine
end

