-- ==== Sys2Proof/Laws/State.lean ====
section
/-! SUPPORT. What each update of the state leaves alone and what it sets, one lemma per update and field, true by unfolding.
The counters are the only block that counting an event changes. -/

namespace Sys2Proof.Machine

variable (s : State)

@[simp] theorem modVia_time (f : ViaState → ViaState) : (modVia f s).time = s.time := rfl
@[simp] theorem modVia_via (f : ViaState → ViaState) : (modVia f s).via = f s.via := rfl
@[simp] theorem modVia_cores (f : ViaState → ViaState) : (modVia f s).cores = s.cores := rfl
@[simp] theorem modVia_power (f : ViaState → ViaState) : (modVia f s).power = s.power := rfl
@[simp] theorem modVia_park (f : ViaState → ViaState) : (modVia f s).park = s.park := rfl
@[simp] theorem modVia_therm (f : ViaState → ViaState) : (modVia f s).therm = s.therm := rfl
@[simp] theorem modVia_par (f : ViaState → ViaState) : (modVia f s).par = s.par := rfl
@[simp] theorem modVia_perf (f : ViaState → ViaState) : (modVia f s).perf = s.perf := rfl
@[simp] theorem modVia_dump (f : ViaState → ViaState) : (modVia f s).dump = s.dump := rfl
@[simp] theorem modVia_freeze (f : ViaState → ViaState) : (modVia f s).freeze = s.freeze := rfl
@[simp] theorem modVia_mon (f : ViaState → ViaState) : (modVia f s).mon = s.mon := rfl
@[simp] theorem modVia_boot (f : ViaState → ViaState) : (modVia f s).boot = s.boot := rfl
@[simp] theorem modVia_store (f : ViaState → ViaState) : (modVia f s).store = s.store := rfl
@[simp] theorem modVia_lf (f : ViaState → ViaState) : (modVia f s).lf = s.lf := rfl
@[simp] theorem modVia_rf (f : ViaState → ViaState) : (modVia f s).rf = s.rf := rfl
@[simp] theorem modVia_psr (f : ViaState → ViaState) : (modVia f s).psr = s.psr := rfl
@[simp] theorem modVia_cipher (f : ViaState → ViaState) : (modVia f s).cipher = s.cipher := rfl
@[simp] theorem modVia_rng (f : ViaState → ViaState) : (modVia f s).rng = s.rng := rfl
@[simp] theorem modVia_signer (f : ViaState → ViaState) : (modVia f s).signer = s.signer := rfl
@[simp] theorem modVia_span (f : ViaState → ViaState) : (modVia f s).span = s.span := rfl
@[simp] theorem modVia_toll (f : ViaState → ViaState) : (modVia f s).toll = s.toll := rfl
@[simp] theorem modVia_link (f : ViaState → ViaState) : (modVia f s).link = s.link := rfl
@[simp] theorem modVia_zw (f : ViaState → ViaState) : (modVia f s).zw = s.zw := rfl
@[simp] theorem modVia_cfg (f : ViaState → ViaState) : (modVia f s).cfg = s.cfg := rfl
@[simp] theorem modVia_latched (f : ViaState → ViaState) : (modVia f s).latched = s.latched := rfl
@[simp] theorem modVia_shadow (f : ViaState → ViaState) : (modVia f s).shadow = s.shadow := rfl
@[simp] theorem modVia_wshadow (f : ViaState → ViaState) : (modVia f s).wshadow = s.wshadow := rfl
@[simp] theorem modVia_mem (f : ViaState → ViaState) : (modVia f s).mem = s.mem := rfl
@[simp] theorem modVia_sent (f : ViaState → ViaState) : (modVia f s).sent = s.sent := rfl
@[simp] theorem modVia_pending (f : ViaState → ViaState) : (modVia f s).pending = s.pending := rfl
@[simp] theorem modVia_free (f : ViaState → ViaState) : (modVia f s).free = s.free := rfl

@[simp] theorem modPower_time (f : PowerState → PowerState) : (modPower f s).time = s.time := rfl
@[simp] theorem modPower_via (f : PowerState → PowerState) : (modPower f s).via = s.via := rfl
@[simp] theorem modPower_cores (f : PowerState → PowerState) : (modPower f s).cores = s.cores := rfl
@[simp] theorem modPower_power (f : PowerState → PowerState) : (modPower f s).power = f s.power := rfl
@[simp] theorem modPower_park (f : PowerState → PowerState) : (modPower f s).park = s.park := rfl
@[simp] theorem modPower_therm (f : PowerState → PowerState) : (modPower f s).therm = s.therm := rfl
@[simp] theorem modPower_par (f : PowerState → PowerState) : (modPower f s).par = s.par := rfl
@[simp] theorem modPower_perf (f : PowerState → PowerState) : (modPower f s).perf = s.perf := rfl
@[simp] theorem modPower_dump (f : PowerState → PowerState) : (modPower f s).dump = s.dump := rfl
@[simp] theorem modPower_freeze (f : PowerState → PowerState) : (modPower f s).freeze = s.freeze := rfl
@[simp] theorem modPower_mon (f : PowerState → PowerState) : (modPower f s).mon = s.mon := rfl
@[simp] theorem modPower_boot (f : PowerState → PowerState) : (modPower f s).boot = s.boot := rfl
@[simp] theorem modPower_store (f : PowerState → PowerState) : (modPower f s).store = s.store := rfl
@[simp] theorem modPower_lf (f : PowerState → PowerState) : (modPower f s).lf = s.lf := rfl
@[simp] theorem modPower_rf (f : PowerState → PowerState) : (modPower f s).rf = s.rf := rfl
@[simp] theorem modPower_psr (f : PowerState → PowerState) : (modPower f s).psr = s.psr := rfl
@[simp] theorem modPower_cipher (f : PowerState → PowerState) : (modPower f s).cipher = s.cipher := rfl
@[simp] theorem modPower_rng (f : PowerState → PowerState) : (modPower f s).rng = s.rng := rfl
@[simp] theorem modPower_signer (f : PowerState → PowerState) : (modPower f s).signer = s.signer := rfl
@[simp] theorem modPower_span (f : PowerState → PowerState) : (modPower f s).span = s.span := rfl
@[simp] theorem modPower_toll (f : PowerState → PowerState) : (modPower f s).toll = s.toll := rfl
@[simp] theorem modPower_link (f : PowerState → PowerState) : (modPower f s).link = s.link := rfl
@[simp] theorem modPower_zw (f : PowerState → PowerState) : (modPower f s).zw = s.zw := rfl
@[simp] theorem modPower_cfg (f : PowerState → PowerState) : (modPower f s).cfg = s.cfg := rfl
@[simp] theorem modPower_latched (f : PowerState → PowerState) : (modPower f s).latched = s.latched := rfl
@[simp] theorem modPower_shadow (f : PowerState → PowerState) : (modPower f s).shadow = s.shadow := rfl
@[simp] theorem modPower_wshadow (f : PowerState → PowerState) : (modPower f s).wshadow = s.wshadow := rfl
@[simp] theorem modPower_mem (f : PowerState → PowerState) : (modPower f s).mem = s.mem := rfl
@[simp] theorem modPower_sent (f : PowerState → PowerState) : (modPower f s).sent = s.sent := rfl
@[simp] theorem modPower_pending (f : PowerState → PowerState) : (modPower f s).pending = s.pending := rfl
@[simp] theorem modPower_free (f : PowerState → PowerState) : (modPower f s).free = s.free := rfl

@[simp] theorem modPark_time (f : ParkState → ParkState) : (modPark f s).time = s.time := rfl
@[simp] theorem modPark_via (f : ParkState → ParkState) : (modPark f s).via = s.via := rfl
@[simp] theorem modPark_cores (f : ParkState → ParkState) : (modPark f s).cores = s.cores := rfl
@[simp] theorem modPark_power (f : ParkState → ParkState) : (modPark f s).power = s.power := rfl
@[simp] theorem modPark_park (f : ParkState → ParkState) : (modPark f s).park = f s.park := rfl
@[simp] theorem modPark_therm (f : ParkState → ParkState) : (modPark f s).therm = s.therm := rfl
@[simp] theorem modPark_par (f : ParkState → ParkState) : (modPark f s).par = s.par := rfl
@[simp] theorem modPark_perf (f : ParkState → ParkState) : (modPark f s).perf = s.perf := rfl
@[simp] theorem modPark_dump (f : ParkState → ParkState) : (modPark f s).dump = s.dump := rfl
@[simp] theorem modPark_freeze (f : ParkState → ParkState) : (modPark f s).freeze = s.freeze := rfl
@[simp] theorem modPark_mon (f : ParkState → ParkState) : (modPark f s).mon = s.mon := rfl
@[simp] theorem modPark_boot (f : ParkState → ParkState) : (modPark f s).boot = s.boot := rfl
@[simp] theorem modPark_store (f : ParkState → ParkState) : (modPark f s).store = s.store := rfl
@[simp] theorem modPark_lf (f : ParkState → ParkState) : (modPark f s).lf = s.lf := rfl
@[simp] theorem modPark_rf (f : ParkState → ParkState) : (modPark f s).rf = s.rf := rfl
@[simp] theorem modPark_psr (f : ParkState → ParkState) : (modPark f s).psr = s.psr := rfl
@[simp] theorem modPark_cipher (f : ParkState → ParkState) : (modPark f s).cipher = s.cipher := rfl
@[simp] theorem modPark_rng (f : ParkState → ParkState) : (modPark f s).rng = s.rng := rfl
@[simp] theorem modPark_signer (f : ParkState → ParkState) : (modPark f s).signer = s.signer := rfl
@[simp] theorem modPark_span (f : ParkState → ParkState) : (modPark f s).span = s.span := rfl
@[simp] theorem modPark_toll (f : ParkState → ParkState) : (modPark f s).toll = s.toll := rfl
@[simp] theorem modPark_link (f : ParkState → ParkState) : (modPark f s).link = s.link := rfl
@[simp] theorem modPark_zw (f : ParkState → ParkState) : (modPark f s).zw = s.zw := rfl
@[simp] theorem modPark_cfg (f : ParkState → ParkState) : (modPark f s).cfg = s.cfg := rfl
@[simp] theorem modPark_latched (f : ParkState → ParkState) : (modPark f s).latched = s.latched := rfl
@[simp] theorem modPark_shadow (f : ParkState → ParkState) : (modPark f s).shadow = s.shadow := rfl
@[simp] theorem modPark_wshadow (f : ParkState → ParkState) : (modPark f s).wshadow = s.wshadow := rfl
@[simp] theorem modPark_mem (f : ParkState → ParkState) : (modPark f s).mem = s.mem := rfl
@[simp] theorem modPark_sent (f : ParkState → ParkState) : (modPark f s).sent = s.sent := rfl
@[simp] theorem modPark_pending (f : ParkState → ParkState) : (modPark f s).pending = s.pending := rfl
@[simp] theorem modPark_free (f : ParkState → ParkState) : (modPark f s).free = s.free := rfl

@[simp] theorem modTherm_time (f : ThermState → ThermState) : (modTherm f s).time = s.time := rfl
@[simp] theorem modTherm_via (f : ThermState → ThermState) : (modTherm f s).via = s.via := rfl
@[simp] theorem modTherm_cores (f : ThermState → ThermState) : (modTherm f s).cores = s.cores := rfl
@[simp] theorem modTherm_power (f : ThermState → ThermState) : (modTherm f s).power = s.power := rfl
@[simp] theorem modTherm_park (f : ThermState → ThermState) : (modTherm f s).park = s.park := rfl
@[simp] theorem modTherm_therm (f : ThermState → ThermState) : (modTherm f s).therm = f s.therm := rfl
@[simp] theorem modTherm_par (f : ThermState → ThermState) : (modTherm f s).par = s.par := rfl
@[simp] theorem modTherm_perf (f : ThermState → ThermState) : (modTherm f s).perf = s.perf := rfl
@[simp] theorem modTherm_dump (f : ThermState → ThermState) : (modTherm f s).dump = s.dump := rfl
@[simp] theorem modTherm_freeze (f : ThermState → ThermState) : (modTherm f s).freeze = s.freeze := rfl
@[simp] theorem modTherm_mon (f : ThermState → ThermState) : (modTherm f s).mon = s.mon := rfl
@[simp] theorem modTherm_boot (f : ThermState → ThermState) : (modTherm f s).boot = s.boot := rfl
@[simp] theorem modTherm_store (f : ThermState → ThermState) : (modTherm f s).store = s.store := rfl
@[simp] theorem modTherm_lf (f : ThermState → ThermState) : (modTherm f s).lf = s.lf := rfl
@[simp] theorem modTherm_rf (f : ThermState → ThermState) : (modTherm f s).rf = s.rf := rfl
@[simp] theorem modTherm_psr (f : ThermState → ThermState) : (modTherm f s).psr = s.psr := rfl
@[simp] theorem modTherm_cipher (f : ThermState → ThermState) : (modTherm f s).cipher = s.cipher := rfl
@[simp] theorem modTherm_rng (f : ThermState → ThermState) : (modTherm f s).rng = s.rng := rfl
@[simp] theorem modTherm_signer (f : ThermState → ThermState) : (modTherm f s).signer = s.signer := rfl
@[simp] theorem modTherm_span (f : ThermState → ThermState) : (modTherm f s).span = s.span := rfl
@[simp] theorem modTherm_toll (f : ThermState → ThermState) : (modTherm f s).toll = s.toll := rfl
@[simp] theorem modTherm_link (f : ThermState → ThermState) : (modTherm f s).link = s.link := rfl
@[simp] theorem modTherm_zw (f : ThermState → ThermState) : (modTherm f s).zw = s.zw := rfl
@[simp] theorem modTherm_cfg (f : ThermState → ThermState) : (modTherm f s).cfg = s.cfg := rfl
@[simp] theorem modTherm_latched (f : ThermState → ThermState) : (modTherm f s).latched = s.latched := rfl
@[simp] theorem modTherm_shadow (f : ThermState → ThermState) : (modTherm f s).shadow = s.shadow := rfl
@[simp] theorem modTherm_wshadow (f : ThermState → ThermState) : (modTherm f s).wshadow = s.wshadow := rfl
@[simp] theorem modTherm_mem (f : ThermState → ThermState) : (modTherm f s).mem = s.mem := rfl
@[simp] theorem modTherm_sent (f : ThermState → ThermState) : (modTherm f s).sent = s.sent := rfl
@[simp] theorem modTherm_pending (f : ThermState → ThermState) : (modTherm f s).pending = s.pending := rfl
@[simp] theorem modTherm_free (f : ThermState → ThermState) : (modTherm f s).free = s.free := rfl

@[simp] theorem modPar_time (f : ParapetState → ParapetState) : (modPar f s).time = s.time := rfl
@[simp] theorem modPar_via (f : ParapetState → ParapetState) : (modPar f s).via = s.via := rfl
@[simp] theorem modPar_cores (f : ParapetState → ParapetState) : (modPar f s).cores = s.cores := rfl
@[simp] theorem modPar_power (f : ParapetState → ParapetState) : (modPar f s).power = s.power := rfl
@[simp] theorem modPar_park (f : ParapetState → ParapetState) : (modPar f s).park = s.park := rfl
@[simp] theorem modPar_therm (f : ParapetState → ParapetState) : (modPar f s).therm = s.therm := rfl
@[simp] theorem modPar_par (f : ParapetState → ParapetState) : (modPar f s).par = f s.par := rfl
@[simp] theorem modPar_perf (f : ParapetState → ParapetState) : (modPar f s).perf = s.perf := rfl
@[simp] theorem modPar_dump (f : ParapetState → ParapetState) : (modPar f s).dump = s.dump := rfl
@[simp] theorem modPar_freeze (f : ParapetState → ParapetState) : (modPar f s).freeze = s.freeze := rfl
@[simp] theorem modPar_mon (f : ParapetState → ParapetState) : (modPar f s).mon = s.mon := rfl
@[simp] theorem modPar_boot (f : ParapetState → ParapetState) : (modPar f s).boot = s.boot := rfl
@[simp] theorem modPar_store (f : ParapetState → ParapetState) : (modPar f s).store = s.store := rfl
@[simp] theorem modPar_lf (f : ParapetState → ParapetState) : (modPar f s).lf = s.lf := rfl
@[simp] theorem modPar_rf (f : ParapetState → ParapetState) : (modPar f s).rf = s.rf := rfl
@[simp] theorem modPar_psr (f : ParapetState → ParapetState) : (modPar f s).psr = s.psr := rfl
@[simp] theorem modPar_cipher (f : ParapetState → ParapetState) : (modPar f s).cipher = s.cipher := rfl
@[simp] theorem modPar_rng (f : ParapetState → ParapetState) : (modPar f s).rng = s.rng := rfl
@[simp] theorem modPar_signer (f : ParapetState → ParapetState) : (modPar f s).signer = s.signer := rfl
@[simp] theorem modPar_span (f : ParapetState → ParapetState) : (modPar f s).span = s.span := rfl
@[simp] theorem modPar_toll (f : ParapetState → ParapetState) : (modPar f s).toll = s.toll := rfl
@[simp] theorem modPar_link (f : ParapetState → ParapetState) : (modPar f s).link = s.link := rfl
@[simp] theorem modPar_zw (f : ParapetState → ParapetState) : (modPar f s).zw = s.zw := rfl
@[simp] theorem modPar_cfg (f : ParapetState → ParapetState) : (modPar f s).cfg = s.cfg := rfl
@[simp] theorem modPar_latched (f : ParapetState → ParapetState) : (modPar f s).latched = s.latched := rfl
@[simp] theorem modPar_shadow (f : ParapetState → ParapetState) : (modPar f s).shadow = s.shadow := rfl
@[simp] theorem modPar_wshadow (f : ParapetState → ParapetState) : (modPar f s).wshadow = s.wshadow := rfl
@[simp] theorem modPar_mem (f : ParapetState → ParapetState) : (modPar f s).mem = s.mem := rfl
@[simp] theorem modPar_sent (f : ParapetState → ParapetState) : (modPar f s).sent = s.sent := rfl
@[simp] theorem modPar_pending (f : ParapetState → ParapetState) : (modPar f s).pending = s.pending := rfl
@[simp] theorem modPar_free (f : ParapetState → ParapetState) : (modPar f s).free = s.free := rfl

@[simp] theorem modTime_time (f : TimeState → TimeState) : (modTime f s).time = f s.time := rfl
@[simp] theorem modTime_via (f : TimeState → TimeState) : (modTime f s).via = s.via := rfl
@[simp] theorem modTime_cores (f : TimeState → TimeState) : (modTime f s).cores = s.cores := rfl
@[simp] theorem modTime_power (f : TimeState → TimeState) : (modTime f s).power = s.power := rfl
@[simp] theorem modTime_park (f : TimeState → TimeState) : (modTime f s).park = s.park := rfl
@[simp] theorem modTime_therm (f : TimeState → TimeState) : (modTime f s).therm = s.therm := rfl
@[simp] theorem modTime_par (f : TimeState → TimeState) : (modTime f s).par = s.par := rfl
@[simp] theorem modTime_perf (f : TimeState → TimeState) : (modTime f s).perf = s.perf := rfl
@[simp] theorem modTime_dump (f : TimeState → TimeState) : (modTime f s).dump = s.dump := rfl
@[simp] theorem modTime_freeze (f : TimeState → TimeState) : (modTime f s).freeze = s.freeze := rfl
@[simp] theorem modTime_mon (f : TimeState → TimeState) : (modTime f s).mon = s.mon := rfl
@[simp] theorem modTime_boot (f : TimeState → TimeState) : (modTime f s).boot = s.boot := rfl
@[simp] theorem modTime_store (f : TimeState → TimeState) : (modTime f s).store = s.store := rfl
@[simp] theorem modTime_lf (f : TimeState → TimeState) : (modTime f s).lf = s.lf := rfl
@[simp] theorem modTime_rf (f : TimeState → TimeState) : (modTime f s).rf = s.rf := rfl
@[simp] theorem modTime_psr (f : TimeState → TimeState) : (modTime f s).psr = s.psr := rfl
@[simp] theorem modTime_cipher (f : TimeState → TimeState) : (modTime f s).cipher = s.cipher := rfl
@[simp] theorem modTime_rng (f : TimeState → TimeState) : (modTime f s).rng = s.rng := rfl
@[simp] theorem modTime_signer (f : TimeState → TimeState) : (modTime f s).signer = s.signer := rfl
@[simp] theorem modTime_span (f : TimeState → TimeState) : (modTime f s).span = s.span := rfl
@[simp] theorem modTime_toll (f : TimeState → TimeState) : (modTime f s).toll = s.toll := rfl
@[simp] theorem modTime_link (f : TimeState → TimeState) : (modTime f s).link = s.link := rfl
@[simp] theorem modTime_zw (f : TimeState → TimeState) : (modTime f s).zw = s.zw := rfl
@[simp] theorem modTime_cfg (f : TimeState → TimeState) : (modTime f s).cfg = s.cfg := rfl
@[simp] theorem modTime_latched (f : TimeState → TimeState) : (modTime f s).latched = s.latched := rfl
@[simp] theorem modTime_shadow (f : TimeState → TimeState) : (modTime f s).shadow = s.shadow := rfl
@[simp] theorem modTime_wshadow (f : TimeState → TimeState) : (modTime f s).wshadow = s.wshadow := rfl
@[simp] theorem modTime_mem (f : TimeState → TimeState) : (modTime f s).mem = s.mem := rfl
@[simp] theorem modTime_sent (f : TimeState → TimeState) : (modTime f s).sent = s.sent := rfl
@[simp] theorem modTime_pending (f : TimeState → TimeState) : (modTime f s).pending = s.pending := rfl
@[simp] theorem modTime_free (f : TimeState → TimeState) : (modTime f s).free = s.free := rfl

@[simp] theorem modDump_time (f : DumpState → DumpState) : (modDump f s).time = s.time := rfl
@[simp] theorem modDump_via (f : DumpState → DumpState) : (modDump f s).via = s.via := rfl
@[simp] theorem modDump_cores (f : DumpState → DumpState) : (modDump f s).cores = s.cores := rfl
@[simp] theorem modDump_power (f : DumpState → DumpState) : (modDump f s).power = s.power := rfl
@[simp] theorem modDump_park (f : DumpState → DumpState) : (modDump f s).park = s.park := rfl
@[simp] theorem modDump_therm (f : DumpState → DumpState) : (modDump f s).therm = s.therm := rfl
@[simp] theorem modDump_par (f : DumpState → DumpState) : (modDump f s).par = s.par := rfl
@[simp] theorem modDump_perf (f : DumpState → DumpState) : (modDump f s).perf = s.perf := rfl
@[simp] theorem modDump_dump (f : DumpState → DumpState) : (modDump f s).dump = f s.dump := rfl
@[simp] theorem modDump_freeze (f : DumpState → DumpState) : (modDump f s).freeze = s.freeze := rfl
@[simp] theorem modDump_mon (f : DumpState → DumpState) : (modDump f s).mon = s.mon := rfl
@[simp] theorem modDump_boot (f : DumpState → DumpState) : (modDump f s).boot = s.boot := rfl
@[simp] theorem modDump_store (f : DumpState → DumpState) : (modDump f s).store = s.store := rfl
@[simp] theorem modDump_lf (f : DumpState → DumpState) : (modDump f s).lf = s.lf := rfl
@[simp] theorem modDump_rf (f : DumpState → DumpState) : (modDump f s).rf = s.rf := rfl
@[simp] theorem modDump_psr (f : DumpState → DumpState) : (modDump f s).psr = s.psr := rfl
@[simp] theorem modDump_cipher (f : DumpState → DumpState) : (modDump f s).cipher = s.cipher := rfl
@[simp] theorem modDump_rng (f : DumpState → DumpState) : (modDump f s).rng = s.rng := rfl
@[simp] theorem modDump_signer (f : DumpState → DumpState) : (modDump f s).signer = s.signer := rfl
@[simp] theorem modDump_span (f : DumpState → DumpState) : (modDump f s).span = s.span := rfl
@[simp] theorem modDump_toll (f : DumpState → DumpState) : (modDump f s).toll = s.toll := rfl
@[simp] theorem modDump_link (f : DumpState → DumpState) : (modDump f s).link = s.link := rfl
@[simp] theorem modDump_zw (f : DumpState → DumpState) : (modDump f s).zw = s.zw := rfl
@[simp] theorem modDump_cfg (f : DumpState → DumpState) : (modDump f s).cfg = s.cfg := rfl
@[simp] theorem modDump_latched (f : DumpState → DumpState) : (modDump f s).latched = s.latched := rfl
@[simp] theorem modDump_shadow (f : DumpState → DumpState) : (modDump f s).shadow = s.shadow := rfl
@[simp] theorem modDump_wshadow (f : DumpState → DumpState) : (modDump f s).wshadow = s.wshadow := rfl
@[simp] theorem modDump_mem (f : DumpState → DumpState) : (modDump f s).mem = s.mem := rfl
@[simp] theorem modDump_sent (f : DumpState → DumpState) : (modDump f s).sent = s.sent := rfl
@[simp] theorem modDump_pending (f : DumpState → DumpState) : (modDump f s).pending = s.pending := rfl
@[simp] theorem modDump_free (f : DumpState → DumpState) : (modDump f s).free = s.free := rfl

@[simp] theorem modMon_time (f : MonState → MonState) : (modMon f s).time = s.time := rfl
@[simp] theorem modMon_via (f : MonState → MonState) : (modMon f s).via = s.via := rfl
@[simp] theorem modMon_cores (f : MonState → MonState) : (modMon f s).cores = s.cores := rfl
@[simp] theorem modMon_power (f : MonState → MonState) : (modMon f s).power = s.power := rfl
@[simp] theorem modMon_park (f : MonState → MonState) : (modMon f s).park = s.park := rfl
@[simp] theorem modMon_therm (f : MonState → MonState) : (modMon f s).therm = s.therm := rfl
@[simp] theorem modMon_par (f : MonState → MonState) : (modMon f s).par = s.par := rfl
@[simp] theorem modMon_perf (f : MonState → MonState) : (modMon f s).perf = s.perf := rfl
@[simp] theorem modMon_dump (f : MonState → MonState) : (modMon f s).dump = s.dump := rfl
@[simp] theorem modMon_freeze (f : MonState → MonState) : (modMon f s).freeze = s.freeze := rfl
@[simp] theorem modMon_mon (f : MonState → MonState) : (modMon f s).mon = f s.mon := rfl
@[simp] theorem modMon_boot (f : MonState → MonState) : (modMon f s).boot = s.boot := rfl
@[simp] theorem modMon_store (f : MonState → MonState) : (modMon f s).store = s.store := rfl
@[simp] theorem modMon_lf (f : MonState → MonState) : (modMon f s).lf = s.lf := rfl
@[simp] theorem modMon_rf (f : MonState → MonState) : (modMon f s).rf = s.rf := rfl
@[simp] theorem modMon_psr (f : MonState → MonState) : (modMon f s).psr = s.psr := rfl
@[simp] theorem modMon_cipher (f : MonState → MonState) : (modMon f s).cipher = s.cipher := rfl
@[simp] theorem modMon_rng (f : MonState → MonState) : (modMon f s).rng = s.rng := rfl
@[simp] theorem modMon_signer (f : MonState → MonState) : (modMon f s).signer = s.signer := rfl
@[simp] theorem modMon_span (f : MonState → MonState) : (modMon f s).span = s.span := rfl
@[simp] theorem modMon_toll (f : MonState → MonState) : (modMon f s).toll = s.toll := rfl
@[simp] theorem modMon_link (f : MonState → MonState) : (modMon f s).link = s.link := rfl
@[simp] theorem modMon_zw (f : MonState → MonState) : (modMon f s).zw = s.zw := rfl
@[simp] theorem modMon_cfg (f : MonState → MonState) : (modMon f s).cfg = s.cfg := rfl
@[simp] theorem modMon_latched (f : MonState → MonState) : (modMon f s).latched = s.latched := rfl
@[simp] theorem modMon_shadow (f : MonState → MonState) : (modMon f s).shadow = s.shadow := rfl
@[simp] theorem modMon_wshadow (f : MonState → MonState) : (modMon f s).wshadow = s.wshadow := rfl
@[simp] theorem modMon_mem (f : MonState → MonState) : (modMon f s).mem = s.mem := rfl
@[simp] theorem modMon_sent (f : MonState → MonState) : (modMon f s).sent = s.sent := rfl
@[simp] theorem modMon_pending (f : MonState → MonState) : (modMon f s).pending = s.pending := rfl
@[simp] theorem modMon_free (f : MonState → MonState) : (modMon f s).free = s.free := rfl

@[simp] theorem modBoot_time (f : BootState → BootState) : (modBoot f s).time = s.time := rfl
@[simp] theorem modBoot_via (f : BootState → BootState) : (modBoot f s).via = s.via := rfl
@[simp] theorem modBoot_cores (f : BootState → BootState) : (modBoot f s).cores = s.cores := rfl
@[simp] theorem modBoot_power (f : BootState → BootState) : (modBoot f s).power = s.power := rfl
@[simp] theorem modBoot_park (f : BootState → BootState) : (modBoot f s).park = s.park := rfl
@[simp] theorem modBoot_therm (f : BootState → BootState) : (modBoot f s).therm = s.therm := rfl
@[simp] theorem modBoot_par (f : BootState → BootState) : (modBoot f s).par = s.par := rfl
@[simp] theorem modBoot_perf (f : BootState → BootState) : (modBoot f s).perf = s.perf := rfl
@[simp] theorem modBoot_dump (f : BootState → BootState) : (modBoot f s).dump = s.dump := rfl
@[simp] theorem modBoot_freeze (f : BootState → BootState) : (modBoot f s).freeze = s.freeze := rfl
@[simp] theorem modBoot_mon (f : BootState → BootState) : (modBoot f s).mon = s.mon := rfl
@[simp] theorem modBoot_boot (f : BootState → BootState) : (modBoot f s).boot = f s.boot := rfl
@[simp] theorem modBoot_store (f : BootState → BootState) : (modBoot f s).store = s.store := rfl
@[simp] theorem modBoot_lf (f : BootState → BootState) : (modBoot f s).lf = s.lf := rfl
@[simp] theorem modBoot_rf (f : BootState → BootState) : (modBoot f s).rf = s.rf := rfl
@[simp] theorem modBoot_psr (f : BootState → BootState) : (modBoot f s).psr = s.psr := rfl
@[simp] theorem modBoot_cipher (f : BootState → BootState) : (modBoot f s).cipher = s.cipher := rfl
@[simp] theorem modBoot_rng (f : BootState → BootState) : (modBoot f s).rng = s.rng := rfl
@[simp] theorem modBoot_signer (f : BootState → BootState) : (modBoot f s).signer = s.signer := rfl
@[simp] theorem modBoot_span (f : BootState → BootState) : (modBoot f s).span = s.span := rfl
@[simp] theorem modBoot_toll (f : BootState → BootState) : (modBoot f s).toll = s.toll := rfl
@[simp] theorem modBoot_link (f : BootState → BootState) : (modBoot f s).link = s.link := rfl
@[simp] theorem modBoot_zw (f : BootState → BootState) : (modBoot f s).zw = s.zw := rfl
@[simp] theorem modBoot_cfg (f : BootState → BootState) : (modBoot f s).cfg = s.cfg := rfl
@[simp] theorem modBoot_latched (f : BootState → BootState) : (modBoot f s).latched = s.latched := rfl
@[simp] theorem modBoot_shadow (f : BootState → BootState) : (modBoot f s).shadow = s.shadow := rfl
@[simp] theorem modBoot_wshadow (f : BootState → BootState) : (modBoot f s).wshadow = s.wshadow := rfl
@[simp] theorem modBoot_mem (f : BootState → BootState) : (modBoot f s).mem = s.mem := rfl
@[simp] theorem modBoot_sent (f : BootState → BootState) : (modBoot f s).sent = s.sent := rfl
@[simp] theorem modBoot_pending (f : BootState → BootState) : (modBoot f s).pending = s.pending := rfl
@[simp] theorem modBoot_free (f : BootState → BootState) : (modBoot f s).free = s.free := rfl

@[simp] theorem modStore_time (f : StoreState → StoreState) : (modStore f s).time = s.time := rfl
@[simp] theorem modStore_via (f : StoreState → StoreState) : (modStore f s).via = s.via := rfl
@[simp] theorem modStore_cores (f : StoreState → StoreState) : (modStore f s).cores = s.cores := rfl
@[simp] theorem modStore_power (f : StoreState → StoreState) : (modStore f s).power = s.power := rfl
@[simp] theorem modStore_park (f : StoreState → StoreState) : (modStore f s).park = s.park := rfl
@[simp] theorem modStore_therm (f : StoreState → StoreState) : (modStore f s).therm = s.therm := rfl
@[simp] theorem modStore_par (f : StoreState → StoreState) : (modStore f s).par = s.par := rfl
@[simp] theorem modStore_perf (f : StoreState → StoreState) : (modStore f s).perf = s.perf := rfl
@[simp] theorem modStore_dump (f : StoreState → StoreState) : (modStore f s).dump = s.dump := rfl
@[simp] theorem modStore_freeze (f : StoreState → StoreState) : (modStore f s).freeze = s.freeze := rfl
@[simp] theorem modStore_mon (f : StoreState → StoreState) : (modStore f s).mon = s.mon := rfl
@[simp] theorem modStore_boot (f : StoreState → StoreState) : (modStore f s).boot = s.boot := rfl
@[simp] theorem modStore_store (f : StoreState → StoreState) : (modStore f s).store = f s.store := rfl
@[simp] theorem modStore_lf (f : StoreState → StoreState) : (modStore f s).lf = s.lf := rfl
@[simp] theorem modStore_rf (f : StoreState → StoreState) : (modStore f s).rf = s.rf := rfl
@[simp] theorem modStore_psr (f : StoreState → StoreState) : (modStore f s).psr = s.psr := rfl
@[simp] theorem modStore_cipher (f : StoreState → StoreState) : (modStore f s).cipher = s.cipher := rfl
@[simp] theorem modStore_rng (f : StoreState → StoreState) : (modStore f s).rng = s.rng := rfl
@[simp] theorem modStore_signer (f : StoreState → StoreState) : (modStore f s).signer = s.signer := rfl
@[simp] theorem modStore_span (f : StoreState → StoreState) : (modStore f s).span = s.span := rfl
@[simp] theorem modStore_toll (f : StoreState → StoreState) : (modStore f s).toll = s.toll := rfl
@[simp] theorem modStore_link (f : StoreState → StoreState) : (modStore f s).link = s.link := rfl
@[simp] theorem modStore_zw (f : StoreState → StoreState) : (modStore f s).zw = s.zw := rfl
@[simp] theorem modStore_cfg (f : StoreState → StoreState) : (modStore f s).cfg = s.cfg := rfl
@[simp] theorem modStore_latched (f : StoreState → StoreState) : (modStore f s).latched = s.latched := rfl
@[simp] theorem modStore_shadow (f : StoreState → StoreState) : (modStore f s).shadow = s.shadow := rfl
@[simp] theorem modStore_wshadow (f : StoreState → StoreState) : (modStore f s).wshadow = s.wshadow := rfl
@[simp] theorem modStore_mem (f : StoreState → StoreState) : (modStore f s).mem = s.mem := rfl
@[simp] theorem modStore_sent (f : StoreState → StoreState) : (modStore f s).sent = s.sent := rfl
@[simp] theorem modStore_pending (f : StoreState → StoreState) : (modStore f s).pending = s.pending := rfl
@[simp] theorem modStore_free (f : StoreState → StoreState) : (modStore f s).free = s.free := rfl

@[simp] theorem modLf_time (f : LfState → LfState) : (modLf f s).time = s.time := rfl
@[simp] theorem modLf_via (f : LfState → LfState) : (modLf f s).via = s.via := rfl
@[simp] theorem modLf_cores (f : LfState → LfState) : (modLf f s).cores = s.cores := rfl
@[simp] theorem modLf_power (f : LfState → LfState) : (modLf f s).power = s.power := rfl
@[simp] theorem modLf_park (f : LfState → LfState) : (modLf f s).park = s.park := rfl
@[simp] theorem modLf_therm (f : LfState → LfState) : (modLf f s).therm = s.therm := rfl
@[simp] theorem modLf_par (f : LfState → LfState) : (modLf f s).par = s.par := rfl
@[simp] theorem modLf_perf (f : LfState → LfState) : (modLf f s).perf = s.perf := rfl
@[simp] theorem modLf_dump (f : LfState → LfState) : (modLf f s).dump = s.dump := rfl
@[simp] theorem modLf_freeze (f : LfState → LfState) : (modLf f s).freeze = s.freeze := rfl
@[simp] theorem modLf_mon (f : LfState → LfState) : (modLf f s).mon = s.mon := rfl
@[simp] theorem modLf_boot (f : LfState → LfState) : (modLf f s).boot = s.boot := rfl
@[simp] theorem modLf_store (f : LfState → LfState) : (modLf f s).store = s.store := rfl
@[simp] theorem modLf_lf (f : LfState → LfState) : (modLf f s).lf = f s.lf := rfl
@[simp] theorem modLf_rf (f : LfState → LfState) : (modLf f s).rf = s.rf := rfl
@[simp] theorem modLf_psr (f : LfState → LfState) : (modLf f s).psr = s.psr := rfl
@[simp] theorem modLf_cipher (f : LfState → LfState) : (modLf f s).cipher = s.cipher := rfl
@[simp] theorem modLf_rng (f : LfState → LfState) : (modLf f s).rng = s.rng := rfl
@[simp] theorem modLf_signer (f : LfState → LfState) : (modLf f s).signer = s.signer := rfl
@[simp] theorem modLf_span (f : LfState → LfState) : (modLf f s).span = s.span := rfl
@[simp] theorem modLf_toll (f : LfState → LfState) : (modLf f s).toll = s.toll := rfl
@[simp] theorem modLf_link (f : LfState → LfState) : (modLf f s).link = s.link := rfl
@[simp] theorem modLf_zw (f : LfState → LfState) : (modLf f s).zw = s.zw := rfl
@[simp] theorem modLf_cfg (f : LfState → LfState) : (modLf f s).cfg = s.cfg := rfl
@[simp] theorem modLf_latched (f : LfState → LfState) : (modLf f s).latched = s.latched := rfl
@[simp] theorem modLf_shadow (f : LfState → LfState) : (modLf f s).shadow = s.shadow := rfl
@[simp] theorem modLf_wshadow (f : LfState → LfState) : (modLf f s).wshadow = s.wshadow := rfl
@[simp] theorem modLf_mem (f : LfState → LfState) : (modLf f s).mem = s.mem := rfl
@[simp] theorem modLf_sent (f : LfState → LfState) : (modLf f s).sent = s.sent := rfl
@[simp] theorem modLf_pending (f : LfState → LfState) : (modLf f s).pending = s.pending := rfl
@[simp] theorem modLf_free (f : LfState → LfState) : (modLf f s).free = s.free := rfl

@[simp] theorem modRf_time (f : RfState → RfState) : (modRf f s).time = s.time := rfl
@[simp] theorem modRf_via (f : RfState → RfState) : (modRf f s).via = s.via := rfl
@[simp] theorem modRf_cores (f : RfState → RfState) : (modRf f s).cores = s.cores := rfl
@[simp] theorem modRf_power (f : RfState → RfState) : (modRf f s).power = s.power := rfl
@[simp] theorem modRf_park (f : RfState → RfState) : (modRf f s).park = s.park := rfl
@[simp] theorem modRf_therm (f : RfState → RfState) : (modRf f s).therm = s.therm := rfl
@[simp] theorem modRf_par (f : RfState → RfState) : (modRf f s).par = s.par := rfl
@[simp] theorem modRf_perf (f : RfState → RfState) : (modRf f s).perf = s.perf := rfl
@[simp] theorem modRf_dump (f : RfState → RfState) : (modRf f s).dump = s.dump := rfl
@[simp] theorem modRf_freeze (f : RfState → RfState) : (modRf f s).freeze = s.freeze := rfl
@[simp] theorem modRf_mon (f : RfState → RfState) : (modRf f s).mon = s.mon := rfl
@[simp] theorem modRf_boot (f : RfState → RfState) : (modRf f s).boot = s.boot := rfl
@[simp] theorem modRf_store (f : RfState → RfState) : (modRf f s).store = s.store := rfl
@[simp] theorem modRf_lf (f : RfState → RfState) : (modRf f s).lf = s.lf := rfl
@[simp] theorem modRf_rf (f : RfState → RfState) : (modRf f s).rf = f s.rf := rfl
@[simp] theorem modRf_psr (f : RfState → RfState) : (modRf f s).psr = s.psr := rfl
@[simp] theorem modRf_cipher (f : RfState → RfState) : (modRf f s).cipher = s.cipher := rfl
@[simp] theorem modRf_rng (f : RfState → RfState) : (modRf f s).rng = s.rng := rfl
@[simp] theorem modRf_signer (f : RfState → RfState) : (modRf f s).signer = s.signer := rfl
@[simp] theorem modRf_span (f : RfState → RfState) : (modRf f s).span = s.span := rfl
@[simp] theorem modRf_toll (f : RfState → RfState) : (modRf f s).toll = s.toll := rfl
@[simp] theorem modRf_link (f : RfState → RfState) : (modRf f s).link = s.link := rfl
@[simp] theorem modRf_zw (f : RfState → RfState) : (modRf f s).zw = s.zw := rfl
@[simp] theorem modRf_cfg (f : RfState → RfState) : (modRf f s).cfg = s.cfg := rfl
@[simp] theorem modRf_latched (f : RfState → RfState) : (modRf f s).latched = s.latched := rfl
@[simp] theorem modRf_shadow (f : RfState → RfState) : (modRf f s).shadow = s.shadow := rfl
@[simp] theorem modRf_wshadow (f : RfState → RfState) : (modRf f s).wshadow = s.wshadow := rfl
@[simp] theorem modRf_mem (f : RfState → RfState) : (modRf f s).mem = s.mem := rfl
@[simp] theorem modRf_sent (f : RfState → RfState) : (modRf f s).sent = s.sent := rfl
@[simp] theorem modRf_pending (f : RfState → RfState) : (modRf f s).pending = s.pending := rfl
@[simp] theorem modRf_free (f : RfState → RfState) : (modRf f s).free = s.free := rfl

@[simp] theorem modPsr_time (f : PsrState → PsrState) : (modPsr f s).time = s.time := rfl
@[simp] theorem modPsr_via (f : PsrState → PsrState) : (modPsr f s).via = s.via := rfl
@[simp] theorem modPsr_cores (f : PsrState → PsrState) : (modPsr f s).cores = s.cores := rfl
@[simp] theorem modPsr_power (f : PsrState → PsrState) : (modPsr f s).power = s.power := rfl
@[simp] theorem modPsr_park (f : PsrState → PsrState) : (modPsr f s).park = s.park := rfl
@[simp] theorem modPsr_therm (f : PsrState → PsrState) : (modPsr f s).therm = s.therm := rfl
@[simp] theorem modPsr_par (f : PsrState → PsrState) : (modPsr f s).par = s.par := rfl
@[simp] theorem modPsr_perf (f : PsrState → PsrState) : (modPsr f s).perf = s.perf := rfl
@[simp] theorem modPsr_dump (f : PsrState → PsrState) : (modPsr f s).dump = s.dump := rfl
@[simp] theorem modPsr_freeze (f : PsrState → PsrState) : (modPsr f s).freeze = s.freeze := rfl
@[simp] theorem modPsr_mon (f : PsrState → PsrState) : (modPsr f s).mon = s.mon := rfl
@[simp] theorem modPsr_boot (f : PsrState → PsrState) : (modPsr f s).boot = s.boot := rfl
@[simp] theorem modPsr_store (f : PsrState → PsrState) : (modPsr f s).store = s.store := rfl
@[simp] theorem modPsr_lf (f : PsrState → PsrState) : (modPsr f s).lf = s.lf := rfl
@[simp] theorem modPsr_rf (f : PsrState → PsrState) : (modPsr f s).rf = s.rf := rfl
@[simp] theorem modPsr_psr (f : PsrState → PsrState) : (modPsr f s).psr = f s.psr := rfl
@[simp] theorem modPsr_cipher (f : PsrState → PsrState) : (modPsr f s).cipher = s.cipher := rfl
@[simp] theorem modPsr_rng (f : PsrState → PsrState) : (modPsr f s).rng = s.rng := rfl
@[simp] theorem modPsr_signer (f : PsrState → PsrState) : (modPsr f s).signer = s.signer := rfl
@[simp] theorem modPsr_span (f : PsrState → PsrState) : (modPsr f s).span = s.span := rfl
@[simp] theorem modPsr_toll (f : PsrState → PsrState) : (modPsr f s).toll = s.toll := rfl
@[simp] theorem modPsr_link (f : PsrState → PsrState) : (modPsr f s).link = s.link := rfl
@[simp] theorem modPsr_zw (f : PsrState → PsrState) : (modPsr f s).zw = s.zw := rfl
@[simp] theorem modPsr_cfg (f : PsrState → PsrState) : (modPsr f s).cfg = s.cfg := rfl
@[simp] theorem modPsr_latched (f : PsrState → PsrState) : (modPsr f s).latched = s.latched := rfl
@[simp] theorem modPsr_shadow (f : PsrState → PsrState) : (modPsr f s).shadow = s.shadow := rfl
@[simp] theorem modPsr_wshadow (f : PsrState → PsrState) : (modPsr f s).wshadow = s.wshadow := rfl
@[simp] theorem modPsr_mem (f : PsrState → PsrState) : (modPsr f s).mem = s.mem := rfl
@[simp] theorem modPsr_sent (f : PsrState → PsrState) : (modPsr f s).sent = s.sent := rfl
@[simp] theorem modPsr_pending (f : PsrState → PsrState) : (modPsr f s).pending = s.pending := rfl
@[simp] theorem modPsr_free (f : PsrState → PsrState) : (modPsr f s).free = s.free := rfl

@[simp] theorem modCipher_time (f : CipherState → CipherState) : (modCipher f s).time = s.time := rfl
@[simp] theorem modCipher_via (f : CipherState → CipherState) : (modCipher f s).via = s.via := rfl
@[simp] theorem modCipher_cores (f : CipherState → CipherState) : (modCipher f s).cores = s.cores := rfl
@[simp] theorem modCipher_power (f : CipherState → CipherState) : (modCipher f s).power = s.power := rfl
@[simp] theorem modCipher_park (f : CipherState → CipherState) : (modCipher f s).park = s.park := rfl
@[simp] theorem modCipher_therm (f : CipherState → CipherState) : (modCipher f s).therm = s.therm := rfl
@[simp] theorem modCipher_par (f : CipherState → CipherState) : (modCipher f s).par = s.par := rfl
@[simp] theorem modCipher_perf (f : CipherState → CipherState) : (modCipher f s).perf = s.perf := rfl
@[simp] theorem modCipher_dump (f : CipherState → CipherState) : (modCipher f s).dump = s.dump := rfl
@[simp] theorem modCipher_freeze (f : CipherState → CipherState) : (modCipher f s).freeze = s.freeze := rfl
@[simp] theorem modCipher_mon (f : CipherState → CipherState) : (modCipher f s).mon = s.mon := rfl
@[simp] theorem modCipher_boot (f : CipherState → CipherState) : (modCipher f s).boot = s.boot := rfl
@[simp] theorem modCipher_store (f : CipherState → CipherState) : (modCipher f s).store = s.store := rfl
@[simp] theorem modCipher_lf (f : CipherState → CipherState) : (modCipher f s).lf = s.lf := rfl
@[simp] theorem modCipher_rf (f : CipherState → CipherState) : (modCipher f s).rf = s.rf := rfl
@[simp] theorem modCipher_psr (f : CipherState → CipherState) : (modCipher f s).psr = s.psr := rfl
@[simp] theorem modCipher_cipher (f : CipherState → CipherState) : (modCipher f s).cipher = f s.cipher := rfl
@[simp] theorem modCipher_rng (f : CipherState → CipherState) : (modCipher f s).rng = s.rng := rfl
@[simp] theorem modCipher_signer (f : CipherState → CipherState) : (modCipher f s).signer = s.signer := rfl
@[simp] theorem modCipher_span (f : CipherState → CipherState) : (modCipher f s).span = s.span := rfl
@[simp] theorem modCipher_toll (f : CipherState → CipherState) : (modCipher f s).toll = s.toll := rfl
@[simp] theorem modCipher_link (f : CipherState → CipherState) : (modCipher f s).link = s.link := rfl
@[simp] theorem modCipher_zw (f : CipherState → CipherState) : (modCipher f s).zw = s.zw := rfl
@[simp] theorem modCipher_cfg (f : CipherState → CipherState) : (modCipher f s).cfg = s.cfg := rfl
@[simp] theorem modCipher_latched (f : CipherState → CipherState) : (modCipher f s).latched = s.latched := rfl
@[simp] theorem modCipher_shadow (f : CipherState → CipherState) : (modCipher f s).shadow = s.shadow := rfl
@[simp] theorem modCipher_wshadow (f : CipherState → CipherState) : (modCipher f s).wshadow = s.wshadow := rfl
@[simp] theorem modCipher_mem (f : CipherState → CipherState) : (modCipher f s).mem = s.mem := rfl
@[simp] theorem modCipher_sent (f : CipherState → CipherState) : (modCipher f s).sent = s.sent := rfl
@[simp] theorem modCipher_pending (f : CipherState → CipherState) : (modCipher f s).pending = s.pending := rfl
@[simp] theorem modCipher_free (f : CipherState → CipherState) : (modCipher f s).free = s.free := rfl

@[simp] theorem modRng_time (f : RngState → RngState) : (modRng f s).time = s.time := rfl
@[simp] theorem modRng_via (f : RngState → RngState) : (modRng f s).via = s.via := rfl
@[simp] theorem modRng_cores (f : RngState → RngState) : (modRng f s).cores = s.cores := rfl
@[simp] theorem modRng_power (f : RngState → RngState) : (modRng f s).power = s.power := rfl
@[simp] theorem modRng_park (f : RngState → RngState) : (modRng f s).park = s.park := rfl
@[simp] theorem modRng_therm (f : RngState → RngState) : (modRng f s).therm = s.therm := rfl
@[simp] theorem modRng_par (f : RngState → RngState) : (modRng f s).par = s.par := rfl
@[simp] theorem modRng_perf (f : RngState → RngState) : (modRng f s).perf = s.perf := rfl
@[simp] theorem modRng_dump (f : RngState → RngState) : (modRng f s).dump = s.dump := rfl
@[simp] theorem modRng_freeze (f : RngState → RngState) : (modRng f s).freeze = s.freeze := rfl
@[simp] theorem modRng_mon (f : RngState → RngState) : (modRng f s).mon = s.mon := rfl
@[simp] theorem modRng_boot (f : RngState → RngState) : (modRng f s).boot = s.boot := rfl
@[simp] theorem modRng_store (f : RngState → RngState) : (modRng f s).store = s.store := rfl
@[simp] theorem modRng_lf (f : RngState → RngState) : (modRng f s).lf = s.lf := rfl
@[simp] theorem modRng_rf (f : RngState → RngState) : (modRng f s).rf = s.rf := rfl
@[simp] theorem modRng_psr (f : RngState → RngState) : (modRng f s).psr = s.psr := rfl
@[simp] theorem modRng_cipher (f : RngState → RngState) : (modRng f s).cipher = s.cipher := rfl
@[simp] theorem modRng_rng (f : RngState → RngState) : (modRng f s).rng = f s.rng := rfl
@[simp] theorem modRng_signer (f : RngState → RngState) : (modRng f s).signer = s.signer := rfl
@[simp] theorem modRng_span (f : RngState → RngState) : (modRng f s).span = s.span := rfl
@[simp] theorem modRng_toll (f : RngState → RngState) : (modRng f s).toll = s.toll := rfl
@[simp] theorem modRng_link (f : RngState → RngState) : (modRng f s).link = s.link := rfl
@[simp] theorem modRng_zw (f : RngState → RngState) : (modRng f s).zw = s.zw := rfl
@[simp] theorem modRng_cfg (f : RngState → RngState) : (modRng f s).cfg = s.cfg := rfl
@[simp] theorem modRng_latched (f : RngState → RngState) : (modRng f s).latched = s.latched := rfl
@[simp] theorem modRng_shadow (f : RngState → RngState) : (modRng f s).shadow = s.shadow := rfl
@[simp] theorem modRng_wshadow (f : RngState → RngState) : (modRng f s).wshadow = s.wshadow := rfl
@[simp] theorem modRng_mem (f : RngState → RngState) : (modRng f s).mem = s.mem := rfl
@[simp] theorem modRng_sent (f : RngState → RngState) : (modRng f s).sent = s.sent := rfl
@[simp] theorem modRng_pending (f : RngState → RngState) : (modRng f s).pending = s.pending := rfl
@[simp] theorem modRng_free (f : RngState → RngState) : (modRng f s).free = s.free := rfl

@[simp] theorem modSigner_time (f : SignerState → SignerState) : (modSigner f s).time = s.time := rfl
@[simp] theorem modSigner_via (f : SignerState → SignerState) : (modSigner f s).via = s.via := rfl
@[simp] theorem modSigner_cores (f : SignerState → SignerState) : (modSigner f s).cores = s.cores := rfl
@[simp] theorem modSigner_power (f : SignerState → SignerState) : (modSigner f s).power = s.power := rfl
@[simp] theorem modSigner_park (f : SignerState → SignerState) : (modSigner f s).park = s.park := rfl
@[simp] theorem modSigner_therm (f : SignerState → SignerState) : (modSigner f s).therm = s.therm := rfl
@[simp] theorem modSigner_par (f : SignerState → SignerState) : (modSigner f s).par = s.par := rfl
@[simp] theorem modSigner_perf (f : SignerState → SignerState) : (modSigner f s).perf = s.perf := rfl
@[simp] theorem modSigner_dump (f : SignerState → SignerState) : (modSigner f s).dump = s.dump := rfl
@[simp] theorem modSigner_freeze (f : SignerState → SignerState) : (modSigner f s).freeze = s.freeze := rfl
@[simp] theorem modSigner_mon (f : SignerState → SignerState) : (modSigner f s).mon = s.mon := rfl
@[simp] theorem modSigner_boot (f : SignerState → SignerState) : (modSigner f s).boot = s.boot := rfl
@[simp] theorem modSigner_store (f : SignerState → SignerState) : (modSigner f s).store = s.store := rfl
@[simp] theorem modSigner_lf (f : SignerState → SignerState) : (modSigner f s).lf = s.lf := rfl
@[simp] theorem modSigner_rf (f : SignerState → SignerState) : (modSigner f s).rf = s.rf := rfl
@[simp] theorem modSigner_psr (f : SignerState → SignerState) : (modSigner f s).psr = s.psr := rfl
@[simp] theorem modSigner_cipher (f : SignerState → SignerState) : (modSigner f s).cipher = s.cipher := rfl
@[simp] theorem modSigner_rng (f : SignerState → SignerState) : (modSigner f s).rng = s.rng := rfl
@[simp] theorem modSigner_signer (f : SignerState → SignerState) : (modSigner f s).signer = f s.signer := rfl
@[simp] theorem modSigner_span (f : SignerState → SignerState) : (modSigner f s).span = s.span := rfl
@[simp] theorem modSigner_toll (f : SignerState → SignerState) : (modSigner f s).toll = s.toll := rfl
@[simp] theorem modSigner_link (f : SignerState → SignerState) : (modSigner f s).link = s.link := rfl
@[simp] theorem modSigner_zw (f : SignerState → SignerState) : (modSigner f s).zw = s.zw := rfl
@[simp] theorem modSigner_cfg (f : SignerState → SignerState) : (modSigner f s).cfg = s.cfg := rfl
@[simp] theorem modSigner_latched (f : SignerState → SignerState) : (modSigner f s).latched = s.latched := rfl
@[simp] theorem modSigner_shadow (f : SignerState → SignerState) : (modSigner f s).shadow = s.shadow := rfl
@[simp] theorem modSigner_wshadow (f : SignerState → SignerState) : (modSigner f s).wshadow = s.wshadow := rfl
@[simp] theorem modSigner_mem (f : SignerState → SignerState) : (modSigner f s).mem = s.mem := rfl
@[simp] theorem modSigner_sent (f : SignerState → SignerState) : (modSigner f s).sent = s.sent := rfl
@[simp] theorem modSigner_pending (f : SignerState → SignerState) : (modSigner f s).pending = s.pending := rfl
@[simp] theorem modSigner_free (f : SignerState → SignerState) : (modSigner f s).free = s.free := rfl

@[simp] theorem modSpan_time (f : SpanState → SpanState) : (modSpan f s).time = s.time := rfl
@[simp] theorem modSpan_via (f : SpanState → SpanState) : (modSpan f s).via = s.via := rfl
@[simp] theorem modSpan_cores (f : SpanState → SpanState) : (modSpan f s).cores = s.cores := rfl
@[simp] theorem modSpan_power (f : SpanState → SpanState) : (modSpan f s).power = s.power := rfl
@[simp] theorem modSpan_park (f : SpanState → SpanState) : (modSpan f s).park = s.park := rfl
@[simp] theorem modSpan_therm (f : SpanState → SpanState) : (modSpan f s).therm = s.therm := rfl
@[simp] theorem modSpan_par (f : SpanState → SpanState) : (modSpan f s).par = s.par := rfl
@[simp] theorem modSpan_perf (f : SpanState → SpanState) : (modSpan f s).perf = s.perf := rfl
@[simp] theorem modSpan_dump (f : SpanState → SpanState) : (modSpan f s).dump = s.dump := rfl
@[simp] theorem modSpan_freeze (f : SpanState → SpanState) : (modSpan f s).freeze = s.freeze := rfl
@[simp] theorem modSpan_mon (f : SpanState → SpanState) : (modSpan f s).mon = s.mon := rfl
@[simp] theorem modSpan_boot (f : SpanState → SpanState) : (modSpan f s).boot = s.boot := rfl
@[simp] theorem modSpan_store (f : SpanState → SpanState) : (modSpan f s).store = s.store := rfl
@[simp] theorem modSpan_lf (f : SpanState → SpanState) : (modSpan f s).lf = s.lf := rfl
@[simp] theorem modSpan_rf (f : SpanState → SpanState) : (modSpan f s).rf = s.rf := rfl
@[simp] theorem modSpan_psr (f : SpanState → SpanState) : (modSpan f s).psr = s.psr := rfl
@[simp] theorem modSpan_cipher (f : SpanState → SpanState) : (modSpan f s).cipher = s.cipher := rfl
@[simp] theorem modSpan_rng (f : SpanState → SpanState) : (modSpan f s).rng = s.rng := rfl
@[simp] theorem modSpan_signer (f : SpanState → SpanState) : (modSpan f s).signer = s.signer := rfl
@[simp] theorem modSpan_span (f : SpanState → SpanState) : (modSpan f s).span = f s.span := rfl
@[simp] theorem modSpan_toll (f : SpanState → SpanState) : (modSpan f s).toll = s.toll := rfl
@[simp] theorem modSpan_link (f : SpanState → SpanState) : (modSpan f s).link = s.link := rfl
@[simp] theorem modSpan_zw (f : SpanState → SpanState) : (modSpan f s).zw = s.zw := rfl
@[simp] theorem modSpan_cfg (f : SpanState → SpanState) : (modSpan f s).cfg = s.cfg := rfl
@[simp] theorem modSpan_latched (f : SpanState → SpanState) : (modSpan f s).latched = s.latched := rfl
@[simp] theorem modSpan_shadow (f : SpanState → SpanState) : (modSpan f s).shadow = s.shadow := rfl
@[simp] theorem modSpan_wshadow (f : SpanState → SpanState) : (modSpan f s).wshadow = s.wshadow := rfl
@[simp] theorem modSpan_mem (f : SpanState → SpanState) : (modSpan f s).mem = s.mem := rfl
@[simp] theorem modSpan_sent (f : SpanState → SpanState) : (modSpan f s).sent = s.sent := rfl
@[simp] theorem modSpan_pending (f : SpanState → SpanState) : (modSpan f s).pending = s.pending := rfl
@[simp] theorem modSpan_free (f : SpanState → SpanState) : (modSpan f s).free = s.free := rfl

@[simp] theorem modToll_time (f : TollState → TollState) : (modToll f s).time = s.time := rfl
@[simp] theorem modToll_via (f : TollState → TollState) : (modToll f s).via = s.via := rfl
@[simp] theorem modToll_cores (f : TollState → TollState) : (modToll f s).cores = s.cores := rfl
@[simp] theorem modToll_power (f : TollState → TollState) : (modToll f s).power = s.power := rfl
@[simp] theorem modToll_park (f : TollState → TollState) : (modToll f s).park = s.park := rfl
@[simp] theorem modToll_therm (f : TollState → TollState) : (modToll f s).therm = s.therm := rfl
@[simp] theorem modToll_par (f : TollState → TollState) : (modToll f s).par = s.par := rfl
@[simp] theorem modToll_perf (f : TollState → TollState) : (modToll f s).perf = s.perf := rfl
@[simp] theorem modToll_dump (f : TollState → TollState) : (modToll f s).dump = s.dump := rfl
@[simp] theorem modToll_freeze (f : TollState → TollState) : (modToll f s).freeze = s.freeze := rfl
@[simp] theorem modToll_mon (f : TollState → TollState) : (modToll f s).mon = s.mon := rfl
@[simp] theorem modToll_boot (f : TollState → TollState) : (modToll f s).boot = s.boot := rfl
@[simp] theorem modToll_store (f : TollState → TollState) : (modToll f s).store = s.store := rfl
@[simp] theorem modToll_lf (f : TollState → TollState) : (modToll f s).lf = s.lf := rfl
@[simp] theorem modToll_rf (f : TollState → TollState) : (modToll f s).rf = s.rf := rfl
@[simp] theorem modToll_psr (f : TollState → TollState) : (modToll f s).psr = s.psr := rfl
@[simp] theorem modToll_cipher (f : TollState → TollState) : (modToll f s).cipher = s.cipher := rfl
@[simp] theorem modToll_rng (f : TollState → TollState) : (modToll f s).rng = s.rng := rfl
@[simp] theorem modToll_signer (f : TollState → TollState) : (modToll f s).signer = s.signer := rfl
@[simp] theorem modToll_span (f : TollState → TollState) : (modToll f s).span = s.span := rfl
@[simp] theorem modToll_toll (f : TollState → TollState) : (modToll f s).toll = f s.toll := rfl
@[simp] theorem modToll_link (f : TollState → TollState) : (modToll f s).link = s.link := rfl
@[simp] theorem modToll_zw (f : TollState → TollState) : (modToll f s).zw = s.zw := rfl
@[simp] theorem modToll_cfg (f : TollState → TollState) : (modToll f s).cfg = s.cfg := rfl
@[simp] theorem modToll_latched (f : TollState → TollState) : (modToll f s).latched = s.latched := rfl
@[simp] theorem modToll_shadow (f : TollState → TollState) : (modToll f s).shadow = s.shadow := rfl
@[simp] theorem modToll_wshadow (f : TollState → TollState) : (modToll f s).wshadow = s.wshadow := rfl
@[simp] theorem modToll_mem (f : TollState → TollState) : (modToll f s).mem = s.mem := rfl
@[simp] theorem modToll_sent (f : TollState → TollState) : (modToll f s).sent = s.sent := rfl
@[simp] theorem modToll_pending (f : TollState → TollState) : (modToll f s).pending = s.pending := rfl
@[simp] theorem modToll_free (f : TollState → TollState) : (modToll f s).free = s.free := rfl

@[simp] theorem modLink_time (f : LinkState → LinkState) : (modLink f s).time = s.time := rfl
@[simp] theorem modLink_via (f : LinkState → LinkState) : (modLink f s).via = s.via := rfl
@[simp] theorem modLink_cores (f : LinkState → LinkState) : (modLink f s).cores = s.cores := rfl
@[simp] theorem modLink_power (f : LinkState → LinkState) : (modLink f s).power = s.power := rfl
@[simp] theorem modLink_park (f : LinkState → LinkState) : (modLink f s).park = s.park := rfl
@[simp] theorem modLink_therm (f : LinkState → LinkState) : (modLink f s).therm = s.therm := rfl
@[simp] theorem modLink_par (f : LinkState → LinkState) : (modLink f s).par = s.par := rfl
@[simp] theorem modLink_perf (f : LinkState → LinkState) : (modLink f s).perf = s.perf := rfl
@[simp] theorem modLink_dump (f : LinkState → LinkState) : (modLink f s).dump = s.dump := rfl
@[simp] theorem modLink_freeze (f : LinkState → LinkState) : (modLink f s).freeze = s.freeze := rfl
@[simp] theorem modLink_mon (f : LinkState → LinkState) : (modLink f s).mon = s.mon := rfl
@[simp] theorem modLink_boot (f : LinkState → LinkState) : (modLink f s).boot = s.boot := rfl
@[simp] theorem modLink_store (f : LinkState → LinkState) : (modLink f s).store = s.store := rfl
@[simp] theorem modLink_lf (f : LinkState → LinkState) : (modLink f s).lf = s.lf := rfl
@[simp] theorem modLink_rf (f : LinkState → LinkState) : (modLink f s).rf = s.rf := rfl
@[simp] theorem modLink_psr (f : LinkState → LinkState) : (modLink f s).psr = s.psr := rfl
@[simp] theorem modLink_cipher (f : LinkState → LinkState) : (modLink f s).cipher = s.cipher := rfl
@[simp] theorem modLink_rng (f : LinkState → LinkState) : (modLink f s).rng = s.rng := rfl
@[simp] theorem modLink_signer (f : LinkState → LinkState) : (modLink f s).signer = s.signer := rfl
@[simp] theorem modLink_span (f : LinkState → LinkState) : (modLink f s).span = s.span := rfl
@[simp] theorem modLink_toll (f : LinkState → LinkState) : (modLink f s).toll = s.toll := rfl
@[simp] theorem modLink_link (f : LinkState → LinkState) : (modLink f s).link = f s.link := rfl
@[simp] theorem modLink_zw (f : LinkState → LinkState) : (modLink f s).zw = s.zw := rfl
@[simp] theorem modLink_cfg (f : LinkState → LinkState) : (modLink f s).cfg = s.cfg := rfl
@[simp] theorem modLink_latched (f : LinkState → LinkState) : (modLink f s).latched = s.latched := rfl
@[simp] theorem modLink_shadow (f : LinkState → LinkState) : (modLink f s).shadow = s.shadow := rfl
@[simp] theorem modLink_wshadow (f : LinkState → LinkState) : (modLink f s).wshadow = s.wshadow := rfl
@[simp] theorem modLink_mem (f : LinkState → LinkState) : (modLink f s).mem = s.mem := rfl
@[simp] theorem modLink_sent (f : LinkState → LinkState) : (modLink f s).sent = s.sent := rfl
@[simp] theorem modLink_pending (f : LinkState → LinkState) : (modLink f s).pending = s.pending := rfl
@[simp] theorem modLink_free (f : LinkState → LinkState) : (modLink f s).free = s.free := rfl

@[simp] theorem modZw_time (f : ZwState → ZwState) : (modZw f s).time = s.time := rfl
@[simp] theorem modZw_via (f : ZwState → ZwState) : (modZw f s).via = s.via := rfl
@[simp] theorem modZw_cores (f : ZwState → ZwState) : (modZw f s).cores = s.cores := rfl
@[simp] theorem modZw_power (f : ZwState → ZwState) : (modZw f s).power = s.power := rfl
@[simp] theorem modZw_park (f : ZwState → ZwState) : (modZw f s).park = s.park := rfl
@[simp] theorem modZw_therm (f : ZwState → ZwState) : (modZw f s).therm = s.therm := rfl
@[simp] theorem modZw_par (f : ZwState → ZwState) : (modZw f s).par = s.par := rfl
@[simp] theorem modZw_perf (f : ZwState → ZwState) : (modZw f s).perf = s.perf := rfl
@[simp] theorem modZw_dump (f : ZwState → ZwState) : (modZw f s).dump = s.dump := rfl
@[simp] theorem modZw_freeze (f : ZwState → ZwState) : (modZw f s).freeze = s.freeze := rfl
@[simp] theorem modZw_mon (f : ZwState → ZwState) : (modZw f s).mon = s.mon := rfl
@[simp] theorem modZw_boot (f : ZwState → ZwState) : (modZw f s).boot = s.boot := rfl
@[simp] theorem modZw_store (f : ZwState → ZwState) : (modZw f s).store = s.store := rfl
@[simp] theorem modZw_lf (f : ZwState → ZwState) : (modZw f s).lf = s.lf := rfl
@[simp] theorem modZw_rf (f : ZwState → ZwState) : (modZw f s).rf = s.rf := rfl
@[simp] theorem modZw_psr (f : ZwState → ZwState) : (modZw f s).psr = s.psr := rfl
@[simp] theorem modZw_cipher (f : ZwState → ZwState) : (modZw f s).cipher = s.cipher := rfl
@[simp] theorem modZw_rng (f : ZwState → ZwState) : (modZw f s).rng = s.rng := rfl
@[simp] theorem modZw_signer (f : ZwState → ZwState) : (modZw f s).signer = s.signer := rfl
@[simp] theorem modZw_span (f : ZwState → ZwState) : (modZw f s).span = s.span := rfl
@[simp] theorem modZw_toll (f : ZwState → ZwState) : (modZw f s).toll = s.toll := rfl
@[simp] theorem modZw_link (f : ZwState → ZwState) : (modZw f s).link = s.link := rfl
@[simp] theorem modZw_zw (f : ZwState → ZwState) : (modZw f s).zw = f s.zw := rfl
@[simp] theorem modZw_cfg (f : ZwState → ZwState) : (modZw f s).cfg = s.cfg := rfl
@[simp] theorem modZw_latched (f : ZwState → ZwState) : (modZw f s).latched = s.latched := rfl
@[simp] theorem modZw_shadow (f : ZwState → ZwState) : (modZw f s).shadow = s.shadow := rfl
@[simp] theorem modZw_wshadow (f : ZwState → ZwState) : (modZw f s).wshadow = s.wshadow := rfl
@[simp] theorem modZw_mem (f : ZwState → ZwState) : (modZw f s).mem = s.mem := rfl
@[simp] theorem modZw_sent (f : ZwState → ZwState) : (modZw f s).sent = s.sent := rfl
@[simp] theorem modZw_pending (f : ZwState → ZwState) : (modZw f s).pending = s.pending := rfl
@[simp] theorem modZw_free (f : ZwState → ZwState) : (modZw f s).free = s.free := rfl

@[simp] theorem emit_time (x : Sent) : (emit x s).time = s.time := rfl
@[simp] theorem emit_via (x : Sent) : (emit x s).via = s.via := rfl
@[simp] theorem emit_cores (x : Sent) : (emit x s).cores = s.cores := rfl
@[simp] theorem emit_power (x : Sent) : (emit x s).power = s.power := rfl
@[simp] theorem emit_park (x : Sent) : (emit x s).park = s.park := rfl
@[simp] theorem emit_therm (x : Sent) : (emit x s).therm = s.therm := rfl
@[simp] theorem emit_par (x : Sent) : (emit x s).par = s.par := rfl
@[simp] theorem emit_perf (x : Sent) : (emit x s).perf = s.perf := rfl
@[simp] theorem emit_dump (x : Sent) : (emit x s).dump = s.dump := rfl
@[simp] theorem emit_freeze (x : Sent) : (emit x s).freeze = s.freeze := rfl
@[simp] theorem emit_mon (x : Sent) : (emit x s).mon = s.mon := rfl
@[simp] theorem emit_boot (x : Sent) : (emit x s).boot = s.boot := rfl
@[simp] theorem emit_store (x : Sent) : (emit x s).store = s.store := rfl
@[simp] theorem emit_lf (x : Sent) : (emit x s).lf = s.lf := rfl
@[simp] theorem emit_rf (x : Sent) : (emit x s).rf = s.rf := rfl
@[simp] theorem emit_psr (x : Sent) : (emit x s).psr = s.psr := rfl
@[simp] theorem emit_cipher (x : Sent) : (emit x s).cipher = s.cipher := rfl
@[simp] theorem emit_rng (x : Sent) : (emit x s).rng = s.rng := rfl
@[simp] theorem emit_signer (x : Sent) : (emit x s).signer = s.signer := rfl
@[simp] theorem emit_span (x : Sent) : (emit x s).span = s.span := rfl
@[simp] theorem emit_toll (x : Sent) : (emit x s).toll = s.toll := rfl
@[simp] theorem emit_link (x : Sent) : (emit x s).link = s.link := rfl
@[simp] theorem emit_zw (x : Sent) : (emit x s).zw = s.zw := rfl
@[simp] theorem emit_cfg (x : Sent) : (emit x s).cfg = s.cfg := rfl
@[simp] theorem emit_latched (x : Sent) : (emit x s).latched = s.latched := rfl
@[simp] theorem emit_shadow (x : Sent) : (emit x s).shadow = s.shadow := rfl
@[simp] theorem emit_wshadow (x : Sent) : (emit x s).wshadow = s.wshadow := rfl
@[simp] theorem emit_mem (x : Sent) : (emit x s).mem = s.mem := rfl
@[simp] theorem emit_sent (x : Sent) : (emit x s).sent = s.sent ++ [x] := rfl
@[simp] theorem emit_pending (x : Sent) : (emit x s).pending = s.pending := rfl
@[simp] theorem emit_free (x : Sent) : (emit x s).free = s.free := rfl

@[simp] theorem useFree_time : (useFree s).time = s.time := rfl
@[simp] theorem useFree_via : (useFree s).via = s.via := rfl
@[simp] theorem useFree_cores : (useFree s).cores = s.cores := rfl
@[simp] theorem useFree_power : (useFree s).power = s.power := rfl
@[simp] theorem useFree_park : (useFree s).park = s.park := rfl
@[simp] theorem useFree_therm : (useFree s).therm = s.therm := rfl
@[simp] theorem useFree_par : (useFree s).par = s.par := rfl
@[simp] theorem useFree_perf : (useFree s).perf = s.perf := rfl
@[simp] theorem useFree_dump : (useFree s).dump = s.dump := rfl
@[simp] theorem useFree_freeze : (useFree s).freeze = s.freeze := rfl
@[simp] theorem useFree_mon : (useFree s).mon = s.mon := rfl
@[simp] theorem useFree_boot : (useFree s).boot = s.boot := rfl
@[simp] theorem useFree_store : (useFree s).store = s.store := rfl
@[simp] theorem useFree_lf : (useFree s).lf = s.lf := rfl
@[simp] theorem useFree_rf : (useFree s).rf = s.rf := rfl
@[simp] theorem useFree_psr : (useFree s).psr = s.psr := rfl
@[simp] theorem useFree_cipher : (useFree s).cipher = s.cipher := rfl
@[simp] theorem useFree_rng : (useFree s).rng = s.rng := rfl
@[simp] theorem useFree_signer : (useFree s).signer = s.signer := rfl
@[simp] theorem useFree_span : (useFree s).span = s.span := rfl
@[simp] theorem useFree_toll : (useFree s).toll = s.toll := rfl
@[simp] theorem useFree_link : (useFree s).link = s.link := rfl
@[simp] theorem useFree_zw : (useFree s).zw = s.zw := rfl
@[simp] theorem useFree_cfg : (useFree s).cfg = s.cfg := rfl
@[simp] theorem useFree_latched : (useFree s).latched = s.latched := rfl
@[simp] theorem useFree_shadow : (useFree s).shadow = s.shadow := rfl
@[simp] theorem useFree_wshadow : (useFree s).wshadow = s.wshadow := rfl
@[simp] theorem useFree_mem : (useFree s).mem = s.mem := rfl
@[simp] theorem useFree_sent : (useFree s).sent = s.sent := rfl
@[simp] theorem useFree_pending : (useFree s).pending = s.pending := rfl
@[simp] theorem useFree_free : (useFree s).free = s.free + 1 := rfl

@[simp] theorem setCore_time (i : Nat) (k : Core) : (setCore i k s).time = s.time := rfl
@[simp] theorem setCore_via (i : Nat) (k : Core) : (setCore i k s).via = s.via := rfl
@[simp] theorem setCore_cores (i : Nat) (k : Core) : (setCore i k s).cores = vset s.cores i k := rfl
@[simp] theorem setCore_power (i : Nat) (k : Core) : (setCore i k s).power = s.power := rfl
@[simp] theorem setCore_park (i : Nat) (k : Core) : (setCore i k s).park = s.park := rfl
@[simp] theorem setCore_therm (i : Nat) (k : Core) : (setCore i k s).therm = s.therm := rfl
@[simp] theorem setCore_par (i : Nat) (k : Core) : (setCore i k s).par = s.par := rfl
@[simp] theorem setCore_perf (i : Nat) (k : Core) : (setCore i k s).perf = s.perf := rfl
@[simp] theorem setCore_dump (i : Nat) (k : Core) : (setCore i k s).dump = s.dump := rfl
@[simp] theorem setCore_freeze (i : Nat) (k : Core) : (setCore i k s).freeze = s.freeze := rfl
@[simp] theorem setCore_mon (i : Nat) (k : Core) : (setCore i k s).mon = s.mon := rfl
@[simp] theorem setCore_boot (i : Nat) (k : Core) : (setCore i k s).boot = s.boot := rfl
@[simp] theorem setCore_store (i : Nat) (k : Core) : (setCore i k s).store = s.store := rfl
@[simp] theorem setCore_lf (i : Nat) (k : Core) : (setCore i k s).lf = s.lf := rfl
@[simp] theorem setCore_rf (i : Nat) (k : Core) : (setCore i k s).rf = s.rf := rfl
@[simp] theorem setCore_psr (i : Nat) (k : Core) : (setCore i k s).psr = s.psr := rfl
@[simp] theorem setCore_cipher (i : Nat) (k : Core) : (setCore i k s).cipher = s.cipher := rfl
@[simp] theorem setCore_rng (i : Nat) (k : Core) : (setCore i k s).rng = s.rng := rfl
@[simp] theorem setCore_signer (i : Nat) (k : Core) : (setCore i k s).signer = s.signer := rfl
@[simp] theorem setCore_span (i : Nat) (k : Core) : (setCore i k s).span = s.span := rfl
@[simp] theorem setCore_toll (i : Nat) (k : Core) : (setCore i k s).toll = s.toll := rfl
@[simp] theorem setCore_link (i : Nat) (k : Core) : (setCore i k s).link = s.link := rfl
@[simp] theorem setCore_zw (i : Nat) (k : Core) : (setCore i k s).zw = s.zw := rfl
@[simp] theorem setCore_cfg (i : Nat) (k : Core) : (setCore i k s).cfg = s.cfg := rfl
@[simp] theorem setCore_latched (i : Nat) (k : Core) : (setCore i k s).latched = s.latched := rfl
@[simp] theorem setCore_shadow (i : Nat) (k : Core) : (setCore i k s).shadow = s.shadow := rfl
@[simp] theorem setCore_wshadow (i : Nat) (k : Core) : (setCore i k s).wshadow = s.wshadow := rfl
@[simp] theorem setCore_mem (i : Nat) (k : Core) : (setCore i k s).mem = s.mem := rfl
@[simp] theorem setCore_sent (i : Nat) (k : Core) : (setCore i k s).sent = s.sent := rfl
@[simp] theorem setCore_pending (i : Nat) (k : Core) : (setCore i k s).pending = s.pending := rfl
@[simp] theorem setCore_free (i : Nat) (k : Core) : (setCore i k s).free = s.free := rfl

@[simp] theorem modCore_time (i : Nat) (f : Core → Core) : (modCore i f s).time = s.time := rfl
@[simp] theorem modCore_via (i : Nat) (f : Core → Core) : (modCore i f s).via = s.via := rfl
@[simp] theorem modCore_cores (i : Nat) (f : Core → Core) : (modCore i f s).cores = vset s.cores i (f (getCore s i)) := rfl
@[simp] theorem modCore_power (i : Nat) (f : Core → Core) : (modCore i f s).power = s.power := rfl
@[simp] theorem modCore_park (i : Nat) (f : Core → Core) : (modCore i f s).park = s.park := rfl
@[simp] theorem modCore_therm (i : Nat) (f : Core → Core) : (modCore i f s).therm = s.therm := rfl
@[simp] theorem modCore_par (i : Nat) (f : Core → Core) : (modCore i f s).par = s.par := rfl
@[simp] theorem modCore_perf (i : Nat) (f : Core → Core) : (modCore i f s).perf = s.perf := rfl
@[simp] theorem modCore_dump (i : Nat) (f : Core → Core) : (modCore i f s).dump = s.dump := rfl
@[simp] theorem modCore_freeze (i : Nat) (f : Core → Core) : (modCore i f s).freeze = s.freeze := rfl
@[simp] theorem modCore_mon (i : Nat) (f : Core → Core) : (modCore i f s).mon = s.mon := rfl
@[simp] theorem modCore_boot (i : Nat) (f : Core → Core) : (modCore i f s).boot = s.boot := rfl
@[simp] theorem modCore_store (i : Nat) (f : Core → Core) : (modCore i f s).store = s.store := rfl
@[simp] theorem modCore_lf (i : Nat) (f : Core → Core) : (modCore i f s).lf = s.lf := rfl
@[simp] theorem modCore_rf (i : Nat) (f : Core → Core) : (modCore i f s).rf = s.rf := rfl
@[simp] theorem modCore_psr (i : Nat) (f : Core → Core) : (modCore i f s).psr = s.psr := rfl
@[simp] theorem modCore_cipher (i : Nat) (f : Core → Core) : (modCore i f s).cipher = s.cipher := rfl
@[simp] theorem modCore_rng (i : Nat) (f : Core → Core) : (modCore i f s).rng = s.rng := rfl
@[simp] theorem modCore_signer (i : Nat) (f : Core → Core) : (modCore i f s).signer = s.signer := rfl
@[simp] theorem modCore_span (i : Nat) (f : Core → Core) : (modCore i f s).span = s.span := rfl
@[simp] theorem modCore_toll (i : Nat) (f : Core → Core) : (modCore i f s).toll = s.toll := rfl
@[simp] theorem modCore_link (i : Nat) (f : Core → Core) : (modCore i f s).link = s.link := rfl
@[simp] theorem modCore_zw (i : Nat) (f : Core → Core) : (modCore i f s).zw = s.zw := rfl
@[simp] theorem modCore_cfg (i : Nat) (f : Core → Core) : (modCore i f s).cfg = s.cfg := rfl
@[simp] theorem modCore_latched (i : Nat) (f : Core → Core) : (modCore i f s).latched = s.latched := rfl
@[simp] theorem modCore_shadow (i : Nat) (f : Core → Core) : (modCore i f s).shadow = s.shadow := rfl
@[simp] theorem modCore_wshadow (i : Nat) (f : Core → Core) : (modCore i f s).wshadow = s.wshadow := rfl
@[simp] theorem modCore_mem (i : Nat) (f : Core → Core) : (modCore i f s).mem = s.mem := rfl
@[simp] theorem modCore_sent (i : Nat) (f : Core → Core) : (modCore i f s).sent = s.sent := rfl
@[simp] theorem modCore_pending (i : Nat) (f : Core → Core) : (modCore i f s).pending = s.pending := rfl
@[simp] theorem modCore_free (i : Nat) (f : Core → Core) : (modCore i f s).free = s.free := rfl

@[simp] theorem putReg_time (i : Nat) (r : Reg) (k w : Nat) : (putReg s i r k w).time = s.time := rfl
@[simp] theorem putReg_via (i : Nat) (r : Reg) (k w : Nat) : (putReg s i r k w).via = s.via := rfl
@[simp] theorem putReg_cores (i : Nat) (r : Reg) (k w : Nat) : (putReg s i r k w).cores = s.cores := rfl
@[simp] theorem putReg_power (i : Nat) (r : Reg) (k w : Nat) : (putReg s i r k w).power = s.power := rfl
@[simp] theorem putReg_park (i : Nat) (r : Reg) (k w : Nat) : (putReg s i r k w).park = s.park := rfl
@[simp] theorem putReg_therm (i : Nat) (r : Reg) (k w : Nat) : (putReg s i r k w).therm = s.therm := rfl
@[simp] theorem putReg_par (i : Nat) (r : Reg) (k w : Nat) : (putReg s i r k w).par = s.par := rfl
@[simp] theorem putReg_perf (i : Nat) (r : Reg) (k w : Nat) : (putReg s i r k w).perf = s.perf := rfl
@[simp] theorem putReg_dump (i : Nat) (r : Reg) (k w : Nat) : (putReg s i r k w).dump = s.dump := rfl
@[simp] theorem putReg_freeze (i : Nat) (r : Reg) (k w : Nat) : (putReg s i r k w).freeze = s.freeze := rfl
@[simp] theorem putReg_mon (i : Nat) (r : Reg) (k w : Nat) : (putReg s i r k w).mon = s.mon := rfl
@[simp] theorem putReg_boot (i : Nat) (r : Reg) (k w : Nat) : (putReg s i r k w).boot = s.boot := rfl
@[simp] theorem putReg_store (i : Nat) (r : Reg) (k w : Nat) : (putReg s i r k w).store = s.store := rfl
@[simp] theorem putReg_lf (i : Nat) (r : Reg) (k w : Nat) : (putReg s i r k w).lf = s.lf := rfl
@[simp] theorem putReg_rf (i : Nat) (r : Reg) (k w : Nat) : (putReg s i r k w).rf = s.rf := rfl
@[simp] theorem putReg_psr (i : Nat) (r : Reg) (k w : Nat) : (putReg s i r k w).psr = s.psr := rfl
@[simp] theorem putReg_cipher (i : Nat) (r : Reg) (k w : Nat) : (putReg s i r k w).cipher = s.cipher := rfl
@[simp] theorem putReg_rng (i : Nat) (r : Reg) (k w : Nat) : (putReg s i r k w).rng = s.rng := rfl
@[simp] theorem putReg_signer (i : Nat) (r : Reg) (k w : Nat) : (putReg s i r k w).signer = s.signer := rfl
@[simp] theorem putReg_span (i : Nat) (r : Reg) (k w : Nat) : (putReg s i r k w).span = s.span := rfl
@[simp] theorem putReg_toll (i : Nat) (r : Reg) (k w : Nat) : (putReg s i r k w).toll = s.toll := rfl
@[simp] theorem putReg_link (i : Nat) (r : Reg) (k w : Nat) : (putReg s i r k w).link = s.link := rfl
@[simp] theorem putReg_zw (i : Nat) (r : Reg) (k w : Nat) : (putReg s i r k w).zw = s.zw := rfl
@[simp] theorem putReg_latched (i : Nat) (r : Reg) (k w : Nat) : (putReg s i r k w).latched = s.latched := rfl
@[simp] theorem putReg_shadow (i : Nat) (r : Reg) (k w : Nat) : (putReg s i r k w).shadow = s.shadow := rfl
@[simp] theorem putReg_wshadow (i : Nat) (r : Reg) (k w : Nat) : (putReg s i r k w).wshadow = s.wshadow := rfl
@[simp] theorem putReg_mem (i : Nat) (r : Reg) (k w : Nat) : (putReg s i r k w).mem = s.mem := rfl
@[simp] theorem putReg_sent (i : Nat) (r : Reg) (k w : Nat) : (putReg s i r k w).sent = s.sent := rfl
@[simp] theorem putReg_pending (i : Nat) (r : Reg) (k w : Nat) : (putReg s i r k w).pending = s.pending := rfl
@[simp] theorem putReg_free (i : Nat) (r : Reg) (k w : Nat) : (putReg s i r k w).free = s.free := rfl

@[simp] theorem latchReg_time (i : Nat) (r : Reg) (k : Nat) : (latchReg s i r k).time = s.time := rfl
@[simp] theorem latchReg_via (i : Nat) (r : Reg) (k : Nat) : (latchReg s i r k).via = s.via := rfl
@[simp] theorem latchReg_cores (i : Nat) (r : Reg) (k : Nat) : (latchReg s i r k).cores = s.cores := rfl
@[simp] theorem latchReg_power (i : Nat) (r : Reg) (k : Nat) : (latchReg s i r k).power = s.power := rfl
@[simp] theorem latchReg_park (i : Nat) (r : Reg) (k : Nat) : (latchReg s i r k).park = s.park := rfl
@[simp] theorem latchReg_therm (i : Nat) (r : Reg) (k : Nat) : (latchReg s i r k).therm = s.therm := rfl
@[simp] theorem latchReg_par (i : Nat) (r : Reg) (k : Nat) : (latchReg s i r k).par = s.par := rfl
@[simp] theorem latchReg_perf (i : Nat) (r : Reg) (k : Nat) : (latchReg s i r k).perf = s.perf := rfl
@[simp] theorem latchReg_dump (i : Nat) (r : Reg) (k : Nat) : (latchReg s i r k).dump = s.dump := rfl
@[simp] theorem latchReg_freeze (i : Nat) (r : Reg) (k : Nat) : (latchReg s i r k).freeze = s.freeze := rfl
@[simp] theorem latchReg_mon (i : Nat) (r : Reg) (k : Nat) : (latchReg s i r k).mon = s.mon := rfl
@[simp] theorem latchReg_boot (i : Nat) (r : Reg) (k : Nat) : (latchReg s i r k).boot = s.boot := rfl
@[simp] theorem latchReg_store (i : Nat) (r : Reg) (k : Nat) : (latchReg s i r k).store = s.store := rfl
@[simp] theorem latchReg_lf (i : Nat) (r : Reg) (k : Nat) : (latchReg s i r k).lf = s.lf := rfl
@[simp] theorem latchReg_rf (i : Nat) (r : Reg) (k : Nat) : (latchReg s i r k).rf = s.rf := rfl
@[simp] theorem latchReg_psr (i : Nat) (r : Reg) (k : Nat) : (latchReg s i r k).psr = s.psr := rfl
@[simp] theorem latchReg_cipher (i : Nat) (r : Reg) (k : Nat) : (latchReg s i r k).cipher = s.cipher := rfl
@[simp] theorem latchReg_rng (i : Nat) (r : Reg) (k : Nat) : (latchReg s i r k).rng = s.rng := rfl
@[simp] theorem latchReg_signer (i : Nat) (r : Reg) (k : Nat) : (latchReg s i r k).signer = s.signer := rfl
@[simp] theorem latchReg_span (i : Nat) (r : Reg) (k : Nat) : (latchReg s i r k).span = s.span := rfl
@[simp] theorem latchReg_toll (i : Nat) (r : Reg) (k : Nat) : (latchReg s i r k).toll = s.toll := rfl
@[simp] theorem latchReg_link (i : Nat) (r : Reg) (k : Nat) : (latchReg s i r k).link = s.link := rfl
@[simp] theorem latchReg_zw (i : Nat) (r : Reg) (k : Nat) : (latchReg s i r k).zw = s.zw := rfl
@[simp] theorem latchReg_cfg (i : Nat) (r : Reg) (k : Nat) : (latchReg s i r k).cfg = s.cfg := rfl
@[simp] theorem latchReg_shadow (i : Nat) (r : Reg) (k : Nat) : (latchReg s i r k).shadow = s.shadow := rfl
@[simp] theorem latchReg_wshadow (i : Nat) (r : Reg) (k : Nat) : (latchReg s i r k).wshadow = s.wshadow := rfl
@[simp] theorem latchReg_mem (i : Nat) (r : Reg) (k : Nat) : (latchReg s i r k).mem = s.mem := rfl
@[simp] theorem latchReg_sent (i : Nat) (r : Reg) (k : Nat) : (latchReg s i r k).sent = s.sent := rfl
@[simp] theorem latchReg_pending (i : Nat) (r : Reg) (k : Nat) : (latchReg s i r k).pending = s.pending := rfl
@[simp] theorem latchReg_free (i : Nat) (r : Reg) (k : Nat) : (latchReg s i r k).free = s.free := rfl

@[simp] theorem latchShadow_time (ini i : Nat) (r : Reg) (k v : Nat) : (latchShadow ini i r k v s).time = s.time := rfl
@[simp] theorem latchShadow_via (ini i : Nat) (r : Reg) (k v : Nat) : (latchShadow ini i r k v s).via = s.via := rfl
@[simp] theorem latchShadow_cores (ini i : Nat) (r : Reg) (k v : Nat) : (latchShadow ini i r k v s).cores = s.cores := rfl
@[simp] theorem latchShadow_power (ini i : Nat) (r : Reg) (k v : Nat) : (latchShadow ini i r k v s).power = s.power := rfl
@[simp] theorem latchShadow_park (ini i : Nat) (r : Reg) (k v : Nat) : (latchShadow ini i r k v s).park = s.park := rfl
@[simp] theorem latchShadow_therm (ini i : Nat) (r : Reg) (k v : Nat) : (latchShadow ini i r k v s).therm = s.therm := rfl
@[simp] theorem latchShadow_par (ini i : Nat) (r : Reg) (k v : Nat) : (latchShadow ini i r k v s).par = s.par := rfl
@[simp] theorem latchShadow_perf (ini i : Nat) (r : Reg) (k v : Nat) : (latchShadow ini i r k v s).perf = s.perf := rfl
@[simp] theorem latchShadow_dump (ini i : Nat) (r : Reg) (k v : Nat) : (latchShadow ini i r k v s).dump = s.dump := rfl
@[simp] theorem latchShadow_freeze (ini i : Nat) (r : Reg) (k v : Nat) : (latchShadow ini i r k v s).freeze = s.freeze := rfl
@[simp] theorem latchShadow_mon (ini i : Nat) (r : Reg) (k v : Nat) : (latchShadow ini i r k v s).mon = s.mon := rfl
@[simp] theorem latchShadow_boot (ini i : Nat) (r : Reg) (k v : Nat) : (latchShadow ini i r k v s).boot = s.boot := rfl
@[simp] theorem latchShadow_store (ini i : Nat) (r : Reg) (k v : Nat) : (latchShadow ini i r k v s).store = s.store := rfl
@[simp] theorem latchShadow_lf (ini i : Nat) (r : Reg) (k v : Nat) : (latchShadow ini i r k v s).lf = s.lf := rfl
@[simp] theorem latchShadow_rf (ini i : Nat) (r : Reg) (k v : Nat) : (latchShadow ini i r k v s).rf = s.rf := rfl
@[simp] theorem latchShadow_psr (ini i : Nat) (r : Reg) (k v : Nat) : (latchShadow ini i r k v s).psr = s.psr := rfl
@[simp] theorem latchShadow_cipher (ini i : Nat) (r : Reg) (k v : Nat) : (latchShadow ini i r k v s).cipher = s.cipher := rfl
@[simp] theorem latchShadow_rng (ini i : Nat) (r : Reg) (k v : Nat) : (latchShadow ini i r k v s).rng = s.rng := rfl
@[simp] theorem latchShadow_signer (ini i : Nat) (r : Reg) (k v : Nat) : (latchShadow ini i r k v s).signer = s.signer := rfl
@[simp] theorem latchShadow_span (ini i : Nat) (r : Reg) (k v : Nat) : (latchShadow ini i r k v s).span = s.span := rfl
@[simp] theorem latchShadow_toll (ini i : Nat) (r : Reg) (k v : Nat) : (latchShadow ini i r k v s).toll = s.toll := rfl
@[simp] theorem latchShadow_link (ini i : Nat) (r : Reg) (k v : Nat) : (latchShadow ini i r k v s).link = s.link := rfl
@[simp] theorem latchShadow_zw (ini i : Nat) (r : Reg) (k v : Nat) : (latchShadow ini i r k v s).zw = s.zw := rfl
@[simp] theorem latchShadow_cfg (ini i : Nat) (r : Reg) (k v : Nat) : (latchShadow ini i r k v s).cfg = s.cfg := rfl
@[simp] theorem latchShadow_latched (ini i : Nat) (r : Reg) (k v : Nat) : (latchShadow ini i r k v s).latched = s.latched := rfl
@[simp] theorem latchShadow_wshadow (ini i : Nat) (r : Reg) (k v : Nat) : (latchShadow ini i r k v s).wshadow = s.wshadow := rfl
@[simp] theorem latchShadow_mem (ini i : Nat) (r : Reg) (k v : Nat) : (latchShadow ini i r k v s).mem = s.mem := rfl
@[simp] theorem latchShadow_sent (ini i : Nat) (r : Reg) (k v : Nat) : (latchShadow ini i r k v s).sent = s.sent := rfl
@[simp] theorem latchShadow_pending (ini i : Nat) (r : Reg) (k v : Nat) : (latchShadow ini i r k v s).pending = s.pending := rfl
@[simp] theorem latchShadow_free (ini i : Nat) (r : Reg) (k v : Nat) : (latchShadow ini i r k v s).free = s.free := rfl

@[simp] theorem memWriteBytes_time (a : Nat) (bs : List Byte) : (memWriteBytes a bs s).time = s.time := rfl
@[simp] theorem memWriteBytes_via (a : Nat) (bs : List Byte) : (memWriteBytes a bs s).via = s.via := rfl
@[simp] theorem memWriteBytes_cores (a : Nat) (bs : List Byte) : (memWriteBytes a bs s).cores = s.cores := rfl
@[simp] theorem memWriteBytes_power (a : Nat) (bs : List Byte) : (memWriteBytes a bs s).power = s.power := rfl
@[simp] theorem memWriteBytes_park (a : Nat) (bs : List Byte) : (memWriteBytes a bs s).park = s.park := rfl
@[simp] theorem memWriteBytes_therm (a : Nat) (bs : List Byte) : (memWriteBytes a bs s).therm = s.therm := rfl
@[simp] theorem memWriteBytes_par (a : Nat) (bs : List Byte) : (memWriteBytes a bs s).par = s.par := rfl
@[simp] theorem memWriteBytes_perf (a : Nat) (bs : List Byte) : (memWriteBytes a bs s).perf = s.perf := rfl
@[simp] theorem memWriteBytes_dump (a : Nat) (bs : List Byte) : (memWriteBytes a bs s).dump = s.dump := rfl
@[simp] theorem memWriteBytes_freeze (a : Nat) (bs : List Byte) : (memWriteBytes a bs s).freeze = s.freeze := rfl
@[simp] theorem memWriteBytes_mon (a : Nat) (bs : List Byte) : (memWriteBytes a bs s).mon = s.mon := rfl
@[simp] theorem memWriteBytes_boot (a : Nat) (bs : List Byte) : (memWriteBytes a bs s).boot = s.boot := rfl
@[simp] theorem memWriteBytes_store (a : Nat) (bs : List Byte) : (memWriteBytes a bs s).store = s.store := rfl
@[simp] theorem memWriteBytes_lf (a : Nat) (bs : List Byte) : (memWriteBytes a bs s).lf = s.lf := rfl
@[simp] theorem memWriteBytes_rf (a : Nat) (bs : List Byte) : (memWriteBytes a bs s).rf = s.rf := rfl
@[simp] theorem memWriteBytes_psr (a : Nat) (bs : List Byte) : (memWriteBytes a bs s).psr = s.psr := rfl
@[simp] theorem memWriteBytes_cipher (a : Nat) (bs : List Byte) : (memWriteBytes a bs s).cipher = s.cipher := rfl
@[simp] theorem memWriteBytes_rng (a : Nat) (bs : List Byte) : (memWriteBytes a bs s).rng = s.rng := rfl
@[simp] theorem memWriteBytes_signer (a : Nat) (bs : List Byte) : (memWriteBytes a bs s).signer = s.signer := rfl
@[simp] theorem memWriteBytes_span (a : Nat) (bs : List Byte) : (memWriteBytes a bs s).span = s.span := rfl
@[simp] theorem memWriteBytes_toll (a : Nat) (bs : List Byte) : (memWriteBytes a bs s).toll = s.toll := rfl
@[simp] theorem memWriteBytes_link (a : Nat) (bs : List Byte) : (memWriteBytes a bs s).link = s.link := rfl
@[simp] theorem memWriteBytes_zw (a : Nat) (bs : List Byte) : (memWriteBytes a bs s).zw = s.zw := rfl
@[simp] theorem memWriteBytes_cfg (a : Nat) (bs : List Byte) : (memWriteBytes a bs s).cfg = s.cfg := rfl
@[simp] theorem memWriteBytes_latched (a : Nat) (bs : List Byte) : (memWriteBytes a bs s).latched = s.latched := rfl
@[simp] theorem memWriteBytes_shadow (a : Nat) (bs : List Byte) : (memWriteBytes a bs s).shadow = s.shadow := rfl
@[simp] theorem memWriteBytes_wshadow (a : Nat) (bs : List Byte) : (memWriteBytes a bs s).wshadow = s.wshadow := rfl
@[simp] theorem memWriteBytes_mem (a : Nat) (bs : List Byte) : (memWriteBytes a bs s).mem = Memory.writeBytes s.mem a bs := rfl
@[simp] theorem memWriteBytes_sent (a : Nat) (bs : List Byte) : (memWriteBytes a bs s).sent = s.sent := rfl
@[simp] theorem memWriteBytes_pending (a : Nat) (bs : List Byte) : (memWriteBytes a bs s).pending = s.pending := rfl
@[simp] theorem memWriteBytes_free (a : Nat) (bs : List Byte) : (memWriteBytes a bs s).free = s.free := rfl

@[simp] theorem memClear_time (lo hi : Nat) : (memClear lo hi s).time = s.time := rfl
@[simp] theorem memClear_via (lo hi : Nat) : (memClear lo hi s).via = s.via := rfl
@[simp] theorem memClear_cores (lo hi : Nat) : (memClear lo hi s).cores = s.cores := rfl
@[simp] theorem memClear_power (lo hi : Nat) : (memClear lo hi s).power = s.power := rfl
@[simp] theorem memClear_park (lo hi : Nat) : (memClear lo hi s).park = s.park := rfl
@[simp] theorem memClear_therm (lo hi : Nat) : (memClear lo hi s).therm = s.therm := rfl
@[simp] theorem memClear_par (lo hi : Nat) : (memClear lo hi s).par = s.par := rfl
@[simp] theorem memClear_perf (lo hi : Nat) : (memClear lo hi s).perf = s.perf := rfl
@[simp] theorem memClear_dump (lo hi : Nat) : (memClear lo hi s).dump = s.dump := rfl
@[simp] theorem memClear_freeze (lo hi : Nat) : (memClear lo hi s).freeze = s.freeze := rfl
@[simp] theorem memClear_mon (lo hi : Nat) : (memClear lo hi s).mon = s.mon := rfl
@[simp] theorem memClear_boot (lo hi : Nat) : (memClear lo hi s).boot = s.boot := rfl
@[simp] theorem memClear_store (lo hi : Nat) : (memClear lo hi s).store = s.store := rfl
@[simp] theorem memClear_lf (lo hi : Nat) : (memClear lo hi s).lf = s.lf := rfl
@[simp] theorem memClear_rf (lo hi : Nat) : (memClear lo hi s).rf = s.rf := rfl
@[simp] theorem memClear_psr (lo hi : Nat) : (memClear lo hi s).psr = s.psr := rfl
@[simp] theorem memClear_cipher (lo hi : Nat) : (memClear lo hi s).cipher = s.cipher := rfl
@[simp] theorem memClear_rng (lo hi : Nat) : (memClear lo hi s).rng = s.rng := rfl
@[simp] theorem memClear_signer (lo hi : Nat) : (memClear lo hi s).signer = s.signer := rfl
@[simp] theorem memClear_span (lo hi : Nat) : (memClear lo hi s).span = s.span := rfl
@[simp] theorem memClear_toll (lo hi : Nat) : (memClear lo hi s).toll = s.toll := rfl
@[simp] theorem memClear_link (lo hi : Nat) : (memClear lo hi s).link = s.link := rfl
@[simp] theorem memClear_zw (lo hi : Nat) : (memClear lo hi s).zw = s.zw := rfl
@[simp] theorem memClear_cfg (lo hi : Nat) : (memClear lo hi s).cfg = s.cfg := rfl
@[simp] theorem memClear_latched (lo hi : Nat) : (memClear lo hi s).latched = s.latched := rfl
@[simp] theorem memClear_shadow (lo hi : Nat) : (memClear lo hi s).shadow = s.shadow := rfl
@[simp] theorem memClear_wshadow (lo hi : Nat) : (memClear lo hi s).wshadow = s.wshadow := rfl
@[simp] theorem memClear_mem (lo hi : Nat) : (memClear lo hi s).mem = Memory.clear lo hi s.mem := rfl
@[simp] theorem memClear_sent (lo hi : Nat) : (memClear lo hi s).sent = s.sent := rfl
@[simp] theorem memClear_pending (lo hi : Nat) : (memClear lo hi s).pending = s.pending := rfl
@[simp] theorem memClear_free (lo hi : Nat) : (memClear lo hi s).free = s.free := rfl

@[simp] theorem modPerf_time (i : Nat) (f : PerfState → PerfState) : (modPerf i f s).time = s.time := rfl
@[simp] theorem modPerf_via (i : Nat) (f : PerfState → PerfState) : (modPerf i f s).via = s.via := rfl
@[simp] theorem modPerf_cores (i : Nat) (f : PerfState → PerfState) : (modPerf i f s).cores = s.cores := rfl
@[simp] theorem modPerf_power (i : Nat) (f : PerfState → PerfState) : (modPerf i f s).power = s.power := rfl
@[simp] theorem modPerf_park (i : Nat) (f : PerfState → PerfState) : (modPerf i f s).park = s.park := rfl
@[simp] theorem modPerf_therm (i : Nat) (f : PerfState → PerfState) : (modPerf i f s).therm = s.therm := rfl
@[simp] theorem modPerf_par (i : Nat) (f : PerfState → PerfState) : (modPerf i f s).par = s.par := rfl
@[simp] theorem modPerf_perf (i : Nat) (f : PerfState → PerfState) : (modPerf i f s).perf = vset s.perf i (f (getPerf s i)) := rfl
@[simp] theorem modPerf_dump (i : Nat) (f : PerfState → PerfState) : (modPerf i f s).dump = s.dump := rfl
@[simp] theorem modPerf_freeze (i : Nat) (f : PerfState → PerfState) : (modPerf i f s).freeze = s.freeze := rfl
@[simp] theorem modPerf_mon (i : Nat) (f : PerfState → PerfState) : (modPerf i f s).mon = s.mon := rfl
@[simp] theorem modPerf_boot (i : Nat) (f : PerfState → PerfState) : (modPerf i f s).boot = s.boot := rfl
@[simp] theorem modPerf_store (i : Nat) (f : PerfState → PerfState) : (modPerf i f s).store = s.store := rfl
@[simp] theorem modPerf_lf (i : Nat) (f : PerfState → PerfState) : (modPerf i f s).lf = s.lf := rfl
@[simp] theorem modPerf_rf (i : Nat) (f : PerfState → PerfState) : (modPerf i f s).rf = s.rf := rfl
@[simp] theorem modPerf_psr (i : Nat) (f : PerfState → PerfState) : (modPerf i f s).psr = s.psr := rfl
@[simp] theorem modPerf_cipher (i : Nat) (f : PerfState → PerfState) : (modPerf i f s).cipher = s.cipher := rfl
@[simp] theorem modPerf_rng (i : Nat) (f : PerfState → PerfState) : (modPerf i f s).rng = s.rng := rfl
@[simp] theorem modPerf_signer (i : Nat) (f : PerfState → PerfState) : (modPerf i f s).signer = s.signer := rfl
@[simp] theorem modPerf_span (i : Nat) (f : PerfState → PerfState) : (modPerf i f s).span = s.span := rfl
@[simp] theorem modPerf_toll (i : Nat) (f : PerfState → PerfState) : (modPerf i f s).toll = s.toll := rfl
@[simp] theorem modPerf_link (i : Nat) (f : PerfState → PerfState) : (modPerf i f s).link = s.link := rfl
@[simp] theorem modPerf_zw (i : Nat) (f : PerfState → PerfState) : (modPerf i f s).zw = s.zw := rfl
@[simp] theorem modPerf_cfg (i : Nat) (f : PerfState → PerfState) : (modPerf i f s).cfg = s.cfg := rfl
@[simp] theorem modPerf_latched (i : Nat) (f : PerfState → PerfState) : (modPerf i f s).latched = s.latched := rfl
@[simp] theorem modPerf_shadow (i : Nat) (f : PerfState → PerfState) : (modPerf i f s).shadow = s.shadow := rfl
@[simp] theorem modPerf_wshadow (i : Nat) (f : PerfState → PerfState) : (modPerf i f s).wshadow = s.wshadow := rfl
@[simp] theorem modPerf_mem (i : Nat) (f : PerfState → PerfState) : (modPerf i f s).mem = s.mem := rfl
@[simp] theorem modPerf_sent (i : Nat) (f : PerfState → PerfState) : (modPerf i f s).sent = s.sent := rfl
@[simp] theorem modPerf_pending (i : Nat) (f : PerfState → PerfState) : (modPerf i f s).pending = s.pending := rfl
@[simp] theorem modPerf_free (i : Nat) (f : PerfState → PerfState) : (modPerf i f s).free = s.free := rfl

@[simp] theorem setPState_time (i : Nat) (p : PState) : (setPState i p s).time = s.time := rfl
@[simp] theorem setPState_via (i : Nat) (p : PState) : (setPState i p s).via = s.via := rfl
@[simp] theorem setPState_cores (i : Nat) (p : PState) : (setPState i p s).cores = s.cores := rfl
@[simp] theorem setPState_park (i : Nat) (p : PState) : (setPState i p s).park = s.park := rfl
@[simp] theorem setPState_therm (i : Nat) (p : PState) : (setPState i p s).therm = s.therm := rfl
@[simp] theorem setPState_par (i : Nat) (p : PState) : (setPState i p s).par = s.par := rfl
@[simp] theorem setPState_perf (i : Nat) (p : PState) : (setPState i p s).perf = s.perf := rfl
@[simp] theorem setPState_dump (i : Nat) (p : PState) : (setPState i p s).dump = s.dump := rfl
@[simp] theorem setPState_freeze (i : Nat) (p : PState) : (setPState i p s).freeze = s.freeze := rfl
@[simp] theorem setPState_mon (i : Nat) (p : PState) : (setPState i p s).mon = s.mon := rfl
@[simp] theorem setPState_boot (i : Nat) (p : PState) : (setPState i p s).boot = s.boot := rfl
@[simp] theorem setPState_store (i : Nat) (p : PState) : (setPState i p s).store = s.store := rfl
@[simp] theorem setPState_lf (i : Nat) (p : PState) : (setPState i p s).lf = s.lf := rfl
@[simp] theorem setPState_rf (i : Nat) (p : PState) : (setPState i p s).rf = s.rf := rfl
@[simp] theorem setPState_psr (i : Nat) (p : PState) : (setPState i p s).psr = s.psr := rfl
@[simp] theorem setPState_cipher (i : Nat) (p : PState) : (setPState i p s).cipher = s.cipher := rfl
@[simp] theorem setPState_rng (i : Nat) (p : PState) : (setPState i p s).rng = s.rng := rfl
@[simp] theorem setPState_signer (i : Nat) (p : PState) : (setPState i p s).signer = s.signer := rfl
@[simp] theorem setPState_span (i : Nat) (p : PState) : (setPState i p s).span = s.span := rfl
@[simp] theorem setPState_toll (i : Nat) (p : PState) : (setPState i p s).toll = s.toll := rfl
@[simp] theorem setPState_link (i : Nat) (p : PState) : (setPState i p s).link = s.link := rfl
@[simp] theorem setPState_zw (i : Nat) (p : PState) : (setPState i p s).zw = s.zw := rfl
@[simp] theorem setPState_cfg (i : Nat) (p : PState) : (setPState i p s).cfg = s.cfg := rfl
@[simp] theorem setPState_latched (i : Nat) (p : PState) : (setPState i p s).latched = s.latched := rfl
@[simp] theorem setPState_shadow (i : Nat) (p : PState) : (setPState i p s).shadow = s.shadow := rfl
@[simp] theorem setPState_wshadow (i : Nat) (p : PState) : (setPState i p s).wshadow = s.wshadow := rfl
@[simp] theorem setPState_mem (i : Nat) (p : PState) : (setPState i p s).mem = s.mem := rfl
@[simp] theorem setPState_sent (i : Nat) (p : PState) : (setPState i p s).sent = s.sent := rfl
@[simp] theorem setPState_pending (i : Nat) (p : PState) : (setPState i p s).pending = s.pending := rfl
@[simp] theorem setPState_free (i : Nat) (p : PState) : (setPState i p s).free = s.free := rfl

@[simp] theorem fireWake_time (bit : Nat) : (fireWake bit s).time = s.time := rfl
@[simp] theorem fireWake_via (bit : Nat) : (fireWake bit s).via = s.via := rfl
@[simp] theorem fireWake_cores (bit : Nat) : (fireWake bit s).cores = s.cores := rfl
@[simp] theorem fireWake_power (bit : Nat) : (fireWake bit s).power = s.power := rfl
@[simp] theorem fireWake_therm (bit : Nat) : (fireWake bit s).therm = s.therm := rfl
@[simp] theorem fireWake_par (bit : Nat) : (fireWake bit s).par = s.par := rfl
@[simp] theorem fireWake_perf (bit : Nat) : (fireWake bit s).perf = s.perf := rfl
@[simp] theorem fireWake_dump (bit : Nat) : (fireWake bit s).dump = s.dump := rfl
@[simp] theorem fireWake_freeze (bit : Nat) : (fireWake bit s).freeze = s.freeze := rfl
@[simp] theorem fireWake_mon (bit : Nat) : (fireWake bit s).mon = s.mon := rfl
@[simp] theorem fireWake_boot (bit : Nat) : (fireWake bit s).boot = s.boot := rfl
@[simp] theorem fireWake_store (bit : Nat) : (fireWake bit s).store = s.store := rfl
@[simp] theorem fireWake_lf (bit : Nat) : (fireWake bit s).lf = s.lf := rfl
@[simp] theorem fireWake_rf (bit : Nat) : (fireWake bit s).rf = s.rf := rfl
@[simp] theorem fireWake_psr (bit : Nat) : (fireWake bit s).psr = s.psr := rfl
@[simp] theorem fireWake_cipher (bit : Nat) : (fireWake bit s).cipher = s.cipher := rfl
@[simp] theorem fireWake_rng (bit : Nat) : (fireWake bit s).rng = s.rng := rfl
@[simp] theorem fireWake_signer (bit : Nat) : (fireWake bit s).signer = s.signer := rfl
@[simp] theorem fireWake_span (bit : Nat) : (fireWake bit s).span = s.span := rfl
@[simp] theorem fireWake_toll (bit : Nat) : (fireWake bit s).toll = s.toll := rfl
@[simp] theorem fireWake_link (bit : Nat) : (fireWake bit s).link = s.link := rfl
@[simp] theorem fireWake_zw (bit : Nat) : (fireWake bit s).zw = s.zw := rfl
@[simp] theorem fireWake_cfg (bit : Nat) : (fireWake bit s).cfg = s.cfg := rfl
@[simp] theorem fireWake_latched (bit : Nat) : (fireWake bit s).latched = s.latched := rfl
@[simp] theorem fireWake_shadow (bit : Nat) : (fireWake bit s).shadow = s.shadow := rfl
@[simp] theorem fireWake_wshadow (bit : Nat) : (fireWake bit s).wshadow = s.wshadow := rfl
@[simp] theorem fireWake_mem (bit : Nat) : (fireWake bit s).mem = s.mem := rfl
@[simp] theorem fireWake_sent (bit : Nat) : (fireWake bit s).sent = s.sent := rfl
@[simp] theorem fireWake_pending (bit : Nat) : (fireWake bit s).pending = s.pending := rfl
@[simp] theorem fireWake_free (bit : Nat) : (fireWake bit s).free = s.free := rfl

@[simp] theorem setInbox_time (i : Nat) (q : List InboxEntry) : (setInbox i q s).time = s.time := rfl
@[simp] theorem setInbox_cores (i : Nat) (q : List InboxEntry) : (setInbox i q s).cores = s.cores := rfl
@[simp] theorem setInbox_power (i : Nat) (q : List InboxEntry) : (setInbox i q s).power = s.power := rfl
@[simp] theorem setInbox_park (i : Nat) (q : List InboxEntry) : (setInbox i q s).park = s.park := rfl
@[simp] theorem setInbox_therm (i : Nat) (q : List InboxEntry) : (setInbox i q s).therm = s.therm := rfl
@[simp] theorem setInbox_par (i : Nat) (q : List InboxEntry) : (setInbox i q s).par = s.par := rfl
@[simp] theorem setInbox_perf (i : Nat) (q : List InboxEntry) : (setInbox i q s).perf = s.perf := rfl
@[simp] theorem setInbox_dump (i : Nat) (q : List InboxEntry) : (setInbox i q s).dump = s.dump := rfl
@[simp] theorem setInbox_freeze (i : Nat) (q : List InboxEntry) : (setInbox i q s).freeze = s.freeze := rfl
@[simp] theorem setInbox_mon (i : Nat) (q : List InboxEntry) : (setInbox i q s).mon = s.mon := rfl
@[simp] theorem setInbox_boot (i : Nat) (q : List InboxEntry) : (setInbox i q s).boot = s.boot := rfl
@[simp] theorem setInbox_store (i : Nat) (q : List InboxEntry) : (setInbox i q s).store = s.store := rfl
@[simp] theorem setInbox_lf (i : Nat) (q : List InboxEntry) : (setInbox i q s).lf = s.lf := rfl
@[simp] theorem setInbox_rf (i : Nat) (q : List InboxEntry) : (setInbox i q s).rf = s.rf := rfl
@[simp] theorem setInbox_psr (i : Nat) (q : List InboxEntry) : (setInbox i q s).psr = s.psr := rfl
@[simp] theorem setInbox_cipher (i : Nat) (q : List InboxEntry) : (setInbox i q s).cipher = s.cipher := rfl
@[simp] theorem setInbox_rng (i : Nat) (q : List InboxEntry) : (setInbox i q s).rng = s.rng := rfl
@[simp] theorem setInbox_signer (i : Nat) (q : List InboxEntry) : (setInbox i q s).signer = s.signer := rfl
@[simp] theorem setInbox_span (i : Nat) (q : List InboxEntry) : (setInbox i q s).span = s.span := rfl
@[simp] theorem setInbox_toll (i : Nat) (q : List InboxEntry) : (setInbox i q s).toll = s.toll := rfl
@[simp] theorem setInbox_link (i : Nat) (q : List InboxEntry) : (setInbox i q s).link = s.link := rfl
@[simp] theorem setInbox_zw (i : Nat) (q : List InboxEntry) : (setInbox i q s).zw = s.zw := rfl
@[simp] theorem setInbox_cfg (i : Nat) (q : List InboxEntry) : (setInbox i q s).cfg = s.cfg := rfl
@[simp] theorem setInbox_latched (i : Nat) (q : List InboxEntry) : (setInbox i q s).latched = s.latched := rfl
@[simp] theorem setInbox_shadow (i : Nat) (q : List InboxEntry) : (setInbox i q s).shadow = s.shadow := rfl
@[simp] theorem setInbox_wshadow (i : Nat) (q : List InboxEntry) : (setInbox i q s).wshadow = s.wshadow := rfl
@[simp] theorem setInbox_mem (i : Nat) (q : List InboxEntry) : (setInbox i q s).mem = s.mem := rfl
@[simp] theorem setInbox_sent (i : Nat) (q : List InboxEntry) : (setInbox i q s).sent = s.sent := rfl
@[simp] theorem setInbox_pending (i : Nat) (q : List InboxEntry) : (setInbox i q s).pending = s.pending := rfl
@[simp] theorem setInbox_free (i : Nat) (q : List InboxEntry) : (setInbox i q s).free = s.free := rfl

@[simp] theorem setResp_time (ini : Nat) (data : List Nat) (st : Status) : (setResp ini data st s).time = s.time := rfl
@[simp] theorem setResp_cores (ini : Nat) (data : List Nat) (st : Status) : (setResp ini data st s).cores = s.cores := rfl
@[simp] theorem setResp_power (ini : Nat) (data : List Nat) (st : Status) : (setResp ini data st s).power = s.power := rfl
@[simp] theorem setResp_park (ini : Nat) (data : List Nat) (st : Status) : (setResp ini data st s).park = s.park := rfl
@[simp] theorem setResp_therm (ini : Nat) (data : List Nat) (st : Status) : (setResp ini data st s).therm = s.therm := rfl
@[simp] theorem setResp_par (ini : Nat) (data : List Nat) (st : Status) : (setResp ini data st s).par = s.par := rfl
@[simp] theorem setResp_perf (ini : Nat) (data : List Nat) (st : Status) : (setResp ini data st s).perf = s.perf := rfl
@[simp] theorem setResp_dump (ini : Nat) (data : List Nat) (st : Status) : (setResp ini data st s).dump = s.dump := rfl
@[simp] theorem setResp_freeze (ini : Nat) (data : List Nat) (st : Status) : (setResp ini data st s).freeze = s.freeze := rfl
@[simp] theorem setResp_mon (ini : Nat) (data : List Nat) (st : Status) : (setResp ini data st s).mon = s.mon := rfl
@[simp] theorem setResp_boot (ini : Nat) (data : List Nat) (st : Status) : (setResp ini data st s).boot = s.boot := rfl
@[simp] theorem setResp_store (ini : Nat) (data : List Nat) (st : Status) : (setResp ini data st s).store = s.store := rfl
@[simp] theorem setResp_lf (ini : Nat) (data : List Nat) (st : Status) : (setResp ini data st s).lf = s.lf := rfl
@[simp] theorem setResp_rf (ini : Nat) (data : List Nat) (st : Status) : (setResp ini data st s).rf = s.rf := rfl
@[simp] theorem setResp_psr (ini : Nat) (data : List Nat) (st : Status) : (setResp ini data st s).psr = s.psr := rfl
@[simp] theorem setResp_cipher (ini : Nat) (data : List Nat) (st : Status) : (setResp ini data st s).cipher = s.cipher := rfl
@[simp] theorem setResp_rng (ini : Nat) (data : List Nat) (st : Status) : (setResp ini data st s).rng = s.rng := rfl
@[simp] theorem setResp_signer (ini : Nat) (data : List Nat) (st : Status) : (setResp ini data st s).signer = s.signer := rfl
@[simp] theorem setResp_span (ini : Nat) (data : List Nat) (st : Status) : (setResp ini data st s).span = s.span := rfl
@[simp] theorem setResp_toll (ini : Nat) (data : List Nat) (st : Status) : (setResp ini data st s).toll = s.toll := rfl
@[simp] theorem setResp_link (ini : Nat) (data : List Nat) (st : Status) : (setResp ini data st s).link = s.link := rfl
@[simp] theorem setResp_zw (ini : Nat) (data : List Nat) (st : Status) : (setResp ini data st s).zw = s.zw := rfl
@[simp] theorem setResp_cfg (ini : Nat) (data : List Nat) (st : Status) : (setResp ini data st s).cfg = s.cfg := rfl
@[simp] theorem setResp_latched (ini : Nat) (data : List Nat) (st : Status) : (setResp ini data st s).latched = s.latched := rfl
@[simp] theorem setResp_shadow (ini : Nat) (data : List Nat) (st : Status) : (setResp ini data st s).shadow = s.shadow := rfl
@[simp] theorem setResp_wshadow (ini : Nat) (data : List Nat) (st : Status) : (setResp ini data st s).wshadow = s.wshadow := rfl
@[simp] theorem setResp_mem (ini : Nat) (data : List Nat) (st : Status) : (setResp ini data st s).mem = s.mem := rfl
@[simp] theorem setResp_sent (ini : Nat) (data : List Nat) (st : Status) : (setResp ini data st s).sent = s.sent := rfl
@[simp] theorem setResp_pending (ini : Nat) (data : List Nat) (st : Status) : (setResp ini data st s).pending = s.pending := rfl
@[simp] theorem setResp_free (ini : Nat) (data : List Nat) (st : Status) : (setResp ini data st s).free = s.free := rfl

@[simp] theorem requestRestart_time (i : Nat) (cause : Status) : (requestRestart i cause s).time = s.time := rfl
@[simp] theorem requestRestart_via (i : Nat) (cause : Status) : (requestRestart i cause s).via = s.via := rfl
@[simp] theorem requestRestart_cores (i : Nat) (cause : Status) : (requestRestart i cause s).cores = s.cores := rfl
@[simp] theorem requestRestart_power (i : Nat) (cause : Status) : (requestRestart i cause s).power = s.power := rfl
@[simp] theorem requestRestart_park (i : Nat) (cause : Status) : (requestRestart i cause s).park = s.park := rfl
@[simp] theorem requestRestart_therm (i : Nat) (cause : Status) : (requestRestart i cause s).therm = s.therm := rfl
@[simp] theorem requestRestart_perf (i : Nat) (cause : Status) : (requestRestart i cause s).perf = s.perf := rfl
@[simp] theorem requestRestart_dump (i : Nat) (cause : Status) : (requestRestart i cause s).dump = s.dump := rfl
@[simp] theorem requestRestart_freeze (i : Nat) (cause : Status) : (requestRestart i cause s).freeze = s.freeze := rfl
@[simp] theorem requestRestart_mon (i : Nat) (cause : Status) : (requestRestart i cause s).mon = s.mon := rfl
@[simp] theorem requestRestart_boot (i : Nat) (cause : Status) : (requestRestart i cause s).boot = s.boot := rfl
@[simp] theorem requestRestart_store (i : Nat) (cause : Status) : (requestRestart i cause s).store = s.store := rfl
@[simp] theorem requestRestart_lf (i : Nat) (cause : Status) : (requestRestart i cause s).lf = s.lf := rfl
@[simp] theorem requestRestart_rf (i : Nat) (cause : Status) : (requestRestart i cause s).rf = s.rf := rfl
@[simp] theorem requestRestart_psr (i : Nat) (cause : Status) : (requestRestart i cause s).psr = s.psr := rfl
@[simp] theorem requestRestart_cipher (i : Nat) (cause : Status) : (requestRestart i cause s).cipher = s.cipher := rfl
@[simp] theorem requestRestart_rng (i : Nat) (cause : Status) : (requestRestart i cause s).rng = s.rng := rfl
@[simp] theorem requestRestart_signer (i : Nat) (cause : Status) : (requestRestart i cause s).signer = s.signer := rfl
@[simp] theorem requestRestart_span (i : Nat) (cause : Status) : (requestRestart i cause s).span = s.span := rfl
@[simp] theorem requestRestart_toll (i : Nat) (cause : Status) : (requestRestart i cause s).toll = s.toll := rfl
@[simp] theorem requestRestart_link (i : Nat) (cause : Status) : (requestRestart i cause s).link = s.link := rfl
@[simp] theorem requestRestart_zw (i : Nat) (cause : Status) : (requestRestart i cause s).zw = s.zw := rfl
@[simp] theorem requestRestart_cfg (i : Nat) (cause : Status) : (requestRestart i cause s).cfg = s.cfg := rfl
@[simp] theorem requestRestart_latched (i : Nat) (cause : Status) : (requestRestart i cause s).latched = s.latched := rfl
@[simp] theorem requestRestart_shadow (i : Nat) (cause : Status) : (requestRestart i cause s).shadow = s.shadow := rfl
@[simp] theorem requestRestart_wshadow (i : Nat) (cause : Status) : (requestRestart i cause s).wshadow = s.wshadow := rfl
@[simp] theorem requestRestart_mem (i : Nat) (cause : Status) : (requestRestart i cause s).mem = s.mem := rfl
@[simp] theorem requestRestart_sent (i : Nat) (cause : Status) : (requestRestart i cause s).sent = s.sent := rfl
@[simp] theorem requestRestart_pending (i : Nat) (cause : Status) : (requestRestart i cause s).pending = s.pending := rfl
@[simp] theorem requestRestart_free (i : Nat) (cause : Status) : (requestRestart i cause s).free = s.free := rfl

/-- Counting an event changes the counters alone. -/
theorem countEvent_eq (i ev n : Nat) : ∃ p, countEvent i ev n s = { s with perf := p } := by
  have h : ∀ (l : List Nat) (p : Vector PerfState 14), ∃ q,
      l.foldl (fun s k => if pmcCounts s i k && regField s i .perfSel k 0 10 == ev then modPerf i (pmcAdd k n) s else s) { s with perf := p } =
        { s with perf := q } := by
    intro l
    induction l with
    | nil => exact fun p => ⟨p, rfl⟩
    | cons a l ih =>
      intro p
      rw [List.foldl_cons]
      split
      · exact ih _
      · exact ih p
  exact h (List.range 8) s.perf

@[simp] theorem countEvent_time (i ev n : Nat) : (countEvent i ev n s).time = s.time := by
  obtain ⟨p, h⟩ := countEvent_eq s i ev n
  rw [h]
@[simp] theorem countEvent_via (i ev n : Nat) : (countEvent i ev n s).via = s.via := by
  obtain ⟨p, h⟩ := countEvent_eq s i ev n
  rw [h]
@[simp] theorem countEvent_cores (i ev n : Nat) : (countEvent i ev n s).cores = s.cores := by
  obtain ⟨p, h⟩ := countEvent_eq s i ev n
  rw [h]
@[simp] theorem countEvent_power (i ev n : Nat) : (countEvent i ev n s).power = s.power := by
  obtain ⟨p, h⟩ := countEvent_eq s i ev n
  rw [h]
@[simp] theorem countEvent_park (i ev n : Nat) : (countEvent i ev n s).park = s.park := by
  obtain ⟨p, h⟩ := countEvent_eq s i ev n
  rw [h]
@[simp] theorem countEvent_therm (i ev n : Nat) : (countEvent i ev n s).therm = s.therm := by
  obtain ⟨p, h⟩ := countEvent_eq s i ev n
  rw [h]
@[simp] theorem countEvent_par (i ev n : Nat) : (countEvent i ev n s).par = s.par := by
  obtain ⟨p, h⟩ := countEvent_eq s i ev n
  rw [h]
@[simp] theorem countEvent_dump (i ev n : Nat) : (countEvent i ev n s).dump = s.dump := by
  obtain ⟨p, h⟩ := countEvent_eq s i ev n
  rw [h]
@[simp] theorem countEvent_freeze (i ev n : Nat) : (countEvent i ev n s).freeze = s.freeze := by
  obtain ⟨p, h⟩ := countEvent_eq s i ev n
  rw [h]
@[simp] theorem countEvent_mon (i ev n : Nat) : (countEvent i ev n s).mon = s.mon := by
  obtain ⟨p, h⟩ := countEvent_eq s i ev n
  rw [h]
@[simp] theorem countEvent_boot (i ev n : Nat) : (countEvent i ev n s).boot = s.boot := by
  obtain ⟨p, h⟩ := countEvent_eq s i ev n
  rw [h]
@[simp] theorem countEvent_store (i ev n : Nat) : (countEvent i ev n s).store = s.store := by
  obtain ⟨p, h⟩ := countEvent_eq s i ev n
  rw [h]
@[simp] theorem countEvent_lf (i ev n : Nat) : (countEvent i ev n s).lf = s.lf := by
  obtain ⟨p, h⟩ := countEvent_eq s i ev n
  rw [h]
@[simp] theorem countEvent_rf (i ev n : Nat) : (countEvent i ev n s).rf = s.rf := by
  obtain ⟨p, h⟩ := countEvent_eq s i ev n
  rw [h]
@[simp] theorem countEvent_psr (i ev n : Nat) : (countEvent i ev n s).psr = s.psr := by
  obtain ⟨p, h⟩ := countEvent_eq s i ev n
  rw [h]
@[simp] theorem countEvent_cipher (i ev n : Nat) : (countEvent i ev n s).cipher = s.cipher := by
  obtain ⟨p, h⟩ := countEvent_eq s i ev n
  rw [h]
@[simp] theorem countEvent_rng (i ev n : Nat) : (countEvent i ev n s).rng = s.rng := by
  obtain ⟨p, h⟩ := countEvent_eq s i ev n
  rw [h]
@[simp] theorem countEvent_signer (i ev n : Nat) : (countEvent i ev n s).signer = s.signer := by
  obtain ⟨p, h⟩ := countEvent_eq s i ev n
  rw [h]
@[simp] theorem countEvent_span (i ev n : Nat) : (countEvent i ev n s).span = s.span := by
  obtain ⟨p, h⟩ := countEvent_eq s i ev n
  rw [h]
@[simp] theorem countEvent_toll (i ev n : Nat) : (countEvent i ev n s).toll = s.toll := by
  obtain ⟨p, h⟩ := countEvent_eq s i ev n
  rw [h]
@[simp] theorem countEvent_link (i ev n : Nat) : (countEvent i ev n s).link = s.link := by
  obtain ⟨p, h⟩ := countEvent_eq s i ev n
  rw [h]
@[simp] theorem countEvent_zw (i ev n : Nat) : (countEvent i ev n s).zw = s.zw := by
  obtain ⟨p, h⟩ := countEvent_eq s i ev n
  rw [h]
@[simp] theorem countEvent_cfg (i ev n : Nat) : (countEvent i ev n s).cfg = s.cfg := by
  obtain ⟨p, h⟩ := countEvent_eq s i ev n
  rw [h]
@[simp] theorem countEvent_latched (i ev n : Nat) : (countEvent i ev n s).latched = s.latched := by
  obtain ⟨p, h⟩ := countEvent_eq s i ev n
  rw [h]
@[simp] theorem countEvent_shadow (i ev n : Nat) : (countEvent i ev n s).shadow = s.shadow := by
  obtain ⟨p, h⟩ := countEvent_eq s i ev n
  rw [h]
@[simp] theorem countEvent_wshadow (i ev n : Nat) : (countEvent i ev n s).wshadow = s.wshadow := by
  obtain ⟨p, h⟩ := countEvent_eq s i ev n
  rw [h]
@[simp] theorem countEvent_mem (i ev n : Nat) : (countEvent i ev n s).mem = s.mem := by
  obtain ⟨p, h⟩ := countEvent_eq s i ev n
  rw [h]
@[simp] theorem countEvent_sent (i ev n : Nat) : (countEvent i ev n s).sent = s.sent := by
  obtain ⟨p, h⟩ := countEvent_eq s i ev n
  rw [h]
@[simp] theorem countEvent_pending (i ev n : Nat) : (countEvent i ev n s).pending = s.pending := by
  obtain ⟨p, h⟩ := countEvent_eq s i ev n
  rw [h]
@[simp] theorem countEvent_free (i ev n : Nat) : (countEvent i ev n s).free = s.free := by
  obtain ⟨p, h⟩ := countEvent_eq s i ev n
  rw [h]

@[simp] theorem countIssue_time (ini i : Nat) : (countIssue ini i s).time = s.time := by
  unfold countIssue
  split <;> simp
@[simp] theorem countIssue_via (ini i : Nat) : (countIssue ini i s).via = s.via := by
  unfold countIssue
  split <;> simp
@[simp] theorem countIssue_cores (ini i : Nat) : (countIssue ini i s).cores = s.cores := by
  unfold countIssue
  split <;> simp
@[simp] theorem countIssue_power (ini i : Nat) : (countIssue ini i s).power = s.power := by
  unfold countIssue
  split <;> simp
@[simp] theorem countIssue_park (ini i : Nat) : (countIssue ini i s).park = s.park := by
  unfold countIssue
  split <;> simp
@[simp] theorem countIssue_therm (ini i : Nat) : (countIssue ini i s).therm = s.therm := by
  unfold countIssue
  split <;> simp
@[simp] theorem countIssue_par (ini i : Nat) : (countIssue ini i s).par = s.par := by
  unfold countIssue
  split <;> simp
@[simp] theorem countIssue_dump (ini i : Nat) : (countIssue ini i s).dump = s.dump := by
  unfold countIssue
  split <;> simp
@[simp] theorem countIssue_freeze (ini i : Nat) : (countIssue ini i s).freeze = s.freeze := by
  unfold countIssue
  split <;> simp
@[simp] theorem countIssue_mon (ini i : Nat) : (countIssue ini i s).mon = s.mon := by
  unfold countIssue
  split <;> simp
@[simp] theorem countIssue_boot (ini i : Nat) : (countIssue ini i s).boot = s.boot := by
  unfold countIssue
  split <;> simp
@[simp] theorem countIssue_store (ini i : Nat) : (countIssue ini i s).store = s.store := by
  unfold countIssue
  split <;> simp
@[simp] theorem countIssue_lf (ini i : Nat) : (countIssue ini i s).lf = s.lf := by
  unfold countIssue
  split <;> simp
@[simp] theorem countIssue_rf (ini i : Nat) : (countIssue ini i s).rf = s.rf := by
  unfold countIssue
  split <;> simp
@[simp] theorem countIssue_psr (ini i : Nat) : (countIssue ini i s).psr = s.psr := by
  unfold countIssue
  split <;> simp
@[simp] theorem countIssue_cipher (ini i : Nat) : (countIssue ini i s).cipher = s.cipher := by
  unfold countIssue
  split <;> simp
@[simp] theorem countIssue_rng (ini i : Nat) : (countIssue ini i s).rng = s.rng := by
  unfold countIssue
  split <;> simp
@[simp] theorem countIssue_signer (ini i : Nat) : (countIssue ini i s).signer = s.signer := by
  unfold countIssue
  split <;> simp
@[simp] theorem countIssue_span (ini i : Nat) : (countIssue ini i s).span = s.span := by
  unfold countIssue
  split <;> simp
@[simp] theorem countIssue_toll (ini i : Nat) : (countIssue ini i s).toll = s.toll := by
  unfold countIssue
  split <;> simp
@[simp] theorem countIssue_link (ini i : Nat) : (countIssue ini i s).link = s.link := by
  unfold countIssue
  split <;> simp
@[simp] theorem countIssue_zw (ini i : Nat) : (countIssue ini i s).zw = s.zw := by
  unfold countIssue
  split <;> simp
@[simp] theorem countIssue_cfg (ini i : Nat) : (countIssue ini i s).cfg = s.cfg := by
  unfold countIssue
  split <;> simp
@[simp] theorem countIssue_latched (ini i : Nat) : (countIssue ini i s).latched = s.latched := by
  unfold countIssue
  split <;> simp
@[simp] theorem countIssue_shadow (ini i : Nat) : (countIssue ini i s).shadow = s.shadow := by
  unfold countIssue
  split <;> simp
@[simp] theorem countIssue_wshadow (ini i : Nat) : (countIssue ini i s).wshadow = s.wshadow := by
  unfold countIssue
  split <;> simp
@[simp] theorem countIssue_mem (ini i : Nat) : (countIssue ini i s).mem = s.mem := by
  unfold countIssue
  split <;> simp
@[simp] theorem countIssue_sent (ini i : Nat) : (countIssue ini i s).sent = s.sent := by
  unfold countIssue
  split <;> simp
@[simp] theorem countIssue_pending (ini i : Nat) : (countIssue ini i s).pending = s.pending := by
  unfold countIssue
  split <;> simp
@[simp] theorem countIssue_free (ini i : Nat) : (countIssue ini i s).free = s.free := by
  unfold countIssue
  split <;> simp

@[simp] theorem countServe_time (ini i : Nat) : (countServe ini i s).time = s.time := by
  unfold countServe
  split <;> simp
@[simp] theorem countServe_via (ini i : Nat) : (countServe ini i s).via = s.via := by
  unfold countServe
  split <;> simp
@[simp] theorem countServe_cores (ini i : Nat) : (countServe ini i s).cores = s.cores := by
  unfold countServe
  split <;> simp
@[simp] theorem countServe_power (ini i : Nat) : (countServe ini i s).power = s.power := by
  unfold countServe
  split <;> simp
@[simp] theorem countServe_park (ini i : Nat) : (countServe ini i s).park = s.park := by
  unfold countServe
  split <;> simp
@[simp] theorem countServe_therm (ini i : Nat) : (countServe ini i s).therm = s.therm := by
  unfold countServe
  split <;> simp
@[simp] theorem countServe_par (ini i : Nat) : (countServe ini i s).par = s.par := by
  unfold countServe
  split <;> simp
@[simp] theorem countServe_dump (ini i : Nat) : (countServe ini i s).dump = s.dump := by
  unfold countServe
  split <;> simp
@[simp] theorem countServe_freeze (ini i : Nat) : (countServe ini i s).freeze = s.freeze := by
  unfold countServe
  split <;> simp
@[simp] theorem countServe_mon (ini i : Nat) : (countServe ini i s).mon = s.mon := by
  unfold countServe
  split <;> simp
@[simp] theorem countServe_boot (ini i : Nat) : (countServe ini i s).boot = s.boot := by
  unfold countServe
  split <;> simp
@[simp] theorem countServe_store (ini i : Nat) : (countServe ini i s).store = s.store := by
  unfold countServe
  split <;> simp
@[simp] theorem countServe_lf (ini i : Nat) : (countServe ini i s).lf = s.lf := by
  unfold countServe
  split <;> simp
@[simp] theorem countServe_rf (ini i : Nat) : (countServe ini i s).rf = s.rf := by
  unfold countServe
  split <;> simp
@[simp] theorem countServe_psr (ini i : Nat) : (countServe ini i s).psr = s.psr := by
  unfold countServe
  split <;> simp
@[simp] theorem countServe_cipher (ini i : Nat) : (countServe ini i s).cipher = s.cipher := by
  unfold countServe
  split <;> simp
@[simp] theorem countServe_rng (ini i : Nat) : (countServe ini i s).rng = s.rng := by
  unfold countServe
  split <;> simp
@[simp] theorem countServe_signer (ini i : Nat) : (countServe ini i s).signer = s.signer := by
  unfold countServe
  split <;> simp
@[simp] theorem countServe_span (ini i : Nat) : (countServe ini i s).span = s.span := by
  unfold countServe
  split <;> simp
@[simp] theorem countServe_toll (ini i : Nat) : (countServe ini i s).toll = s.toll := by
  unfold countServe
  split <;> simp
@[simp] theorem countServe_link (ini i : Nat) : (countServe ini i s).link = s.link := by
  unfold countServe
  split <;> simp
@[simp] theorem countServe_zw (ini i : Nat) : (countServe ini i s).zw = s.zw := by
  unfold countServe
  split <;> simp
@[simp] theorem countServe_cfg (ini i : Nat) : (countServe ini i s).cfg = s.cfg := by
  unfold countServe
  split <;> simp
@[simp] theorem countServe_latched (ini i : Nat) : (countServe ini i s).latched = s.latched := by
  unfold countServe
  split <;> simp
@[simp] theorem countServe_shadow (ini i : Nat) : (countServe ini i s).shadow = s.shadow := by
  unfold countServe
  split <;> simp
@[simp] theorem countServe_wshadow (ini i : Nat) : (countServe ini i s).wshadow = s.wshadow := by
  unfold countServe
  split <;> simp
@[simp] theorem countServe_mem (ini i : Nat) : (countServe ini i s).mem = s.mem := by
  unfold countServe
  split <;> simp
@[simp] theorem countServe_sent (ini i : Nat) : (countServe ini i s).sent = s.sent := by
  unfold countServe
  split <;> simp
@[simp] theorem countServe_pending (ini i : Nat) : (countServe ini i s).pending = s.pending := by
  unfold countServe
  split <;> simp
@[simp] theorem countServe_free (ini i : Nat) : (countServe ini i s).free = s.free := by
  unfold countServe
  split <;> simp

@[simp] theorem countStatus_time (ini : Nat) (st : Status) : (countStatus ini st s).time = s.time := by
  unfold countStatus
  split <;> simp
@[simp] theorem countStatus_via (ini : Nat) (st : Status) : (countStatus ini st s).via = s.via := by
  unfold countStatus
  split <;> simp
@[simp] theorem countStatus_cores (ini : Nat) (st : Status) : (countStatus ini st s).cores = s.cores := by
  unfold countStatus
  split <;> simp
@[simp] theorem countStatus_power (ini : Nat) (st : Status) : (countStatus ini st s).power = s.power := by
  unfold countStatus
  split <;> simp
@[simp] theorem countStatus_park (ini : Nat) (st : Status) : (countStatus ini st s).park = s.park := by
  unfold countStatus
  split <;> simp
@[simp] theorem countStatus_therm (ini : Nat) (st : Status) : (countStatus ini st s).therm = s.therm := by
  unfold countStatus
  split <;> simp
@[simp] theorem countStatus_par (ini : Nat) (st : Status) : (countStatus ini st s).par = s.par := by
  unfold countStatus
  split <;> simp
@[simp] theorem countStatus_dump (ini : Nat) (st : Status) : (countStatus ini st s).dump = s.dump := by
  unfold countStatus
  split <;> simp
@[simp] theorem countStatus_freeze (ini : Nat) (st : Status) : (countStatus ini st s).freeze = s.freeze := by
  unfold countStatus
  split <;> simp
@[simp] theorem countStatus_mon (ini : Nat) (st : Status) : (countStatus ini st s).mon = s.mon := by
  unfold countStatus
  split <;> simp
@[simp] theorem countStatus_boot (ini : Nat) (st : Status) : (countStatus ini st s).boot = s.boot := by
  unfold countStatus
  split <;> simp
@[simp] theorem countStatus_store (ini : Nat) (st : Status) : (countStatus ini st s).store = s.store := by
  unfold countStatus
  split <;> simp
@[simp] theorem countStatus_lf (ini : Nat) (st : Status) : (countStatus ini st s).lf = s.lf := by
  unfold countStatus
  split <;> simp
@[simp] theorem countStatus_rf (ini : Nat) (st : Status) : (countStatus ini st s).rf = s.rf := by
  unfold countStatus
  split <;> simp
@[simp] theorem countStatus_psr (ini : Nat) (st : Status) : (countStatus ini st s).psr = s.psr := by
  unfold countStatus
  split <;> simp
@[simp] theorem countStatus_cipher (ini : Nat) (st : Status) : (countStatus ini st s).cipher = s.cipher := by
  unfold countStatus
  split <;> simp
@[simp] theorem countStatus_rng (ini : Nat) (st : Status) : (countStatus ini st s).rng = s.rng := by
  unfold countStatus
  split <;> simp
@[simp] theorem countStatus_signer (ini : Nat) (st : Status) : (countStatus ini st s).signer = s.signer := by
  unfold countStatus
  split <;> simp
@[simp] theorem countStatus_span (ini : Nat) (st : Status) : (countStatus ini st s).span = s.span := by
  unfold countStatus
  split <;> simp
@[simp] theorem countStatus_toll (ini : Nat) (st : Status) : (countStatus ini st s).toll = s.toll := by
  unfold countStatus
  split <;> simp
@[simp] theorem countStatus_link (ini : Nat) (st : Status) : (countStatus ini st s).link = s.link := by
  unfold countStatus
  split <;> simp
@[simp] theorem countStatus_zw (ini : Nat) (st : Status) : (countStatus ini st s).zw = s.zw := by
  unfold countStatus
  split <;> simp
@[simp] theorem countStatus_cfg (ini : Nat) (st : Status) : (countStatus ini st s).cfg = s.cfg := by
  unfold countStatus
  split <;> simp
@[simp] theorem countStatus_latched (ini : Nat) (st : Status) : (countStatus ini st s).latched = s.latched := by
  unfold countStatus
  split <;> simp
@[simp] theorem countStatus_shadow (ini : Nat) (st : Status) : (countStatus ini st s).shadow = s.shadow := by
  unfold countStatus
  split <;> simp
@[simp] theorem countStatus_wshadow (ini : Nat) (st : Status) : (countStatus ini st s).wshadow = s.wshadow := by
  unfold countStatus
  split <;> simp
@[simp] theorem countStatus_mem (ini : Nat) (st : Status) : (countStatus ini st s).mem = s.mem := by
  unfold countStatus
  split <;> simp
@[simp] theorem countStatus_sent (ini : Nat) (st : Status) : (countStatus ini st s).sent = s.sent := by
  unfold countStatus
  split <;> simp
@[simp] theorem countStatus_pending (ini : Nat) (st : Status) : (countStatus ini st s).pending = s.pending := by
  unfold countStatus
  split <;> simp
@[simp] theorem countStatus_free (ini : Nat) (st : Status) : (countStatus ini st s).free = s.free := by
  unfold countStatus
  split <;> simp

end Sys2Proof.Machine
end

