-- ==== Sys2Proof/Laws/Ops.lean ====
section
/-! SUPPORT. What the shared operations can do: counting leaves all but the counters; a register command is refused by the
abutment, or its action runs and its status is returned; a transaction likewise. -/

namespace Sys2Proof.Machine

variable (s : State)

/-! ## The counters decide nothing -/

@[simp] theorem canAct_perf (p) (i : Nat) : canAct { s with perf := p } i = canAct s i := rfl
@[simp] theorem isRun_perf (p) (i : Nat) : isRun { s with perf := p } i = isRun s i := rfl
@[simp] theorem pstate_perf (p) (i : Nat) : pstate { s with perf := p } i = pstate s i := rfl
@[simp] theorem canReach_perf (p) (ini i : Nat) : canReach { s with perf := p } ini i = canReach s ini i := rfl
@[simp] theorem regValue_perf (p) (i : Nat) (r : Reg) (k : Nat) : regValue { s with perf := p } i r k = regValue s i r k := rfl
@[simp] theorem getCore_perf (p) (i : Nat) : getCore { s with perf := p } i = getCore s i := rfl
@[simp] theorem inboxOf_perf (p) (i : Nat) : inboxOf { s with perf := p } i = inboxOf s i := rfl
@[simp] theorem placeAnswers_perf (p) (a : Nat) : placeAnswers { s with perf := p } a = placeAnswers s a := rfl

@[simp] theorem canAct_setResp (ini i : Nat) (d : List Nat) (st : Status) : canAct (setResp ini d st s) i = canAct s i := rfl
@[simp] theorem regValue_setResp (ini i : Nat) (d : List Nat) (st : Status) (r : Reg) (k : Nat) :
    regValue (setResp ini d st s) i r k = regValue s i r k := rfl

/-- Counting an issue changes the counters only. -/
theorem countIssue_eq (ini i : Nat) : ∃ p, countIssue ini i s = { s with perf := p } := by
  unfold countIssue
  split
  · exact ⟨s.perf, rfl⟩
  · exact countEvent_eq s _ _ _

/-- Counting a service changes the counters only. -/
theorem countServe_eq (ini i : Nat) : ∃ p, countServe ini i s = { s with perf := p } := by
  unfold countServe
  split
  · exact ⟨s.perf, rfl⟩
  · exact countEvent_eq s _ _ _

/-- Counting a failed access changes the counters only. -/
theorem countStatus_eq (ini : Nat) (st : Status) : ∃ p, countStatus ini st s = { s with perf := p } := by
  unfold countStatus
  split
  · exact ⟨s.perf, rfl⟩
  · exact countEvent_eq s _ _ _

/-! ## A register command (R12, R35) -/

/-- A register command of a running initiator at a running island: its action runs on a state that differs in the counters
only, and the answer is the action's status. -/
theorem islandWrite_runs {ini i : Nat} (r : Reg) (act : State → Status × State) (hr : canReach s ini i = true)
    (ha : canAct s i = true) :
    ∃ p q, islandWrite ini i r act s =
      setResp ini [] (act { s with perf := p }).1 { (act { s with perf := p }).2 with perf := q } := by
  obtain ⟨p₁, h₁⟩ := countIssue_eq s ini i
  obtain ⟨p₂, h₂⟩ := countServe_eq { s with perf := p₁ } ini i
  unfold islandWrite
  rw [if_pos hr, h₁]
  simp only [canAct_perf, ha, if_true, h₂]
  obtain ⟨q, hq⟩ := countStatus_eq (act { s with perf := p₂ }).2 ini (act { s with perf := p₂ }).1
  exact ⟨p₂, q, by rw [hq]⟩

/-- The same where the answer and the effect do not depend on the counters. -/
theorem islandWrite_next {ini i : Nat} (r : Reg) {act : State → Status × State} {st : Status} {t : State}
    (hr : canReach s ini i = true) (ha : canAct s i = true)
    (h : ∀ p, ∃ q, act { s with perf := p } = (st, { t with perf := q })) :
    ∃ p, islandWrite ini i r act s = setResp ini [] st { t with perf := p } := by
  obtain ⟨p, q, hq⟩ := islandWrite_runs s r act hr ha
  obtain ⟨q', hq'⟩ := h p
  exact ⟨q, by rw [hq, hq']⟩

/-- A register command of an initiator that runs nothing, or whose way a held message keeps, does nothing. -/
theorem islandWrite_unreached {ini i : Nat} (r : Reg) (act : State → Status × State) (hr : canReach s ini i = false) :
    islandWrite ini i r act s = s := by
  unfold islandWrite
  rw [hr]
  rfl

/-! ## A transaction (R30, R35, R39) -/

/-- Counting an issue to an address changes the counters only. -/
theorem countIssueAddr_eq (ini addr : Nat) : ∃ p, countIssueAddr ini addr s = { s with perf := p } := by
  unfold countIssueAddr
  split
  · exact countIssue_eq s _ _
  · exact countEvent_eq s _ _ _

/-- A transaction answered by the abutment is counted, latched from a count of zero, and changes no more. -/
theorem noteOff_eq (ini addr : Nat) (write burst message : Bool) :
    ∃ v p, noteOff ini addr write burst message s = { s with via := v, perf := p } ∧
      v.offCount = satTo 0xFFFFFFFF (s.via.offCount + 1) ∧ v.inbox = s.via.inbox ∧ v.held = s.via.held ∧
      v.txns = s.via.txns ∧ v.resp = s.via.resp ∧ v.werr = s.via.werr ∧ v.werrAddr = s.via.werrAddr ∧
      v.offAddr = (if s.via.offCount = 0 then addr else s.via.offAddr) := by
  unfold noteOff
  split <;> rename_i h <;> dsimp only <;> obtain ⟨p, hp⟩ := countEvent_eq _ 0 0x040 1 <;> rw [hp] <;>
    exact ⟨_, p, rfl, rfl, rfl, rfl, rfl, rfl, rfl, rfl, rfl⟩

/-- A whole transaction whose way is free: it is served on a state that differs in the counters only, and answered. -/
theorem viaServe_next {ini addr : Nat} {serve : State → Served} {d : List Nat} {st : Status} {t : State}
    (hr : canReachAddr s ini addr = true) (h : ∀ p, ∃ q, serve { s with perf := p } = ⟨d, st, { t with perf := q }⟩) :
    ∃ p, viaServe ini addr serve s = setResp ini d st { t with perf := p } := by
  obtain ⟨p₁, h₁⟩ := countIssueAddr_eq s ini addr
  obtain ⟨q, hq⟩ := h p₁
  obtain ⟨p₂, h₂⟩ := countStatus_eq { t with perf := q } ini st
  exact ⟨p₂, by simp only [viaServe, hr, if_true, h₁, hq, h₂]⟩

/-- A word written to a place that answers is written there, with the service counted. -/
theorem serveWrite_word {ini addr w strb : Nat} (h : placeAnswers s (addr / 4 * 4) = true) :
    ∃ p, serveWrite ini addr [w] strb false s = writeAt ini (addr / 4 * 4) w strb { s with perf := p } := by
  unfold serveWrite
  simp only [Bool.false_eq_true, if_false, h]
  cases (placeOf (addr / 4 * 4)).island with
  | none => exact ⟨s.perf, rfl⟩
  | some i =>
    obtain ⟨p, hp⟩ := countServe_eq s ini i
    exact ⟨p, by simp only [hp]; rfl⟩

/-- A word read at a place that answers is read there, with the service counted. -/
theorem serveRead_word {ini addr : Nat} (h : placeAnswers s (addr / 4 * 4) = true) :
    ∃ p, serveRead ini addr 1 false s = readAt ini (addr / 4 * 4) { s with perf := p } := by
  unfold serveRead
  simp only [Bool.false_eq_true, if_false, h]
  cases (placeOf (addr / 4 * 4)).island with
  | none => exact ⟨s.perf, rfl⟩
  | some i =>
    obtain ⟨p, hp⟩ := countServe_eq s ini i
    exact ⟨p, by simp only [hp]; rfl⟩

end Sys2Proof.Machine
end

