-- ==== Sys2Proof/Laws/Frames.lean ====
section
/-! SUPPORT. What the shared operations of the journal, the host queue, the toll gate and the span service can change. -/

namespace Sys2Proof.Machine

/-! ## Memory outside a written run -/

/-- A run of bytes written leaves every byte outside it. -/
theorem Memory.read_writeBytes_out (bs : List Byte) (a : Nat) (m : Memory) (hw : Memory.wf m = true) (x : Nat)
    (h : x < a ∨ a + bs.length ≤ x) : Memory.read (Memory.writeBytes m a bs) x = Memory.read m x := by
  induction bs generalizing a m with
  | nil => rfl
  | cons b bs ih =>
    simp only [List.length_cons] at h
    rw [Memory.writeBytes, ih _ _ (Memory.wf_write a b m hw) (by omega), Memory.read_write _ _ _ hw, if_neg (by omega)]

/-- A number's bytes are as many as asked for. -/
@[simp] theorem leBytes_length (n v : Nat) : (leBytes n v).length = n := by
  induction n generalizing v with
  | zero => rfl
  | succ n ih => simp [leBytes, ih]

/-- A list padded to a length has it. -/
@[simp] theorem padTo_length (n : Nat) (l : List Byte) : (padTo n l).length = n := by
  simp only [padTo, sliceZ, List.length_append, List.length_take, List.length_replicate, List.length_drop]; omega

/-- A record has 128 bytes. -/
theorem JRecord.bytes_length (r : JRecord) (n : Nat) : (r.bytes n).length = 128 := by simp [JRecord.bytes]

/-! ## The journal (R292, R297, R298) -/

/-- The same memory keeps everything. -/
theorem keepsMemory_refl (s : State) : KeepsMemory s s.mem := fun h => ⟨h, fun _ _ => rfl⟩

/-- Making room in the ring changes the requested ledger changes only. -/
theorem ringOverflow_eq (s : State) : ∃ c, ringOverflow s = { s with store := { s.store with changes := c } } := by
  unfold ringOverflow requestChange modStore
  dsimp only
  split
  · exact ⟨_, rfl⟩
  · exact ⟨s.store.changes, rfl⟩

/-- Opening a record may write the next slot and marks the record opened; nothing else changes but the counters. -/
theorem openRecord_eq (s : State) : ∃ o m p, openRecord s = { s with store := { s.store with opened := o }, mem := m, perf := p } ∧
    KeepsMemory s m := by
  unfold openRecord
  cases s.store.queue with
  | nil => exact ⟨s.store.opened, s.mem, s.perf, rfl, keepsMemory_refl s⟩
  | cons r rest =>
    dsimp only
    split
    · have hk : KeepsMemory s (Memory.writeBytes s.mem (ringSlot (s.store.head + 1)) (r.bytes seqOpen)) := fun h =>
        ⟨Memory.wf_writeBytes _ _ _ h, fun a ha => Memory.read_writeBytes_out _ _ _ h a (by rw [JRecord.bytes_length]; exact ha)⟩
      revert hk
      generalize ringSlot (s.store.head + 1) = a
      generalize r.bytes seqOpen = bs
      intro hk
      obtain ⟨p, hp⟩ := countEvent_eq (modStore (fun t => { t with opened := true }) (memWriteBytes a bs s)) 4 0x040 1
      exact ⟨true, Memory.writeBytes s.mem a bs, p, hp, hk⟩
    · exact ⟨s.store.opened, s.mem, s.perf, rfl, keepsMemory_refl s⟩

/-- A submitted record stands in the queue; beside the queue, only requested ledger changes, the next ring slot and the
counters change. -/
theorem submitRecord_eq (r : JRecord) (s : State) : ∃ q c o m p, submitRecord r s =
    { s with store := { s.store with queue := q, changes := c, opened := o }, mem := m, perf := p } ∧
    r ∈ q ∧ (∀ x, x ∈ s.store.queue → x ∈ q) ∧ KeepsMemory s m := by
  have key : ∀ f : StoreState → StoreState, (∀ x, (f x).head = x.head) → ∃ c o m p, openRecord (ringOverflow (modStore f s)) =
      { s with store := { f s.store with changes := c, opened := o }, mem := m, perf := p } ∧ KeepsMemory s m := by
    intro f hf
    obtain ⟨c, hc⟩ := ringOverflow_eq (modStore f s)
    rw [hc]
    obtain ⟨o, m, p, ho, hm⟩ := openRecord_eq { modStore f s with store := { (modStore f s).store with changes := c } }
    refine ⟨c, o, m, p, ho, ?_⟩
    unfold KeepsMemory at hm ⊢
    rw [show ({ modStore f s with store := { (modStore f s).store with changes := c } } : State).store.head = s.store.head from hf _] at hm
    exact hm
  obtain ⟨c, o, m, p, h, hm⟩ := key (fun t => { t with queue :=
    if r.typ = 0x05 then (if t.opened then t.queue.take 1 ++ r :: t.queue.drop 1 else r :: t.queue) else t.queue ++ [r] }) (fun _ => rfl)
  refine ⟨_, c, o, m, p, h, ?_, ?_, hm⟩
  · split
    · split <;> simp
    · simp
  · intro x hx
    split
    · split
      · have := List.take_append_drop 1 s.store.queue
        rw [← this] at hx
        simp only [List.mem_append, List.mem_cons] at hx ⊢
        tauto
      · simp [hx]
    · simp [hx]

/-! ## The host-bound queue (R414, R417) -/

/-- A payload put on the ring changes what has been sent and the ring's sequence number. -/
theorem ringFrames_eq (dst : Nat) (bc : Bool) (typ : Nat) (l : List (List Byte)) : ∀ (b : Bool) (s : State),
    ∃ z o, ringFrames dst bc (ringOut typ) b l s = { s with zw := z, sent := o } := by
  induction l with
  | nil => exact fun _ s => ⟨s.zw, s.sent, rfl⟩
  | cons x l ih =>
    intro b s
    simp only [ringFrames]
    generalize hf : ringFrame s dst bc b l.isEmpty x = f
    have : ∀ u : State, ∃ o, ringOut typ f u = { u with sent := o } := by
      intro u
      unfold ringOut emit
      split
      · exact ⟨_, rfl⟩
      · split
        · exact ⟨_, rfl⟩
        · exact ⟨u.sent, rfl⟩
    obtain ⟨o, ho⟩ := this (modZw (fun z => { z with seq := (z.seq + 1) % 65536 }) s)
    rw [ho]
    obtain ⟨z, o', h⟩ := ih false { modZw (fun z => { z with seq := (z.seq + 1) % 65536 }) s with sent := o }
    exact ⟨z, o', h⟩

/-- A frame that leaves changes LINK's count, what has been sent, the ring's sequence number and the counters. -/
theorem sendOut_eq (f : Frame) (s : State) : ∃ l z o p, sendOut f s = { s with link := l, zw := z, sent := o, perf := p } := by
  unfold sendOut
  obtain ⟨p, hp⟩ := countEvent_eq (modLink (fun l => { l with sentCount := l.sentCount + 1 }) s) 5 0x041 1
  rw [hp]
  split
  · obtain ⟨z, o, h⟩ := ringFrames_eq 0 false 0x10 (fragments ((f.bytes { modLink (fun l => { l with sentCount := l.sentCount + 1 }) s with perf := p }).length / 1024 + 1) (f.bytes { modLink (fun l => { l with sentCount := l.sentCount + 1 }) s with perf := p })) true { modLink (fun l => { l with sentCount := l.sentCount + 1 }) s with perf := p }
    exact ⟨_, z, o, p, h⟩
  · exact ⟨_, s.zw, _, p, rfl⟩
  · exact ⟨_, s.zw, _, p, rfl⟩

/-- Frames that leave change LINK, what has been sent, the ring's sequence number and the counters. -/
theorem sendOut_fold (fs : List Frame) : ∀ s : State, ∃ l z o p,
    fs.foldl (fun s f => sendOut f s) s = { s with link := l, zw := z, sent := o, perf := p } := by
  induction fs with
  | nil => exact fun s => ⟨s.link, s.zw, s.sent, s.perf, rfl⟩
  | cons f fs ih =>
    intro s
    obtain ⟨l, z, o, p, h⟩ := sendOut_eq f s
    obtain ⟨l', z', o', p', h'⟩ := ih { s with link := l, zw := z, sent := o, perf := p }
    exact ⟨l', z', o', p', by simp only [List.foldl_cons]; rw [h]; exact h'⟩

/-- The queued frames that leave change LINK, what has been sent, the ring's sequence number and the counters. -/
theorem drainFrames_eq (s : State) : ∃ l z o p, drainFrames s = { s with link := l, zw := z, sent := o, perf := p } := by
  unfold drainFrames
  dsimp only
  generalize s.link.queued.filter (leavesAtOnce s) = out
  generalize s.link.queued.filter (fun f => !leavesAtOnce s f) = stay
  obtain ⟨l, z, o, p, h⟩ := sendOut_fold out (modLink (fun l => { l with queued := stay }) s)
  exact ⟨l, z, o, p, h⟩

/-- A queued frame changes LINK, what has been sent, the ring's sequence number and the counters. -/
theorem queueFrame_eq (typ bay : Nat) (st : Status) (cls ref : Nat) (body : List Byte) (d : HostDest) (s : State) :
    ∃ l z o p, queueFrame typ bay st cls ref body d s = { s with link := l, zw := z, sent := o, perf := p } := by
  unfold queueFrame
  obtain ⟨l, z, o, p, h⟩ := drainFrames_eq (modLink (fun l => { l with
    queued := l.queued ++ [⟨typ, bay, st, cls, l.seqNext, ref, body, d, []⟩], seqNext := (l.seqNext + 1) % 2 ^ 32 }) s)
  exact ⟨l, z, o, p, h⟩

/-- An unsolicited frame changes LINK, what has been sent, the ring's sequence number and the counters. -/
theorem sendEvent_eq (typ bay : Nat) (st : Status) (body : List Byte) (s : State) :
    ∃ l z o p, sendEvent typ bay st body s = { s with link := l, zw := z, sent := o, perf := p } := queueFrame_eq _ _ _ _ _ _ _ _

/-- An answer changes LINK, what has been sent, the ring's sequence number and the counters. -/
theorem answerReq_eq (r : HostReq) (st : Status) (cls : Nat) (body : List Byte) (s : State) :
    ∃ l z o p, answerReq r st cls body s = { s with link := l, zw := z, sent := o, perf := p } := by
  unfold answerReq
  obtain ⟨l, z, o, p, h⟩ := queueFrame_eq (r.typ + 0x80) r.bay st cls r.seq body r.dest (modLink (fun l => { l with
    waiting := l.waiting.filter (fun x => x ≠ r),
    seqs := l.seqs.map (fun e => if e.1 = r.seq then (e.1, some st) else e) }) s)
  exact ⟨l, z, o, p, h⟩

/-- So does an answer that may not be awaited. -/
theorem answerIf_eq (r : Option HostReq) (st : Status) (cls : Nat) (s : State) :
    ∃ l z o p, answerIf r st cls s = { s with link := l, zw := z, sent := o, perf := p } := by
  cases r with
  | none => exact ⟨s.link, s.zw, s.sent, s.perf, rfl⟩
  | some r => exact answerReq_eq r st cls [] s

/-! ## The span service -/

/-- A bay updated reads as updated, every other as before. -/
theorem getSpan_modBay {b : Nat} (hb : b < 64) (f : Span → Span) (s : State) (b' : Nat) :
    getSpan (modBay b f s) b' = if b' = b then f (getSpan s b) else getSpan s b' := by
  by_cases h : b' = b
  · subst h; simp [getSpan, modBay, modSpan, vget, vset, hb]
  · rw [if_neg h]
    simp only [getSpan, modBay, modSpan, vget, vset]
    by_cases h' : b' < 64
    · simp [h', Ne.symm h]
    · simp [h']

/-- Two updates of a bay are one. -/
theorem modBay_modBay (b : Nat) (f g : Span → Span) (s : State) : modBay b f (modBay b g s) = modBay b (fun p => f (if b < 64 then g p else p)) s := by
  unfold modBay modSpan getSpan
  dsimp only
  congr 1
  congr 1
  apply Vector.ext
  intro i hi
  simp only [vset, vget, Vector.getElem_setIfInBounds]
  by_cases h : b = i
  · subst h; simp [hi]
  · simp [h]

/-- A transition of a span: its record stands in the queue, and its state and status have changed (R48). -/
theorem spanMove_eq (b nxt : Nat) (st : Option Status) (seq : Nat) (s : State) : ∃ q c o m p, spanMove b nxt st seq s =
    modBay b (fun x => { x with state := nxt, status := st.getD (getSpan s b).status })
      { s with store := { s.store with queue := q, changes := c, opened := o }, mem := m, perf := p } ∧
    (∃ ev, spanRecord s b nxt (st.getD 0x00) ev ∈ q) ∧ (∀ x, x ∈ s.store.queue → x ∈ q) ∧ KeepsMemory s m := by
  unfold spanMove
  dsimp only
  generalize (stateEvent nxt).map (fun c => (c, s.time.us, stateDetail s b nxt seq, st.getD 0x00)) = ev
  obtain ⟨q, c, o, m, p, h, hr, hk, hm⟩ := submitRecord_eq (spanRecord s b nxt (st.getD 0x00) ev) s
  rw [h]
  exact ⟨q, c, o, m, p, rfl, ⟨ev, hr⟩, hk, hm⟩

/-- The first bytes of a span record are the old state, the new one and the status (R293). -/
theorem spanRecord_body (s : State) (b nxt : Nat) (st : Status) (ev : Option (Nat × Nat × List Byte × Status)) :
    (spanRecord s b nxt st ev).body.take 3 = [BitVec.ofNat 8 (getSpan s b).state, BitVec.ofNat 8 nxt, st] := by
  simp [spanRecord, leBytes]

end Sys2Proof.Machine
end

