-- ==== Sys2Proof/Laws/Blocks.lean ====
section
/-! SUPPORT. What the shared operations of the parapet and of the LF bay array can change. -/

namespace Sys2Proof.Machine

/-! ## The parapet (R359, R369, R392) -/

/-- The log takes an entry while it has room; a full one marks its newest entry. -/
theorem logPush_eq (e : LogEntry) (l : List LogEntry) : logPush e l =
    if l.length < 8 then l ++ [e] else l.dropLast ++ l.getLast?.toList.map (fun e => { e with overrun := true }) := by
  unfold logPush
  split
  · rfl
  · rcases List.eq_nil_or_concat l with rfl | ⟨xs, x, rfl⟩
    · rfl
    · simp

/-- A parapet event changes the parapet as `Raised` says, the wake sources and the counters. -/
theorem parapetEvent_eq (code : Status) (island unit : Nat) (detail : List Byte) (s : State) : ∃ p,
    parapetEvent code island unit detail s = { s with
      par := { s.par with
        pend := s.par.pend ||| 2 ^ (code.toNat - 0xD0)
        log := if s.par.log.length < 8 then s.par.log ++ [⟨code, island, unit, s.time.us, false, detail⟩]
          else s.par.log.dropLast ++ s.par.log.getLast?.toList.map (fun e => { e with overrun := true }) }
      park := { s.park with wakePend := s.park.wakePend ||| 0x20 }, perf := p } := by
  unfold parapetEvent
  obtain ⟨p, hp⟩ := countEvent_eq (modPar (fun p =>
    { p with pend := p.pend ||| 2 ^ (code.toNat - 0xD0), log := logPush ⟨code, island, unit, s.time.us, false, detail⟩ p.log }) s) 0 0x043 1
  rw [hp, ← logPush_eq]
  exact ⟨p, rfl⟩

/-! ## A register read by its row (R30) -/

/-- A register read of a running initiator at a running island: its action runs on a state that differs in the counters only, and
the answer is the action's word with status 0x00. -/
theorem islandRead_runs (s : State) {ini i : Nat} (r : Reg) (act : State → Nat × State) (hr : canReach s ini i = true)
    (ha : canAct s i = true) :
    ∃ p, islandRead ini i r act s = setResp ini [(act { s with perf := p }).1] 0x00 (act { s with perf := p }).2 := by
  obtain ⟨p₁, h₁⟩ := countIssue_eq s ini i
  obtain ⟨p₂, h₂⟩ := countServe_eq { s with perf := p₁ } ini i
  unfold islandRead
  rw [if_pos hr, h₁]
  simp only [canAct_perf, ha, if_true, h₂]
  exact ⟨p₂, rfl⟩

/-- A bit of a number is its binary digit. -/
theorem bitOf_testBit (x i : Nat) : bitOf x i = x.testBit i := by
  rw [Nat.testBit_eq_decide_div_mod_eq]
  unfold bitOf
  cases h : x / 2 ^ i % 2 == 1 <;> simp_all

/-! ## Piers (R113, R114, R123) -/

/-- A pier updated reads as updated, every other as before. -/
theorem getPier_modPier {p : Nat} (hp : p < 8) (f : Pier → Pier) (s : State) (n : Nat) :
    getPier (modPier p f s) n = if n = p then f (getPier s p) else getPier s n := by
  by_cases h : n = p
  · subst h; simp [getPier, modPier, modLf, vget, vset, hp]
  · rw [if_neg h]
    simp only [getPier, modPier, modLf, vget, vset]
    by_cases h' : n < 8
    · simp [h', Ne.symm h]
    · simp [h']

/-- An update of a pier leaves every other as it is. -/
theorem getPier_modPier_ne {p n : Nat} (h : n ≠ p) (f : Pier → Pier) (s : State) : getPier (modPier p f s) n = getPier s n := by
  simp only [getPier, modPier, modLf, vget, vset]
  by_cases h' : n < 8
  · simp [h', Ne.symm h]
  · simp [h']

/-- A fault journalled by the deck stands in the journal's queue; beside that only requested ledger changes, the next ring slot
and the counters change. -/
theorem deckFault_eq (code : Status) (island unit time : Nat) (detail : List Byte) (s : State) : ∃ q c o m p,
    deckFault code island unit time detail s = { s with store := { s.store with queue := q, changes := c, opened := o }, mem := m, perf := p } ∧
    KeepsMemory s m := by
  obtain ⟨q, c, o, m, p, h, -, -, hm⟩ := submitRecord_eq { faultRecord s code.toNat island unit time detail with
    after := .fault code island unit time (padTo 16 detail) } s
  exact ⟨q, c, o, m, p, h, hm⟩

/-- An aerial's state moves: beside it only its pier's LF_EVENT and what a journalled fault changes. -/
theorem aerialAfter_eq (bay : Nat) (failed : Bool) (s : State) : ∃ v a q c o m p, aerialAfter bay failed s =
    { s with lf := { s.lf with piers := v, aerials := a }, store := { s.store with queue := q, changes := c, opened := o }, mem := m, perf := p } ∧
    KeepsMemory s m ∧ (∀ n, n ≠ bay / 8 → vget Pier.reset v n = getPier s n) ∧
    (∀ n, ∃ k, vget Pier.reset v n = { getPier s n with event := (getPier s n).event ||| 2 ^ 16 * k }) := by
  have hpier : ∀ n, ∃ k, getPier (modPier (bay / 8) (fun p => { p with event := p.event ||| 2 ^ (16 + bay % 8) }) s) n =
      { getPier s n with event := (getPier s n).event ||| 2 ^ 16 * k } := by
    intro n
    by_cases hp : bay / 8 < 8
    · rw [getPier_modPier hp]
      split
      · subst_vars; exact ⟨2 ^ (bay % 8), by rw [Nat.pow_add]⟩
      · exact ⟨0, by simp⟩
    · refine ⟨0, ?_⟩
      by_cases h : n = bay / 8
      · subst h; simp [getPier, modPier, modLf, vget, vset, hp]
      · rw [getPier_modPier_ne h]; simp
  unfold aerialAfter
  dsimp only
  split
  · split
    · obtain ⟨q, c, o, m, p, h, hm⟩ := deckFault_eq 0x0D (6 + bay / 8) bay (modPier (bay / 8) (fun p => { p with event := p.event ||| 2 ^ (16 + bay % 8) })
          (setAerial bay ((getAerial s bay).after failed) s)).time.us [] (modPier (bay / 8) (fun p => { p with event := p.event ||| 2 ^ (16 + bay % 8) })
          (setAerial bay ((getAerial s bay).after failed) s))
      exact ⟨_, _, q, c, o, m, p, h, hm, fun n hn => getPier_modPier_ne hn (fun p => { p with event := p.event ||| 2 ^ (16 + bay % 8) }) s, hpier⟩
    · exact ⟨_, _, s.store.queue, s.store.changes, s.store.opened, s.mem, s.perf, rfl, keepsMemory_refl s, fun n hn => getPier_modPier_ne hn (fun p => { p with event := p.event ||| 2 ^ (16 + bay % 8) }) s, hpier⟩
  · exact ⟨s.lf.piers, vset s.lf.aerials bay ((getAerial s bay).after failed), s.store.queue, s.store.changes, s.store.opened, s.mem, s.perf, rfl,
      keepsMemory_refl s, fun _ _ => rfl, fun n => ⟨0, by simp [getPier]⟩⟩

/-- Bits from 16 up, joined. -/
theorem or_high_mul (k j : Nat) : 2 ^ 16 * k ||| 2 ^ 16 * j = 2 ^ 16 * (k ||| j) := by
  simp only [Nat.mul_comm (2 ^ 16), ← Nat.shiftLeft_eq, Nat.shiftLeft_or_distrib]

/-- Bits from 16 up leave bit 0. -/
theorem or_high_odd (e k : Nat) : (e ||| 2 ^ 16 * k) &&& 1 = e &&& 1 := by
  have h : 2 ^ 16 * k % 2 = 0 := by omega
  rw [Nat.and_one_is_mod, Nat.and_one_is_mod]
  have := @Nat.or_mod_two_pow e (2 ^ 16 * k) 1
  simp only [Nat.pow_one] at this
  rw [this, h, Nat.or_zero]

/-- A tag exchange that ends with its burst changes its pier's job only. -/
theorem tagBurstEnded_eq {p : Nat} (hp : p < 8) (st : Status) (s : State) : ∃ v, tagBurstEnded p st s = { s with lf := { s.lf with piers := v } } ∧
    (∀ n, n ≠ p → vget Pier.reset v n = getPier s n) ∧ ∃ j, vget Pier.reset v p = { getPier s p with job := j } := by
  unfold tagBurstEnded
  split
  · exact ⟨s.lf.piers, rfl, fun _ _ => rfl, _, rfl⟩
  · split
    · exact ⟨s.lf.piers, rfl, fun _ _ => rfl, _, rfl⟩
    · rename_i j hj hd
      exact ⟨_, rfl, fun n hn => getPier_modPier_ne hn (fun q => { q with job := some { j with
        phase := .done, status := st, outcome := writeOutcome s p j, more := (j.found.drop 1) } }) s, _, (getPier_modPier hp (fun q => { q with job := some { j with
        phase := .done, status := st, outcome := writeOutcome s p j, more := (j.found.drop 1) } }) s p).trans (if_pos rfl)⟩

/-- A burst that ends is gone, with its status and DONE written; its aerial's state moves. -/
theorem burstEnded_eq {p : Nat} (hp : p < 8) (st : Status) (s : State) : ∃ v a q c o m f, burstEnded p st s =
    { s with lf := { s.lf with piers := v, aerials := a }, store := { s.store with queue := q, changes := c, opened := o }, mem := m, perf := f } ∧
    KeepsMemory s m ∧
    (∀ n, n ≠ p → (∃ k, vget Pier.reset v n = { getPier s n with event := (getPier s n).event ||| 2 ^ 16 * k }) ∧
      ((∀ b, (getPier s p).burst = some b → b.aerial < 8) → vget Pier.reset v n = getPier s n)) ∧
    (vget Pier.reset v p).burst = none ∧ (vget Pier.reset v p).ping = (getPier s p).ping ∧
    ((getPier s p).burst ≠ none → (vget Pier.reset v p).last = st ∧ (vget Pier.reset v p).event &&& 1 = 1) := by
  unfold burstEnded
  split
  · rename_i hb
    exact ⟨s.lf.piers, s.lf.aerials, s.store.queue, s.store.changes, s.store.opened, s.mem, s.perf, rfl, keepsMemory_refl s,
      fun n _ => ⟨⟨0, by simp [getPier]⟩, fun _ => rfl⟩, hb, rfl, fun h => absurd hb h⟩
  · rename_i b hb
    dsimp only
    generalize hu : modPier p (fun q => { q with burst := none, last := st, event := q.event ||| 1 }) s = u
    have hu1 : ∀ n, getPier u n = if n = p then { getPier s p with burst := none, last := st, event := (getPier s p).event ||| 1 } else getPier s n := by
      intro n; subst hu; exact getPier_modPier hp _ s n
    have hu2 : ∃ v, u = { s with lf := { s.lf with piers := v } } := by subst hu; exact ⟨_, rfl⟩
    obtain ⟨v0, hu2⟩ := hu2
    obtain ⟨v, hv, hn, j, hj⟩ := tagBurstEnded_eq hp st u
    rw [hv]
    have hodd : ∀ e k : Nat, (e ||| 1 ||| 2 ^ 16 * k) &&& 1 = 1 := by
      intro e k
      rw [or_high_odd, Nat.and_or_distrib_right, Nat.and_one_is_mod]
      rcases Nat.mod_two_eq_zero_or_one e with h | h <;> rw [h] <;> rfl
    split
    · obtain ⟨v', a, q, c, o, m, f, h, hm, h1, h2⟩ := aerialAfter_eq (bayOf p b.aerial) (st == 0x40 || st == 0x41 || st == 0x42) { u with lf := { u.lf with piers := v } }
      have hg : ∀ n, getPier { u with lf := { u.lf with piers := v } } n = vget Pier.reset v n := fun _ => rfl
      refine ⟨v', a, q, c, o, m, f, by rw [h, hu2], by rw [hu2] at hm; exact hm, ?_, ?_, ?_, ?_⟩
      · intro n hnp
        constructor
        · obtain ⟨k, hk⟩ := h2 n
          exact ⟨k, by rw [hk, hg, hn n hnp, hu1, if_neg hnp]⟩
        · intro hb8
          rw [h1 n (by have := hb8 b hb; unfold bayOf; omega), hg, hn n hnp, hu1, if_neg hnp]
      · obtain ⟨k, hk⟩ := h2 p
        rw [hk, hg, hj, hu1, if_pos rfl]
      · obtain ⟨k, hk⟩ := h2 p
        rw [hk, hg, hj, hu1, if_pos rfl]
      · intro _
        obtain ⟨k, hk⟩ := h2 p
        rw [hk, hg, hj, hu1, if_pos rfl]
        exact ⟨rfl, hodd _ _⟩
    · refine ⟨v, s.lf.aerials, s.store.queue, s.store.changes, s.store.opened, s.mem, s.perf, by rw [hu2], keepsMemory_refl s, ?_, ?_, ?_, ?_⟩
      · intro n hnp
        exact ⟨⟨0, by rw [hn n hnp, hu1, if_neg hnp]; simp⟩, fun _ => by rw [hn n hnp, hu1, if_neg hnp]⟩
      · rw [hj, hu1, if_pos rfl]
      · rw [hj, hu1, if_pos rfl]
      · intro _
        rw [hj, hu1, if_pos rfl]
        exact ⟨rfl, by simp⟩

/-- Whether piers have ended is said by the LF array, the journal's head and memory alone. -/
theorem PiersEnded.of_eq {ns : List Nat} {st : Status} {s t s' t' : State} (h : PiersEnded ns st s t) (h1 : s'.lf = s.lf) (h2 : s'.mem = s.mem)
    (h3 : s'.store.head = s.store.head) (h4 : t'.lf = t.lf) (h5 : t'.mem = t.mem) : PiersEnded ns st s' t' := by
  unfold PiersEnded KeepsMemory MemoryCanonical getPier at *
  rw [h1, h2, h3, h4, h5]
  exact h

/-- What a shutdown of piers leaves alone. -/
def PiersOnly (s t : State) : Prop :=
  ∃ v a q c o m f, t = { s with lf := { s.lf with piers := v, aerials := a }, store := { s.store with queue := q, changes := c, opened := o }, mem := m, perf := f }

/-- A pier that ends leaves its burst and its pings ended; only piers, aerials, the journal and the counters change. -/
theorem pierEnd_eq {p : Nat} (hp : p < 8) (st : Status) (s : State) : PiersOnly s (pierEnd p st s) ∧ PiersEnded [p] st s (pierEnd p st s) ∧
    ∀ n, n ≠ p → ∃ k, getPier (pierEnd p st s) n = { getPier s n with event := (getPier s n).event ||| 2 ^ 16 * k } := by
  unfold pierEnd
  generalize hu : modPier p (fun q => { q with ping := { q.ping with slots := [], left := 0 } }) s = u
  have hu1 : ∀ n, getPier u n = if n = p then { getPier s p with ping := { (getPier s p).ping with slots := [], left := 0 } } else getPier s n := by
    intro n; subst hu; exact getPier_modPier hp _ s n
  have hu2 : ∃ v, u = { s with lf := { s.lf with piers := v } } := by subst hu; exact ⟨_, rfl⟩
  obtain ⟨v0, hu2⟩ := hu2
  have hbu : (getPier u p).burst = (getPier s p).burst := by rw [hu1, if_pos rfl]
  obtain ⟨v, a, q, c, o, m, f, h, hm, hn, h1, h2, h3⟩ := burstEnded_eq hp st u
  have hg : ∀ n, getPier (burstEnded p st u) n = vget Pier.reset v n := by intro n; rw [h]; rfl
  refine ⟨⟨v, a, q, c, o, m, f, by rw [h, hu2]⟩, ⟨?_, ?_, ?_⟩, ?_⟩
  · intro n hnm _
    simp only [List.mem_cons, List.not_mem_nil, or_false] at hnm
    subst hnm
    rw [hg]
    exact ⟨h1, by rw [h2, hu1, if_pos rfl], fun hb => h3 (by rw [hbu]; exact hb)⟩
  · intro hb n hnm
    simp only [List.mem_cons, List.not_mem_nil, or_false] at hnm
    rw [hg, (hn n hnm).2 (fun b hbb => hb p (by simp) b (by rw [← hbu]; exact hbb)), hu1, if_neg hnm]
  · rw [h]
    rw [hu2] at hm
    exact hm
  · intro n hnp
    obtain ⟨k, hk⟩ := (hn n hnp).1
    exact ⟨k, by rw [hg, hk, hu1, if_neg hnp]⟩

/-- Piers that end one after another. -/
theorem pierEnd_fold (st : Status) (ns : List Nat) (hns : ∀ n ∈ ns, n < 8) (hnd : ns.Nodup) : ∀ s : State,
    PiersOnly s (ns.foldl (fun s p => pierEnd p st s) s) ∧ PiersEnded ns st s (ns.foldl (fun s p => pierEnd p st s) s) ∧
    ∀ n, n ∉ ns → ∃ k, getPier (ns.foldl (fun s p => pierEnd p st s) s) n = { getPier s n with event := (getPier s n).event ||| 2 ^ 16 * k } := by
  induction ns with
  | nil =>
    intro s
    exact ⟨⟨s.lf.piers, s.lf.aerials, s.store.queue, s.store.changes, s.store.opened, s.mem, s.perf, rfl⟩,
      ⟨fun n hn => absurd hn (by simp), fun _ _ _ => rfl, keepsMemory_refl s⟩, fun n _ => ⟨0, by simp⟩⟩
  | cons x ns ih =>
    intro s
    rw [List.nodup_cons] at hnd
    simp only [List.foldl_cons]
    obtain ⟨a1, a2, a3⟩ := pierEnd_eq (hns x (by simp)) st s
    generalize hu : pierEnd x st s = u at *
    obtain ⟨b1, b2, b3⟩ := ih (fun n hn => hns n (by simp [hn])) hnd.2 u
    generalize hw : ns.foldl (fun s p => pierEnd p st s) u = w at *
    refine ⟨?_, ⟨?_, ?_, ?_⟩, ?_⟩
    · obtain ⟨v, a, q, c, o, m, f, h⟩ := a1
      obtain ⟨v', a', q', c', o', m', f', h'⟩ := b1
      exact ⟨v', a', q', c', o', m', f', by rw [h', h]⟩
    · intro n hn h8
      rcases List.mem_cons.1 hn with rfl | hn
      · obtain ⟨k, hk⟩ := b3 n hnd.1
        rw [hk]
        have := a2.1 n (by simp) h8
        refine ⟨this.1, this.2.1, fun hb => ⟨(this.2.2 hb).1, ?_⟩⟩
        have he := (this.2.2 hb).2
        exact (or_high_odd _ k).trans he
      · have h := b2.1 n hn h8
        have hne : n ≠ x := fun e => hnd.1 (e ▸ hn)
        obtain ⟨k, hk⟩ := a3 n hne
        exact ⟨h.1, h.2.1, fun hb => h.2.2 (by rw [hk]; exact hb)⟩
    · intro hb n hn
      have hne : n ≠ x := fun e => hn (e ▸ List.mem_cons_self)
      have hnn : n ∉ ns := fun e => hn (List.mem_cons_of_mem _ e)
      have h1 : getPier u n = getPier s n := a2.2.1 (fun m hm b hbb => hb m (by rw [List.mem_singleton.1 hm]; simp) b hbb) n (by simpa using hne)
      rw [← h1]
      refine b2.2.1 (fun m hm b hbb => ?_) n hnn
      have hmx : m ≠ x := fun e => hnd.1 (e ▸ hm)
      obtain ⟨k, hk⟩ := a3 m hmx
      rw [hk] at hbb
      exact hb m (by simp [hm]) b hbb
    · intro hc
      obtain ⟨v, a, q, c, o, m, f, h⟩ := a1
      obtain ⟨hw1, hk1⟩ := a2.2.2 hc
      obtain ⟨hw2, hk2⟩ := b2.2.2 hw1
      refine ⟨hw2, fun y hy => ?_⟩
      rw [hk2 y (by rw [h]; exact hy), hk1 y hy]
    · intro n hn
      have hne : n ≠ x := fun e => hn (e ▸ List.mem_cons_self)
      have hnn : n ∉ ns := fun e => hn (List.mem_cons_of_mem _ e)
      obtain ⟨k, hk⟩ := a3 n hne
      obtain ⟨k', hk'⟩ := b3 n hnn
      exact ⟨k ||| k', by rw [hk', hk]; simp only [Nat.or_assoc, or_high_mul]⟩


end Sys2Proof.Machine
end

