-- ==== Sys2Proof/Laws/Bytes.lean ====
section
/-! SUPPORT. Byte strings: numbers read back from their bytes, fields of joined strings, and the fields of a host frame. -/

namespace Sys2Proof

/-- A number's little-endian bytes spell it, modulo their count (R7). -/
theorem ofLe_leBytes (n : Nat) : ∀ x : Nat, ofLe (leBytes n x) = x % 256 ^ n := by
  induction n with
  | zero => intro x; simp [leBytes, ofLe, Nat.mod_one]
  | succ n ih =>
    intro x
    simp only [leBytes, ofLe, ih, BitVec.toNat_ofNat]
    rw [show (2 : Nat) ^ 8 = 256 from rfl, Nat.pow_succ, Nat.mul_comm (256 ^ n) 256, Nat.mod_mul]

/-- A field within the first part of a joined string. -/
theorem sliceZ_append_left {a b : List Byte} {off len : Nat} (h : off + len ≤ a.length) : sliceZ (a ++ b) off len = sliceZ a off len := by
  have e : ((a ++ b).drop off).take len = (a.drop off).take len := by
    rw [List.drop_append, List.take_append]
    have : len - (a.drop off).length = 0 := by simp; omega
    rw [this]; simp
  simp only [sliceZ, e]

/-- A field beyond the first part of a joined string. -/
theorem sliceZ_append_right {a b : List Byte} {off len : Nat} (h : a.length ≤ off) : sliceZ (a ++ b) off len = sliceZ b (off - a.length) len := by
  have e : (a ++ b).drop off = b.drop (off - a.length) := by
    rw [List.drop_append, List.drop_eq_nil_of_le h]; rfl
  simp only [sliceZ, e]

/-- A whole string as a field. -/
theorem sliceZ_whole (a : List Byte) : sliceZ a 0 a.length = a := by simp [sliceZ]

/-- A number read where its bytes stand. -/
theorem leAt_mid (a b : List Byte) (n x : Nat) : leAt (a ++ leBytes n x ++ b) a.length n = x % 256 ^ n := by
  have hl : (leBytes n x).length = n := Machine.leBytes_length n x
  unfold leAt
  rw [List.append_assoc, sliceZ_append_right (Nat.le_refl _), Nat.sub_self, sliceZ_append_left (by omega)]
  have := sliceZ_whole (leBytes n x)
  rw [hl] at this
  rw [this, ofLe_leBytes]

/-- A CRC of 32 bits. -/
theorem crc32c_lt (bs : List Byte) : Machine.crc32c bs < 2 ^ 32 := by
  unfold Machine.crc32c
  have step : ∀ (c : Nat) (b : Bool), c < 2 ^ 32 → (if (c % 2 == 1) != b then (c / 2) ^^^ 0x82F63B78 else c / 2) < 2 ^ 32 := by
    intro c b h
    split
    · exact Nat.xor_lt_two_pow (by omega) (by decide)
    · omega
  have bits : ∀ (l : List Bool) (c : Nat), c < 2 ^ 32 → l.foldl (fun c b => if (c % 2 == 1) != b then (c / 2) ^^^ 0x82F63B78 else c / 2) c < 2 ^ 32 := by
    intro l
    induction l with
    | nil => exact fun c h => h
    | cons x l ih => exact fun c h => ih _ (step c x h)
  have bytes : ∀ (l : List Byte) (c : Nat), c < 2 ^ 32 →
      l.foldl (fun c b => (Machine.byteBits b).reverse.foldl (fun c b => if (c % 2 == 1) != b then (c / 2) ^^^ 0x82F63B78 else c / 2) c) c < 2 ^ 32 := by
    intro l
    induction l with
    | nil => exact fun c h => h
    | cons x l ih => exact fun c h => ih _ (bits _ c h)
  exact Nat.xor_lt_two_pow (bytes bs _ (by decide)) (by decide)

namespace Machine

/-- The bytes of a host frame: header, body, CRC (R414). -/
theorem dispatchBytes_length (typ device bay st cls q ref : Nat) (body : List Byte) :
    (dispatchBytes typ device bay st cls q ref body).length = 20 + body.length := by
  simp [dispatchBytes]; omega

/-- A number in a string of three parts. -/
theorem leAt_of {bs a b : List Byte} {o n x : Nat} (h : bs = a ++ leBytes n x ++ b) (ho : a.length = o) : leAt bs o n = x % 256 ^ n := by
  subst h ho; exact leAt_mid a b n x

/-- A frame built from its fields gives them back. -/
theorem dispatchBytes_fields (typ device bay st cls q ref : Nat) (body : List Byte) :
    let bs := dispatchBytes typ device bay st cls q ref body
    leAt bs 0 1 = 1 ∧ leAt bs 1 1 = typ % 256 ∧ leAt bs 2 2 = body.length % 256 ^ 2 ∧ leAt bs 4 1 = device % 256 ∧ leAt bs 5 1 = bay % 256 ∧
      leAt bs 8 4 = q % 256 ^ 4 ∧ sliceZ bs 16 body.length = body ∧
      leAt bs (16 + body.length) 4 = crc32c (bs.take (16 + body.length)) := by
  intro bs
  have l1 : ∀ n x, (leBytes n x).length = n := leBytes_length
  let h := leBytes 1 1 ++ leBytes 1 typ ++ leBytes 2 body.length ++ leBytes 1 device ++ leBytes 1 bay ++ leBytes 1 st ++
    leBytes 1 cls ++ leBytes 4 q ++ leBytes 4 ref
  have hb : bs = h ++ body ++ leBytes 4 (crc32c (h ++ body)) := rfl
  have hh : h.length = 16 := by simp [h]
  refine ⟨?_, ?_, ?_, ?_, ?_, ?_, ?_, ?_⟩
  · rw [leAt_of (o := 0) (n := 1) (a := []) (b := leBytes 1 typ ++ leBytes 2 body.length ++ leBytes 1 device ++ leBytes 1 bay ++ leBytes 1 st ++ leBytes 1 cls ++
      leBytes 4 q ++ leBytes 4 ref ++ body ++ leBytes 4 (crc32c (h ++ body))) (x := 1) (by rw [hb]; simp only [h, List.append_assoc, List.nil_append]) rfl]
    rfl
  · rw [leAt_of (a := leBytes 1 1) (b := leBytes 2 body.length ++ leBytes 1 device ++ leBytes 1 bay ++ leBytes 1 st ++ leBytes 1 cls ++
      leBytes 4 q ++ leBytes 4 ref ++ body ++ leBytes 4 (crc32c (h ++ body))) (x := typ) (by rw [hb]; simp only [h, List.append_assoc]) (by simp)]
    rfl
  · rw [leAt_of (a := leBytes 1 1 ++ leBytes 1 typ) (b := leBytes 1 device ++ leBytes 1 bay ++ leBytes 1 st ++ leBytes 1 cls ++
      leBytes 4 q ++ leBytes 4 ref ++ body ++ leBytes 4 (crc32c (h ++ body))) (x := body.length) (by rw [hb]; simp only [h, List.append_assoc]) (by simp)]
  · rw [leAt_of (a := leBytes 1 1 ++ leBytes 1 typ ++ leBytes 2 body.length) (b := leBytes 1 bay ++ leBytes 1 st ++ leBytes 1 cls ++
      leBytes 4 q ++ leBytes 4 ref ++ body ++ leBytes 4 (crc32c (h ++ body))) (x := device) (by rw [hb]; simp only [h, List.append_assoc]) (by simp)]
    rfl
  · rw [leAt_of (a := leBytes 1 1 ++ leBytes 1 typ ++ leBytes 2 body.length ++ leBytes 1 device) (b := leBytes 1 st ++ leBytes 1 cls ++
      leBytes 4 q ++ leBytes 4 ref ++ body ++ leBytes 4 (crc32c (h ++ body))) (x := bay) (by rw [hb]; simp only [h, List.append_assoc]) (by simp)]
    rfl
  · rw [leAt_of (a := leBytes 1 1 ++ leBytes 1 typ ++ leBytes 2 body.length ++ leBytes 1 device ++ leBytes 1 bay ++ leBytes 1 st ++ leBytes 1 cls)
      (b := leBytes 4 ref ++ body ++ leBytes 4 (crc32c (h ++ body))) (x := q) (by rw [hb]; simp only [h, List.append_assoc]) (by simp)]
  · rw [hb, List.append_assoc, sliceZ_append_right (by omega), hh, Nat.sub_self, sliceZ_append_left (by omega), sliceZ_whole]
  · have ht : bs.take (16 + body.length) = h ++ body := by
      rw [hb, List.take_append_of_le_length (by simp [hh]), List.take_of_length_le (by simp [hh])]
    rw [ht, leAt_of (a := h ++ body) (b := []) (x := crc32c (h ++ body)) (by rw [hb]; simp) (by simp [hh])]
    exact Nat.mod_eq_of_lt (crc32c_lt _)

/-- A frame built from its fields is well formed, if its TYPE has a meaning and its body fits LENGTH (R414). -/
theorem dispatchBytes_ok {typ : Nat} (device bay st cls q ref : Nat) {body : List Byte} (ht : hostType typ = true) (hb : body.length < 65536) :
    hostFrameOk (dispatchBytes typ device bay st cls q ref body) = true := by
  obtain ⟨h0, h1, h2, -, -, -, -, h8⟩ := dispatchBytes_fields typ device bay st cls q ref body
  have hl := dispatchBytes_length typ device bay st cls q ref body
  have htl : typ < 256 := by
    unfold hostType at ht
    simp only [Bool.or_eq_true, Bool.and_eq_true, decide_eq_true_eq] at ht
    omega
  unfold hostFrameOk
  rw [h2, Nat.mod_eq_of_lt (by omega)]
  simp only [h0, h1, h8, hl, Nat.mod_eq_of_lt htl, ht, BEq.rfl, Bool.and_self]

end Machine

end Sys2Proof
end

