-- ==== Sys2Proof/Laws/Colot.lean ====
section
/-! SUPPORT. What a core's shared operations do: going on, trapping, issuing a transaction, reading its own memory, and
writing a word under its strobes. -/

namespace Sys2Proof.Machine

/-- A core put in place reads back. -/
theorem getCore_setCore {c : Nat} (h : c < 14) (k : Core) (s : State) : getCore (setCore c k s) c = k := by
  simp [getCore, setCore, vget, vset, h]

/-- Writing a register keeps the pc. -/
theorem setGpr_pc (k : Core) (r w) : (k.setGpr r w).pc = k.pc := by unfold Core.setGpr; split; rfl; split <;> rfl

/-- Writing a register keeps the hold. -/
theorem setGpr_hold (k : Core) (r w) : (k.setGpr r w).hold = k.hold := by unfold Core.setGpr; split; rfl; split <;> rfl

/-- Writing a register keeps what the core waits for. -/
theorem setGpr_wait (k : Core) (r w) : (k.setGpr r w).wait = k.wait := by unfold Core.setGpr; split; rfl; split <;> rfl

/-- Recording a status keeps the pc. -/
theorem rec_pc (k : Core) (st) : (k.recordStatus st).pc = k.pc := by unfold Core.recordStatus; split <;> rfl

/-- Recording a status keeps the hold. -/
theorem rec_hold (k : Core) (st) : (k.recordStatus st).hold = k.hold := by unfold Core.recordStatus; split <;> rfl

/-- Recording a status keeps what the core waits for. -/
theorem rec_wait (k : Core) (st) : (k.recordStatus st).wait = k.wait := by unfold Core.recordStatus; split <;> rfl

/-- Of two cores put in one place the later stays. -/
theorem setCore_setCore (c : Nat) (k k' : Core) (s : State) : setCore c k (setCore c k' s) = setCore c k s := by
  simp only [setCore, vset]
  congr 1
  apply Vector.ext; intro i hi; simp [Vector.getElem_setIfInBounds]

/-- Putting a core back where it stands changes nothing. -/
theorem setCore_self {c : Nat} (s : State) : setCore c (getCore s c) s = s := by
  simp only [setCore, vset, getCore, vget]
  congr 1
  apply Vector.ext; intro i hi; simp [Vector.getElem_setIfInBounds]
  intro h; subst h; simp [hi]

/-- A core that is not held goes on at `t`; beside it only the event counters change. -/
theorem advanceTo_eq {c : Nat} (h : c < 14) (t : Word) (s : State) (hh : (getCore s c).hold = false) : ∃ p, advanceTo c t s = setCore c { getCore s c with pc := t, wait := .none } { s with perf := p } := by
  unfold advanceTo
  obtain ⟨p, hp⟩ := countEvent_eq (modCore c (fun k => { k with pc := t, wait := .none }) s) c 0x001 1
  rw [hp]
  refine ⟨p, ?_⟩
  unfold settleHold
  rw [show getCore { modCore c (fun k => { k with pc := t, wait := .none }) s with perf := p } c = getCore (modCore c (fun k => { k with pc := t, wait := .none }) s) c from rfl]
  simp only [modCore, getCore_setCore h, hh]
  simp only [Bool.false_eq_true, false_and, if_false]
  rfl

/-- A core that is not held goes on at the next word. -/
theorem advance_eq {c : Nat} (h : c < 14) (s : State) (hh : (getCore s c).hold = false) : ∃ p, advance c s = setCore c { getCore s c with pc := (getCore s c).pc + 4, wait := .none } { s with perf := p } := advanceTo_eq h _ s hh

/-- A core at a boundary is not held, waits for nothing and has not halted. -/
theorem ready_facts {s : State} {c : Nat} (h : atBoundary s c = true) : (getCore s c).hold = false ∧ (getCore s c).wait = .none ∧ (getCore s c).halted = false := by
  simp only [atBoundary, Bool.and_eq_true, Bool.not_eq_true', beq_iff_eq] at h
  exact ⟨h.1.2, h.2, h.1.1.2⟩

/-- A legal instruction without a trap of its own has its effect. -/
theorem runInstr_eff {c : Nat} {s : State} (h : Ready s c) (w : Word) {legal : Bool} {pre note eff} (hl : legal = true) (hp : pre = none) : runInstr c w legal pre note eff s = eff s := by
  obtain ⟨h1, h2, h3, h4⟩ := h
  subst hl hp
  simp [runInstr, h1, h2, h3, h4]

/-- A legal instruction has its effect. -/
theorem runPlain_eff {c : Nat} {s : State} (h : Ready s c) (w : Word) {legal : Bool} {eff} (hl : legal = true) : runPlain c w legal eff s = eff s := runInstr_eff h w hl rfl

/-- A change of the core, then the next word. -/
theorem advance_mod {c : Nat} {s : State} (hc : c < 14) (h : Ready s c) (f : Core → Core) (hf : ∀ k, (f k).hold = k.hold) (hw : ∀ k, (f k).wait = k.wait) : ∃ p, advance c (modCore c f s) = setCore c { f (getCore s c) with pc := (f (getCore s c)).pc + 4 } { s with perf := p } := by
  obtain ⟨r1, r2, _⟩ := ready_facts h.1
  obtain ⟨p, hp⟩ := advance_eq hc (modCore c f s) (by simp only [modCore, getCore_setCore hc, hf, r1])
  refine ⟨p, ?_⟩
  rw [hp]
  simp only [modCore, getCore_setCore hc]
  have : ({ f (getCore s c) with pc := (f (getCore s c)).pc + 4, wait := .none } : Core) = { f (getCore s c) with pc := (f (getCore s c)).pc + 4 } := by
    have := hw (getCore s c); rw [r2] at this; rw [← this]
  rw [this]
  exact setCore_setCore c _ _ { s with perf := p }

/-- An instruction that changes only its core ends so. -/
theorem ends_mod {c : Nat} {s : State} (hc : c < 14) (h : Ready s c) (w : Word) {legal : Bool} (hl : legal = true) (f : Core → Core) (hf : ∀ k, (f k).hold = k.hold) (hw : ∀ k, (f k).wait = k.wait) (hpc : (f (getCore s c)).pc = (getCore s c).pc) :
    Ends (.next (runPlain c w legal (fun s => advance c (modCore c f s)) s)) s c { f (getCore s c) with pc := (getCore s c).pc + 4 } := by
  obtain ⟨p, hp⟩ := advance_mod hc h f hf hw
  exact ⟨p, by rw [runPlain_eff h w hl, hp, hpc]⟩

/-- An instruction that writes a result to rd ends so (R317). -/
theorem ends_result {c : Nat} {s : State} (hc : c < 14) (h : Ready s c) (w : Word) {legal : Bool} (hl : legal = true) (rd : RegF) (f : Core → Word) {v : Word} (hv : f (getCore s c) = v) :
    Ends (.next (runResult c w legal rd f s)) s c { (getCore s c).setGpr rd v with pc := (getCore s c).pc + 4 } := by
  subst hv
  exact ends_mod hc h w hl (fun k => k.setGpr rd (f k)) (fun k => setGpr_hold _ _ _) (fun k => setGpr_wait _ _ _) (setGpr_pc _ _ _)

/-- A synchronous trap while IT is 0 enters the handler (R325, R326). -/
theorem trap_ends {c : Nat} {s : State} (hit : (getCore s c).it = false) (code : Nat) (hcode : code < 512) (sval : Word) : ∃ p, syncTrap c code false (getCore s c).pc sval s = setCore c (trapped (getCore s c) code sval) { s with perf := p } := by
  unfold syncTrap
  dsimp only
  rw [hit]
  simp only [Bool.false_eq_true, if_false]
  obtain ⟨p, hp⟩ := countEvent_eq (setCore c ((getCore s c).enter (BitVec.ofNat 32 (code + 512 * b2n false)) (getCore s c).pc sval ((getCore s c).svec + BitVec.ofNat 32 (4 * code))) s) c 0x003 1
  exact ⟨p, hp⟩

/-- An illegal instruction takes ILLEGAL with its word as sval (R315). -/
theorem ends_illegal {c : Nat} {s : State} (h : atBoundary s c = true) (hf : fetchOk c (getCore s c).pc = true) (hit : (getCore s c).it = false) (w : Word) {pre note eff} :
    Ends (.next (runInstr c w false pre note eff s)) s c (trapped (getCore s c) 1 w) := by
  obtain ⟨p, hp⟩ := trap_ends (c := c) (s := s) hit 1 (by decide) w
  exact ⟨p, by rw [← hp]; simp [runInstr, h, hf]⟩

/-- An instruction with a trap condition of its own takes that trap. -/
theorem ends_pre {c : Nat} {s : State} (h : atBoundary s c = true) (hf : fetchOk c (getCore s c).pc = true) (hit : (getCore s c).it = false) (w : Word) {legal : Bool} (hl : legal = true) {code : Nat} (hc : code < 512) {sval : Word} {pre eff} (hp : pre = some (code, sval)) :
    Ends (.next (runInstr c w legal pre id eff s)) s c (trapped (getCore s c) code sval) := by
  subst hl hp
  obtain ⟨p, hp⟩ := trap_ends (c := c) (s := s) hit code hc sval
  exact ⟨p, by rw [← hp]; simp [runInstr, h, hf]⟩

/-- An access that ended with 0x00 completes its instruction. -/
theorem complete_ok {c : Nat} (hc : c < 14) (sval : Word) (f : Core → Core) (s : State) (hh : (f ((getCore s c).recordStatus 0x00)).hold = false) : ∃ p, completeAccess c sval 0x00 f s = setCore c { f ((getCore s c).recordStatus 0x00) with pc := (f ((getCore s c).recordStatus 0x00)).pc + 4, wait := .none } { s with perf := p } := by
  unfold completeAccess noteStatus
  simp only [if_true, ne_eq, not_true_eq_false, false_and, if_false]
  obtain ⟨p, hp⟩ := advance_eq hc (modCore c f (modCore c (fun k => k.recordStatus 0x00) s)) (by simp only [modCore, getCore_setCore hc]; exact hh)
  rw [hp]
  refine ⟨p, ?_⟩
  simp only [modCore, getCore_setCore hc]
  rw [show ∀ k, setCore c k { setCore c (f ((getCore s c).recordStatus 0x00)) (setCore c ((getCore s c).recordStatus 0x00) s) with perf := p } = setCore c k (setCore c (f ((getCore s c).recordStatus 0x00)) (setCore c ((getCore s c).recordStatus 0x00) { s with perf := p })) from fun k => rfl]
  rw [setCore_setCore, setCore_setCore]

/-- An instruction whose effect is known ends so. -/
theorem ends_plain {c : Nat} {s : State} (h : Ready s c) (w : Word) {legal : Bool} {eff : State → State} {k : Core} (hl : legal = true) (he : ∃ p, eff s = setCore c k { s with perf := p }) : Ends (.next (runPlain c w legal eff s)) s c k := by
  obtain ⟨p, hp⟩ := he
  exact ⟨p, congrArg _ ((runPlain_eff h w hl).trans hp)⟩

/-- An instruction without a trap of its own whose effect is known ends so. -/
theorem ends_instr {c : Nat} {s : State} (h : Ready s c) (w : Word) {legal : Bool} {pre note} {eff : State → State} {k : Core} (hl : legal = true) (hpre : pre = none) (he : ∃ p, eff s = setCore c k { s with perf := p }) : Ends (.next (runInstr c w legal pre note eff s)) s c k := by
  obtain ⟨p, hp⟩ := he
  exact ⟨p, congrArg _ ((runInstr_eff h w hl hpre).trans hp)⟩

/-- A change of the core, then a jump to `t`. -/
theorem to_ends {c : Nat} (hc : c < 14) {s : State} (h : Ready s c) (t : Word) (f : Core → Core) (hf : (f (getCore s c)).hold = (getCore s c).hold) (hw : (f (getCore s c)).wait = (getCore s c).wait) : ∃ p, advanceTo c t (modCore c f s) = setCore c { f (getCore s c) with pc := t } { s with perf := p } := by
  obtain ⟨r1, r2, _⟩ := ready_facts h.1
  obtain ⟨p, hp⟩ := advanceTo_eq hc t (modCore c f s) (by simp only [modCore, getCore_setCore hc, hf, r1])
  refine ⟨p, ?_⟩
  rw [hp]
  simp only [modCore, getCore_setCore hc]
  have : ({ f (getCore s c) with pc := t, wait := .none } : Core) = { f (getCore s c) with pc := t } := by
    rw [r2] at hw; rw [← hw]
  rw [this]
  exact setCore_setCore c _ _ { s with perf := p }

/-- A jump to `t` changes the pc alone. -/
theorem to_id {c : Nat} (hc : c < 14) {s : State} (h : Ready s c) (t : Word) : ∃ p, advanceTo c t s = setCore c { getCore s c with pc := t } { s with perf := p } := by
  have := to_ends hc h t id rfl rfl
  simpa [modCore, setCore_self] using this

/-- A transaction issued stands last among its core's (R310). -/
theorem issueTxn_eq (c : Nat) (op : TxnOp) (addr : Nat) (burst : Bool) (dst : TxnDst) (s : State) : ∃ p, issueTxn c op addr burst dst s = { s with perf := p, via := { s.via with
      txns := vset s.via.txns c (vget [] s.via.txns c ++ [⟨op, addr, burst, dst, s.time.us, false⟩]) } } := by
  unfold issueTxn
  obtain ⟨p, h⟩ := countEvent_eq (modVia (fun v => { v with txns := vset v.txns c (vget [] v.txns c ++ [{ op := op, addr := addr, burst := burst, dst := dst, issued := s.time.us, held := false }]) }) s) c 0x005 1
  exact ⟨p, h⟩

/-- A clean word notes nothing. -/
theorem noteEcc_clean (a : Nat) (s : State) : noteEcc a .clean s = s := by unfold noteEcc; cases sramIsland a <;> rfl

/-- A clean local word notes nothing. -/
theorem noteLocal_clean (c n : Nat) (a : Word) (s : State) : noteLocalEcc c n a .clean s = s := by
  unfold noteLocalEcc; split
  · exact noteEcc_clean _ _
  · rfl

/-- An aligned access inside the local memory takes no trap (R306, R308). -/
theorem accessTrap_none {s : State} {c n : Nat} {a : Word} (h1 : a.toNat % n = 0) (h2 : isLocal c a.toNat = true → localBusErr s c a.toNat = false) : accessTrap s c n a .clean = none := by
  unfold accessTrap busErr
  rw [if_neg (by omega), if_neg]
  cases hl : isLocal c a.toNat
  · simp
  · simp [h2 hl]

/-- A load over the viaduct is issued and its core waits (R310, R311). -/
theorem stall_eq {c : Nat} {s : State} (h : outstanding s c < 4) (op addr burst dst) : ∃ p, issueStalling c op addr burst dst s = setCore c { getCore s c with wait := .resp } { s with perf := p, via := { s.via with
      txns := vset s.via.txns c (vget [] s.via.txns c ++ [⟨op, addr, burst, dst, s.time.us, false⟩]) } } := by
  obtain ⟨p, hp⟩ := issueTxn_eq c op addr burst dst s
  refine ⟨p, ?_⟩
  unfold issueStalling
  rw [if_neg (by omega), hp]
  rfl

/-- A word read from the core's own SRAM is its four bytes, with status 0x00 (R305). -/
theorem localRead_own {s : State} {c a key : Nat} (ha : canAct s c = true) (h : ownSram s c (a / 4 * 4) = some key) : localRead c a 1 false s = ⟨[leAt (memReadBytes s key 4) 0 4], 0x00, s⟩ := by
  unfold ownSram at h
  unfold localRead
  dsimp only
  split at h
  · rename_i h2
    subst h2
    split at h
    · rename_i h3
      simp only [Bool.and_eq_true, Bool.not_eq_true'] at h3
      cases h
      simp only [Bool.false_eq_true, if_false, true_and, h3.1, true_or, if_true]
      have e : [0].map (fun i => keysLocalRead s (a / 4 * 4 + 4 * i)) = [leAt (memReadBytes s (a / 4 * 4) 4) 0 4] := by
        simp only [List.map_cons, List.map_nil, Nat.mul_zero, Nat.add_zero, keysLocalRead, h3.2]
        rfl
      rw [← e]; rfl
    · cases h
  · rename_i h2
    split at h
    · rename_i i key' hp
      split at h
      · rename_i h3
        obtain ⟨rfl, h4⟩ := h3
        cases h
        simp only [Bool.false_eq_true, if_false]
        rw [if_neg (fun hx => h2 hx.1)]
        unfold serveRead
        simp only [Bool.false_eq_true, if_false]
        rw [show placeAnswers s (a / 4 * 4) = true by simp [placeAnswers, hp, Place.island, ha]]
        simp only [hp, Place.island, Bool.true_eq_false, if_false]
        rw [show countServe i i s = s by simp [countServe]]
        simp only [readAt, hp]
        unfold memWordRead
        rw [hp]
        split
        · rename_i heq; cases heq
        · rename_i heq; cases heq
          rw [h4 rfl]; rfl
        · rename_i heq; cases heq; rfl
        · rename_i heq; cases heq
        · rename_i h5 h6 h7; exact absurd rfl (h6 _ _)
      · cases h
    · cases h

/-- A store over the viaduct is issued and its core goes on (R310, R311). -/
theorem posted_eq {c : Nat} (hc : c < 14) {s : State} (hh : (getCore s c).hold = false) (h : outstanding s c < 4) (op addr burst) : ∃ p, issuePosted c op addr burst s = setCore c { getCore s c with pc := (getCore s c).pc + 4, wait := .none } { s with perf := p, via := { s.via with
      txns := vset s.via.txns c (vget [] s.via.txns c ++ [⟨op, addr, burst, .posted, s.time.us, false⟩]) } } := by
  obtain ⟨p, hp⟩ := issueTxn_eq c op addr burst .posted s
  unfold issuePosted
  rw [if_neg (by omega), hp]
  obtain ⟨q, hq⟩ := advance_eq hc { s with perf := p, via := { s.via with
      txns := vset s.via.txns c (vget [] s.via.txns c ++ [⟨op, addr, burst, .posted, s.time.us, false⟩]) } } hh
  exact ⟨q, hq⟩

/-- Memory after a word is written under its strobes. -/
def strobeMem (strb w a : Nat) (m : Memory) : Memory := (List.range 4).foldl (fun m i => if bitOf strb i then Memory.write m (a + i) (BitVec.ofNat 8 (w / 256 ^ i)) else m) m

/-- A word written under its strobes changes memory alone. -/
theorem strobeBytes_eq (strb w a : Nat) (s : State) : strobeBytes strb w a s = { s with mem := strobeMem strb w a s.mem } := by
  unfold strobeBytes strobeMem
  generalize List.range 4 = l
  induction l generalizing s with
  | nil => rfl
  | cons x l ih =>
    simp only [List.foldl_cons]
    rw [ih]
    split <;> rfl

/-- A word written under its strobes changes the strobed bytes and no other. -/
theorem strobeMem_read (strb w a : Nat) (m0 : Memory) (h : Memory.wf m0 = true) (b : Nat) : Memory.read (strobeMem strb w a m0) b = if a ≤ b ∧ b < a + 4 ∧ bitOf strb (b - a) = true then BitVec.ofNat 8 (w / 256 ^ (b - a)) else Memory.read m0 b := by
  have gen : ∀ n, let m := (List.range n).foldl (fun m i => if bitOf strb i then Memory.write m (a + i) (BitVec.ofNat 8 (w / 256 ^ i)) else m) m0; Memory.wf m = true ∧
    ∀ b, Memory.read m b = if a ≤ b ∧ b < a + n ∧ bitOf strb (b - a) = true then BitVec.ofNat 8 (w / 256 ^ (b - a)) else Memory.read m0 b := by
    intro n
    induction n with
    | zero => exact ⟨h, fun b => by rw [if_neg (by omega)]; rfl⟩
    | succ n ih =>
      obtain ⟨hm, hr⟩ := ih
      dsimp only
      rw [List.range_succ, List.foldl_append]
      simp only [List.foldl_cons, List.foldl_nil]
      generalize (List.range n).foldl (fun m i => if bitOf strb i then Memory.write m (a + i) (BitVec.ofNat 8 (w / 256 ^ i)) else m) m0 = m at hm hr ⊢
      by_cases hb : bitOf strb n = true
      · rw [if_pos hb]
        refine ⟨Memory.wf_write _ _ _ hm, fun b => ?_⟩
        rw [Memory.read_write _ _ _ hm, hr]
        by_cases h1 : b = a + n
        · subst h1; simp [hb]
        · rw [if_neg h1]
          by_cases h2 : a ≤ b ∧ b < a + n ∧ bitOf strb (b - a) = true
          · rw [if_pos h2, if_pos ⟨h2.1, by omega, h2.2.2⟩]
          · rw [if_neg h2, if_neg (by intro h3; exact h2 ⟨h3.1, by omega, h3.2.2⟩)]
      · rw [if_neg hb]
        refine ⟨hm, fun b => ?_⟩
        rw [hr]
        by_cases h2 : a ≤ b ∧ b < a + n ∧ bitOf strb (b - a) = true
        · rw [if_pos h2, if_pos ⟨h2.1, by omega, h2.2.2⟩]
        · rw [if_neg h2, if_neg]
          intro h3
          by_cases h1 : b = a + n
          · subst h1; simp at h3; exact hb h3
          · exact h2 ⟨h3.1, by omega, h3.2.2⟩
  exact (gen 4).2 b

end Sys2Proof.Machine
end

