-- ==== Sys2Proof/Laws/Spans.lean ====
section
/-! SUPPORT. What the shared operations of the toll gate and the span service can change. -/

namespace Sys2Proof.Machine

/-- A requested ledger change changes the requested changes only. -/
theorem ite_store (P : Prop) [Decidable P] (c : LedgerChange) (s : State) : ∃ c', (if P then requestChange c s else s) = { s with store := { s.store with changes := c' } } := by
  split
  · exact ⟨_, rfl⟩
  · exact ⟨s.store.changes, rfl⟩

/-- Reserving identifiers asks for a ledger change. -/
theorem reserveIds_eq (s : State) : ∃ c, reserveIds s = { s with store := { s.store with changes := c } } := ite_store _ _ s

/-- A toll request changes the gate, the wake sources and the counters. -/
theorem tollReq_eq (w : Nat) (s : State) : ∃ g k p, (tollReqWrite w s).2 = { s with toll := g, park := k, perf := p } := by
  have base : ∀ (u : State), ∃ g p, (if 4 ≤ inFlight u ∨ freeHandle u = none then ((0x01 : Status), u) else (0x00, countEvent 1 0x040 1 (modToll (fun t => { t with reqs := t.reqs ++ [w] }) u))).2 = { u with toll := g, perf := p } := by
    intro u
    split
    · exact ⟨u.toll, u.perf, rfl⟩
    · obtain ⟨p, hp⟩ := countEvent_eq (modToll (fun t => { t with reqs := t.reqs ++ [w] }) u) 1 0x040 1
      exact ⟨_, p, hp⟩
  unfold tollReqWrite
  dsimp only
  split
  · rename_i h _
    obtain ⟨g, p, hh⟩ := base (fireWake 4 (modToll (fun t => { t with parking := none, handles := t.handles.filter (fun x => x != h), resvs := t.resvs.filter (fun x => x.handle != h) }) s))
    exact ⟨g, _, p, hh⟩
  · obtain ⟨g, p, hh⟩ := base s
    exact ⟨g, s.park, p, hh⟩

/-- A request of the deck changes the gate, the wake sources, the deck's jobs and the counters. -/
theorem deckReq_eq (k : JobKind) (cl : List Nat) (b : Nat) (s : State) : ∃ g pk p j n, (deckRequest k cl b s).2 = { s with toll := g, park := pk, perf := p, span := { s.span with jobs := j, nextTag := n } } := by
  unfold deckRequest
  dsimp only
  generalize (List.range cl.length).foldl (fun w i => w + cl.getD i 0 * 2 ^ (5 * i)) 0 + (cl.length - 1) * 2 ^ 20 + b * 2 ^ 22 + s.span.nextTag * 2 ^ 28 = w
  obtain ⟨g, pk, p, h⟩ := tollReq_eq w s
  split
  · rw [h]; exact ⟨g, pk, p, _, _, rfl⟩
  · rw [h]; exact ⟨g, pk, p, s.span.jobs, s.span.nextTag, rfl⟩

/-- A span's handle is dropped, at the gate too. -/
theorem dropHandle_eq (b : Nat) (s : State) : ∃ g, dropHandle b s = modBay b (fun p => { p with handle := none }) { s with toll := g } ∧ (∀ h, (getSpan s b).handle = some h → h ∉ g.handles) := by
  unfold dropHandle
  split
  · rename_i h hh
    refine ⟨(tollCancelHandle h s).toll, rfl, fun h' e => ?_⟩
    rw [hh] at e; cases e
    simp [tollCancelHandle, modToll]
  · rename_i hh
    refine ⟨s.toll, ?_, fun h' e => by rw [hh] at e; cases e⟩
    have : s.span.bays = vset s.span.bays b { getSpan s b with handle := none } := by
      apply Vector.ext
      intro i hi
      simp only [vset, vget, getSpan, Vector.getElem_setIfInBounds]
      by_cases h : b = i
      · subst h
        simp only [getSpan, vget, hi, Vector.getElem?_eq_getElem, Option.getD_some] at hh
        simp [hi, ← hh]
      · simp [h]
    show s = { s with span := { s.span with bays := vset s.span.bays b { getSpan s b with handle := none } } }
    rw [← this]

/-- A span that ends is recorded, with its timers, captures and handle gone (R48, R49, R90). -/
theorem spanEnd_eq {b : Nat} (hb : b < 64) (nxt : Nat) (st : Status) (seq : Nat) (s : State) : EndedAs b nxt st s (spanEnd b nxt (some st) seq s) := by
  unfold spanEnd
  obtain ⟨q, c, o, m, p, h, ⟨ev, hr⟩, hk, hm⟩ := spanMove_eq b nxt (some st) seq s
  dsimp only
  rw [h]
  obtain ⟨g, hg, hn⟩ := dropHandle_eq b (modBay b (fun p => { p with authLeft := none, relLeft := none, nextInterim := none, caps := [], sending := false, built := false }) (modBay b (fun x => { x with state := nxt, status := (some st).getD (getSpan s b).status }) { s with store := { s.store with queue := q, changes := c, opened := o }, mem := m, perf := p }))
  rw [hg]
  have gs : ∀ (b' : Nat) (u : State), getSpan (forgetJobs b u) b' = getSpan u b' := fun _ _ => rfl
  have gp : ∀ (b' : Nat) (f) (u : State) (g), getSpan (modBay b f { u with toll := g }) b' = getSpan (modBay b f u) b' := fun _ _ _ _ => rfl
  have gq : ∀ (b' : Nat) , getSpan ({ s with store := { s.store with queue := q, changes := c, opened := o }, mem := m, perf := p } : State) b' = getSpan s b' := fun _ => rfl
  refine ⟨⟨fun b' hb' => ?_, hm, rfl⟩, ⟨_, hr, rfl, rfl, spanRecord_body s b nxt st ev⟩, ?_⟩
  · simp only [gs, gp, getSpan_modBay hb, if_neg hb', gq]
  · have e : getSpan (forgetJobs b (modBay b (fun p => { p with handle := none }) { modBay b (fun p => { p with authLeft := none, relLeft := none, nextInterim := none, caps := [], sending := false, built := false }) (modBay b (fun x => { x with state := nxt, status := (some st).getD (getSpan s b).status }) { s with store := { s.store with queue := q, changes := c, opened := o }, mem := m, perf := p }) with toll := g })) b = { getSpan s b with state := nxt, status := st, authLeft := none, relLeft := none, nextInterim := none, caps := [], sending := false, built := false, handle := none } := by
      simp only [gs, gp, getSpan_modBay hb, if_true, gq]; rfl
    simp only [e]
    refine ⟨trivial, trivial, trivial, trivial, trivial, trivial, trivial, trivial, rfl, fun h' hh => ?_⟩
    refine hn h' ?_
    simp only [getSpan_modBay hb, if_true, gq]
    exact hh

/-- So is one that is refused. -/
theorem spanRefuse_eq {b : Nat} (hb : b < 64) (st : Status) (s : State) : EndedAs b 10 st s (spanRefuse b st s) := by
  unfold spanRefuse
  split
  · rename_i h
    have := spanEnd_eq hb 10 st 0 (modSpan (fun p => { p with retry := vset p.retry b (s.time.us + 1000 * regField s 1 .spanCtrl 0 4 12) }) s)
    dsimp only at this ⊢
    obtain ⟨⟨a1, a2, a3⟩, a4⟩ := this
    refine ⟨⟨a1, a2, ?_⟩, a4⟩
    have := congrArg (fun x : State => { x with span := s.span }) a3
    exact this
  · exact spanEnd_eq hb 10 st 0 s

/-- A span that ends leaves the journal's head where it is. -/
theorem spanRefuse_head (b : Nat) (st : Status) (s : State) : (spanRefuse b st s).store.head = s.store.head := by
  have key : ∀ u : State, (spanEnd b 10 (some st) 0 u).store.head = u.store.head := by
    intro u
    unfold spanEnd
    obtain ⟨q, c, o, m, p, h, -⟩ := spanMove_eq b 10 (some st) 0 u
    dsimp only
    rw [show ∀ x : State, (forgetJobs b x).store = x.store from fun _ => rfl]
    have hd : ∀ x : State, (dropHandle b x).store = x.store := by
      intro x
      obtain ⟨g, hg, -⟩ := dropHandle_eq b x
      rw [hg]
      rfl
    rw [hd, h]
    rfl
  unfold spanRefuse
  split
  · exact key _
  · exact key s

/-- Records submitted one after another stand in the journal's queue; beside it only requested ledger changes, the next ring
slot and the counters change. -/
theorem submitFold_eq {α : Type} (f : State → α → JRecord) (l : List α) (hf : ∀ (s t : State) (x : α), t.time = s.time → t.boot = s.boot → t.span = s.span → f t x = f s x) :
    ∀ s : State, ∃ q c o m p, l.foldl (fun s x => submitRecord (f s x) s) s =
      { s with store := { s.store with queue := q, changes := c, opened := o }, mem := m, perf := p } ∧
      (∀ x ∈ l, f s x ∈ q) ∧ (∀ x, x ∈ s.store.queue → x ∈ q) ∧ KeepsMemory s m := by
  induction l with
  | nil => exact fun s => ⟨s.store.queue, s.store.changes, s.store.opened, s.mem, s.perf, rfl, by simp, fun _ h => h, keepsMemory_refl s⟩
  | cons x l ih =>
    intro s
    obtain ⟨q, c, o, m, p, h, h1, h2, h3⟩ := submitRecord_eq (f s x) s
    rw [List.foldl_cons, h]
    generalize hu : ({ s with store := { s.store with queue := q, changes := c, opened := o }, mem := m, perf := p } : State) = u
    obtain ⟨q', c', o', m', p', h', h1', h2', h3'⟩ := ih u
    have hfu : ∀ y, f u y = f s y := fun y => hf s u y (by rw [← hu]) (by rw [← hu]) (by rw [← hu])
    refine ⟨q', c', o', m', p', by rw [h', ← hu], ?_, fun y hy => h2' y (by rw [← hu]; exact h2 y hy), fun hw => ?_⟩
    · intro y hy
      rcases List.mem_cons.1 hy with rfl | hy
      · exact h2' _ (by rw [← hu]; exact h1)
      · rw [← hfu]
        exact h1' y hy
    · obtain ⟨w1, k1⟩ := h3 hw
      subst hu
      obtain ⟨w2, k2⟩ := h3' w1
      exact ⟨w2, fun a ha => (k2 a ha).trans (k1 a ha)⟩

end Sys2Proof.Machine
end

