-- ==== Sys2Proof/Tests/Slice0.lean ====
section
/-! SUPPORT. Tests: ill-formed terms refused, instruction words written out, and for every statement with hypotheses a state
and operands that meet them. -/

namespace Sys2Proof.Tests

open Sys2Proof Sys2Proof.Machine

/-- A state in which every island runs. -/
def up : State := { State.reset with power := { State.reset.power with st := Vector.replicate 14 .run } }

/-- A state in which core c stands at a boundary of its SRAM with nothing pending. -/
def at_ (c : Nat) (k : Core) (s : State) : State :=
  setCore c { k with hold := false, halted := false, pc := if c = 2 then 0x42800000 else BitVec.ofNat 32 (islandBase c + 0x800000) } s

/-- Island i's inbox holds sixteen messages. -/
def withFull (i : Nat) (s : State) : State := setInbox i (List.replicate 16 ⟨0, 0⟩) s

/-- A state whose span service is enabled and rebuilt. -/
def spanUp : State := { putReg up 1 .spanCtrl 0 1 with span := { up.span with rebuilt := true } }

/-- A state in which bay 5's span is `p` at device time `us`. -/
def spanAt (p : Span) (us : Nat) : State := { modBay 5 (fun _ => p) spanUp with time := { spanUp.time with us := us } }

/-- A state whose gate holds a waiting request and two handles. -/
def gateUp : State := { up with toll := { TollState.reset with reqs := [0x10000005], handles := [3, 0] }, time := { up.time with us := 5000 } }

/-- `spanAt` with the field buses enabled. -/
def busAt (p : Span) (us : Nat) : State := putReg (putReg (spanAt p us) 5 .dbusCfg 0 1) 5 .mbusCfg 0 1

/-- Bay 5's span waits for its chord in state REQUESTED, with pier 0 present. -/
def chordUp (on : Bool) : State :=
  modBay 5 (fun p => { p with state := 2, source := 1, policy := [1], present := 1, fired := 5 }) (if on then up else { up with
    power := { up.power with st := vset up.power.st 6 .off } })

/-- LINK's host ports are on, with a request's SEQ as given and some others waiting. -/
def hostUp (q : Nat × Option Status) (n : Nat) : State :=
  let s := putReg up 5 .hostCfg 0 3
  { s with link := { s.link with seqs := [q], waiting := List.replicate n ⟨4, 0, 9, .spi⟩ } }

/-- A header from the host with SEQ 7, for device 0 and bay 5. -/
def hdr (device : Byte) (eth : Bool) : HostHdr := ⟨device, 5, 7, eth⟩

/-- `up` in a lifecycle state and a phase of PARK, frozen or not. -/
def freezeUp (lc : Nat) (ph : ParkPhase) (frozen : Bool) : State :=
  { up with
    store := { up.store with ledger := { up.store.ledger with lifecycle := lc } }
    park := { up.park with phase := ph }
    freeze := { up.freeze with frozen := frozen, pin := frozen } }

/-- `up` in a phase of PARK with sources pending, the power commands idle, 10 ms after the start. -/
def parkUp (ph : ParkPhase) (pend : Nat) : State :=
  { up with
    park := { up.park with phase := ph, wakePend := pend, alarm := some 9000 }
    toll := { up.toll with parking := some 4, handles := [4] }
    time := { up.time with us := 10000 } }

/-! ## Ill-formed commands -/

/-- A header whose SEQ has 33 bits. -/
def longHdr : HostHdr := { hdr 0 false with seq := 2 ^ 32 }

/-- A ring frame with a field out of its range. -/
def badFrame (hops seq n : Nat) : RingFrame :=
  { src := 0, dst := 0, bcast := false, hops := hops, first := true, last := true, wrapped := false, seq := seq, payload := List.replicate n 0, crcGood := true }

/-- Operands of the islands' commands outside their fields. -/
theorem test_illformed_islands : ∀ i ∈ ([
  .deviceTimeStep (List.replicate 15 0), .viaductBurst 1 0 (.read 1), .viaductBurst 1 0 (.read 17),
  .viaductBurst 1 0 (.write [0]), .viaductBurst 1 0 (.write (List.replicate 17 0)),
  .senseRequest (.hostStart [1] 0) 0, .senseRequest (.hostStart (List.replicate 16 0) (2 ^ 32)) 0,
  .jobMiss 0 0 0 (2 ^ 64), .lfBurstEnd 0 false 0 (List.replicate 26 ⟨0, 0⟩), .rxPacket 0 (List.replicate 256 0) 0 0 0,
  .rxPacket 0 [] 0 0 (2 ^ 64), .rngPrivateRequest 0 8, .rngPrivateRequest 1 33, .rngPrivateRequest 2 16,
  .ringRecoveryDone [4096], .lookup [0], .journalAppend 0 0 0 0 (2 ^ 64) [], .journalAppend 0 0 0 0 0 (List.replicate 105 0)] : List Instr), i.wellFormed = false := by decide +kernel

/-- Message fields outside their widths. -/
theorem test_illformed_messages : ∀ i ∈ ([
  .msgSense 0 (2 ^ 64), .msgChordArm 0 0 0 0 0 (2 ^ 64), .msgTagwrite 0 0 0 (2 ^ 64), .msgDetune 0 (2 ^ 64),
  .msgTagResult 0 0 0 0 256 0, .msgTagResult 0 0 0 0 0 (2 ^ 64), .msgTagMore 0 0 (2 ^ 64), .msgAuthStart 0 0 0 (2 ^ 64),
  .msgSignHead 0 (2 ^ 64), .msgTokenReady 0 0 0 (2 ^ 64), .msgSigned 0 0 (2 ^ 64), .msgKtReply 0 0 0 (2 ^ 64),
  .msgKtOpened 0 0 0 (2 ^ 64), .msgChordReports 0 0 0 256 0, .msgFobHello 0 (2 ^ 64), .msgChordListen 0 (2 ^ 64),
  .dispReport 0 0 0 (2 ^ 64), .meterReply 0 (.normal [] (2 ^ 64))] : List Instr), i.wellFormed = false := by decide +kernel

/-- Frames of the ring and the ports with a field outside its width. -/
theorem test_illformed_frames : ∀ i ∈ ([
  .sync .up 0 256 0, .dispatchUp .up (badFrame 33 0 0), .dispatchDown .up (badFrame 0 65536 0), .timemap .up (badFrame 33 0 0),
  .dispatchUp .up (badFrame 0 0 1025), .monRead 0 256, .monWrite 0 (List.replicate 256 0), .monUnlock (List.replicate 97 0),
  .monLoad 0 (2 ^ 32) [], .ethFrame 0 0 0 false (List.replicate 1497 0)] : List Instr), i.wellFormed = false := by decide +kernel

/-- Host requests with a header or body outside its fields. -/
theorem test_illformed_host : ∀ i ∈ ([
  .hostStart longHdr (List.replicate 16 0), .hostStart (hdr 0 false) [0], .hostStop longHdr 0, .hostCancel longHdr 0,
  .hostRegRead longHdr 0 1, .hostRegRead (hdr 0 false) 0 65536, .hostRegWrite longHdr 0 [0],
  .hostRegWrite (hdr 0 false) 0 (List.replicate 257 0), .hostJrnRead longHdr 0 1, .hostJrnRead (hdr 0 false) (2 ^ 64) 1,
  .hostJrnRead (hdr 0 false) 0 256, .hostJrnAck (hdr 0 false) (2 ^ 64), .hostTimeSet (hdr 0 false) (2 ^ 64),
  .hostDbChunk (hdr 0 false) [0], .hostDbCommit (hdr 0 false) (2 ^ 64), .hostPolicy (hdr 0 false) [0],
  .hostImageData (hdr 0 false) (2 ^ 32) [], .hostImageCommit longHdr, .hostAttest (hdr 0 false) [0], .hostCert longHdr,
  .hostRange (hdr 0 false) 0 0 0 (2 ^ 64), .hostTagwrite (hdr 0 false) (2 ^ 64) [], .hostTagwrite (hdr 0 false) 0 [0],
  .hostTune longHdr, .hostIntegratorFrame longHdr 0 [] 0 []] : List Instr), i.wellFormed = false := by decide +kernel

/-! ## Words of the Colot instructions, written out from R314 to R321 -/

/-- Format RR (R314, R317, R318): opcode, rd, ra, rb, func. -/
theorem test_words_rr :
    decodeColot 1 .clean 0b000000_0001_0010_0011_00000000000000 = some (.add 1 1 2 3) ∧
    decodeColot 1 .clean 0b000000_1111_1110_1101_00000000000111 = some (.sra 1 15 14 13) ∧
    decodeColot 2 .clean 0b000000_0100_0101_0110_00000000001101 = some (.div 2 4 5 6) ∧
    decodeColot 1 .clean 0b000000_0100_0101_0000_00000000010110 = some (.bswap 1 4 5 0) ∧
    decodeColot 1 .clean 0b000001_0011_0111_0000_00000000000000 = some (.rds 1 3 7 0) ∧
    decodeColot 1 .clean 0b000001_0000_0000_0000_00000000000100 = some (.fence 1 0 0 0) ∧
    decodeColot 1 .clean 0b000000_0001_0010_0011_00000000010111 = none := by decide

/-- Formats RI and J (R314, R316): opcode, rd, ra, a zero field, imm14; imm18 for lhi; imm26. -/
theorem test_words_ri :
    decodeColot 1 .clean 0b000010_0001_0010_0000_11111111111111 = some (.addi 1 1 2 0 0x3FFF) ∧
    decodeColot 1 .clean 0b001011_0001_0000_100000000000000001 = some (.lhi 1 1 0 0x20001) ∧
    decodeColot 1 .clean 0b001100_0001_0010_0000_00000000000100 = some (.ldw 1 1 2 0 4 .clean) ∧
    decodeColot 1 .clean 0b010001_0001_0010_0000_00000000000100 = some (.stw 1 1 2 0 4) ∧
    decodeColot 1 .clean 0b011010_0001_0010_0000_11111111111110 = some (.blt 1 1 2 0 0x3FFE) ∧
    decodeColot 1 .clean 0b100001_00000000000000000000000011 = some (.jal 1 3) ∧
    decodeColot 1 .clean 0b010110_0001_0010_0000_00000000000100 = none := by decide

/-- Formats T and V (R319, R321): sub leads in T, and follows the registers in V. -/
theorem test_words_tv :
    decodeColot 6 .clean 0b101000_0001_0010_0011_0100_0000000101 = some (.temit 6 2 3 4 5) ∧
    decodeColot 6 .clean 0b101000_0101_0010_0011_0100_0000000101 = none ∧
    decodeColot 6 .clean 0b110000_0001_0100_0011_0100_0000000000 = some (.vrecv 6 1 4 3 0) ∧
    decodeColot 6 .clean 0b110000_0001_0100_0011_0110_0000000000 = none := by decide

theorem witness_StepRunsFront :
    (∃ (c : Instr) (rest : List Instr) (s : State), s.pending = c :: rest) ∧ (∃ s : State, s.pending = []) :=
  ⟨⟨.birth, [], { State.reset with pending := [.birth] }, rfl⟩, State.reset, rfl⟩

theorem witness_RegisterAccessTurnedAway :
    (∃ (ini : Island) (addr : Word) (s : State), canReachAddr s ini addr.toNat = true ∧
      placeAnswers s (addr.toNat / 4 * 4) = false) ∧
    (∃ (ini : Island) (addr : Word) (s : State) (i : Nat), canReachAddr s ini addr.toNat = true ∧
      placeOf (addr.toNat / 4 * 4) = .reg i ∧ canAct s i = true ∧ decodeReg (addr.toNat / 4 * 4) = none) ∧
    (∃ (ini : Island) (addr : Word) (s : State) (i : Nat), canReachAddr s ini addr.toNat = true ∧
      placeOf (addr.toNat / 4 * 4) = .reg i ∧ canAct s i = true ∧
      ∃ row k, decodeReg (addr.toNat / 4 * 4) = some (i, row, k) ∧ mayWrite ini i row.reg = false) ∧
    (∃ (ini : Island) (addr : Word) (s : State) (i : Nat), canReachAddr s ini addr.toNat = true ∧
      placeOf (addr.toNat / 4 * 4) = .reg i ∧ canAct s i = true ∧
      ∃ row k, decodeReg (addr.toNat / 4 * 4) = some (i, row, k) ∧ mayWrite ini i row.reg = true) :=
  ⟨⟨0, 0x41000000, State.reset, by decide, by decide⟩, ⟨2, 0x4D0FFFFF, up, 13, by decide, by decide, by decide, by decide⟩,
    ⟨0, 0x41000040, up, 1, by decide, by decide, by decide, _, _, rfl, by decide⟩,
    ⟨1, 0x40000003, up, 0, by decide, by decide, by decide, _, _, rfl, by decide⟩⟩

theorem witness_RegisterWriteStores :
    (∃ (ini : Island) (addr : Word) (s : State) (i : Nat) (row : RegRow) (k : Nat), canReachAddr s ini addr.toNat = true ∧
      placeOf (addr.toNat / 4 * 4) = .reg i ∧ canAct s i = true ∧ decodeReg (addr.toNat / 4 * 4) = some (i, row, k) ∧
      mayWrite ini i row.reg = true ∧ storesOnly row.reg = true ∧ writeMask row.reg row k ≠ 0 ∧
      blockStopped s i row.reg k = true) :=
  ⟨1, 0x46000104, up, 6, ⟨.lfFreq, .piers, 0x104, 4, 1, 0x3FFFFF, 0x3FFFFF, 0, 0x1E8480⟩, 0, by decide, by decide, by decide,
    by decide, by decide, by decide, by decide, by decide⟩

theorem witness_RunningBlockKeepsHFields :
    (∃ (ini : Island) (addr data : Word) (s : State) (i : Nat) (row : RegRow) (k : Nat), canReachAddr s ini addr.toNat = true ∧
      placeOf (addr.toNat / 4 * 4) = .reg i ∧ canAct s i = true ∧ decodeReg (addr.toNat / 4 * 4) = some (i, row, k) ∧
      mayWrite ini i row.reg = true ∧ row.reg = .lfFreq ∧ blockStopped s i row.reg k = false ∧
      changedH (regValue s i row.reg k) (2 ^ 32 - 1) data.toNat (hFields row.reg) ≠ []) :=
  ⟨1, 0x46000104, 1700000, { up with cfg := [(0x46000100, 1)] }, 6, ⟨.lfFreq, .piers, 0x104, 4, 1, 0x3FFFFF, 0x3FFFFF, 0, 0x1E8480⟩, 0,
    by decide, by decide, by decide, by decide, by decide, by decide, by decide, by decide⟩

theorem witness_WordWriteToSram :
    (∃ (ini : Island) (addr : Word) (s : State) (i key : Nat), MemoryCanonical s ∧ canReachAddr s ini addr.toNat = true ∧
      placeOf (addr.toNat / 4 * 4) = .sram i key ∧ canAct s i = true ∧ i = 1 ∧ quarantined s key = true) ∧
    (∃ (ini : Island) (addr : Word) (s : State) (i key : Nat), MemoryCanonical s ∧ canReachAddr s ini addr.toNat = true ∧
      placeOf (addr.toNat / 4 * 4) = .sram i key ∧ canAct s i = true ∧ ¬(i = 1 ∧ quarantined s key = true) ∧
      codeLocked s i (keyOffset i key) = true) ∧
    (∃ (ini : Island) (addr : Word) (s : State) (i key : Nat), MemoryCanonical s ∧ canReachAddr s ini addr.toNat = true ∧
      placeOf (addr.toNat / 4 * 4) = .sram i key ∧ canAct s i = true ∧ ¬(i = 1 ∧ quarantined s key = true) ∧
      codeLocked s i (keyOffset i key) = false) :=
  ⟨⟨2, 0x20000FFF, { setCaisson 0 ⟨true, false, false, 0, none⟩ up with cfg := [(0x42000204, 1)] }, 1, 0x20000FFC, rfl, by decide +kernel,
      by decide +kernel, by decide +kernel, by decide +kernel, by decide +kernel⟩,
    ⟨1, 0x46800000, modCore 6 (fun k => { k with lock := true, code := 1 }) up, 6, 0x46800000, rfl, by decide +kernel, by decide +kernel, by decide +kernel,
      by decide +kernel, by decide +kernel⟩,
    ⟨1, 0x46800040, modCore 6 (fun k => { k with lock := true, code := 1 }) up, 6, 0x46800040, rfl, by decide +kernel, by decide +kernel, by decide +kernel,
      by decide +kernel, by decide +kernel⟩⟩

theorem witness_RegisterReads :
    ∀ r ∈ [Reg.dtimeLo, .dtimeHi, .offAccessCount, .parkCount, .eccCount, .viaCount, .tollCount, .dumpCount, .coexCount,
        .jrnGapCount, .hostCount, .busCount, .zwCount, .pwrRes], ∃ (ini : Island) (addr : Word) (i : Nat) (row : RegRow) (k : Nat),
      canReachAddr up ini addr.toNat = true ∧ placeOf (addr.toNat / 4 * 4) = .reg i ∧ canAct up i = true ∧
      decodeReg (addr.toNat / 4 * 4) = some (i, row, k) ∧ row.reg = r := by
  have w (a : Word) (i : Nat) (row : RegRow) (k : Nat) (h : canReachAddr up 0 a.toNat = true ∧ placeOf (a.toNat / 4 * 4) = .reg i ∧
      canAct up i = true ∧ decodeReg (a.toNat / 4 * 4) = some (i, row, k)) : ∃ (ini : Island) (addr : Word) (i : Nat) (row' : RegRow) (k : Nat),
      canReachAddr up ini addr.toNat = true ∧ placeOf (addr.toNat / 4 * 4) = .reg i ∧ canAct up i = true ∧
      decodeReg (addr.toNat / 4 * 4) = some (i, row', k) ∧ row'.reg = row.reg := ⟨0, a, i, row, k, h.1, h.2.1, h.2.2.1, h.2.2.2, rfl⟩
  intro r hr
  fin_cases hr
  · exact w 0x40000028 0 (rowFor 0 .dtimeLo) 0 (by decide)
  · exact w 0x4000002C 0 (rowFor 0 .dtimeHi) 0 (by decide)
  · exact w 0x40000010 0 (rowFor 0 .offAccessCount) 0 (by decide)
  · exact w (BitVec.ofNat 32 (regAddr 0 .parkCount 0)) 0 (rowFor 0 .parkCount) 0 (by decide)
  · exact w (BitVec.ofNat 32 (regAddr 0 .eccCount 0)) 0 (rowFor 0 .eccCount) 0 (by decide)
  · exact w (BitVec.ofNat 32 (regAddr 0 .viaCount 0)) 0 (rowFor 0 .viaCount) 0 (by decide)
  · exact w (BitVec.ofNat 32 (regAddr 1 .tollCount 0)) 1 (rowFor 1 .tollCount) 0 (by decide)
  · exact w (BitVec.ofNat 32 (regAddr 1 .dumpCount 0)) 1 (rowFor 1 .dumpCount) 0 (by decide)
  · exact w (BitVec.ofNat 32 (regAddr 3 .coexCount 0)) 3 (rowFor 3 .coexCount) 0 (by decide)
  · exact w (BitVec.ofNat 32 (regAddr 4 .jrnGapCount 0)) 4 (rowFor 4 .jrnGapCount) 0 (by decide)
  · exact w (BitVec.ofNat 32 (regAddr 5 .hostCount 0)) 5 (rowFor 5 .hostCount) 0 (by decide)
  · exact w (BitVec.ofNat 32 (regAddr 5 .busCount 0)) 5 (rowFor 5 .busCount) 0 (by decide)
  · exact w (BitVec.ofNat 32 (regAddr 5 .zwCount 0)) 5 (rowFor 5 .zwCount) 0 (by decide)
  · exact w (BitVec.ofNat 32 (regAddr 0 .pwrRes 0)) 0 (rowFor 0 .pwrRes) 0 (by decide)

theorem witness_DeviceTimeAdvances : (∃ s : State, s.time.frac < 1536 ∧ s.time.src = .reference) ∧
    (∃ s : State, s.time.frac < 1536 ∧ s.time.src = .crystal ∧ pstate s 0 ≠ .off ∧ pstate s 13 = .off) ∧
    (∃ s : State, s.time.frac < 1536 ∧ s.time.src = .rc4M) :=
  ⟨⟨{ State.reset with time := { TimeState.reset with src := .reference } }, by decide⟩,
    ⟨State.reset, by decide⟩, { State.reset with time := { TimeState.reset with src := .rc4M } }, by decide⟩

theorem witness_DeviceTimeAdvances_start :
    (∃ s : State, s.time.src ≠ .reference ∧ s.park.phase ≠ .parked ∧ s.park.phase ≠ .stopping ∧
      ¬(s.boot.stage = .rom ∧ s.boot.strapTest = false)) ∧
    (∃ s : State, s.time.src ≠ .reference ∧ s.park.phase ≠ .parked ∧ s.park.phase ≠ .stopping ∧
      s.boot.stage = .rom ∧ s.boot.strapTest = false) ∧
    (∃ s : State, s.time.src = .reference ∨ s.park.phase = .parked ∨ s.park.phase = .stopping) :=
  ⟨⟨{ State.reset with boot := { BootState.reset with stage := .ready } }, by decide⟩, ⟨State.reset, by decide⟩,
    { State.reset with park := { ParkState.reset with phase := .parked } }, by decide⟩

/-- A state with sixteen entries in island 6's inbox. -/
def fullInbox : State := setInbox 6 (List.replicate 16 ⟨0, 1⟩) up

theorem witness_MessagesReachTheInbox :
    (∃ (ini : Island) (target : Fin 16) (s : State), canReach s ini target = true ∧ 14 ≤ target.val) ∧
    (∃ (ini : Island) (target : Fin 16) (s : State), canReach s ini target = true ∧ target.val < 14 ∧ canAct s target = false) ∧
    (∃ (ini : Island) (target : Fin 16) (s : State), canReach s ini target = true ∧ target.val < 14 ∧ canAct s target = true ∧
      (inboxOf s target).length < 16) ∧
    (∃ (ini : Island) (target : Fin 16) (s : State), canReach s ini target = true ∧ target.val < 14 ∧ canAct s target = true ∧
      16 ≤ (inboxOf s target).length ∧ ini.val ≠ target.val) ∧
    (∃ (target : Island) (s : State) (h : HeldMsg) (rest : List HeldMsg), canAct s target = true ∧
      (inboxOf s target).length < 16 ∧ vget [] s.via.held target = h :: rest) :=
  ⟨⟨1, 14, up, by decide⟩, ⟨0, 13, State.reset, by decide⟩, ⟨0, 13, up, by decide⟩, ⟨1, 6, fullInbox, by decide⟩,
    6, { up with via := { up.via with held := vset up.via.held 6 [⟨1, 7, 0⟩] } }, ⟨1, 7, 0⟩, [], by decide⟩

theorem witness_BurstsAreServedWhole :
    (∃ (ini : Island) (addr : Word) (n : Nat), canReachAddr up ini addr.toNat = true ∧ placeAnswers up addr.toNat = true ∧
      burstOk addr.toNat n = true ∧ n = 16) ∧
    (∃ (ini : Island) (addr : Word) (n : Nat), canReachAddr up ini addr.toNat = true ∧ placeAnswers up addr.toNat = true ∧
      burstOk addr.toNat n = false) ∧
    (∃ (ini : Island) (addr : Word), canReachAddr State.reset ini addr.toNat = true ∧ placeAnswers State.reset addr.toNat = false) :=
  ⟨⟨1, 0x20000040, 16, by decide⟩, ⟨1, 0x20000044, 16, by decide⟩, 0, 0x20000000, by decide⟩

/-- A state in which core 1 has one transaction out. -/
def withTxn (op : TxnOp) (dst : TxnDst) (s : State) : State :=
  { s with via := { s.via with txns := vset s.via.txns 1 [⟨op, 0x100, false, dst, 0, false⟩] } }

theorem witness_ResponsesReachTheCore :
    (∃ (ini : Island) (s : State) (t : Txn) (off : Nat), s.freeze.frozen = false ∧ pstate s ini ≠ .off ∧
      (vget [] s.via.txns ini).find? (answerable s) = some t ∧ t.op = .read 1 ∧ t.burst = false ∧
      placeOf (t.addr / 4 * 4) = .mram off ∧ canAct s 4 = true) ∧
    (∃ (ini : Island) (s : State) (t : Txn) (g : Nat) (m : BitVec 128), s.freeze.frozen = false ∧ pstate s ini ≠ .off ∧
      (vget [] s.via.txns ini).find? (answerable s) = some t ∧ t.op = .message g m ∧ g < 14 ∧ canAct s g = true ∧
      (inboxOf s g).length < 16) ∧
    (∃ (ini : Island) (s : State) (t : Txn), s.freeze.frozen = false ∧ (vget [] s.via.txns ini).find? (txnExpired s) = some t) ∧
    (∃ (c : Nat) (t : Txn) (s : State) (rd : RegF), c < 14 ∧ (getCore s c).hold = false ∧ t.dst = .load rd 4 false 0) ∧
    (∃ (c : Nat) (t : Txn) (s : State) (rd : RegF), c < 14 ∧ (getCore s c).hold = false ∧ t.dst = .status rd) :=
  ⟨⟨1, withTxn (.read 1) (.load 3 4 false 0) up, ⟨.read 1, 0x100, false, .load 3 4 false 0, 0, false⟩, 0x100, by decide⟩,
    ⟨1, withTxn (.message 6 9) (.status 3) up, ⟨.message 6 9, 0x100, false, .status 3, 0, false⟩, 6, 9, by decide⟩,
    ⟨1, withTxn (.message 6 9) (.status 3) { up with time := { up.time with us := 200 }, via := { up.via with
        held := vset up.via.held 6 [⟨2, 7, 0⟩] } }, ⟨.message 6 9, 0x100, false, .status 3, 0, false⟩, by decide⟩,
    ⟨13, ⟨.read 1, 0x100, false, .load 15 4 false 0, 0, false⟩, setCore 13 { Core.reset with hold := false } up, 15, by decide⟩,
    13, ⟨.read 1, 0x100, false, .status 0, 0, false⟩, setCore 13 { Core.reset with hold := false } up, 0, by decide⟩

theorem witness_CoreControl :
    (∃ (ini island : Island), canReach up ini island = true ∧ canAct up island = true ∧ hasCore island = false) ∧
    (∃ (ini island : Island), canReach up ini island = true ∧ canAct up island = true ∧ hasCore island = true ∧ ini ≠ 2) ∧
    (∃ (ini island : Island), canReach up ini island = true ∧ canAct up island = true ∧ hasCore island = true ∧ ini = 2 ∧
      island ≠ 2 ∧ island ≠ 1) :=
  ⟨⟨2, 5, by decide⟩, ⟨13, 13, by decide⟩, 2, 13, by decide⟩

theorem witness_AluResults : (∃ (c : Island) (s : State), Ready s c) ∧ ∃ (c : Island) (s : State) (rb : RegF), Ready s c ∧ rb = 0 :=
  ⟨⟨13, at_ 13 Core.reset up, by unfold Ready; decide⟩, 2, at_ 2 Core.reset up, 0, by unfold Ready; decide⟩

theorem witness_DivisionNeverTraps :
    (∃ (c : Island) (ra rb : RegF) (s : State), Ready s c ∧ c = 1 ∧ (getCore s c).gpr rb = 0) ∧
    (∃ (c : Island) (ra rb : RegF) (s : State), Ready s c ∧ c = 2 ∧ (getCore s c).gpr ra = 0x80000000 ∧
      (getCore s c).gpr rb = 0xFFFFFFFF) ∧
    (∃ (c : Island) (ra rb : RegF) (s : State), Ready s c ∧ c = 1 ∧ (getCore s c).gpr rb ≠ 0 ∧
      ¬((getCore s c).gpr ra = 0x80000000 ∧ (getCore s c).gpr rb = 0xFFFFFFFF)) ∧
    (∃ (c : Island) (s : State), Ready s c ∧ c ≠ 1 ∧ c ≠ 2 ∧ (getCore s c).it = false) :=
  ⟨⟨1, 1, 0, at_ 1 Core.reset up, by unfold Ready; decide⟩,
    ⟨2, 1, 2, at_ 2 ((Core.reset.setGpr 1 0x80000000).setGpr 2 0xFFFFFFFF) up, by unfold Ready; decide⟩,
    ⟨1, 2, 2, at_ 1 (Core.reset.setGpr 2 0xFFFFFFFF) up, by unfold Ready; decide⟩,
    3, at_ 3 Core.reset up, by unfold Ready; decide⟩

theorem witness_ImmediateResults :
    (∃ (c : Island) (z : RegF) (imm : BitVec 14) (s : State), Ready s c ∧ z = 0 ∧ imm.toNat < 32 ∧ imm = 31) ∧
    (∃ (c : Island) (z : RegF) (s : State), Ready s c ∧ (getCore s c).it = false ∧ z ≠ 0) ∧
    (∃ (c : Island) (imm : BitVec 14) (s : State), Ready s c ∧ (getCore s c).it = false ∧ 32 ≤ imm.toNat) :=
  ⟨⟨6, 0, 31, at_ 6 Core.reset up, by unfold Ready; decide⟩, ⟨6, 15, at_ 6 Core.reset up, by unfold Ready; decide⟩,
    6, 32, at_ 6 Core.reset up, by unfold Ready; decide⟩

theorem witness_BranchesAndJumps :
    (∃ (c : Island) (ra : RegF) (off : BitVec 14) (s : State), Ready s c ∧ ((getCore s c).gpr ra + off.signExtend 32).toNat % 4 = 0) ∧
    (∃ (c : Island) (ra : RegF) (off : BitVec 14) (s : State), Ready s c ∧
      ((getCore s c).gpr ra + off.signExtend 32).toNat % 4 ≠ 0 ∧ (getCore s c).it = false) ∧
    (∃ (c : Island) (s : State), Ready s c ∧ (getCore s c).it = true) :=
  ⟨⟨1, 0, 0x3FFC, at_ 1 Core.reset up, by unfold Ready; decide⟩, ⟨1, 0, 0x3FFF, at_ 1 Core.reset up, by unfold Ready; decide⟩,
    1, at_ 1 { Core.reset with it := true } up, by unfold Ready; decide⟩

theorem witness_SystemInstructions :
    (∃ (c : Island) (rb : RegF) (s : State), Ready s c ∧ 12 ≤ rb.toNat ∧ rb = 15) ∧
    (∃ (c : Island) (rb : RegF) (s : State), Ready s c ∧ specialRO rb.toNat = true ∧ (getCore s c).it = false) ∧
    (∃ (c : Island) (s : State), Ready s c ∧ pendingMasked s c ≠ 0) ∧
    (∃ (c : Island) (s : State), Ready s c ∧ pendingMasked s c = 0 ∧ outstanding s c = 0) ∧
    (∃ (c : Island) (s : State), Ready s c ∧ outstanding s c ≠ 0) :=
  ⟨⟨1, 15, at_ 1 Core.reset up, by unfold Ready; decide⟩, ⟨1, 2, at_ 1 Core.reset up, by unfold Ready; decide⟩,
    ⟨1, at_ 1 { Core.reset with maskLines := 2, alarmPend := true } up, by unfold Ready; decide⟩,
    ⟨1, at_ 1 Core.reset up, by unfold Ready; decide⟩,
    1, at_ 1 Core.reset { up with via := { up.via with txns := vset up.via.txns 1 [⟨.read 1, 0, false, .posted, 0, false⟩] } },
      by unfold Ready; decide⟩

theorem witness_InterruptsAndWake :
    (∃ (c : Island) (s : State), canAct s c = true ∧ (getCore s c).hold = false ∧ (getCore s c).wait = .wfi ∧ pendingMasked s c ≠ 0) ∧
    (∃ (c : Island) (s : State), canAct s c = true ∧ (getCore s c).hold = false ∧ hasCore c = true ∧ (getCore s c).halted = false ∧
      (getCore s c).wait = .wfi ∧ interruptDue s c = true ∧ impreciseDue s c = false) ∧
    (∃ (c : Island) (s : State) (a : Word), canAct s c = true ∧ (getCore s c).hold = false ∧ (getCore s c).imprecise = some a ∧
      atBoundary s c = true ∧ (getCore s c).it = false) :=
  ⟨⟨1, at_ 1 { Core.reset with maskLines := 2, alarmPend := true, wait := .wfi } up, by decide⟩,
    ⟨1, at_ 1 { Core.reset with maskLines := 2, alarmPend := true, wait := .wfi, ie := true } up, by decide⟩,
    1, at_ 1 { Core.reset with imprecise := some 0x40000010 } up, 0x40000010, by decide⟩

theorem witness_Loads :
    (∃ (c : Island) (s : State) (a key : Nat), Ready s c ∧ isLocal c a = true ∧ localBusErr s c a = false ∧ a % 4 = 0 ∧
      ownSram s c (a / 4 * 4) = some key ∧ canAct s c = true ∧ (getCore s c).gpr 1 + sext14 0 = BitVec.ofNat 32 a) ∧
    (∃ (c : Island) (s : State), Ready s c ∧ isLocal c ((getCore s c).gpr 0).toNat = false ∧ outstanding s c < 4 ∧ isQuad 12 = true) ∧
    (∃ (c : Island) (s : State), Ready s c ∧ ((getCore s c).gpr 1 + sext14 0).toNat % 2 ≠ 0 ∧
      (getCore s c).it = false) :=
  ⟨⟨1, at_ 1 (Core.reset.setGpr 1 0x200FFFFC) up, 0x200FFFFC, 0x200FFFFC, by unfold Ready; decide⟩,
    ⟨1, at_ 1 Core.reset up, by unfold Ready; decide⟩, 1, at_ 1 (Core.reset.setGpr 1 1) up, by unfold Ready; decide⟩

theorem witness_Stores :
    (∃ (c : Island) (s : State) (a key : Nat), Ready s c ∧ isLocal c a = true ∧ localBusErr s c a = false ∧ a % 4 = 0 ∧
      ownSram s c (a / 4 * 4) = some key ∧ canAct s c = true ∧
      codeLocked s c (if c = 2 then key - keysSram else keyOffset c key) = false ∧ MemoryCanonical s ∧
      (getCore s c).gpr 1 + sext14 0 = BitVec.ofNat 32 a) ∧
    (∃ (c : Island) (s : State), Ready s c ∧ isLocal c ((getCore s c).gpr 0).toNat = false ∧ outstanding s c < 4 ∧ isQuad 4 = true) ∧
    (∃ (c : Island) (s : State), Ready s c ∧ ((getCore s c).gpr 1 + sext14 0).toNat % 2 ≠ 0 ∧ (getCore s c).it = false) :=
  ⟨⟨2, at_ 2 (Core.reset.setGpr 1 0x42800000) up, 0x42800000, 0x42800000, by unfold Ready MemoryCanonical; decide⟩,
    ⟨1, at_ 1 Core.reset up, by unfold Ready; decide⟩, 1, at_ 1 (Core.reset.setGpr 1 1) up, by unfold Ready; decide⟩

theorem witness_MessagesOfACore :
    (∃ (c : Island) (rq t : RegF) (s : State), Ready s c ∧ isQuad rq = true ∧ t.toNat = c.val ∧ ((getCore s c).gpr t).toNat % 16 = c.val ∧
      (inboxOf s c).length < 16) ∧
    (∃ (c : Island) (rq t : RegF) (s : State), Ready s c ∧ isQuad rq = true ∧ t.toNat = c.val ∧ 16 ≤ (inboxOf s c).length ∧
      (getCore s c).it = false ∧ ∃ e rest, inboxOf s c = e :: rest) ∧
    (∃ (c : Island) (rq t : RegF) (s : State), Ready s c ∧ isQuad rq = true ∧ t.toNat ≠ c.val ∧ ((getCore s c).gpr t).toNat % 16 ≠ c.val ∧
      outstanding s c < 4 ∧ inboxOf s c = []) :=
  ⟨⟨1, 4, 1, at_ 1 (Core.reset.setGpr 1 1) up, by unfold Ready; decide⟩,
    ⟨1, 4, 1, withFull 1 (at_ 1 Core.reset up), by unfold Ready; decide, by decide, by decide, by decide, by decide, _, _, rfl⟩,
    1, 4, 2, at_ 1 Core.reset up, by unfold Ready; decide⟩

theorem witness_TimedInstructions :
    (∃ (c : Island) (tr rc : RegF) (s : State), Ready s c ∧ isPair tr = true ∧ localTime s c < (getCore s c).pairTime tr ∧
      ((getCore s c).gpr 0 + ((0 : BitVec 10).signExtend 32 <<< 2)).toNat % 4 = 0 ∧ isQuad rc = true) ∧
    (∃ (c : Island) (tr ra : RegF) (s : State), Ready s c ∧ isPair tr = true ∧ (getCore s c).pairTime tr ≤ localTime s c ∧
      ((getCore s c).gpr ra + ((0 : BitVec 10).signExtend 32 <<< 2)).toNat % 4 ≠ 0 ∧ (getCore s c).it = false) ∧
    (∃ (c : Island) (t : Nat) (s : State), canAct s c = true ∧ t ≤ localTime s c ∧ (getCore s c).halted = false ∧
      (getCore s c).hold = false ∧ (getCore s c).wait = .timed t .twait ∧ (getCore s c).alarm = some t) ∧
    (∃ (c : Island) (t : Nat) (a w : Word) (s : State), canAct s c = true ∧ t ≤ localTime s c ∧ (getCore s c).halted = false ∧
      (getCore s c).hold = false ∧ (getCore s c).wait = .timed t (.temit a w) ∧ isLocal c a.toNat = false ∧ outstanding s c < 4) :=
  ⟨⟨1, 2, 4, at_ 1 (Core.reset.setGpr 2 5) up, by unfold Ready; decide⟩,
    ⟨1, 2, 1, at_ 1 (Core.reset.setGpr 1 2) up, by unfold Ready; decide⟩,
    ⟨1, 0, at_ 1 { Core.reset with wait := .timed 0 .twait, alarm := some 0 } up, by decide⟩,
    1, 0, 0, 7, at_ 1 { Core.reset with wait := .timed 0 (.temit 0 7) } up, by decide⟩

theorem witness_SpanRequests :
    (∃ (src : SenseSource) (n : Nat) (bay : Bay) (s : State), canAct s 1 = true ∧ spanEnabled s = true ∧
      (src, n) ∈ [(SenseSource.detuning, 0), (.locatedFob, 1), (.tagRead, 2)] ∧ (getSpan s bay).live = false ∧
      vget 0 s.span.retry bay ≤ s.time.us ∧ s.span.queue.length < 256 ∧
      s.span.queue.find? (fun e => e.bay == bay.val && e.source == n) = none) ∧
    (∃ (src : SenseSource) (n : Nat) (bay : Bay) (s : State), canAct s 1 = true ∧ spanEnabled s = true ∧
      (src, n) ∈ [(SenseSource.detuning, 0), (.locatedFob, 1), (.tagRead, 2)] ∧ (getSpan s bay).live = true) ∧
    (∃ (src : SenseSource) (n : Nat) (bay : Bay) (s : State), canAct s 1 = true ∧ spanEnabled s = true ∧
      (src, n) ∈ [(SenseSource.detuning, 0), (.locatedFob, 1), (.tagRead, 2)] ∧ (getSpan s bay).live = false ∧
      vget 0 s.span.retry bay ≤ s.time.us ∧ s.span.queue.length = 256 ∧
      s.span.queue.find? (fun e => e.bay == bay.val && e.source == n) = none) ∧
    (∃ (bay : Bay) (source : Fin 4) (e : QEntry) (s : State), canAct s 1 = true ∧ e.stamp + 1000000 ≤ s.time.us ∧
      s.span.queue.find? (fun e => e.bay == bay.val && e.source == source.val) = some e) ∧
    (∃ (ini : Island) (s : State), Accepts s ini 1 .spanCtrl) ∧
    (∃ (e : QEntry) (s : State), canAct s 1 = true ∧ accepting s = true ∧ e.bay < 64 ∧
      s.span.queue.find? (fun e => (getSpan s e.bay).state == 0) = some e ∧ s.span.lastId < 0xFFFFFFFE ∧
      s.span.lastId + 1 < s.store.ledger.spanHwm) :=
  ⟨⟨.detuning, 0, 5, spanUp, by decide⟩,
    ⟨.tagRead, 2, 5, modBay 5 (fun p => { p with state := 3 }) spanUp, by decide⟩,
    ⟨.locatedFob, 1, 5, modSpan (fun x => { x with queue := List.replicate 256 ⟨3, 9, 0, [], none⟩ }) spanUp,
      by decide +kernel, by decide +kernel, by decide +kernel, by decide +kernel, by decide +kernel, by decide +kernel, by decide +kernel⟩,
    ⟨5, 0, ⟨0, 5, 0, [], none⟩, { modSpan (fun x => { x with queue := [⟨0, 5, 0, [], none⟩] }) spanUp with
      time := { spanUp.time with us := 1000000 } }, by decide⟩,
    ⟨1, spanUp, by unfold Accepts; decide⟩,
    ⟨0, 5, 0, [], none⟩, { modSpan (fun x => { x with queue := [⟨0, 5, 0, [], none⟩] }) spanUp with
      store := { spanUp.store with taken := true, ready := true, ledger := { Ledger.blank with spanHwm := 100 } } }, by decide⟩

theorem witness_SpanDeadlines :
    (∃ (bay : Bay) (s : State) (d : Nat), canAct s 1 = true ∧ (getSpan s bay).authLeft = some d ∧ d ≤ s.time.us ∧
      2 ≤ (getSpan s bay).state ∧ (getSpan s bay).state ≤ 4) ∧
    (∃ (bay : Bay) (s : State) (d : Nat), canAct s 1 = true ∧ (getSpan s bay).relLeft = some d ∧ d ≤ s.time.us ∧
      (getSpan s bay).state = 5) ∧
    (∃ (bay : Bay) (s : State) (d : Nat), canAct s 1 = true ∧ (getSpan s bay).state = 7 ∧ (getSpan s bay).maxDur ≠ 0 ∧
      (getSpan s bay).relAt + 60000000 * (getSpan s bay).maxDur ≤ s.time.us ∧ (getSpan s bay).nextInterim = some d ∧
      d ≤ s.time.us) ∧
    (∃ (bay : Bay) (s : State) (k : Token), canAct s 1 = true ∧ getToken s bay = some k ∧ k.notAfter ≤ s.time.us) :=
  ⟨⟨5, spanAt { Span.reset with state := 4, authLeft := some 9 } 9, 9, by decide⟩,
    ⟨5, spanAt { Span.reset with state := 5, relLeft := some 9 } 9, 9, by decide⟩,
    ⟨5, spanAt { Span.reset with state := 7, maxDur := 1, nextInterim := some 9 } 60000000, 9, by decide⟩,
    5, modSpan (fun x => { x with tokens := vset x.tokens 5 (some ⟨1, 9⟩) }) (spanAt Span.reset 9), ⟨1, 9⟩, by decide⟩

theorem witness_TollGate :
    (∃ (ini : Island) (s : State), Accepts s ini 1 .tollReqR ∧ s.toll.parking = none ∧ inFlight s < 4 ∧ freeHandle s ≠ none) ∧
    (∃ (ini : Island) (s : State), Accepts s ini 1 .tollReqR ∧ s.toll.parking = none ∧ 4 ≤ inFlight s) ∧
    (∃ (w : Nat) (rest : List Nat) (s : State), canAct s 1 = true ∧ s.toll.reqs = w :: rest ∧
      bitOf (regValue s 1 .tollCtrl 0) 0 = false) ∧
    (∃ (ini : Island) (s : State), Accepts s ini 1 .tollCancelR) ∧
    (∃ s : State, canAct s 1 = true ∧ s.toll.frame < s.time.us / 1000) ∧
    (∃ (h : Byte) (deadline : Nat) (s : State), canAct s 1 = true ∧ h.toNat ∈ s.toll.handles ∧ deadline ≤ s.time.us) ∧
    (∃ (hook : Fin 8) (s : State), deckRuns s = true ∧ hook.val < 5) :=
  ⟨⟨1, gateUp, by unfold Accepts; decide⟩,
    ⟨1, { gateUp with toll := { gateUp.toll with reqs := [1, 1, 1, 1] } }, by unfold Accepts; decide⟩,
    ⟨_, _, gateUp, rfl, rfl, by decide⟩, ⟨1, gateUp, by unfold Accepts; decide⟩, ⟨gateUp, by decide⟩,
    ⟨3, 5000, gateUp, by decide⟩, 4, setCore 1 { Core.reset with hold := false, halted := false } up, by decide⟩

theorem witness_DispenserBus :
    (∃ (bay : Bay) (s : State), dispOn s = true ∧ (getSpan s bay).state = 5 ∧ s.par.dFault = 0 ∧ (getSpan s bay).built = true ∧
      (getSpan s bay).sending = false ∧ getToken s bay = none ∧ oldTokenHolds s bay s.time.us = false) ∧
    (∃ (bay : Bay) (s : State) (r : StopReq), dispOn s = true ∧ s.link.dPoll = none ∧ vget none s.span.stops bay = some r ∧
      pollDue s bay = true ∧ s.time.us / 1000 % 100 = 0 ∧ s.link.lastBeacon = none) ∧
    (∃ (bay : Bay) (s : State) (report : Fin 3) (n : Nat), dispOn s = true ∧ s.link.dPoll = some bay.val ∧ n < 2 ^ 64 ∧
      deckTakes s = true ∧ vget none s.span.reports bay ≠ some (report.val, n) ∧ (getSpan s bay).counter = n ∧
      (getSpan s bay).state = 7) ∧
    (∃ (bay : Bay) (s : State), dispOn s = true ∧ s.link.dPoll = some bay.val ∧ deckTakes s = false ∧ s.link.held.length < 16) ∧
    (∃ (bay : Bay) (s : State), canAct s 1 = true ∧ (getSpan s bay).state = 5 ∧ s.par.dFault ≠ 0) ∧
    (∃ (bay : Bay) (s : State), canAct s 5 = true ∧ canAct s 1 = true ∧ (getSpan s bay).state = 5 ∧ (getSpan s bay).sending = true) :=
  ⟨⟨5, busAt { Span.reset with state := 5, built := true } 9, by decide⟩,
    ⟨5, modSpan (fun x => { x with stops := vset x.stops 5 (some ⟨1, 10⟩) }) (busAt { Span.reset with state := 8 } 1000000), ⟨1, 10⟩,
      by decide⟩,
    ⟨5, modLink (fun l => { l with dPoll := some 5 }) (busAt { Span.reset with state := 7, counter := 4 } 9), 1, 4, by decide⟩,
    ⟨5, modSpan (fun x => { x with rebuilt := false }) (modLink (fun l => { l with dPoll := some 5 }) (busAt Span.reset 9)), by decide⟩,
    ⟨5, modPar (fun q => { q with dFault := 1 }) (busAt { Span.reset with state := 5 } 9), by decide⟩,
    5, busAt { Span.reset with state := 5, sending := true } 9, by decide⟩

theorem witness_MeterBus :
    (∃ (bay : Bay) (s : State), meterOn s = true ∧ s.link.mRead = none ∧ s.par.mFault = 0 ∧
      ∃ c ∈ (getSpan s bay).caps, c.stamp.isSome ∧ c.reading = false) ∧
    (∃ (bay : Bay) (s : State), meterOn s = true ∧ s.link.mRead = some bay.val ∧ deckTakes s = true ∧
      ∃ c ∈ (getSpan s bay).caps, c.reading = true) ∧
    (∃ (bay : Bay) (s : State), meterOn s = true ∧ s.link.mRead = some bay.val ∧ deckTakes s = false ∧ s.link.held.length < 16) :=
  ⟨⟨5, busAt { Span.reset with state := 6, caps := [⟨0, 1, some 2, false⟩] } 9, by decide⟩,
    ⟨5, modLink (fun l => { l with mRead := some 5 }) (busAt { Span.reset with state := 6, caps := [⟨0, 1, some 2, true⟩] } 9), by decide⟩,
    5, modSpan (fun x => { x with rebuilt := false }) (modLink (fun l => { l with mRead := some 5 }) (busAt Span.reset 9)), by decide⟩

theorem witness_PierCommands :
    (∃ (ini : Island) (pier : PierId) (s : State), Accepts s ini (6 + pier) .lfCmd ∧ (getPier s pier).burst ≠ none) ∧
    (∃ (ini : Island) (pier : PierId) (s : State), Accepts s ini (6 + pier) .lfCmd ∧ (getPier s pier).burst = none ∧
      lfEnabled s pier = true ∧ s.par.thermalStop = false ∧ s.par.clockStop = false ∧ aerialFault s (8 * pier) = false ∧
      s.par.uvVinlf = false ∧ ¬ chordT0 s pier < s.time.us + 300) ∧
    (∃ (ini : Island) (pier : PierId) (b : Burst) (s : State), Accepts s ini (6 + pier) .lfCmd ∧ (getPier s pier).burst = some b ∧
      b.armed = none) ∧
    (∃ (ini : Island) (pier : PierId) (b : Burst) (d : Nat) (s : State), Accepts s ini (6 + pier) .lfCmd ∧
      (getPier s pier).burst = some b ∧ b.armed = some d ∧ d ≤ s.time.us ∧ canAct s (6 + pier) = true) ∧
    (∃ (ini : Island) (pier : PierId) (s : State), Accepts s ini (6 + pier) .lfCtrl ∧ Accepts s ini (6 + pier) .lfTxd ∧
      Accepts s ini (6 + pier) .lfAerClrR ∧ (getPier s pier).burst = none ∧ (getPier s pier).tx.length < 32) ∧
    (∃ (ini : Island) (pier : PierId) (s : State), Accepts s ini (6 + pier) .lfTxd ∧ (getPier s pier).burst = none ∧
      32 ≤ (getPier s pier).tx.length) :=
  ⟨⟨6, 0, modPier 0 (fun q => { q with burst := some (Burst.fresh 1 1 0 none) }) up, by unfold Accepts; decide⟩,
    ⟨6, 0, putReg (putReg up 6 .lfCtrl 0 1) 6 .chordT0Lo 0 300, by unfold Accepts; decide⟩,
    ⟨6, 0, _, modPier 0 (fun q => { q with burst := some (Burst.fresh 1 1 0 none) }) up, by unfold Accepts; decide, rfl, rfl⟩,
    ⟨6, 0, _, 0, modPier 0 (fun q => { q with burst := some (Burst.fresh 1 3 0 (some 0)) }) up, by unfold Accepts; decide, rfl, rfl,
      by decide, by decide⟩,
    ⟨6, 0, up, by unfold Accepts; decide⟩,
    6, 0, modPier 0 (fun q => { q with tx := List.replicate 32 0 }) up, by unfold Accepts; decide⟩

/-- Pier 0 runs a burst of a mode. -/
def burstUp (mode : Nat) : State := modPier 0 (fun q => { q with burst := some { Burst.fresh 1 mode 0 none with stopped := true } }) up

theorem witness_BurstsAndPings :
    (∀ m ∈ [0, 1, 2, 3], ∃ (pier : PierId) (b : Burst) (s : State), canAct s (6 + pier) = true ∧ (getPier s pier).burst = some b ∧
      b.armed = none ∧ b.mode = m ∧ b.stopped = true ∧ b.aerial = 1 ∧ engineOwns s = false) ∧
    (∃ (pier : PierId) (s : State), canAct s (6 + pier) = false) ∧
    (∃ (pier : PierId) (s : State), canAct s (6 + pier) = true ∧ lfEnabled s pier = true ∧
      bitOf (regValue s (6 + pier) .lfPing 0) 0 = true ∧ s.par.thermalStop = false ∧ s.par.clockStop = false ∧
      s.par.uvVinlf = false ∧ zone s = 0) ∧
    (∃ s : State, engineOwns s = true ∧ s.par.uvVinlf = false) ∧
    (∃ (pier : PierId) (s : State) (rest : List Nat) (n : Nat), engineOwns s = false ∧ canAct s (6 + pier) = true ∧
      (getPier s pier).burst = none ∧
      PingGroup.pass (fun k => pingSkips s false (8 * pier + k)) (getPier s pier).ping.slots (getPier s pier).ping.left = (0 :: rest, n) ∧
      bitOf (regValue s 0 .pingRbase (8 * pier)) 31 = false) :=
  ⟨fun m hm => ⟨0, { Burst.fresh 1 m 0 none with stopped := true }, burstUp m, by
      simp only [List.mem_cons, List.not_mem_nil, or_false] at hm
      rcases hm with rfl | rfl | rfl | rfl <;> decide⟩,
    ⟨0, State.reset, by decide⟩, ⟨0, putReg (putReg up 6 .lfCtrl 0 1) 6 .lfPing 0 1, by decide⟩,
    ⟨putReg { up with park := { up.park with phase := .parked } } 0 .pingCtrl 0 1, by decide⟩,
    0, putReg (modPier 0 (fun q => { q with ping := { q.ping with slots := [0, 1], left := 8 } }) up) 6 .lfPing 0 0xFF000000, [1], 8, by decide⟩

/-- Pier 0 runs a tag burst for a job. -/
def tagUp (j : TagJob) : State := modPier 0 (fun q => { q with burst := some (Burst.fresh 1 0 0 none), job := some j }) up

theorem witness_TagExchanges :
    (∀ ph ∈ [TagPhase.ktReq, .inventory .req, .open_ false, .waitMac 5], ∃ (pier : PierId) (j : TagJob) (s : State) (b : Burst),
      (getPier s pier).job = some j ∧ tagBurst s pier = true ∧ j.phase = ph ∧ j.pre = [] ∧ j.stack = [] ∧
      canAct s (6 + pier) = true ∧ (getPier s pier).burst = some b ∧ b.armed = none) ∧
    (∃ bits : List UpBit, ((bits.drop 4).take 64).any upBad = true) ∧
    (∃ bits : List UpBit, ((bits.drop 4).take 64).any upBad = false ∧ (replyFramed bits 64 && replyCrcOk bits 64 []) = false) ∧
    (∃ bits : List UpBit, ((bits.drop 4).take 64).any upBad = false ∧ replyFramed bits 64 = true ∧ replyCrcOk bits 64 [] = true) ∧
    (∃ bits : List UpBit, ((bits.drop 4).take 96).any upBad = false ∧ replyFramed bits 96 = true ∧ replyCrcOk bits 96 [] = true) :=
  ⟨fun ph hm => ⟨0, TagJob.fresh 1 0 ph, tagUp (TagJob.fresh 1 0 ph), Burst.fresh 1 0 0 none, by
      simp only [List.mem_cons, List.not_mem_nil, or_false] at hm
      rcases hm with rfl | rfl | rfl | rfl <;> decide⟩,
    ⟨[.one, .one, .one, .zero, .violated], by decide⟩, ⟨[], by decide⟩,
    ⟨[.one, .one, .one, .zero] ++ List.replicate 64 .zero ++ (natBits 16 (crc16Bits (List.replicate 64 false))).map (fun b => if b then .one else .zero),
      by decide +kernel⟩,
    [.one, .one, .one, .zero] ++ List.replicate 96 .zero ++ (natBits 16 (crc16Bits (List.replicate 96 false))).map (fun b => if b then .one else .zero),
      by decide +kernel⟩

/-- The radio is enabled, on channel 10, in a mode and phase. -/
def radioUp (m : RfMode) (ph : RfPhase) : State :=
  modRf (fun r => { r with mode := m, phase := ph, locked := true, ch := 10 }) (putReg up 3 .rfCtrl 0 1)

theorem witness_RadioCommands :
    (∃ (ini : Island) (s : State), Accepts s ini 3 .rfCmd ∧ rfEnabled s = false) ∧
    (∀ x ∈ [(RfMode.synth, RfPhase.idle), (.standby, .moving .standby), (.synth, .calibrating 10), (.tx, .active)], ∃ (ini : Island) (s : State),
      Accepts s ini 3 .rfCmd ∧ rfEnabled s = true ∧ s.rf.mode = x.1 ∧ s.rf.phase = x.2 ∧ s.rf.locked = true ∧ s.rf.ch = 10 ∧
      rfMoving s = (x.2 != .idle && x.2 != .active) ∧ onAir s = (x.1 == .tx) ∧ s.psr.busy = false ∧
      (vget ⟨3, 0⟩ s.rf.ants 1).state = 3) ∧
    (∃ s : State, (Memory.read (memWriteBytes rfSram [5] s).mem (rfSram + bitsOf (regValue s 3 .txPtr 0) 2 13 * 4)).toNat = 5) ∧
    (∃ (ini : Island) (s : State), Accepts s ini 3 .rfCtrl ∧ Accepts s ini 3 .antClrR) :=
  ⟨⟨3, up, by unfold Accepts; decide⟩,
    fun x hx => ⟨3, radioUp x.1 x.2, by
      simp only [List.mem_cons, List.not_mem_nil, or_false] at hx
      rcases hx with rfl | rfl | rfl | rfl <;> (unfold Accepts; decide)⟩,
    ⟨up, by decide⟩,
    3, up, by unfold Accepts; decide⟩

theorem witness_RadioEvents :
    (∀ x ∈ [(RfMode.standby, RfPhase.moving .standby), (.tx, .moving .tx), (.synth, .calibrating 10), (.tx, .active), (.rx, .active)], ∀ op ∈ [0, 2, 3, 4, 6, 7],
      ∃ s : State, canAct s 3 = true ∧ s.rf.held = none ∧ s.rf.mode = x.1 ∧ s.rf.phase = x.2 ∧ s.rf.cur = some ⟨op, 10, 1, 0, false⟩ ∧
      onAir s = (x == (.tx, .active)) ∧ s.rf.listen = none ∧ s.rf.rfsel < 4) ∧
    (∃ s : State, canAct s 3 = true ∧ s.rf.held = none ∧ s.rf.phase = .moving .standby ∧ s.rf.cur = none) ∧
    (∃ len payload, len ≠ (0 : Byte) ∧ len.toNat ≤ 128 ∧ leAt (padTo len.toNat payload) 0 1 = 0x43) :=
  ⟨fun x hx op ho => ⟨modRf (fun r => { r with cur := some ⟨op, 10, 1, 0, false⟩ }) (radioUp x.1 x.2), by
      simp only [List.mem_cons, List.not_mem_nil, or_false] at hx ho
      rcases ho with rfl | rfl | rfl | rfl | rfl | rfl <;> rcases hx with rfl | rfl | rfl | rfl | rfl <;> decide⟩,
    ⟨radioUp .standby (.moving .standby), by decide⟩, 2, [0x43, 1], by decide⟩

theorem witness_CoexistenceWakeAndRanging :
    (∃ s : State, canAct s 3 = false) ∧
    (∃ s : State, canAct s 3 = true ∧ s.rf.held = none ∧ coexMode s = true ∧ s.rf.req = true ∧ s.rf.cur ≠ none ∧ s.rf.mode = .tx ∧
      inCoexWindow s = false) ∧
    (∀ w : Bool, ∃ s : State, canAct s 3 = true ∧ s.rf.held = none ∧ s.rf.phase = .waitGrant ∧ inCoexWindow s = w) ∧
    (∃ s : State, wurxListens s = false) ∧
    (∃ (s : State) (site : BitVec 24), wurxListens s = true ∧ site.toNat = regField s 0 .wurxSite 0 0 24 ∧ wakeCrc site.toNat 0x48 < 256) ∧
    (∃ (ini : Island) (word : Word) (s : State), Accepts s ini 3 .psrCtrl ∧ s.rf.held = none ∧ s.psr.busy = false ∧ bitOf word.toNat 1 = false) ∧
    (∃ (ini : Island) (s : State), Accepts s ini 3 .psrCtrl ∧ s.rf.held = none ∧ s.psr.busy = true ∧ canAct s 3 = true ∧ s.psr.leg = 8) :=
  ⟨⟨putReg State.reset 3 .rfCtrl 0 0, by decide⟩,
    ⟨modRf (fun r => { r with req := true, cur := some ⟨3, 10, 1, 0, false⟩ }) (latchReg (putReg (radioUp .tx .active) 3 .coexCfg 0 1) 3 .coexCfg 0), by decide⟩,
    fun w => ⟨[Reg.coexCfg, .coexPeriod, .coexWin].foldl (fun s x => latchReg s 3 x 0)
      (putReg (putReg (putReg (radioUp .synth .waitGrant) 3 .coexCfg 0 1) 3 .coexPeriod 0 1000) 3 .coexWin 0 (if w then 500 else 0)), by
        cases w <;> decide +kernel⟩,
    ⟨putReg up 0 .wurxCfg 0 0, by decide +kernel⟩,
    ⟨putReg up 0 .wurxCfg 0 1, 0, by decide +kernel⟩,
    ⟨3, 1, up, by unfold Accepts; decide +kernel⟩,
    3, { up with psr := { up.psr with busy := true, leg := 8 } }, by unfold Accepts; decide +kernel⟩

/-- The keystone holds the lock; keystone SRAM begins with a GCM_ENC descriptor of slot 88, which is loaded with `p`. -/
def cipherUp (x : Ctx) (p : Nat) : State :=
  modCtx 0 (fun _ => x) (modSlot 88 (fun k => { k with st := .loaded, policy := p })
    (modCipher (fun e => { e with lock := some .keys }) (memWriteBytes keysSram [1, 88, 0, 0, 0, 0, 0, 0xFF] up)))

theorem witness_CipherCommands :
    (∀ p ∈ [0x58101C, 0x58141C, 0x581C1C], ∃ (ini : Island) (s : State), Accepts s ini 2 .cipherCmd ∧ (getCtx s 0).st = .free ∧ activeCtx s = none ∧
      s.cipher.lock = some .keys ∧ (readDesc s 0).op = 1 ∧ (readDesc s 0).slot = 88 ∧ descOk s (readDesc s 0) = true ∧
      policyAllows s (readDesc s 0) = true ∧ (getSlot s 88).policy = p ∧ (bitOf p 11 = true → (getSlot s 88).ready = true)) ∧
    (∀ st ∈ [CtxSt.active, .suspended], ∃ (ini : Island) (s : State), Accepts s ini 2 .cipherCmd ∧ (getCtx s 0).st = st ∧
      (getCtx s 0).owner = .keys ∧ s.cipher.lock = some .keys ∧ (getCtx s 1).st = .free ∧ s.cipher.pendingStart = none) ∧
    (∃ (ini : Island) (s : State), Accepts s ini 2 .slotCtrl ∧ slotInUse s 88 = true) ∧
    (∃ (ini : Island) (s : State), Accepts s ini 2 .slotCtrl ∧ slotInUse s 88 = false) ∧
    (∀ b : Bool, ∃ (ini : Island) (s : State), Accepts s ini 2 .caissonCtrl ∧ (getCaisson s 1).busy = b ∧ (getCaisson s 1).zeroing = false) :=
  ⟨fun p hp => ⟨2, modSlot 88 (fun k => { k with ready := true }) (cipherUp Ctx.reset p), by
      simp only [List.mem_cons, List.not_mem_nil, or_false] at hp
      rcases hp with rfl | rfl | rfl <;> (unfold Accepts; decide +kernel)⟩,
    fun st hst => ⟨2, cipherUp { Ctx.reset with st := st } 0, by
      simp only [List.mem_cons, List.not_mem_nil, or_false] at hst
      rcases hst with rfl | rfl <;> (unfold Accepts; decide +kernel)⟩,
    ⟨2, cipherUp { Ctx.reset with st := .active, desc := { Ctx.reset.desc with op := 1, slot := 88 } } 0, by unfold Accepts; decide +kernel⟩,
    ⟨2, cipherUp Ctx.reset 0, by unfold Accepts; decide +kernel⟩,
    fun b => ⟨2, setCaisson 1 ⟨true, b, false, 0, none⟩ up, by cases b <;> (unfold Accepts; decide +kernel)⟩⟩

theorem witness_CipherLockAndProgress :
    (∀ o ∈ [none, some Owner.keys, some .store], ∃ (ini : Island) (s : State), Accepts s ini 2 .cipherLock ∧ s.cipher.lock = o ∧
      s.cipher.waitStore = false ∧ s.cipher.waitKeys = false ∧ (getCtx s 0).st = .free ∧ ini.val ≠ 4 ∧ canAct s 2 = true ∧ canAct s 4 = true ∧
      activeCtx s = none) ∧
    (∀ a b : Bool, ∃ s : State, canAct s 2 = true ∧ s.cipher.lock = none ∧ s.cipher.waitKeys = a ∧ s.cipher.waitStore = b ∧ (getCtx s 1).st = .free) ∧
    (∀ a ab : Bool, ∃ (s : State) (ini : Island), activeCtx s = some 0 ∧ canAct s 2 = true ∧ Accepts s ini 2 .cipherLock ∧ s.cipher.lock = some .keys ∧ s.cipher.expiring = a ∧
      (getCtx s 0).abort = ab ∧ (getCtx s 0).fail = 0 ∧ (getCtx s 0).waits = false ∧ (getCtx s 0).caisson = none ∧ (getCtx s 0).value = none ∧
      s.cipher.pendingStart = none ∧ (getCtx s 0).desc.op = 1 ∧ (getCtx s 0).owner = .keys) ∧
    (∃ (s : State) (d : Desc), activeCtx s = some 0 ∧ canAct s 2 = true ∧ s.cipher.pendingStart = some (1, d) ∧ s.cipher.expiring = false ∧
      (getCtx s 0).abort = false ∧ (getCtx s 0).fail = 0) ∧
    (∀ r ∈ [none, some (1, (0x07 : Status))], ∃ (s : State) (k : Fin 4), canAct s 1 = true ∧ (getCaisson s k).zeroing = true ∧ (getCaisson s k).report = r ∧
      s.cipher.expiring = false ∧ s.cipher.pendingStart = none) :=
  ⟨fun o ho => ⟨2, modCipher (fun e => { e with lock := o }) up, by
      simp only [List.mem_cons, List.not_mem_nil, or_false] at ho
      rcases ho with rfl | rfl | rfl <;> (unfold Accepts; decide)⟩,
    fun a b => ⟨modCipher (fun e => { e with waitKeys := a, waitStore := b }) up, by cases a <;> cases b <;> decide⟩,
    fun a ab => ⟨modCipher (fun e => { e with expiring := a })
      (cipherUp { Ctx.reset with st := .active, abort := ab, desc := { Ctx.reset.desc with op := 1, slot := 88 } } 0), 2, by
        cases a <;> cases ab <;> (unfold Accepts; decide +kernel)⟩,
    ⟨modCipher (fun e => { e with pendingStart := some (1, Ctx.reset.desc) }) (cipherUp { Ctx.reset with st := .active } 0), _, by decide +kernel,
      by decide +kernel, rfl, by decide +kernel⟩,
    fun r hr => ⟨setCaisson 1 ⟨true, true, true, 32, r⟩ up, 1, by
      simp only [List.mem_cons, List.not_mem_nil, or_false] at hr
      rcases hr with rfl | rfl <;> decide⟩⟩

/-- The RNG in a state and phase, with a DRBG and maybe a request on the signer's wire. -/
def rngUp (st : RngSt) (ph : RngPhase) (w : Option Nat) : State :=
  modRng (fun r => { r with running := true, st := st, phase := ph, drbg := some ⟨0, 0⟩, waits := vset r.waits 1 w }) up

theorem witness_RandomNumbers :
    (∃ (ini : Island) (s : State), Accepts s ini 2 .rngCtrl ∧ canReach s ini 2 = true ∧ canAct s 2 = true) ∧
    (∀ ph ∈ [RngPhase.warmup, .startup, .collect], ∃ s : State, canAct s 2 = true ∧ s.rng.running = true ∧ s.rng.st = .unseeded ∧ s.rng.phase = ph) ∧
    (∃ s : State, canAct s 2 = true ∧ s.rng.running = true ∧ s.rng.st = .ready ∧ s.rng.drbg ≠ none ∧ s.rng.reseed = true) ∧
    (∀ w ∈ [none, some 32], ∃ s : State, canAct s 2 = true ∧ s.rng.running = true ∧ s.rng.st = .ready ∧ s.rng.drbg ≠ none ∧ s.rng.reseed = false ∧
      vget none s.rng.waits 1 = w ∧ vget none s.rng.waits 0 = none ∧ vget none s.rng.waits 2 = none ∧ s.rng.served < rngInterval s ∧ s.rng.fifo.length ≤ 8) ∧
    (∃ s : State, canAct s 2 = true ∧ s.rng.running = true ∧ s.rng.st = .ready ∧ s.rng.drbg ≠ none ∧ s.rng.reseed = false ∧ rngInterval s ≤ s.rng.served) :=
  ⟨⟨2, up, by unfold Accepts; decide⟩,
    fun ph hp => ⟨rngUp .unseeded ph none, by
      simp only [List.mem_cons, List.not_mem_nil, or_false] at hp
      rcases hp with rfl | rfl | rfl <;> decide⟩,
    ⟨modRng (fun r => { r with reseed := true }) (rngUp .ready .collect none), by decide⟩,
    fun w hw => ⟨rngUp .ready .steady w, by
      simp only [List.mem_cons, List.not_mem_nil, or_false] at hw
      rcases hw with rfl | rfl <;> decide +kernel⟩,
    modRng (fun r => { r with served := 65536 }) (rngUp .ready .steady none), by decide +kernel⟩

/-- A claim is under way; the signer runs a command. -/
def signUp (op : Nat) (n : Option (List Byte)) : State :=
  { modSpan (fun p => { p with rebuilt := true }) (modSigner (fun g => { g with job := some ⟨op, 0, 0, n, 0, .command⟩ }) up) with
    boot := { up.boot with wait := .over, stage := .ready } }

theorem witness_SignerCommands :
    (∃ (ini : Island) (s : State), Accepts s ini 2 .signCmd ∧ s.signer.job = none ∧ getKey s 0 = none ∧ s.boot.claiming = none ∧
      s.rng.running = true ∧ s.rng.st = .ready ∧ vget none s.rng.waits 1 = none) ∧
    (∀ k : Option SignKey, ∃ (ini : Island) (s : State), Accepts s ini 2 .signCmd ∧ s.signer.job = none ∧ getKey s 0 = k ∧ getKey s 1 = k ∧ getKey s 2 = k ∧ s.boot.claiming ≠ none) ∧
    (∃ (ini : Island) (s : State), Accepts s ini 2 .signCmd ∧ s.signer.job ≠ none) ∧
    (∀ op ∈ [2, 4, 5], ∀ e : WireEnd, ∃ (s : State) (j : SignJob), canAct s 2 = true ∧ s.signer.job = some j ∧ signNeeds s j = true ∧ j.op = op ∧ j.nonce = none ∧
      vget none s.rng.ends (signWire j.op) = some e) ∧
    (∀ op ∈ [0, 1, 2, 3, 4, 5], ∃ (s : State) (j : SignJob), canAct s 2 = true ∧ Settled s ∧ s.signer.job = some j ∧ j.use = .command ∧ j.desc = 0 ∧
      j.op = op ∧ j.fail = 0 ∧ signNeeds s j = false ∧ s.span.jobs = []) :=
  ⟨⟨2, rngUp .ready .steady none, by unfold Accepts; decide⟩,
    fun k => ⟨2, { setKey 2 k (setKey 1 k (setKey 0 k up)) with boot := { up.boot with claiming := some (false, false, []) } }, ⟨rfl, rfl, rfl⟩, rfl, rfl, rfl, rfl, fun h => nomatch h⟩,
    ⟨2, signUp 0 none, by unfold Accepts; decide⟩,
    fun op ho e => ⟨modRng (fun r => { r with ends := vset r.ends (signWire op) (some e) }) (signUp op none), ⟨op, 0, 0, none, 0, .command⟩, by
      simp only [List.mem_cons, List.not_mem_nil, or_false] at ho
      rcases ho with rfl | rfl | rfl <;> exact ⟨rfl, rfl, rfl, rfl, rfl, rfl⟩⟩,
    fun op ho => ⟨signUp op (some (List.replicate 44 1)), ⟨op, 0, 0, some (List.replicate 44 1), 0, .command⟩, by
      simp only [List.mem_cons, List.not_mem_nil, or_false] at ho
      unfold Settled
      rcases ho with rfl | rfl | rfl | rfl | rfl | rfl <;> exact ⟨by decide, by decide, rfl, rfl, rfl, rfl, rfl, by decide, rfl⟩⟩⟩

/-- The boot is over and every island runs, at 5,000 µs. -/
def settledUp (f : StoreState → StoreState) : State :=
  modStore f (modSpan (fun p => { p with rebuilt := true }) { up with
    boot := { up.boot with wait := .over, stage := .ready }
    time := { up.time with us := 5000 } })

theorem witness_LedgerAndJournal :
    (∃ s : State, isRun s 4 = true ∧ s.freeze.frozen = false ∧ s.time.us % 1000 = 0 ∧ s.store.taken = true ∧ s.store.write = none ∧
      s.store.changes ≠ []) ∧
    (∃ s : State, isRun s 4 = true ∧ s.freeze.frozen = false ∧ Settled s ∧ s.store.write ≠ none ∧ MemoryCanonical s) ∧
    (∃ s : State, isRun s 4 = true ∧ s.freeze.frozen = false ∧ Settled s ∧ s.store.ready = false ∧ canAct s 1 = true) ∧
    (∃ s r, isRun s 4 = true ∧ s.freeze.frozen = false ∧ Settled s ∧ s.store.queue = [r] ∧ s.store.opened = true ∧ MemoryCanonical s) ∧
    (∃ s : State, isRun s 4 = true ∧ s.freeze.frozen = false ∧ s.store.ready = true ∧ s.store.flash = .ready ∧ s.store.flashOp = none ∧
      s.store.archiving = false ∧ s.store.ledger.arcSeq < s.store.head ∧ s.store.ledger.tailSeq ≤ s.store.ledger.arcSeq ∧ archiveWaits s = false) ∧
    (∃ (ini : Island) (s : State), Accepts s ini 4 .jrnAckHi) :=
  ⟨⟨settledUp (fun t => { t with taken := true, changes := [.ack 0] }), by decide⟩,
    ⟨settledUp (fun t => { t with write := some ⟨1, Ledger.blank, [], false⟩ }), by unfold Settled MemoryCanonical; decide⟩,
    ⟨settledUp id, by unfold Settled; decide⟩,
    ⟨settledUp (fun t => { t with queue := [⟨3, false, 0, 0, 0, [], .nothing⟩], opened := true }), _, by decide, by decide, by unfold Settled; decide, rfl, rfl,
      by unfold MemoryCanonical; decide⟩,
    ⟨settledUp (fun t => { t with ready := true, flash := .ready, fitted := 256, head := 40 }), by decide +kernel⟩,
    1, up, by unfold Accepts; decide⟩

theorem witness_LookupsFlashAndImages :
    (∃ (s : State) (bay : Bay) (l : Lookup), canAct s 1 = true ∧ (getSpan s bay).state = 4 ∧ isRun s 4 = true ∧ s.freeze.frozen = false ∧
      s.store.lookups.find? (fun l => l.ident == padTo 16 (getSpan s bay).ident) = some l) ∧
    (∃ (s : State) (bay : Bay), canAct s 1 = true ∧ (getSpan s bay).state = 4 ∧ isRun s 4 = false ∧ s.store.lookups = []) ∧
    (∀ op ∈ [FlashOp.chunk 0 [] 0, .archive 1 2, .eraseArea 0, .format], ∃ (s : State) (u : CredUpdate) (k : List Byte), isRun s 4 = true ∧ s.freeze.frozen = false ∧
      s.store.flashOp = some op ∧ s.store.erasing = true ∧ s.store.update = some u ∧ storeKey s = some k ∧ s.span.jobs = []) ∧
    (∃ (ini : Island) (s : State), Accepts s ini 4 .imgCtrl ∧ canAct s 4 = true ∧ s.store.imgBusy = true ∧ s.span.jobs = []) ∧
    (∃ (ini : Island) (s : State), Accepts s ini 4 .imgCtrl ∧ s.store.imgBusy = false ∧ s.store.imgOpen = false) :=
  ⟨⟨modBay 5 (fun p => { p with state := 4 }) (settledUp (fun t => { t with lookups := [⟨padTo 16 (getSpan up 5).ident, 0, 0, true⟩] })), 5, _, by decide, by decide, by decide,
      by decide, rfl⟩,
    ⟨modBay 5 (fun p => { p with state := 4 }) { up with power := { up.power with st := vset up.power.st 4 .off } }, 5, by decide⟩,
    fun op ho => ⟨modSlot 80 (fun k => { k with st := .loaded, policy := 0x502084 }) (settledUp (fun t => { t with
      flashOp := some op, erasing := true, update := some ⟨1, 0, 0, 0, false⟩ })), ⟨1, 0, 0, 0, false⟩, [], by
        simp only [List.mem_cons, List.not_mem_nil, or_false] at ho
        rcases ho with rfl | rfl | rfl | rfl <;> decide⟩,
    ⟨1, settledUp (fun t => { t with imgBusy := true }), by unfold Accepts; decide⟩,
    1, settledUp id, by unfold Accepts; decide⟩

theorem witness_MessagesToPiers :
    (∃ (s : State) (bay : Bay), canReach s 1 (6 + bay.val / 8) = true ∧ canAct s (6 + bay.val / 8) = true ∧ tagReadOk s bay true false = true ∧
      lfStartStatus (pierPrepare 0 0 s) 0 5 0 = 0x00 ∧ bay.val = 5 ∧ (getPier s 0).burst = none) ∧
    (∃ (s : State) (bay : Bay) (b : Burst), canReach s 1 (6 + bay.val / 8) = true ∧ canAct s (6 + bay.val / 8) = true ∧
      (getPier s (bay.val / 8)).burst = some b ∧ b.armed = none) ∧
    (∃ (s : State) (bay : Bay), tagReadOk s bay true false = false) ∧
    (∃ (s : State) (bay : Bay), canReach s 1 (6 + bay.val / 8) = true ∧ canAct s (6 + bay.val / 8) = false ∧ tagReadOk s bay true false = true) ∧
    (∀ on : Bool, ∃ (s : State) (pier : PierId) (tag b : Byte), plannedBay s tag.toNat pier = some b.toNat ∧ canReach s 1 (6 + pier) = true ∧
      canAct s (6 + pier) = on ∧ tag.toNat < 64 ∧ bitOf (getSpan s tag.toNat).present pier = true ∧ pier.val = tag.toNat / 8 ∧ b.toNat / 8 = pier.val) :=
  ⟨⟨up, 5, by decide⟩,
    ⟨modPier 0 (fun q => { q with burst := some (Burst.fresh 5 0 0 none) }) up, 5, _, by decide, by decide, rfl, rfl⟩,
    ⟨modBay 5 (fun p => { p with state := 2, source := 2 }) up, 5, by decide⟩,
    ⟨{ up with power := { up.power with st := vset up.power.st 6 .off } }, 5, by decide⟩,
    fun on => ⟨chordUp on, 0, 5, 5, by cases on <;> decide⟩⟩

/-- Pier 0's exchange for bay 5 is over; bay 5's span waits for it where `w`. -/
def tagDone (w : Bool) (j : TagJob) : State :=
  modPier 0 (fun q => { q with job := some { j with phase := .done } }) (if w then modBay 5 (fun p => { p with state := 2, source := 2 }) spanUp else spanUp)

theorem witness_MessagesToTheDeck :
    (∃ (s : State) (bay : Bay), canAct s 1 = true ∧ canReach s 0 1 = true ∧ canReach s (6 + bay.val / 8) 1 = true ∧ spanEnabled s = true ∧
      (getSpan s bay).live = false ∧ s.span.queue = [] ∧ vget 0 s.span.retry bay ≤ s.time.us ∧ s.span.sweep = none ∧ s.toll.parking = none ∧
      inFlight s < 4 ∧ freeHandle s ≠ none ∧ canReach s 3 1 = true) ∧
    (∃ s : State, canAct s 1 = true ∧ canReach s 3 1 = true ∧ s.span.sweep ≠ none) ∧
    (∃ s : State, canAct s 1 = true ∧ canReach s 3 1 = true ∧ s.span.sweep = none ∧ s.toll.parking = none ∧ 4 ≤ inFlight s) ∧
    (∀ (f : List Nat) (st : Status) (w : Bool), f ∈ [[], [7], [7, 9]] → ∃ (s : State) (bay : Bay) (tag : Byte) (j : TagJob), canAct s 1 = true ∧
      canReach s (6 + bay.val / 8) 1 = true ∧ (getPier s (bay.val / 8)).job = some j ∧ j.bay = bay.val ∧ j.tag = tag.toNat ∧ j.phase = .done ∧
      j.more = f.drop 1 ∧ j.found = f ∧ j.status = st ∧ j.write = false ∧ awaitsTag s bay = w) ∧
    (∃ (s : State) (bay : Bay) (tag : Byte) (j : TagJob), canAct s 1 = true ∧ canReach s (6 + bay.val / 8) 1 = true ∧
      (getPier s (bay.val / 8)).job = some j ∧ j.bay = bay.val ∧ j.tag = tag.toNat ∧ j.phase = .done ∧ j.write = true ∧ j.outcome < 4) ∧
    (∃ (s : State) (bay : Bay) (tag : Byte), canAct s 1 = true ∧ canReach s (6 + bay.val / 8) 1 = true ∧ (getPier s (bay.val / 8)).job = none ∧
      (getPier s (bay.val / 8)).burst = none ∧ tag.toNat < 64 ∧ awaitsChord s tag.toNat = true ∧ bitOf (getSpan s tag.toNat).present (bay.val / 8) = true) :=
  ⟨⟨spanUp, 5, by decide⟩,
    ⟨modSpan (fun p => { p with sweep := some ⟨[], [], 0⟩ }) up, by decide⟩,
    ⟨{ up with toll := { up.toll with reqs := [1, 2, 3, 4] } }, by decide⟩,
    fun f st w _ => ⟨tagDone w { TagJob.fresh 5 5 .done with found := f, status := st, more := f.drop 1 }, 5, 5, _, by cases w <;> rfl, by cases w <;> rfl,
      by cases w <;> rfl, rfl, rfl, rfl, rfl, rfl, rfl, rfl, by cases w <;> rfl⟩,
    ⟨tagDone false { TagJob.fresh 5 5 .done with write := true }, 5, 5, _, rfl, rfl, rfl, rfl, rfl, rfl, rfl, by decide⟩,
    chordUp true, 5, 5, by decide⟩

/-- Bay 5's span in a state, with a keystone job. -/
def authUp (st : Nat) (a : AuthJob) : State :=
  setAuth 5 (some a) (modBay 5 (fun p => { p with state := st, authDurable := true, id := 9 }) spanUp)

theorem witness_KeystoneMessages :
    (∃ s : State, canReach s 1 2 = true ∧ canAct s 2 = true ∧ s.store.sigOwed ≠ none ∧ s.signer.job = none ∧ canReach s 2 1 = true ∧ canAct s 1 = true) ∧
    (∀ st ∈ [SlotSt.empty, .loaded, .spent], ∃ (s : State) (bay : Bay), canReach s 1 2 = true ∧ canAct s 2 = true ∧ canAct s 1 = true ∧
      (getSpan s bay).state = 5 ∧ (getSpan s bay).authDurable = true ∧ (getSpan s bay).built = false ∧ getToken s bay = none ∧
      oldTokenHolds s bay s.time.us = false ∧ (getSlot s bay).st = st ∧ bitOf (getSlot s bay).policy 11 = false) ∧
    (∃ (s : State) (bay : Bay), canReach s 1 2 = true ∧ canAct s 2 = false ∧ (getSpan s bay).state = 5 ∧ (getSpan s bay).authDurable = true ∧
      (getSpan s bay).built = false ∧ getToken s bay = none ∧ oldTokenHolds s bay s.time.us = false) ∧
    (∀ (st : Status) (x : Nat × Nat), x ∈ [(0, 3), (4, 5)] → ∃ (s : State) (bay : Bay) (tag : Byte) (a : AuthJob), canReach s 2 1 = true ∧ canAct s 1 = true ∧
      getAuth s bay = some a ∧ a.tag = tag.toNat ∧ a.st = some st ∧ a.kind = x.1 ∧ (getSpan s bay).state = x.2 ∧ a.spanId = (getSpan s bay).id ∧
      (getSpan s bay).kind = 0) ∧
    (∀ ph ∈ [TagPhase.waitRc, .waitMac 5, .done], ∃ (s : State) (bay : Bay) (tag : Byte) (j : TagJob) (a : AuthJob), canReach s 2 (6 + bay.val / 8) = true ∧
      canAct s (6 + bay.val / 8) = true ∧ canReach s (6 + bay.val / 8) 2 = true ∧ canAct s 2 = true ∧ (getPier s (bay.val / 8)).job = some j ∧
      j.bay = bay.val ∧ j.tag = tag.toNat ∧ j.phase = ph ∧ j.kind = 1 ∧ j.found = [7] ∧ j.write = false ∧ s.rng.st = .ready ∧ getAuth s bay = some a ∧ a.kind = 5) ∧
    (∃ s : State, s.rng.st ≠ .ready) :=
  ⟨⟨modStore (fun t => { t with sigOwed := some .nothing }) up, by decide⟩,
    fun st hst => ⟨modSlot 5 (fun k => { k with st := st }) (authUp 5 (AuthJob.fresh 5 4 0 9)), 5, by
      simp only [List.mem_cons, List.not_mem_nil, or_false] at hst
      rcases hst with rfl | rfl | rfl <;> decide⟩,
    ⟨{ authUp 5 (AuthJob.fresh 5 4 0 9) with power := { up.power with st := vset up.power.st 2 .off } }, 5, by decide⟩,
    fun st x hx => ⟨modBay 5 (fun p => { p with kind := 0 }) (authUp x.2 { AuthJob.fresh 5 x.1 0 9 with st := some st }), 5, 5, _, rfl, rfl, rfl, rfl, rfl, rfl, rfl, rfl, rfl⟩,
    fun ph hp => ⟨modPier 0 (fun q => { q with job := some { TagJob.fresh 5 5 ph with kind := 1, found := [7] } })
        (modRng (fun r => { r with st := .ready }) (authUp 3 (AuthJob.fresh 5 5 0 0))), 5, 5, _, _, rfl, rfl, rfl, rfl, rfl, rfl, rfl, rfl, rfl, rfl, rfl, rfl, rfl, rfl⟩,
    up, by decide⟩

theorem witness_RadioMessagesAndVerdicts :
    (∀ e : WireEnd, ∃ (s : State) (bay : Bay) (tag : Byte) (a : AuthJob), canReach s 2 3 = true ∧ canAct s 3 = true ∧ getAuth s bay = some a ∧
      a.tag = tag.toNat ∧ a.kind = 0 ∧ a.sent = [] ∧ vget none s.rng.ends 0 = some e) ∧
    (∀ ks : Option (List Byte), ∃ (s : State) (bay : Bay) (tag : Byte) (a : AuthJob), canReach s 3 2 = true ∧ canAct s 2 = true ∧ canReach s 2 3 = true ∧ canAct s 3 = true ∧
      getAuth s bay = some a ∧ a.tag = tag.toNat ∧ a.kind = 0 ∧ a.st = none ∧ a.ks = ks ∧ s.psr.result = some []) ∧
    (∃ s : State, canReach s 1 3 = true ∧ canAct s 3 = true ∧ s.psr.busy = false) ∧
    (∀ w : Bool, ∃ (s : State) (tag b : Byte), canReach s 3 1 = true ∧ canAct s 1 = true ∧ s.rf.listen = some (tag.toNat, 0, []) ∧ b.toNat < 64 ∧
      awaitsChord s b.toNat = w) ∧
    (∀ st : Status, ∃ (s : State) (bay : Bay) (a : AuthJob), canReach s 3 1 = true ∧ canAct s 1 = true ∧ s.psr.owed = true ∧ s.psr.busy = false ∧ s.psr.bay = bay.val ∧
      (getSpan s bay).state = 3 ∧ (getSpan s bay).kind = 0 ∧ (getSpan s bay).reqBits ≠ 0 ∧ getAuth s bay = some a ∧ a.res = 0x00 ∧ s.psr.last = st) :=
  ⟨fun e => ⟨modRng (fun r => { r with ends := vset r.ends 0 (some e) }) (authUp 3 (AuthJob.fresh 5 0 0 9)), 5, 5, _, rfl, rfl, rfl, rfl, rfl, rfl, rfl⟩,
    fun ks => ⟨{ authUp 3 { AuthJob.fresh 5 0 0 9 with ks := ks } with psr := { up.psr with result := some [] } }, 5, 5, _, rfl, rfl, rfl, rfl, rfl, rfl, rfl, rfl, rfl, rfl⟩,
    ⟨up, by decide⟩,
    fun w => ⟨modRf (fun r => { r with listen := some (5, 0, []) }) (if w then chordUp true else up), 5, 5, by cases w <;> decide⟩,
    fun st => ⟨{ modBay 5 (fun p => { p with kind := 0, policy := [1, 7] }) (authUp 3 (AuthJob.fresh 5 0 0 9)) with
      psr := { up.psr with owed := true, bay := 5, last := st } }, 5, _, rfl, rfl, rfl, rfl, rfl, rfl, rfl, (by show leAt [1, 7] 1 1 ≠ 0; decide), rfl, rfl, rfl⟩⟩

/-- The power controller serves `v`, island i's query stands at `ph`, and it is 10 ms. -/
def askedUp (i : Nat) (v : Option Serving) (ph : QPhase) : State :=
  { up with power := { up.power with serving := v, query := vset up.power.query i ⟨2, 0, 0, ph⟩ }, time := { up.time with us := 10000 } }

/-- `up` with island i in a state, the served command `v`, and a queue. -/
def powerUp (i : Nat) (st : PState) (v : Option Serving) (q : List PwrCmd) : State :=
  { up with power := { up.power with st := vset up.power.st i st, serving := v, queue := q } }

theorem witness_PowerCommands :
    (∃ (s : State) (ini : Island), canReach s ini 0 = true ∧ ini.val = 1) ∧
    (∀ op : PwrOp, ∀ st ∈ [PState.off, .run], ∀ halted : Bool, ∃ (s : State) (c : PwrCmd) (rest : List PwrCmd), s.power.queue = c :: rest ∧
      s.power.serving = none ∧ s.par.restarting = none ∧ s.park.phase = .idle ∧ s.freeze.frozen = false ∧ c.op = op ∧ c.island < 14 ∧
      pstate s c.island = st ∧ islandInUse s c.island = false ∧ c.level ≤ tollFloor s c.island ∧ getLevel s c.island ≠ c.level ∧
      c.island ≠ c.writer ∧ (getCore s c.island).halted = halted ∧ ∀ q ∈ s.power.query.toList, q.phase = .idle) ∧
    (∀ v : Option Serving, ∀ ini ∈ [(3 : Island), 4, 5], ∃ s, canReach s ini 0 = true ∧ s.power.serving = v ∧ (getQuery s ini).phase = .awaiting 9000 ∧
      9000 + 1000 ≤ s.time.us ∧ ∀ j : Island, j ≠ ini → (getQuery s j).phase = .idle) ∧
    (∃ (s : State) (ini : Island), canReach s ini 0 = true ∧ ∀ t0, (getQuery s ini).phase ≠ .awaiting t0) ∧
    (∃ (s : State) (i : Island), (getQuery s i).phase = .delayed 9000 ∧ 9000 ≤ s.time.us) ∧
    (∃ (s : State) (i : Island) (v : Serving), pstate s i = .starting ∧ s.park.phase ≠ .waking ∧ s.freeze.frozen = false ∧ s.power.serving = some v ∧
      v.cmd.island = i.val ∧ v.phase = .starting) ∧
    (∀ r : Bool, ∃ (s : State) (i : Island), pstate s i = .stopping ∧ vget [] s.via.txns i = [] ∧ (∀ j : Island, ∀ h ∈ vget [] s.via.held j, h.src ≠ i.val) ∧
      vget [] s.via.held i = [] ∧ s.park.phase ≠ .stopping ∧ isRestarting s i = r ∧ s.freeze.frozen = false ∧ hasCore i = true) ∧
    (∃ (s : State) (i : Island), vget none s.power.raising i = some 2) ∧
    (∃ (s : State) (i : Island) (v : Serving), vget none s.power.raising i = none ∧ s.power.serving = some v ∧ v.cmd.island = i.val ∧ v.phase = .changing) :=
  ⟨⟨up, 1, by decide⟩,
    fun op st hst halted => ⟨setCore 7 { getCore up 7 with halted := halted } (powerUp 7 st none [⟨op, 7, 0, 1, 1⟩]), ⟨op, 7, 0, 1, 1⟩, [], rfl, by
      simp only [List.mem_cons, List.not_mem_nil, or_false] at hst
      rcases hst with rfl | rfl <;> cases op <;> cases halted <;> decide +kernel⟩,
    fun v ini hi => ⟨askedUp ini v (.awaiting 9000), by
      simp only [List.mem_cons, List.not_mem_nil, or_false] at hi
      have h : ∀ i ∈ [(3 : Island), 4, 5], ∀ j : Island, j ≠ i → (getQuery (askedUp i none (.awaiting 9000)) j).phase = .idle := by decide
      rcases hi with rfl | rfl | rfl
      · exact ⟨rfl, rfl, rfl, Nat.le_refl _, h 3 (by decide)⟩
      · exact ⟨rfl, rfl, rfl, Nat.le_refl _, h 4 (by decide)⟩
      · exact ⟨rfl, rfl, rfl, Nat.le_refl _, h 5 (by decide)⟩⟩,
    ⟨up, 3, rfl, by intro t h; exact nomatch h⟩,
    ⟨askedUp 3 none (.delayed 9000), 3, by decide⟩,
    ⟨powerUp 7 .starting (some ⟨⟨.on, 7, 0, 0, 1⟩, 0, .starting⟩) [], 7, _, rfl, by decide, rfl, rfl, rfl, rfl⟩,
    fun r => ⟨{ powerUp 7 .stopping none [] with par := { up.par with restarting := if r then some (7, 0xD3) else none } }, 7, by cases r <;> decide⟩,
    ⟨{ up with power := { up.power with raising := vset up.power.raising 7 (some 2) } }, 7, by decide⟩,
    ⟨powerUp 7 .run (some ⟨⟨.level, 7, 0, 0, 1⟩, 0, .changing⟩) [], 7, _, rfl, rfl, rfl, rfl⟩⟩

theorem witness_ParkEntryAndExit :
    (∃ (s : State) (ini : Island), canReach s ini 0 = true ∧ s.toll.parking = none) ∧
    (∀ pend ∈ [0, 0x10], ∃ (s : State) (ini : Island), canReach s ini 0 = true ∧ (ini.val = 1 ∨ ini.val = 2) ∧ s.toll.parking ≠ none ∧ s.power.queue = [] ∧
      s.power.serving = none ∧ s.par.restarting = none ∧ s.park.phase = .idle ∧ (wakeDue s ≠ 0 ↔ pend ≠ 0)) ∧
    (∀ pend ∈ [0, 0x10], ∃ s : State, s.park.phase = .querying ∧ (∀ q ∈ s.power.query.toList, q.phase = .idle ∨ q.phase = .accepted) ∧ (wakeDue s ≠ 0 ↔ pend ≠ 0)) ∧
    (∃ (s : State) (at_ : Nat), s.park.alarm = some at_ ∧ at_ ≤ s.time.us) ∧
    (∀ ph ∈ [ParkPhase.stopping, .parked], ∃ s : State, s.park.woken = false ∧ wakeDue s ≠ 0 ∧ s.park.phase = ph) ∧
    (∃ s : State, s.park.phase = .waking ∧ s.park.wakeTime + 2000 ≤ s.time.us) := by
  refine ⟨⟨up, 1, by decide⟩, fun pend h => ⟨parkUp .idle pend, 1, ?_⟩, fun pend h => ⟨parkUp .querying pend, ?_⟩, ⟨parkUp .idle 0, 9000, by decide⟩,
    fun ph h => ⟨parkUp ph 0x10, ?_⟩, ⟨parkUp .waking 0, by decide⟩⟩ <;> simp only [List.mem_cons, List.not_mem_nil, or_false] at h <;>
    rcases h with rfl | rfl <;> decide +kernel

theorem witness_SuppliesAndGovernor :
    (∃ (s : State) (i : Island), i.val ≠ 0 ∧ pstate s i = .run) ∧ (∃ s : State, ∀ i : Island, i.val ≠ 0 → pstate s i ≠ .run) ∧
    (∃ (v : BitVec 12) (s : State), v.toNat = 339 ∧ s.par.uvVin = false) ∧ (∃ (v : BitVec 12) (s : State), v.toNat = 340 ∧ s.par.ov = false) ∧
    (∃ (v : BitVec 12) (s : State), v.toNat = 801 ∧ s.par.ov = false) ∧ (∃ (v : BitVec 12) (s : State), v.toNat = 800 ∧ s.par.ov = true) ∧
    (∀ b : Bool, ∃ s : State, s.par.uvVinlf = b) :=
  ⟨⟨up, 1, by decide⟩, ⟨State.reset, by decide⟩, ⟨339, up, by decide⟩, ⟨340, up, by decide⟩, ⟨801, up, by decide⟩,
    ⟨800, modPar (fun p => { p with ov := true }) up, by decide⟩, fun b => ⟨modPar (fun p => { p with uvVinlf := b }) up, rfl⟩⟩

theorem witness_StopsAndBusFaults :
    (∀ hv : Bool, ∃ s : State, (if hv then s.par.hotHv else s.par.hotLogic) = false ∧ s.rf.phase = .active ∧ s.psr.busy = true) ∧
    (∀ b : Bool, ∃ s : State, s.par.clockStop = b ∧ s.time.src = .reference) ∧ (∀ b : Bool, ∃ s : State, s.time.xtal32Failed = b) ∧
    (∃ (s : State) (b : Bay) (c : Capture), canAct s 5 = true ∧ canAct s 1 = true ∧ (getSpan s b).state = 5 ∧ c ∈ (getSpan s b).caps ∧ c.stamp.isSome = true) :=
  ⟨fun hv => ⟨{ up with rf := { up.rf with phase := .active }, psr := { up.psr with busy := true } }, by cases hv <;> decide⟩,
    fun b => ⟨{ up with par := { up.par with clockStop := b }, time := { up.time with src := .reference } }, rfl, rfl⟩,
    fun b => ⟨{ up with time := { up.time with xtal32Failed := b } }, rfl⟩,
    ⟨modBay 5 (fun p => { p with state := 5, caps := [⟨0, 0, some 3, false⟩] }) up, 5, ⟨0, 0, some 3, false⟩, by decide +kernel⟩⟩

/-- `up` where island i waits for its restart and has had some restarts at time 0. -/
def restartUp (i n : Nat) : State :=
  { up with par := { up.par with rstQueue := [(i, 0xD3)], rstTimes := vset up.par.rstTimes i (List.replicate n 0) } }

theorem witness_RestartsAndWatchdogs :
    (∃ (s : State) (c : Island), canAct s c = true ∧ hasCore c = true ∧ (getCore s c).halted = false ∧ (getCore s c).wdogLeft = some 0 ∧ wdogTimeout s c ≠ 0) ∧
    (∃ (s : State) (ini i : Island), canReach s ini i = true ∧ canAct s i = true ∧ canReach s ini 0 = true ∧ ini.val = 1) ∧
    (∀ i ∈ [(1 : Island), 2, 3, 4, 5, 6, 13], ∀ n ∈ [2, 3], ∃ (s : State) (cause : Status), i.val ≠ 0 ∧ s.par.restarting = none ∧ s.freeze.frozen = false ∧
      s.par.rstQueue.find? (fun e => e.1 == i.val) = some (i.val, cause) ∧
      (∀ e ∈ s.par.rstQueue, [2, 3, 6, 7, 8, 9, 10, 11, 12, 13, 1, 4, 5].idxOf i.val ≤ [2, 3, 6, 7, 8, 9, 10, 11, 12, 13, 1, 4, 5].idxOf e.1) ∧
      ((vget [] s.par.rstTimes i).filter (fun x => decide (s.time.us < x + 10000000))).length = n ∧ canAct s 1 = true ∧ pstate s i ≠ .off) ∧
    (∃ (s : State) (e : LogEntry) (rest : List LogEntry), s.par.log = e :: rest ∧ canReach s 1 0 = true) ∧
    (∃ (s : State) (b : Bay), awaitsChord s b = true) := by
  refine ⟨⟨putReg (setCore 7 { getCore up 7 with halted := false, wdogLeft := some 0 } up) 7 .wdog 0 500, 7, by decide⟩, ⟨up, 1, 1, by decide⟩,
    fun i hi n hn => ⟨restartUp i n, 0xD3, ?_⟩, ⟨modPar (fun p => { p with log := [⟨0xDA, 0, 0, 9, false, []⟩] }) up, _, _, rfl, rfl⟩, chordUp true, 5, by decide⟩
  simp only [List.mem_cons, List.not_mem_nil, or_false] at hi hn
  rcases hi with rfl | rfl | rfl | rfl | rfl | rfl | rfl <;> rcases hn with rfl | rfl <;> decide +kernel

/-- Device `id` of a ring of three, its links up or down. -/
def ringUp (id : Nat) (u d : Bool) : State :=
  let s := putReg up 5 .zwCfg 0 0x201
  { s with
    boot := { s.boot with strapId := id }
    zw := { s.zw with upPort := ⟨u, 0, 255, some 7⟩, downPort := ⟨d, 0, 255, some 7⟩ } }

theorem witness_CascadeRing :
    (∀ u d : Bool, ∀ id ∈ [0, 1], ∃ s : State, canAct s 5 = true ∧ bitOf (regValue s 5 .zwCfg 0) 0 = true ∧ s.boot.strapId = id ∧ s.zw.upPort.up = u ∧
      s.zw.downPort.up = d ∧ (zwPort s true).t1 = some 7 ∧ (zwPort s false).t1 = some 7 ∧ bitOf (regValue s 5 .hostCfg 0) 2 = false ∧
      (∀ g ∈ s.link.queued, g.dest = .spi)) ∧
    (∀ id ∈ [0, 1], ∃ s : State, canAct s 5 = true ∧ bitOf (regValue s 5 .zwCfg 0) 0 = true ∧ s.boot.strapId = id ∧ siteSynced s = true ∧ s.zw.synced = true ∧
      canAct s 1 = true ∧ s.zw.lastSync.getD 0 + 5000000 ≤ s.time.us ∧ s.store.ledger.tsBoot = s.store.ledger.bootCount ∧ s.store.ledger.tsCount ≠ 0) := by
  refine ⟨fun u d id h => ⟨ringUp id u d, ?_⟩, fun id h => ⟨{ ringUp id true true with
    zw := { (ringUp id true true).zw with synced := true }, time := { up.time with us := 6000000 },
    store := { up.store with ledger := { up.store.ledger with tsCount := 1, tsBoot := up.store.ledger.bootCount } } }, ?_⟩⟩ <;>
    simp only [List.mem_cons, List.not_mem_nil, or_false] at h
  · rcases h with rfl | rfl <;> cases u <;> cases d <;> decide
  · rcases h with rfl | rfl <;> decide

theorem witness_HostRequestsAreTaken :
    (∀ eth : Bool, ∀ d ∈ [(0 : Byte), 1, 0xFF], ∀ q ∈ [(7, some (0x00 : Status)), (7, none), (8, none)], ∀ n ∈ [0, 8], ∃ (s : State) (h : HostHdr), h.eth = eth ∧
      h.device = d ∧ canAct s 5 = true ∧ bitOf (regValue s 5 .hostCfg 0) (if h.eth then 1 else 0) = true ∧ canAct s 1 = true ∧ s.boot.strapId = 0 ∧
      s.link.seqs.find? (fun e => e.1 == h.seq) = (if q.1 = 7 then some q else none) ∧
      (s.link.waiting.filter (fun x => x.typ != 1)).length = n) ∧
    (∃ (s : State) (h : HostHdr), bitOf (regValue s 5 .hostCfg 0) (if h.eth then 1 else 0) = false) ∧
    (∃ u : State, (∀ g ∈ u.link.queued, g.dest = .spi) ∧ canAct u 5 = true ∧ bitOf (regValue u 5 .hostCfg 0) 1 = true) := by
  refine ⟨fun eth d hd q hq n hn => ⟨hostUp q n, hdr d eth, rfl, rfl, rfl, ?_⟩, ⟨up, hdr 0 true, by decide⟩, hostUp (8, none) 0, by decide⟩
  simp only [List.mem_cons, List.not_mem_nil, or_false] at hd hq hn
  cases eth <;> rcases hd with rfl | rfl | rfl <;> rcases hq with rfl | rfl | rfl <;> rcases hn with rfl | rfl <;> decide

theorem witness_HostRequestEffects :
    (∀ eth : Bool, ∀ typ, ∃ (s : State) (h : HostHdr), h.device ≠ 0xFF ∧ h.eth = eth ∧ HostAccepts h typ s ∧ h.bay.toNat < 64 ∧ spanEnabled s = true ∧ canAct s 4 = true ∧
      canAct s 2 = true ∧ s.signer.job = none ∧ s.store.imgBusy = false ∧ (getSpan s h.bay.toNat).live = false ∧ (readRecord s 1).2 ≠ 0x00 ∧
      s.store.update = none ∧ (∀ j ∈ s.span.jobs, j.tag ≠ 16 ∧ j.tag ≠ 18)) ∧
    (∀ st ∈ [3, 6, 7, 8], ∃ (s : State) (h : HostHdr), HostAccepts h 0x02 s ∧ HostAccepts h 0x03 s ∧ (getSpan s h.bay.toNat).id = 9 ∧
      (getSpan s h.bay.toNat).live = true ∧ (getSpan s h.bay.toNat).state = st) ∧
    (∃ (s : State) (h : HostHdr), HostAccepts h 0x0A s ∧ canAct s 4 = false ∧ canAct s 2 = false) ∧
    (∃ (s : State) (h : HostHdr), HostAccepts h 0x02 s ∧ 64 ≤ h.bay.toNat) := by
  have acc : ∀ (eth : Bool) (typ : Nat), HostAccepts (hdr 0 eth) typ (putReg (hostUp (8, none) 0) 1 .spanCtrl 0 1) := fun eth typ =>
    ⟨by cases eth <;> unfold HostReaches <;> decide, by cases eth <;> decide, .inr (by decide)⟩
  refine ⟨fun eth typ => ⟨_, _, ?_, rfl, acc eth typ, ?_⟩, fun st hst => ⟨modBay 5 (fun p => { p with state := st, id := 9 }) (hostUp (8, none) 0), hdr 0 false, ?_⟩,
    ⟨{ hostUp (8, none) 0 with power := { up.power with st := vset (vset up.power.st 4 .off) 2 .off } }, hdr 0 false, ?_⟩,
    ⟨hostUp (8, none) 0, { hdr 0 false with bay := 64 }, ?_⟩⟩
  · cases eth <;> decide
  · cases eth <;> decide +kernel
  · simp only [List.mem_cons, List.not_mem_nil, or_false] at hst
    unfold HostAccepts HostReaches
    rcases hst with rfl | rfl | rfl | rfl <;> decide +kernel
  · unfold HostAccepts HostReaches; decide +kernel
  · unfold HostAccepts HostReaches; decide +kernel

theorem witness_HostPorts :
    (∃ s : State, canAct s 5 = false) ∧ (∀ b ∈ [0, 1], ∃ s : State, canAct s 5 = true ∧ bitOf (regValue s 5 .hostCfg 0) b = true ∧
      s.link.queued.find? (fun f => f.dest == .spi) = none ∧ s.link.mdio = none) ∧
    (∃ (s : State) (f : Frame), canAct s 5 = true ∧ bitOf (regValue s 5 .hostCfg 0) 0 = true ∧ s.link.queued.find? (fun f => f.dest == .spi) = some f) ∧
    (∀ b : Bool, ∃ s : State, canAct s 5 = true ∧ s.link.mdio = some b) ∧
    (∃ (s : State) (x : Reasm), canAct s 5 = true ∧ bitOf (regValue s 5 .hostCfg 0) 1 = true ∧
      s.link.reasm.find? (fun r => r.mac == 9 && r.msg == 4) = some x ∧ x.next = 1 ∧ s.time.us < x.since + 10000) ∧
    (∃ bs : List Byte, bs.length = 0 ∧ leAt bs 0 1 ≠ 1) := by
  refine ⟨⟨State.reset, by decide⟩, fun b h => ⟨hostUp (8, none) 0, ?_⟩,
    ⟨modLink (fun l => { l with queued := [⟨0xA3, 5, 0, 0, 1, 0, [], .spi, []⟩] }) (hostUp (8, none) 0), _, by decide, by decide, rfl⟩,
    fun b => ⟨modLink (fun l => { l with mdio := some b }) up, by decide +revert⟩,
    ⟨modLink (fun l => { l with reasm := [⟨9, 4, 1, [], 0⟩] }) (hostUp (8, none) 0), ⟨9, 4, 1, [], 0⟩, by decide⟩, [], by decide⟩
  simp only [List.mem_cons, List.not_mem_nil, or_false] at h
  rcases h with rfl | rfl <;> decide

theorem witness_CountersAndFreeze :
    (∃ (s : State) (ini i : Island), canReach s ini i = true ∧ canAct s i = true ∧ i.val = 1) ∧
    (∃ (s : State) (i : Island) (k : Fin 8), bitOf (regValue s i .perfCtrl 0) (1 + k) = true ∧ pstate s i = .run ∧ s.freeze.frozen = false ∧
      2 ^ 48 ≤ vget 0 (getPerf s i).pmc k + 2 ^ 48) ∧
    (∀ e ∈ [0, 1], ∀ rptr ∈ [0, 1], ∃ s : State, regValue s 0 .dumpPeriod 0 % 2 ^ 24 ≠ 0 ∧ s.time.us % (regValue s 0 .dumpPeriod 0 % 2 ^ 24) = 0 ∧
      s.freeze.frozen = false ∧ pstate s 1 = .run ∧ bitOf (regValue s 1 .dumpCfg 0) 0 = (e == 1) ∧ s.dump.rptr = rptr ∧ s.dump.wptr = 0 ∧
      64 * regValue s 1 .dumpLen 0 / 912 = 4 ∧ sealedRange s (regValue s 1 .dumpBase 0) 912 = false) ∧
    (∀ lc ∈ [1, 2], ∀ ph ∈ [ParkPhase.idle, .querying, .parked], ∀ f : Bool, ∃ s : State, lifecycle s = lc ∧ s.park.phase = ph ∧ s.freeze.frozen = f ∧
      s.freeze.mon = false ∧ pstate s 1 = .run) ∧
    (∃ (s : State) (b : Bay), s.freeze.frozen = true ∧ s.freeze.mon = false ∧ pstate s 1 = .run ∧ (getSpan s b).state = 3 ∧ (getSpan s b).authLeft = some 5 ∧
      s.freeze.start < 5 ∧ 5 ≤ s.time.us) := by
  refine ⟨⟨up, 1, 1, by decide⟩, ⟨putReg up 1 .perfCtrl 0 2, 1, 0, by decide⟩,
    fun e he r hr => ⟨putReg (putReg { up with dump := { up.dump with rptr := r } } 0 .dumpPeriod 0 100) 1 .dumpCfg 0 (0x3FFF0000 + e), ?_⟩,
    fun lc h ph hp f => ⟨freezeUp lc ph f, ?_⟩,
    ⟨{ modBay 5 (fun p => { p with state := 3, authLeft := some 5 }) (freezeUp 1 .idle true) with time := { up.time with us := 9 } }, 5, by decide⟩⟩
  · simp only [List.mem_cons, List.not_mem_nil, or_false] at he hr
    rcases he with rfl | rfl <;> rcases hr with rfl | rfl <;> decide
  · simp only [List.mem_cons, List.not_mem_nil, or_false] at h hp
    rcases h with rfl | rfl <;> rcases hp with rfl | rfl | rfl <;> cases f <;> decide

/-- `up` with the deck's core running, in a lifecycle state, frozen or not, the monitor as given. -/
def monUp (lc : Nat) (frozen : Bool) (m : MonState) : State :=
  { at_ 1 (getCore up 1) (freezeUp lc .idle frozen) with mon := m }

theorem witness_RelorMonitor :
    (∃ s : State, s.freeze.frozen = false ∧ deckRuns s = false ∧ s.boot.stage ≠ .loader) ∧
    (∀ lc ∈ [0, 1, 2, 3], ∀ frozen unlocked : Bool, ∃ s : State, lifecycle s = lc ∧ s.freeze.frozen = frozen ∧ s.mon.unlocked = unlocked ∧
      (frozen = true ∨ deckRuns s = true) ∧ s.boot.stage ≠ .loader) ∧
    (∃ s : State, s.boot.stage = .loader ∧ lifecycle s ≠ 3 ∧ s.freeze.frozen = false ∧ s.boot.wait = .over) ∧
    (∀ n : Option (List Byte × Nat), ∃ s : State, lifecycle s = 2 ∧ deckRuns s = true ∧ s.boot.stage ≠ .loader ∧ s.mon.nonce = n) ∧
    (∃ s : State, s.mon.unlocked = true ∧ s.mon.lastCmd + 600000000 ≤ s.time.us) := by
  refine ⟨⟨State.reset, by decide⟩, fun lc h f u => ⟨monUp lc f { up.mon with unlocked := u }, ?_⟩,
    ⟨{ up with boot := { up.boot with stage := .loader, wait := .over } }, by decide⟩, fun n => ⟨monUp 2 false { up.mon with nonce := n }, ?_⟩,
    ⟨{ up with mon := { up.mon with unlocked := true }, time := { up.time with us := 600000000 } }, by decide⟩⟩
  · simp only [List.mem_cons, List.not_mem_nil, or_false] at h
    rcases h with rfl | rfl | rfl | rfl <;> cases f <;> cases u <;> decide
  · exact ⟨rfl, rfl, nofun, rfl⟩

/-- The boot has reached a stage, with the keystone and STORE running, the other islands in a state, and no core locked. -/
def bootUp (st : BootStage) (p : PState) : State :=
  { up with
    power := { up.power with st := vset (vset (Vector.replicate 14 p) 2 .run) 4 .run }
    boot := { up.boot with stage := st, wait := .over }
    store := { up.store with ready := false }
    cores := up.cores.map (fun k => { k with lock := false }) }

theorem witness_ResetAndLoading :
    (∃ s : State, ∀ at_, s.boot.submitAt = some at_ → s.time.us < at_) ∧ (∃ (s : State) (at_ : Nat), s.boot.submitAt = some at_ ∧ at_ ≤ s.time.us) ∧
    (∀ b : Bool, ∃ s : State, s.par.reversalCell = b ∧ MemoryCanonical s) ∧ (∃ (s : State) (ini : Island), canReach s ini 0 = true) ∧
    (∃ (s : State) (t0 : Nat), s.boot.session = some t0 ∧ t0 + 1800000000 ≤ s.time.us) ∧
    (∀ i ∈ [(2 : Island), 3], ∀ st ∈ [BootStage.load, .ready], ∃ s : State, hasCore i = true ∧ canAct s 2 = true ∧ pstate s 4 = .run ∧ (getCore s i).lock = false ∧
      s.boot.wait = .over ∧ s.store.sigOwed = none ∧ s.store.ready = false ∧ s.boot.stage = st ∧ pstate s i = .run ∧ (getCore s i).hold = true) ∧
    (∃ s : State, canAct s 2 = true ∧ pstate s 4 = .run ∧ (getCore s 1).lock = false ∧ s.boot.wait = .over ∧ s.store.sigOwed = none ∧ s.store.ready = false ∧
      s.boot.stage = .load ∧ pstate s 1 = .off ∧ ∀ j ∈ [3, 6, 7, 8, 9, 10, 11, 12, 13], (getCore s j).lock = true) := by
  refine ⟨⟨up, nofun⟩, ⟨modBoot (fun b => { b with submitAt := some 0 }) up, 0, by decide⟩, fun b => ⟨modPar (fun p => { p with reversalCell := b }) up, by cases b <;> unfold MemoryCanonical <;> decide⟩,
    ⟨up, 1, by decide⟩, ⟨{ up with boot := { up.boot with session := some 0 }, time := { up.time with us := 1800000000 } }, 0, by decide⟩,
    fun i hi st hs => ⟨bootUp st .run, ?_⟩,
    ⟨{ bootUp .load .off with cores := Vector.ofFn (fun i => { getCore up i with lock := decide (3 ≤ i.val) }) }, by decide +kernel⟩⟩
  simp only [List.mem_cons, List.not_mem_nil, or_false] at hi hs
  rcases hi with rfl | rfl <;> rcases hs with rfl | rfl <;> decide +kernel

theorem witness_BadChannelRefused : ∃ (ini : Island) (s : State), Accepts s ini 3 .rfCmd ∧ bitOf (regValue s 3 .rfCtrl 0) 0 = true ∧
    (1#7).toNat < 2 ∧ 81 < (82#7).toNat ∧
    (∀ op ∈ [2, 3, 4, 6], ∀ c ∈ [1, 82], ∃ w : Word, bitsOf w.toNat 0 3 = op ∧ bitsOf w.toNat 3 7 = c) :=
  ⟨1, putReg up 3 .rfCtrl 0 1, by unfold Accepts; decide, by decide, by decide, by decide,
    fun op ho c hc => ⟨BitVec.ofNat 32 (op + 8 * c), by
      simp only [List.mem_cons, List.not_mem_nil, or_false] at ho hc
      rcases ho with rfl | rfl | rfl | rfl <;> rcases hc with rfl | rfl <;> decide⟩⟩

theorem witness_MasterRefusesPark :
    (∃ s : State, s.boot.strapId = 0 ∧ bitOf (regValue s 5 .zwCfg 0) 0 = true ∧ s.power.serving = none ∧ s.park.phase = .querying ∧
      (getQuery s 5).kind = 3 ∧ (getQuery s 5).phase = .awaiting 9000 ∧ canReach s 5 0 = true) ∧
    (∃ (s : State) (ini : Island), s.boot.strapId = 0 ∧ bitOf (regValue s 5 .zwCfg 0) 0 = true ∧ ini.val ≠ 5 ∧ pstate s 5 = .run ∧
      s.park.phase ≠ .querying ∧ ∃ t, exec (.parkRequest ini) s = .next t ∧ t.park.phase = .querying) :=
  ⟨⟨putReg { parkUp .querying 0 with power := { up.power with query := vset up.power.query 5 ⟨3, 0, 0, .awaiting 9000⟩ } } 5 .zwCfg 0 1, by decide⟩,
    putReg (parkUp .idle 0) 5 .zwCfg 0 1, 1, by decide, by decide, by decide, by decide, by decide, _, rfl, by decide +kernel⟩

/-- The span service runs with 256 entries of a source at bay 6 in its queue. -/
def fullUp (s : State) : State :=
  { putReg s 1 .spanCtrl 0 1 with span := { s.span with queue := List.replicate 256 ⟨2, 6, 0, [], none⟩, rebuilt := true } }

theorem witness_FullQueueRefuses :
    (∃ (bay : Bay) (s : State) (h : HostHdr), canAct s 1 = true ∧ spanEnabled s = true ∧ s.span.queue.length = 256 ∧ (getSpan s bay).live = false ∧
      (∀ e ∈ s.span.queue, ∀ n, ¬ (e.bay = bay.val ∧ e.source = n)) ∧ vget 0 s.span.retry bay ≤ s.time.us ∧ h.bay.toNat = bay.val ∧ HostAccepts h 0x01 s) ∧
    (∃ (bay : Bay) (s : State), canAct s 1 = true ∧ spanEnabled s = true ∧ s.span.queue.length = 256 ∧ (getSpan s bay).state = 8 ∧
      ∀ e ∈ s.span.queue, ∀ n, ¬ (e.bay = bay.val ∧ e.source = n)) := by
  have other : ∀ s : State, ∀ e ∈ (fullUp s).span.queue, ∀ n, ¬ (e.bay = 5 ∧ e.source = n) := by
    intro s e h n hc
    rw [List.eq_of_mem_replicate h] at hc
    exact absurd hc.1 (by decide)
  exact ⟨⟨5, fullUp (hostUp (8, none) 0), hdr 0 false, by decide, by decide, by decide +kernel, by decide, other _, by decide, by decide,
      by unfold HostReaches; decide, by decide, .inl rfl⟩,
    5, fullUp (modBay 5 (fun p => { p with state := 8 }) up), by decide, by decide, by decide +kernel, by decide, other _⟩

theorem witness_ColotWordsRoundTrip : encodeColot (.add 1 1 2 3) = some (1, 0x0048C000) ∧
    decodeColot 1 .clean 0x0048C000 = some (.add 1 1 2 3) := by decide

theorem witness_StepKeepsSafe : ∃ s t : State, Safe s ∧ step s = .next t ∧ s.pending ≠ [] :=
  ⟨{ up with pending := [.deviceTimeStep [], .referenceStart] }, _,
    ⟨by unfold MemoryCanonical; decide, by decide⟩, rfl, by decide⟩

end Sys2Proof.Tests
end

section
/-! SUPPORT. A word written or read at a register's address: the register map's rows, what a row of stored fields does with a
whole word, the answers of the abutment, and the machine after reset. -/

namespace Sys2Proof.Machine

/-! ## Vectors -/

/-- An entry replaced within the vector reads as the new one. -/
@[simp] theorem vget_vset_self {α : Type} {n i : Nat} (d x : α) (v : Vector α n) (h : i < n) : vget d (vset v i x) i = x := by
  simp [vget, vset, h]

/-- A vector of its default reads as that everywhere. -/
@[simp] theorem vget_replicate {α : Type} (n : Nat) (d : α) (i : Nat) : vget d (Vector.replicate n d) i = d := by
  by_cases h : i < n <;> simp [vget, h]

/-! ## The register map (R9 to R14) -/

/-- Every row of the register map. -/
def allRows : List RegRow :=
  everyRows ++ aonRows ++ deckRows ++ keysRows ++ rfRows ++ storeRows ++ linkRows ++ pierRows

/-- An island's rows are rows of the map. -/
theorem mem_allRows {i : Nat} {row : RegRow} (h : row ∈ rowsOf i) : row ∈ allRows := by
  simp only [allRows, rowsOf, List.mem_append] at h ⊢
  split at h <;> grind

/-- A register found in an island's window is there by one of the island's rows. -/
theorem findReg_some {i off k : Nat} {row : RegRow} (h : findReg i off = some (row, k)) : row ∈ rowsOf i := by
  unfold findReg at h
  split at h
  · rename_i r hr
    cases h
    exact List.mem_of_find?_eq_some hr
  · cases h

/-- A register found at an address lies in an island's window, by a row of the map. -/
theorem decodeReg_some {a i k : Nat} {row : RegRow} (h : decodeReg a = some (i, row, k)) : i < 14 ∧ row ∈ allRows := by
  unfold decodeReg at h
  generalize (a - 0x40000000) / 0x01000000 = isl at h
  generalize (a - 0x40000000) % 0x01000000 = off at h
  dsimp only at h
  split at h
  · rename_i hw
    split at h
    · rename_i row' k' hf
      cases h
      exact ⟨hw.2.1, mem_allRows (findReg_some hf)⟩
    · cases h
  · cases h

/-- What a row stores fits a word. -/
theorem rw_lt {row : RegRow} (h : row ∈ allRows) : row.rw < 2 ^ 32 := by
  have key : ∀ row ∈ allRows, row.rw < 2 ^ 32 := by decide +kernel
  exact key row h

/-- The bits that a write may change fit a word. -/
theorem writeMask_lt {row : RegRow} (h : row ∈ allRows) (r : Reg) (k : Nat) : writeMask r row k < 2 ^ 32 := by
  have := rw_lt h
  unfold writeMask
  split
  · split
    · decide
    · split
      · decide
      · exact this
  · exact this

/-- The strobes of a whole word cover every H field. -/
theorem hFields_covered (r : Reg) : ∀ f ∈ hFields r, covers (2 ^ 32 - 1) f.1 f.2 = true := by
  unfold hFields
  split <;> decide

/-- The registers of which every writable bit lies in an H field. -/
def hOnlyRegs : List Reg :=
  [.lfFreq, .caissonBase, .caissonLen, .bfp, .bfpAa, .ethType, .ethMacLo, .ethMacHi, .mbusDiv, .mbusReg, .dbusDiv, .zwCfg,
    .dumpBase, .dumpLen, .rngHealth]

/-- A register whose writable bits are H fields stores nothing else. -/
theorem storesOnly_of_hOnly {r : Reg} (h : r ∈ hOnlyRegs) : storesOnly r = true := by
  have key : ∀ r ∈ hOnlyRegs, storesOnly r = true := by decide
  exact key r h

/-- Without its H fields, nothing is left of such a register's writable bits. -/
theorem hFields_fill {row : RegRow} (h : row ∈ allRows) (hr : row.reg ∈ hOnlyRegs) :
    (hFields row.reg).foldl (fun m f => setField m f.1 f.2 0) row.rw = 0 := by
  have key : ∀ row ∈ allRows, row.reg ∈ hOnlyRegs → (hFields row.reg).foldl (fun m f => setField m f.1 f.2 0) row.rw = 0 := by
    decide +kernel
  exact key row h hr

/-! ## A register written (R12 to R16) -/

variable (s : State)

/-- Whether a block is stopped does not hang on the counters. -/
@[simp] theorem blockStopped_perf (p) (i : Nat) (r : Reg) (k : Nat) :
    blockStopped { s with perf := p } i r k = blockStopped s i r k := rfl

/-- A register that only stores fields has no effect beside them. -/
theorem writeAct_storesOnly {r : Reg} (h : storesOnly r = true) (ini i k d : Nat) (low : Bool) :
    writeAct ini i r k d low s = (0x00, s) := by
  unfold writeAct
  split
  · unfold commonAct; split <;> simp_all [storesOnly]
  · split
    · unfold aonAct; split <;> simp_all [storesOnly]
    · unfold deckAct; split <;> simp_all [storesOnly]
    · unfold keysAct; split <;> simp_all [storesOnly]
    · unfold rfAct; split <;> simp_all [storesOnly]
    · unfold storeAct; dsimp only; split <;> simp_all [storesOnly]
    · unfold linkAct; split <;> simp_all [storesOnly]
    · unfold pierAct; split <;> simp_all [storesOnly]

/-- A register turns away a writer that it does not take (R20). -/
theorem regWrite_notTaken {ini i : Nat} {row : RegRow} (h : mayWrite ini i row.reg = false) (k a d strb : Nat) :
    regWrite ini i row k a d strb s = (0x02, s) := by
  simp [regWrite, h]

/-- A write that selects no byte changes nothing. (DESIGN CHOICE, log entry 18.) -/
theorem regWrite_noStrobe {ini i : Nat} {row : RegRow} (h : mayWrite ini i row.reg = true) (k a d : Nat) :
    regWrite ini i row k a d 0 s = (0x00, s) := by
  simp [regWrite, h]

/-- A write of a register that only stores fields stores them. -/
theorem regWrite_storesOnly {ini i : Nat} {row : RegRow} (h : mayWrite ini i row.reg = true) (hs : storesOnly row.reg = true)
    (k a d : Nat) : regWrite ini i row k a d 0xF s = storeFields i a row k d (2 ^ 32 - 1) s := by
  have hc : row.reg ≠ .coreCtrl := by rintro e; rw [e] at hs; cases hs
  have he : row.reg ≠ .coreEntry := by rintro e; rw [e] at hs; cases hs
  unfold regWrite
  rw [if_neg (by simp [h]), if_neg (by decide), if_neg hc, if_neg he]
  simp only [writeAct_storesOnly _ hs, show strobeMask 0xF = 2 ^ 32 - 1 from rfl]
  split
  · rename_i h0
    exact Prod.ext h0.symm rfl
  · rfl

/-- The bits of a mask that a write of whole H fields keeps: all of them where the write is not rejected, those outside the
H fields where it is. -/
theorem foldl_keep {mask : Nat} {fs : List (Nat × Nat)} (h : ∀ f ∈ fs, covers mask f.1 f.2 = true) (rejected : Bool) (m : Nat) :
    fs.foldl (fun m f => if covers mask f.1 f.2 && !rejected then m else setField m f.1 f.2 0) m =
      if rejected then fs.foldl (fun m f => setField m f.1 f.2 0) m else m := by
  induction fs generalizing m with
  | nil => cases rejected <;> rfl
  | cons f fs ih =>
    rw [List.foldl_cons, ih (fun g hg => h g (List.mem_cons_of_mem _ hg)), h f List.mem_cons_self]
    cases rejected <;> rfl

/-- A whole word written where no H field changes or the block is stopped: the writable bits are stored, clamped as the
register's table says (R12, R14). -/
theorem storeFields_accepted {i k : Nat} {row : RegRow} (hrow : row ∈ allRows) (hm : writeMask row.reg row k ≠ 0)
    (h : hFields row.reg = [] ∨ blockStopped s i row.reg k = true) (a d : Nat) :
    storeFields i a row k d (2 ^ 32 - 1) s = (0x00, putReg s i row.reg k (storedWord row.reg
      (clearBits (regValue s i row.reg k) (writeMask row.reg row k) + (d &&& writeMask row.reg row k)))) := by
  have hrej : (!(changedH (regValue s i row.reg k) (2 ^ 32 - 1) d (hFields row.reg)).isEmpty && !blockStopped s i row.reg k) = false := by
    rcases h with h | h
    · simp [h, changedH]
    · simp [h]
  unfold storeFields
  simp only [hrej, foldl_keep (hFields_covered row.reg), Nat.and_two_pow_sub_one_of_lt_two_pow (writeMask_lt hrow _ _)]
  simp [hm]

/-- A whole word written to a register of H fields that would change one while the block runs: it stores nothing, and is
noted (R15). -/
theorem storeFields_rejected {i k : Nat} {row : RegRow} (hrow : row ∈ allRows) (hr : row.reg ∈ hOnlyRegs)
    (hb : blockStopped s i row.reg k = false) {d : Nat}
    (hd : changedH (regValue s i row.reg k) (2 ^ 32 - 1) d (hFields row.reg) ≠ []) (a : Nat) :
    storeFields i a row k d (2 ^ 32 - 1) s = (0x04, noteWerr i a s) := by
  have hrej : (!(changedH (regValue s i row.reg k) (2 ^ 32 - 1) d (hFields row.reg)).isEmpty && !blockStopped s i row.reg k) = true := by
    simpa [hb] using hd
  have ht : row.reg ≠ .tollClass := by intro e; rw [e] at hr; revert hr; decide
  have hw : writeMask row.reg row k = row.rw := by simp [writeMask, ht]
  unfold storeFields
  simp only [hrej, foldl_keep (hFields_covered row.reg), hw, Nat.and_two_pow_sub_one_of_lt_two_pow (rw_lt hrow), if_true,
    hFields_fill hrow hr]

/-- The viaduct once a rejected write at an address is noted: the island's flag is set, and a clear flag takes the address. -/
def ViaState.werrNoted (v : ViaState) (i a : Nat) : ViaState :=
  { v with werrAddr := if vget false v.werr i then v.werrAddr else vset v.werrAddr i a, werr := vset v.werr i true }

/-- A rejected write is noted and counted, and changes nothing else (R15). -/
theorem noteWerr_eq (i a : Nat) : ∃ p, noteWerr i a s = { s with via := s.via.werrNoted i a, perf := p } :=
  countEvent_eq _ _ _ _

/-- The first rejected address is the one kept. -/
theorem werrAddr_werrNoted (v : ViaState) {i : Nat} (hi : i < 14) (a : Nat) :
    vget 0 (v.werrNoted i a).werrAddr i = if vget false v.werr i then vget 0 v.werrAddr i else a := by
  unfold ViaState.werrNoted
  dsimp only
  split
  · rfl
  · exact vget_vset_self _ _ _ hi

/-! ## A word written or read at a register's address (R11, R30, R35) -/

/-- A register of a running island answers. -/
theorem placeAnswers_reg {a i : Nat} (hp : placeOf a = .reg i) (ha : canAct s i = true) : placeAnswers s a = true := by
  simp [placeAnswers, hp, Place.island, ha]

/-- A word written at a register's address is handled by the register's row. -/
theorem writeAt_reg {a i k : Nat} {row : RegRow} (hp : placeOf a = .reg i) (hd : decodeReg a = some (i, row, k))
    (ini w strb : Nat) : writeAt ini a w strb s = ⟨[], (regWrite ini i row k a w strb s).1, (regWrite ini i row k a w strb s).2⟩ := by
  simp [writeAt, hp, hd]

/-- A word written at a hole of a register window is answered 0x17 (R11). -/
theorem writeAt_noReg {a i : Nat} (hp : placeOf a = .reg i) (hd : decodeReg a = none) (ini w strb : Nat) :
    writeAt ini a w strb s = ⟨[], 0x17, s⟩ := by
  simp [writeAt, hp, hd]

/-- A word read at a hole of a register window is zero, with 0x17. -/
theorem readAt_noReg {a i : Nat} (hp : placeOf a = .reg i) (hd : decodeReg a = none) (ini : Nat) :
    readAt ini a s = ⟨[0], 0x17, s⟩ := by
  simp [readAt, hp, hd]

/-- A word written by an initiator whose way is free to a place that answers, where the counters decide neither the answer
nor the effect. -/
theorem viaRegWrite_next {ini addr w strb : Nat} {st : Status} {t : State} (hr : canReachAddr s ini addr = true)
    (ha : placeAnswers s (addr / 4 * 4) = true)
    (h : ∀ p, ∃ q, writeAt ini (addr / 4 * 4) w strb { s with perf := p } = ⟨[], st, { t with perf := q }⟩) :
    ∃ p, viaRegWrite ini addr w strb s = setResp ini [] st { t with perf := p } := by
  refine viaServe_next s hr (fun p => ?_)
  obtain ⟨p', hp'⟩ := serveWrite_word { s with perf := p } (ini := ini) (w := w) (strb := strb) ha
  obtain ⟨q, hq⟩ := h p'
  exact ⟨q, hp'.trans hq⟩

/-- A word read likewise. -/
theorem viaRegRead_next {ini addr : Nat} {d : List Nat} {st : Status} {t : State} (hr : canReachAddr s ini addr = true)
    (ha : placeAnswers s (addr / 4 * 4) = true)
    (h : ∀ p, ∃ q, readAt ini (addr / 4 * 4) { s with perf := p } = ⟨d, st, { t with perf := q }⟩) :
    ∃ p, viaRegRead ini addr s = setResp ini d st { t with perf := p } := by
  refine viaServe_next s hr (fun p => ?_)
  obtain ⟨p', hp'⟩ := serveRead_word { s with perf := p } (ini := ini) ha
  obtain ⟨q, hq⟩ := h p'
  exact ⟨q, hp'.trans hq⟩

/-- A word written to a register of a running island, by what the register's rule does with it. -/
theorem viaRegWrite_reg {ini addr w strb i k : Nat} {row : RegRow} {st : Status} {t : State}
    (hr : canReachAddr s ini addr = true) (hp : placeOf (addr / 4 * 4) = .reg i) (ha : canAct s i = true)
    (hd : decodeReg (addr / 4 * 4) = some (i, row, k))
    (h : ∀ p, ∃ q, regWrite ini i row k (addr / 4 * 4) w strb { s with perf := p } = (st, { t with perf := q })) :
    ∃ p, viaRegWrite ini addr w strb s = setResp ini [] st { t with perf := p } := by
  refine viaRegWrite_next s hr (placeAnswers_reg s hp ha) (fun p => ?_)
  obtain ⟨q, hq⟩ := h p
  exact ⟨q, by rw [writeAt_reg _ hp hd, hq]⟩

/-- The viaduct once the abutment has answered `ini` with 0x03 and some data: the answer is counted, and no message,
transaction or noted write has changed (R35, R39). -/
def OffAnswered (ini : Nat) (d : List Nat) (v : ViaState) : Prop :=
  vget ⟨[], 0⟩ v.resp ini = ⟨d, 0x03⟩ ∧ v.offCount = satTo 0xFFFFFFFF (s.via.offCount + 1) ∧ v.inbox = s.via.inbox ∧
    v.held = s.via.held ∧ v.txns = s.via.txns ∧ v.werr = s.via.werr

/-- A transaction that the abutment answers changes the viaduct's answer block and the counters only. -/
theorem viaServe_off {ini addr : Nat} (hi : ini < 14) {serve : State → Served} {d : List Nat} (write : Bool)
    (hr : canReachAddr s ini addr = true)
    (h : ∀ p, serve { s with perf := p } = ⟨d, 0x03, noteOff ini addr write false false { s with perf := p }⟩) :
    ∃ v p, viaServe ini addr serve s = { s with via := v, perf := p } ∧ OffAnswered s ini d v := by
  obtain ⟨p₁, h₁⟩ := countIssueAddr_eq s ini addr
  obtain ⟨v, p₂, h₂, hoff, hinbox, hheld, htxns, -, hwerr, -⟩ := noteOff_eq { s with perf := p₁ } ini addr write false false
  obtain ⟨p₃, h₃⟩ := countStatus_eq { s with via := v, perf := p₂ } ini 0x03
  refine ⟨{ v with resp := vset v.resp ini ⟨d, 0x03⟩ }, p₃, ?_, vget_vset_self _ _ _ hi, hoff, hinbox, hheld, htxns, hwerr⟩
  simp only [viaServe, hr, if_true, h₁, h, h₂, h₃]
  rfl

/-- A word written to a place that does not answer. -/
theorem viaRegWrite_off {ini addr : Nat} (hi : ini < 14) (hr : canReachAddr s ini addr = true)
    (ha : placeAnswers s (addr / 4 * 4) = false) (w strb : Nat) :
    ∃ v p, viaRegWrite ini addr w strb s = { s with via := v, perf := p } ∧ OffAnswered s ini [] v :=
  viaServe_off s hi true hr (fun p => by simp [serveWrite, ha])

/-- A word read from a place that does not answer is zero. -/
theorem viaRegRead_off {ini addr : Nat} (hi : ini < 14) (hr : canReachAddr s ini addr = true)
    (ha : placeAnswers s (addr / 4 * 4) = false) :
    ∃ v p, viaRegRead ini addr s = { s with via := v, perf := p } ∧ OffAnswered s ini [0] v :=
  viaServe_off s hi false hr (fun p => by simp [serveRead, ha])

/-! ## The machine after reset -/

/-- After reset a register holds its reset word, with the bits that always read 1. -/
theorem regValue_reset (i : Nat) (r : Reg) (k : Nat) : regValue State.reset i r k =
    (let w := resetWord r (rowFor i r) k
     if r = .wakeEn then w ||| 0xB0 else if r = .resumeMask then w ||| 2 else w) := rfl

/-- After reset only AON runs (R40, R449). -/
theorem pstate_reset (i : Nat) : pstate State.reset i = if i = 0 then .run else .off := by
  unfold pstate
  split
  · rfl
  · rename_i h
    simpa [vget, State.reset, PowerState.reset, Ne.symm h] using vget_replicate 14 PState.off i

/-- After reset no message waits at an island and no transaction of it is out. -/
theorem via_reset_empty (i : Nat) :
    inboxOf State.reset i = [] ∧ vget [] State.reset.via.txns i = [] ∧ vget [] State.reset.via.held i = [] :=
  ⟨vget_replicate 14 [] i, vget_replicate 14 [] i, vget_replicate 14 [] i⟩

/-- After reset no span is live. -/
theorem getSpan_reset (b : Nat) : (getSpan State.reset b).live = false := by
  have h : getSpan State.reset b = Span.reset := vget_replicate 64 _ b
  rw [h]
  rfl

end Sys2Proof.Machine
end

section
/-! The statements about register accesses and the reset state (00_scope.md). -/

namespace Sys2Proof.Proofs

open Sys2Proof Sys2Proof.Machine

/-- Settles O3: the row's effect is to store its fields, whatever the counters hold. -/
theorem registerWriteStores : Obligations.RegisterWriteStores := by
  intro ini addr data s i row k hr hp ha hd hw hs hm hstop
  obtain ⟨-, hrow⟩ := decodeReg_some hd
  obtain ⟨p, hnext⟩ := viaRegWrite_reg s (st := 0x00) (w := data.toNat) (strb := 0xF)
    (t := putReg s i row.reg k (storedWord row.reg
      (clearBits (regValue s i row.reg k) (writeMask row.reg row k) + (data.toNat &&& writeMask row.reg row k)))) hr hp ha hd (fun p =>
    ⟨p, (regWrite_storesOnly _ hw hs _ _ _).trans (storeFields_accepted { s with perf := p } hrow hm hstop _ _)⟩)
  exact ⟨p, congrArg Host.Outcome.next hnext⟩

/-- Settles O4: every writable bit lies in an H field, so a rejected write stores nothing and is noted. -/
theorem runningBlockKeepsHFields : Obligations.RunningBlockKeepsHFields := by
  intro ini addr data s i row k hr hp ha hd hw hreg hrun hchg
  obtain ⟨hi, hrow⟩ := decodeReg_some hd
  obtain ⟨p, hnext⟩ := viaRegWrite_reg s (st := 0x04) (w := data.toNat) (strb := 0xF)
    (t := { s with via := s.via.werrNoted i (addr.toNat / 4 * 4) }) hr hp ha hd (fun p => by
    obtain ⟨q, hq⟩ := noteWerr_eq { s with perf := p } i (addr.toNat / 4 * 4)
    rw [regWrite_storesOnly _ hw (storesOnly_of_hOnly hreg), storeFields_rejected { s with perf := p } hrow hreg hrun hchg, hq]
    exact ⟨q, rfl⟩)
  exact ⟨_, congrArg Host.Outcome.next hnext, vget_vset_self _ _ _ ini.isLt, rfl, vget_vset_self _ _ _ hi, werrAddr_werrNoted _ hi _, rfl⟩

/-- Settles O2: the abutment answers for an island that does not run, the island for a hole, for a writer that it does not
take and for a write without strobes, which by log entry 18 does nothing. -/
theorem registerAccessTurnedAway : Obligations.RegisterAccessTurnedAway := by
  intro ini addr data strb s hr
  refine ⟨fun hoff c d hc => ?_, fun i hp ha => ⟨fun hd => ?_, fun row k hd => ⟨fun hw => ?_, fun hw hstrb => ?_⟩⟩⟩
  · rcases hc with ⟨rfl, rfl⟩ | ⟨rfl | rfl, rfl⟩
    · obtain ⟨v, p, hnext, h⟩ := viaRegWrite_off s ini.isLt hr hoff data.toNat strb.toNat
      exact ⟨v, p, congrArg Host.Outcome.next hnext, h⟩
    all_goals
      obtain ⟨v, p, hnext, h⟩ := viaRegRead_off s ini.isLt hr hoff
      exact ⟨v, p, congrArg Host.Outcome.next hnext, h⟩
  · have hans := placeAnswers_reg s hp ha
    obtain ⟨p, hwrite⟩ := viaRegWrite_next s (w := data.toNat) (strb := strb.toNat) hr hans
      (fun p => ⟨p, writeAt_noReg { s with perf := p } hp hd _ _ _⟩)
    obtain ⟨q, hread⟩ := viaRegRead_next s hr hans (fun p => ⟨p, readAt_noReg { s with perf := p } hp hd _⟩)
    exact ⟨⟨p, congrArg Host.Outcome.next hwrite⟩, ⟨q, congrArg Host.Outcome.next hread⟩, ⟨q, congrArg Host.Outcome.next hread⟩⟩
  · obtain ⟨p, hnext⟩ := viaRegWrite_reg s (w := data.toNat) (strb := strb.toNat) hr hp ha hd
      (fun p => ⟨p, regWrite_notTaken _ hw _ _ _ _⟩)
    exact ⟨p, congrArg Host.Outcome.next hnext⟩
  · subst hstrb
    obtain ⟨p, hnext⟩ := viaRegWrite_reg s (w := data.toNat) (strb := 0) hr hp ha hd
      (fun p => ⟨p, regWrite_noStrobe _ hw _ _ _⟩)
    exact ⟨p, congrArg Host.Outcome.next hnext⟩

/-- Settles O60. That the memory lists nothing, blank MRAM and flash among it, is the choice of log entries 5 and 6; a
register's value is the reset word of its table. -/
theorem resetState : Obligations.ResetState := by
  refine ⟨⟨reset_memoryCanonical, fun c hc => by cases hc⟩, rfl, rfl, rfl, fun i => pstate_reset i, fun i => via_reset_empty i,
    fun b => getSpan_reset b, rfl, rfl, rfl, rfl, ?_⟩
  simp only [regValue_reset]
  decide

end Sys2Proof.Proofs
end

section
/-! SUPPORT. A word of memory written through the viaduct, outside a sealed caisson and a locked code region. -/

namespace Sys2Proof.Machine

variable (s : State)

/-! ## Words of memory written through the viaduct (R30, R234, R333) -/

/-- Whether caissons and code regions keep a word out does not hang on the counters. -/
theorem memWordWrite_perf (p) (ini a w strb : Nat) :
    memWordWrite ini a w strb { s with perf := p } =
      ((memWordWrite ini a w strb s).1, { (memWordWrite ini a w strb s).2 with perf := p }) := by
  unfold memWordWrite
  split
  · rw [show mramWriteStatus { s with perf := p } ini _ = mramWriteStatus s ini _ from rfl]
    split
    · simp only [strobeBytes_eq]
    · rfl
  · rename_i i key _
    rw [show quarantined { s with perf := p } key = quarantined s key from rfl,
      show codeLocked { s with perf := p } i (keyOffset i key) = codeLocked s i (keyOffset i key) from rfl]
    split
    · rfl
    · split
      · rfl
      · simp only [strobeBytes_eq]
  · rfl

/-- A word written to SRAM: a sealed caisson and a locked code region take nothing, else the strobed bytes change. -/
theorem memWordWrite_sram {a i key : Nat} (hp : placeOf a = .sram i key) (ini w strb : Nat) :
    memWordWrite ini a w strb s =
      if i = 1 ∧ quarantined s key = true then (0x81, s)
      else if codeLocked s i (keyOffset i key) = true then (0x02, s)
      else (0x00, { s with mem := strobeMem strb w key s.mem }) := by
  simp only [memWordWrite, hp, strobeBytes_eq]

/-- A word at a place in SRAM is written by the memory. -/
theorem writeAt_sram {a i key : Nat} (hp : placeOf a = .sram i key) (ini w strb : Nat) :
    writeAt ini a w strb s = ⟨[], (memWordWrite ini a w strb s).1, (memWordWrite ini a w strb s).2⟩ := by
  simp only [writeAt, hp]

/-- A word written through the viaduct to the SRAM of a running island: the memory's answer and effect. -/
theorem viaRegWrite_sram {ini addr w strb i key : Nat} {st : Status} {t : State} (hr : canReachAddr s ini addr = true)
    (hp : placeOf (addr / 4 * 4) = .sram i key) (ha : canAct s i = true)
    (h : memWordWrite ini (addr / 4 * 4) w strb s = (st, t)) :
    ∃ p, viaRegWrite ini addr w strb s = setResp ini [] st { t with perf := p } := by
  have hans : placeAnswers s (addr / 4 * 4) = true := by simp [placeAnswers, hp, Place.island, ha]
  exact viaRegWrite_next s hr hans (fun p => ⟨p, by rw [writeAt_sram _ hp, memWordWrite_perf, h]⟩)

end Sys2Proof.Machine

/-! The statement about words written to SRAM (01_architecture.md). -/

namespace Sys2Proof.Proofs

open Sys2Proof Sys2Proof.Machine

/-- Settles O5: the word's place decides between the caisson's answer, the code region's and the bytes under the strobes. -/
theorem wordWriteToSram : Obligations.WordWriteToSram := by
  intro ini addr data strb s i key hm hr hp ha
  have hw := memWordWrite_sram s hp ini data.toNat strb.toNat
  refine ⟨fun hq => ?_, fun hq hl => ?_, fun hq hl => ?_⟩
  · rw [if_pos hq] at hw
    obtain ⟨p, h⟩ := viaRegWrite_sram s hr hp ha hw
    exact ⟨p, congrArg Host.Outcome.next h⟩
  · rw [if_neg hq, if_pos hl] at hw
    obtain ⟨p, h⟩ := viaRegWrite_sram s hr hp ha hw
    exact ⟨p, congrArg Host.Outcome.next h⟩
  · rw [if_neg hq, if_neg (by simp [hl])] at hw
    obtain ⟨p, h⟩ := viaRegWrite_sram s hr hp ha hw
    exact ⟨_, p, congrArg Host.Outcome.next h, strobeMem_read _ _ _ _ hm⟩

end Sys2Proof.Proofs
end

section
/-! SUPPORT. A message served at its island's inbox, or turned away from it. -/

namespace Sys2Proof.Machine

variable (s : State)

/-! ## Messages (R30, R33, R35) -/

/-- A message that enters an inbox stands at its end; beside that only the counters change. -/
theorem enterInbox_eq (i : Nat) (msg : BitVec 128) (src : Nat) :
    ∃ p, enterInbox i msg src s = setInbox i (inboxOf s i ++ [⟨msg, src⟩]) { s with perf := p } := by
  obtain ⟨p, hp⟩ := countEvent_eq (setInbox i (inboxOf s i ++ [⟨msg, src⟩]) s) i 0x008 1
  exact ⟨p, hp⟩

/-- A message served at an inbox enters it. -/
theorem enterInbox_countServe (ini i : Nat) (msg : BitVec 128) (src : Nat) :
    ∃ p, enterInbox i msg src (countServe ini i s) = setInbox i (inboxOf s i ++ [⟨msg, src⟩]) { s with perf := p } := by
  obtain ⟨p, hp⟩ := countServe_eq s ini i
  rw [hp]
  exact enterInbox_eq { s with perf := p } i msg src

/-- A message to islands 14 and 15 is answered 0x17, one to an island that does not act 0x03, another 0x00. -/
theorem messageStatus_eq (g : Nat) :
    (14 ≤ g → messageStatus s g = 0x17) ∧ (g < 14 → canAct s g = false → messageStatus s g = 0x03) ∧
      (g < 14 → canAct s g = true → messageStatus s g = 0x00) := by
  unfold messageStatus
  refine ⟨fun h => if_pos h, fun h ha => ?_, fun h ha => ?_⟩
  · rw [if_neg (by omega), if_neg (by simp [ha])]
  · rw [if_neg (by omega), if_pos ha]

/-- The viaduct once the abutment of island g has answered a message of `ini` with 0x03: it is counted, latched from a count of
zero, and no message has moved (R35, R39). -/
def MessageTurnedAway (ini g : Nat) (v : ViaState) : Prop :=
  vget ⟨[], 0⟩ v.resp ini = ⟨[], 0x03⟩ ∧ v.offCount = satTo 0xFFFFFFFF (s.via.offCount + 1) ∧ v.inbox = s.via.inbox ∧
    v.held = s.via.held ∧ (s.via.offCount = 0 → v.offAddr = islandBase g)

/-- A message turned away by an abutment changes the viaduct's answer block and the counters only. -/
theorem message_off {ini g : Nat} (hi : ini < 14) (hst : messageStatus s g = 0x03) :
    ∃ v p, setResp ini [] 0x03 (countStatus ini 0x03 (messageAnswered ini g (countIssue ini g s))) = { s with via := v, perf := p } ∧
      MessageTurnedAway s ini g v := by
  obtain ⟨p₁, h₁⟩ := countIssue_eq s ini g
  obtain ⟨v, p₂, h₂, hcount, hinbox, hheld, -, -, -, -, haddr⟩ := noteOff_eq { s with perf := p₁ } ini (islandBase g) true false true
  obtain ⟨p₃, h₃⟩ := countStatus_eq { s with via := v, perf := p₂ } ini 0x03
  refine ⟨{ v with resp := vset v.resp ini ⟨[], 0x03⟩ }, p₃, ?_, vget_vset_self _ _ _ hi, hcount, hinbox, hheld, fun h0 => ?_⟩
  · have hst' : messageStatus { s with perf := p₁ } g = 0x03 := hst
    simp only [messageAnswered, h₁, hst', if_true, h₂, h₃]
    rfl
  · exact haddr.trans (if_pos h0)

/-- VIADUCT_MESSAGE of a sender whose way is free: counted as issued, then by the message's status and the inbox. -/
theorem execViaductMessage_reached {ini : Island} {g : Fin 16} (msg : BitVec 128) (hr : canReach s ini g = true) :
    execViaductMessage ini g msg s = .next
      (if messageStatus s g ≠ 0 then
        setResp ini [] (messageStatus s g) (countStatus ini (messageStatus s g) (messageAnswered ini g (countIssue ini g s)))
      else if (inboxOf s g).length < 16 then setResp ini [] 0x00 (enterInbox g msg ini (countServe ini g (countIssue ini g s)))
      else if ini.val = g.val then countIssue ini g s
      else modVia (fun v => { v with held := vset v.held g (vget [] v.held g ++ [⟨ini, msg, s.time.us⟩]) }) (countIssue ini g s)) := by
  obtain ⟨p, hp⟩ := countIssue_eq s ini g
  rw [execViaductMessage, if_neg (by simp [hr]), hp]
  rfl

end Sys2Proof.Machine

/-! The statement about messages (01_architecture.md). -/

namespace Sys2Proof.Proofs

open Sys2Proof Sys2Proof.Machine

/-- Settles O8: the target's status, then the room in its inbox, decide what becomes of a message. -/
theorem messagesReachTheInbox : Obligations.MessagesReachTheInbox := by
  refine ⟨fun ini g msg s hr => ?_, fun g s h rest ha hroom hheld => ?_⟩
  · obtain ⟨hno, hoff, hin⟩ := messageStatus_eq s g
    obtain ⟨p, hp⟩ := countIssue_eq s ini g
    have hx : exec (.viaductMessage ini g msg) s = _ := execViaductMessage_reached s msg hr
    refine ⟨fun h14 => ?_, fun hlt hact => ?_, fun hlt hact hroom => ?_, fun hlt hact hfull hne => ?_⟩
    · rw [hno h14, if_pos (by decide), messageAnswered, if_neg (by rw [hp]; exact ne_of_eq_of_ne (hno h14) (by decide)), hp] at hx
      obtain ⟨q, hq⟩ := countStatus_eq { s with perf := p } ini 0x17
      exact ⟨q, by rw [hx, hq]⟩
    · rw [hoff hlt hact, if_pos (by decide)] at hx
      obtain ⟨v, q, hq, hresp, hcount, hinbox, hheld, haddr⟩ := message_off s ini.isLt (hoff hlt hact)
      exact ⟨v, q, by rw [hx, hq], hresp, hcount, hinbox, hheld, haddr⟩
    · rw [hin hlt hact, if_neg (by decide), if_pos hroom, hp] at hx
      obtain ⟨q, hq⟩ := enterInbox_countServe { s with perf := p } ini g msg ini
      exact ⟨q, by rw [hx, hq]; rfl⟩
    · rw [hin hlt hact, if_neg (by decide), if_neg (by omega), if_neg hne, hp] at hx
      exact ⟨p, hx⟩
  · obtain ⟨p, hp⟩ := enterInbox_countServe (modVia (fun v => { v with held := vset v.held g rest }) s) h.src g h.msg h.src
    refine ⟨p, congrArg Host.Outcome.next ?_⟩
    rw [if_neg (by simp [ha, hroom]), hheld]
    exact congrArg (setResp h.src [] 0x00) hp

end Sys2Proof.Proofs
end

section
/-! SUPPORT. A burst served, word by word, whatever the event counters hold. -/

namespace Sys2Proof.Machine

variable (s : State)

/-! ## Bursts (R30, R31, R35) -/

/-- Whether the burst's place answers, and what the words read as, does not hang on the counters. -/
theorem readWords_perf (p) (n a : Nat) : readWords { s with perf := p } a n = readWords s a n := by
  induction n generalizing a with
  | zero => rfl
  | succ n ih =>
    have hw : memWordRead { s with perf := p } a = memWordRead s a := rfl
    simp only [readWords, hw, ih]

/-- The words of a burst written leave the counters as they are, which decide nothing. -/
theorem writeWords_perf (p) (ini : Nat) (ws : List Nat) (a : Nat) :
    writeWords ini a ws { s with perf := p } = ((writeWords ini a ws s).1, { (writeWords ini a ws s).2 with perf := p }) := by
  induction ws generalizing a s with
  | nil => rfl
  | cons w ws ih =>
    simp only [writeWords, memWordWrite_perf]
    split
    · rfl
    · exact ih _ _

/-- A burst read at a place that answers: its words up to the first that fails, or 0x17 where it breaks the address rule. -/
theorem serveRead_burst {ini a : Nat} (n : Nat) (h : placeAnswers s a = true) : ∃ p, serveRead ini a n true s =
    if burstOk a n = true then ⟨(readWords s a n).1 ++ List.replicate (n - (readWords s a n).1.length) 0, (readWords s a n).2, { s with perf := p }⟩
    else ⟨List.replicate n 0, 0x17, { s with perf := p }⟩ := by
  unfold serveRead
  simp only [if_true, h, Bool.true_eq_false, if_false]
  cases (placeOf a).island with
  | none => exact ⟨s.perf, rfl⟩
  | some i =>
    obtain ⟨p, hp⟩ := countServe_eq s ini i
    exact ⟨p, by simp only [hp, readWords_perf]⟩

/-- A burst written at a place that answers likewise. -/
theorem serveWrite_burst {ini a : Nat} (ws : List Nat) (strb : Nat) (h : placeAnswers s a = true) : ∃ p, serveWrite ini a ws strb true s =
    if burstOk a ws.length = true then ⟨[], (writeWords ini a ws s).1, { (writeWords ini a ws s).2 with perf := p }⟩
    else ⟨[], 0x17, { s with perf := p }⟩ := by
  unfold serveWrite
  simp only [if_true, h, Bool.true_eq_false, if_false]
  cases (placeOf a).island with
  | none =>
    cases burstOk a ws.length with
    | true => exact ⟨(writeWords ini a ws s).2.perf, rfl⟩
    | false => exact ⟨s.perf, rfl⟩
  | some i =>
    obtain ⟨p, hp⟩ := countServe_eq s ini i
    exact ⟨p, by simp only [hp, writeWords_perf]⟩

/-- A burst to a place whose island is off or frozen is answered by the abutment (R35, R39). -/
theorem viaServe_burstOff {ini addr : Nat} (hi : ini < 14) {serve : State → Served} {d : List Nat} (write : Bool)
    (hr : canReachAddr s ini addr = true)
    (h : ∀ p, serve { s with perf := p } = ⟨d, 0x03, noteOff ini addr write true false { s with perf := p }⟩) :
    ∃ v p, viaServe ini addr serve s = { s with via := v, perf := p } ∧ OffAnswered s ini d v := by
  obtain ⟨p₁, h₁⟩ := countIssueAddr_eq s ini addr
  obtain ⟨v, p₂, h₂, hoff, hinbox, hheld, htxns, -, hwerr, -⟩ := noteOff_eq { s with perf := p₁ } ini addr write true false
  obtain ⟨p₃, h₃⟩ := countStatus_eq { s with via := v, perf := p₂ } ini 0x03
  refine ⟨{ v with resp := vset v.resp ini ⟨d, 0x03⟩ }, p₃, ?_, vget_vset_self _ _ _ hi, hoff, hinbox, hheld, htxns, hwerr⟩
  simp only [viaServe, hr, if_true, h₁, h, h₂, h₃]
  rfl

end Sys2Proof.Machine

/-! The statement about bursts (01_architecture.md). -/

namespace Sys2Proof.Proofs

open Sys2Proof Sys2Proof.Machine

/-- Settles O9: the target's place answers or not, and the address rule decides whether any word is accessed. -/
theorem burstsAreServedWhole : Obligations.BurstsAreServedWhole := by
  intro ini addr n ws s hr
  refine ⟨fun ha => ⟨fun hok => ?_, fun hok => ?_, fun hok => ?_, fun hok => ?_⟩, fun hoff op d hop => ?_⟩
  · obtain ⟨p, h⟩ := viaServe_next s hr (serve := serveRead ini addr.toNat n true) (t := s) (fun p => by
      obtain ⟨q, hq⟩ := serveRead_burst { s with perf := p } (ini := ini) n ha
      rw [if_pos hok, readWords_perf] at hq
      exact ⟨q, hq⟩)
    exact ⟨p, congrArg Host.Outcome.next h⟩
  · obtain ⟨p, h⟩ := viaServe_next s hr (serve := serveRead ini addr.toNat n true) (t := s) (fun p => by
      obtain ⟨q, hq⟩ := serveRead_burst { s with perf := p } (ini := ini) n ha
      rw [if_neg (by simp [hok])] at hq
      exact ⟨q, hq⟩)
    exact ⟨p, congrArg Host.Outcome.next h⟩
  · obtain ⟨p, h⟩ := viaServe_next s hr (serve := serveWrite ini addr.toNat (ws.map BitVec.toNat) 0xF true)
      (t := (writeWords ini addr.toNat (ws.map BitVec.toNat) s).2) (fun p => by
      obtain ⟨q, hq⟩ := serveWrite_burst { s with perf := p } (ini := ini) (ws.map BitVec.toNat) 0xF ha
      rw [if_pos (by rw [List.length_map]; exact hok), writeWords_perf] at hq
      exact ⟨q, hq⟩)
    exact ⟨p, congrArg Host.Outcome.next h⟩
  · obtain ⟨p, h⟩ := viaServe_next s hr (serve := serveWrite ini addr.toNat (ws.map BitVec.toNat) 0xF true) (t := s) (fun p => by
      obtain ⟨q, hq⟩ := serveWrite_burst { s with perf := p } (ini := ini) (ws.map BitVec.toNat) 0xF ha
      rw [if_neg (by simp [hok])] at hq
      exact ⟨q, hq⟩)
    exact ⟨p, congrArg Host.Outcome.next h⟩
  · rcases hop with ⟨rfl, rfl⟩ | ⟨rfl, rfl⟩
    · obtain ⟨v, p, h, hresp, hcount, hinbox, hheld, htxns, -⟩ := viaServe_burstOff s ini.isLt (serve := serveRead ini addr.toNat n true)
        (d := List.replicate n 0) false hr (fun p => by simp [serveRead, hoff])
      exact ⟨v, p, congrArg Host.Outcome.next h, hresp, hcount, hinbox, hheld, htxns⟩
    · obtain ⟨v, p, h, hresp, hcount, hinbox, hheld, htxns, -⟩ := viaServe_burstOff s ini.isLt
        (serve := serveWrite ini addr.toNat (ws.map BitVec.toNat) 0xF true) (d := []) true hr (fun p => by simp [serveWrite, hoff])
      exact ⟨v, p, congrArg Host.Outcome.next h, hresp, hcount, hinbox, hheld, htxns⟩

end Sys2Proof.Proofs
end

section
/-! SUPPORT. A vector updated at an entry, the device-time step and the start of the reference. -/

namespace Sys2Proof.Machine

variable (s : State)

/-- Another entry of a vector reads as before. -/
theorem vget_vset_ne {α : Type} {n i j : Nat} (d x : α) (v : Vector α n) (h : j ≠ i) : vget d (vset v i x) j = vget d v j := by
  simp [vget, vset, Ne.symm h]

/-- A vector with one entry replaced, read. -/
theorem vget_vset {α : Type} {n i : Nat} (d x : α) (v : Vector α n) (hi : i < n) (j : Nat) :
    vget d (vset v i x) j = if j = i then x else vget d v j := by
  by_cases h : j = i
  · rw [if_pos h, h, vget_vset_self _ _ _ hi]
  · rw [if_neg h, vget_vset_ne _ _ _ h]

/-! ## Device time (R27, R28) -/

/-- Counting events in a list changes the counters only. -/
theorem countEvents_eq (i n : Nat) (evs : List Nat) : ∀ s : State,
    ∃ p, evs.foldl (fun s ev => countEvent i ev n s) s = { s with perf := p } := by
  induction evs with
  | nil => exact fun s => ⟨s.perf, rfl⟩
  | cons ev evs ih =>
    intro s
    obtain ⟨p, hp⟩ := countEvent_eq s i ev n
    obtain ⟨q, hq⟩ := ih { s with perf := p }
    exact ⟨q, by rw [List.foldl_cons, hp, hq]⟩

/-- Cycles counted change the counters only. -/
theorem countCycles_eq (i n : Nat) : ∃ p, countCycles i n s = { s with perf := p } := by
  obtain ⟨p, hp⟩ := countEvents_eq i n (cycleEvents s i) s
  unfold countCycles
  dsimp only
  rw [hp]
  split
  · exact ⟨_, rfl⟩
  · exact ⟨p, rfl⟩

/-- The cores `k` are those of s but for what their watchdogs have left. -/
def OnlyWatchdogs (k : Vector Core 14) : Prop := ∀ i, ∃ w, vget Core.reset k i = { getCore s i with wdogLeft := w }

/-- A watchdog that counts changes what its core's watchdog has left only. -/
theorem watchdogRuns_eq (i us : Nat) : ∃ k, watchdogRuns i us s = { s with cores := k } ∧ OnlyWatchdogs s k := by
  unfold watchdogRuns
  split
  · refine ⟨_, rfl, fun j => ?_⟩
    by_cases h : j = i
    · subst h
      by_cases hj : j < 14
      · exact ⟨_, vget_vset_self _ _ _ hj⟩
      · exact ⟨(getCore s j).wdogLeft, by simp [getCore, vget, vset, hj]⟩
    · refine ⟨(getCore s j).wdogLeft, ?_⟩
      exact vget_vset_ne _ _ _ h
  · exact ⟨s.cores, rfl, fun j => ⟨(getCore s j).wdogLeft, rfl⟩⟩

/-- A step's cycles and watchdogs, island by island, change the counters and what watchdogs have left. -/
theorem stepIslands_eq (d : Nat) (cycles : List Nat) (l : List Nat) : ∀ s : State,
    ∃ p k, l.foldl (fun s i => watchdogRuns i d (countCycles i (cycles.getD i 0) s)) s = { s with perf := p, cores := k } ∧
      OnlyWatchdogs s k := by
  induction l with
  | nil => exact fun s => ⟨s.perf, s.cores, rfl, fun j => ⟨(getCore s j).wdogLeft, rfl⟩⟩
  | cons i l ih =>
    intro s
    obtain ⟨p, hp⟩ := countCycles_eq s i (cycles.getD i 0)
    obtain ⟨k, hk, hw⟩ := watchdogRuns_eq { s with perf := p } i d
    obtain ⟨p', k', h', hw'⟩ := ih { s with perf := p, cores := k }
    refine ⟨p', k', by rw [List.foldl_cons, hp, hk, h'], fun j => ?_⟩
    obtain ⟨w, hw⟩ := hw j
    obtain ⟨w', hw'⟩ := hw' j
    exact ⟨w', hw'.trans (by rw [show getCore { s with perf := p, cores := k } j = vget Core.reset k j from rfl, hw]; rfl)⟩

/-- Device time after a step: the counter and its fraction as `timeStep` says, and every powered island's copy. -/
def timeAfterStep : TimeState :=
  { s.time with
    us := s.time.us + (timeStep s.time).1, frac := (timeStep s.time).2, toStep := 48
    copies := Vector.ofFn (fun i => if pstate s i.val = .off then vget 0 s.time.copies i.val else s.time.us + (timeStep s.time).1) }

/-- DEVICE_TIME_STEP changes device time, the counters and the watchdogs' counts. -/
theorem execDeviceTimeStep_eq (cycles : List Nat) : ∃ p k, execDeviceTimeStep cycles s =
    .next { s with time := timeAfterStep s, perf := p, cores := k } ∧ OnlyWatchdogs s k := by
  have counted : ∀ u : State, ∃ p, (if u.time.src = .crystal then countEvent 0 0x044 1 u else u) = { u with perf := p } := by
    intro u
    split
    · exact countEvent_eq u _ _ _
    · exact ⟨u.perf, rfl⟩
  obtain ⟨p, hp⟩ := counted { s with time := timeAfterStep s }
  obtain ⟨p', k, h, hw⟩ := stepIslands_eq (timeStep s.time).1 cycles allIslands { s with time := timeAfterStep s, perf := p }
  refine ⟨p', k, congrArg Host.Outcome.next ?_, hw⟩
  rw [← h, ← hp]
  rfl

/-- From the crystal a step is 30 or 31 µs, and time and fraction together advance by 46875/1536 µs (R27). -/
theorem timeStep_crystal {t : TimeState} (hs : t.src = .crystal) (hf : t.frac < 1536) :
    ((timeStep t).1 = 30 ∨ (timeStep t).1 = 31) ∧ 1536 * (timeStep t).1 + (timeStep t).2 = t.frac + 46875 ∧ (timeStep t).2 < 1536 := by
  simp only [timeStep, hs]
  omega

/-- From the reference and from the 4 MHz base a step is 1 µs. -/
theorem timeStep_one {t : TimeState} (hs : t.src ≠ .crystal) : (timeStep t).1 = 1 := by
  unfold timeStep
  split
  · rfl
  · contradiction
  · rfl

/-! ## The reference's start (R27, R451, R467) -/

/-- Device time once the reference has become valid: it keeps its value, and the first step comes after the fraction's
remainder, in reference cycles. -/
def timeOnReference : TimeState :=
  { s.time with src := .reference, toStep := 48 - 48 * s.time.frac / 1536, frac := 0 }

/-- The reference valid changes device time only. -/
theorem startReference_eq : startReference s = { s with time := timeOnReference s } := by
  have h : s.time.frac / 32 = 48 * s.time.frac / 1536 := by omega
  simp only [startReference, modTime, timeOnReference, h]

/-- The power states once each of two islands that was OFF is STARTING. -/
theorem startTwo_st (i j : Nat) (hij : i ≠ j) (h0 : i ≠ 0 ∧ j ≠ 0) (hlt : i < 14 ∧ j < 14) : ∃ st,
    [i, j].foldl (fun s i => if pstate s i = .off then setPState i .starting s else s) s = { s with power := { s.power with st := st } } ∧
    ∀ k, vget .off st k = if (k = i ∨ k = j) ∧ pstate s k = .off then .starting else vget .off s.power.st k := by
  have one : ∀ (i : Nat) (u : State), i ≠ 0 → i < 14 → ∃ st,
      (if pstate u i = .off then setPState i .starting u else u) = { u with power := { u.power with st := st } } ∧
      ∀ k, vget .off st k = if k = i ∧ vget .off u.power.st k = .off then .starting else vget .off u.power.st k := by
    intro i u h0 hi
    have hp : pstate u i = vget .off u.power.st i := if_neg h0
    by_cases hoff : pstate u i = .off
    · refine ⟨_, if_pos hoff, fun k => ?_⟩
      rw [vget_vset _ _ _ hi]
      by_cases hk : k = i
      · subst hk; simp [← hp, hoff]
      · simp [hk]
    · refine ⟨_, if_neg hoff, fun k => ?_⟩
      rw [if_neg]
      rintro ⟨rfl, hk⟩
      exact hoff (hp.trans hk)
  obtain ⟨st, h, hst⟩ := one i s h0.1 hlt.1
  obtain ⟨st', h', hst'⟩ := one j { s with power := { s.power with st := st } } h0.2 hlt.2
  refine ⟨st', by simp only [List.foldl_cons, List.foldl_nil, h, h'], fun k => ?_⟩
  simp only [hst', hst, pstate]
  by_cases hki : k = i
  · subst hki; simp [hij, h0.1]
  · by_cases hkj : k = j
    · subst hkj; simp [hki, h0.2]
    · simp [hki, hkj]

/-- REFERENCE_START outside PARK, from another source. -/
theorem execReferenceStart_starts (h : ¬(s.time.src = .reference ∨ s.park.phase = .parked ∨ s.park.phase = .stopping)) :
    execReferenceStart s = .next (if s.boot.stage = .rom ∧ s.boot.strapTest = false then
      [4, 2].foldl (fun s i => if pstate s i = .off then setPState i .starting s else s) { s with time := timeOnReference s }
      else { s with time := timeOnReference s }) := by
  rw [execReferenceStart, if_neg h, startReference_eq]

end Sys2Proof.Machine

/-! The statement about device time (01_architecture.md). -/

namespace Sys2Proof.Proofs

open Sys2Proof Sys2Proof.Machine

/-- Settles O7: a step by the rule of its source; a start by its conditions and the boot ROM's stage. -/
theorem deviceTimeAdvances : Obligations.DeviceTimeAdvances := by
  refine ⟨fun cycles s hf => ?_, fun s => ⟨fun hsrc hparked hstopping => ⟨fun hrom => ?_, fun hrom => ?_⟩, fun h => ?_⟩⟩
  · obtain ⟨p, k, hx, hw⟩ := execDeviceTimeStep_eq s cycles
    refine ⟨_, hx, fun hs => ?_, fun hs => ?_, fun hs => ?_, fun i hi => ?_, rfl, rfl, hw⟩
    · exact congrArg (s.time.us + ·) (timeStep_one (by rw [hs]; decide))
    · obtain ⟨hus, hsum, hlt⟩ := timeStep_crystal hs hf
      simp only [timeAfterStep]
      omega
    · exact congrArg (s.time.us + ·) (timeStep_one (by rw [hs]; decide))
    · simp [timeAfterStep, vget, hi]
  · exact (execReferenceStart_starts s (by simp [hsrc, hparked, hstopping])).trans (congrArg _ (if_neg hrom))
  · obtain ⟨st, hst, hread⟩ := startTwo_st { s with time := timeOnReference s } 4 2 (by decide) (by decide) (by decide)
    have hx := execReferenceStart_starts s (by simp [hsrc, hparked, hstopping])
    rw [if_pos hrom, hst] at hx
    exact ⟨st, hx, fun i _ => hread i⟩
  · exact congrArg Host.Outcome.next (if_pos h)

end Sys2Proof.Proofs
end

section
/-! SUPPORT. An island that leaves RUN or enters it: what its block's loss and gain leave to the power controller, PARK, device
time, freeze and the clock stop. -/

namespace Sys2Proof.Machine

/-- A fold of steps that each keep a view of the state keeps it. -/
theorem foldl_keeps {α β : Type} (view : State → β) {f : State → α → State} (h : ∀ s x, view (f s x) = view s) (l : List α) (s : State) :
    view (l.foldl f s) = view s := by
  induction l generalizing s with
  | nil => rfl
  | cons x l ih => rw [List.foldl_cons, ih, h]

/-- Of two states that agree on a view, either agrees. -/
theorem ite_keeps {β : Type} (view : State → β) {P : Prop} [Decidable P] {a b : State} {c : β} (ha : view a = c) (hb : view b = c) :
    view (if P then a else b) = c := by
  split
  · exact ha
  · exact hb

/-! ## What a block's loss leaves alone (R36, R218, R253, R254, R486) -/

/-- What the power controller, PARK, device time, freeze, the clock stop and the gate's PARK admission hold. -/
structure Outer where
  power     : PowerState
  park      : ParkState
  time      : TimeState
  freeze    : FreezeState
  clockStop : Bool
  parking   : Option Nat

/-- These parts of a state. -/
def outer (s : State) : Outer := ⟨s.power, s.park, s.time, s.freeze, s.par.clockStop, s.toll.parking⟩

variable (s : State)

@[simp] theorem outer_modVia (f) : outer (modVia f s) = outer s := rfl
@[simp] theorem outer_modCipher (f) : outer (modCipher f s) = outer s := rfl
@[simp] theorem outer_modCtx (c) (f) : outer (modCtx c f s) = outer s := rfl
@[simp] theorem outer_modSlot (i) (f) : outer (modSlot i f s) = outer s := rfl
@[simp] theorem outer_modStore (f) : outer (modStore f s) = outer s := rfl
@[simp] theorem outer_modSpan (f) : outer (modSpan f s) = outer s := rfl
@[simp] theorem outer_memClear (lo hi) : outer (memClear lo hi s) = outer s := rfl
@[simp] theorem outer_setResp (ini d st) : outer (setResp ini d st s) = outer s := rfl
@[simp] theorem outer_signerLeave : outer (signerLeave s) = outer s := rfl
@[simp] theorem outer_rngLeave : outer (rngLeave s) = outer s := rfl
@[simp] theorem outer_rfLeave : outer (rfLeave s) = outer s := rfl
@[simp] theorem outer_linkLeave : outer (linkLeave s) = outer s := rfl
@[simp] theorem outer_storeLeave : outer (storeLeave s) = outer s := rfl
@[simp] theorem outer_requestChange (c) : outer (requestChange c s) = outer s := rfl
@[simp] theorem outer_freeLock : outer (freeLock s) = outer s := rfl

@[simp] theorem outer_countEvent (i ev n : Nat) : outer (countEvent i ev n s) = outer s := by
  obtain ⟨p, hp⟩ := countEvent_eq s i ev n
  rw [hp]; rfl

@[simp] theorem outer_messageOver (c : Nat) (st : Status) : outer (messageOver c st s) = outer s := by
  simp [messageOver]

@[simp] theorem outer_endEarly (c : Nat) (st : Status) : outer (endEarly c st s) = outer s := by
  unfold endEarly
  dsimp only
  rw [outer_messageOver]
  cases (getCtx s c).caisson <;> rfl

@[simp] theorem outer_ownerLeaves (o : Owner) : outer (ownerLeaves o s) = outer s := by
  have hctx : outer ((List.range 2).foldl (fun s c => if (getCtx s c).st ≠ .free ∧ (getCtx s c).owner = o then endEarly c 0x11 s else s) s) =
      outer s := foldl_keeps outer (fun s c => by split <;> simp) _ _
  unfold ownerLeaves
  dsimp only
  split <;> simp only [outer_freeLock, outer_modCipher, hctx]

@[simp] theorem outer_keystoneLeaves : outer (keystoneLeaves s) = outer s := by
  simp [keystoneLeaves, cipherLeave]

@[simp] theorem outer_answerIf (r : Option HostReq) (st : Status) (cls : Nat) : outer (answerIf r st cls s) = outer s := by
  obtain ⟨l, z, o, p, h⟩ := answerIf_eq r st cls s
  rw [h]; rfl

@[simp] theorem outer_reserveCounter (i : Nat) : outer (reserveCounter i s) = outer s := by
  unfold reserveCounter
  split
  · split
    · rfl
    · split <;> simp
  · rfl

@[simp] theorem outer_afterConsume (i : Nat) : outer (afterConsume i s) = outer s := by
  have spent : ∀ b : Bool, outer (if b = true then modCipher (fun c => { c with event := c.event ||| 8 }) (modSlot i (fun k => { k with st := .spent }) s)
      else s) = outer s := fun b => ite_keeps outer rfl rfl
  exact ite_keeps outer ((outer_reserveCounter _ _).trans (spent _)) (spent _)

@[simp] theorem outer_consumeFor (c : Nat) : outer (consumeFor c s) = outer s := by
  unfold consumeFor
  dsimp only
  split
  · split <;> simp
  · simp

@[simp] theorem outer_wakeWaiters (i : Nat) (failed : Bool) : outer (wakeWaiters i failed s) = outer s :=
  foldl_keeps outer (fun s c => by
    split
    · split <;> simp
    · rfl) _ _

@[simp] theorem outer_reservationFailed (e : Nat) : outer (reservationFailed e s) = outer s := by
  simp [reservationFailed]

/-! ## Jobs that end, which may free the PARK admission (R90, R97) -/

/-- From s to t, of `outer`, at most the gate's PARK admission has gone. -/
def Calm (s t : State) : Prop :=
  outer t = { outer s with parking := t.toll.parking } ∧ (s.toll.parking = none → t.toll.parking = none)

variable {s} {t u : State}

theorem Calm.of_outer (h : outer t = outer s) : Calm s t := by
  have hp : t.toll.parking = s.toll.parking := congrArg Outer.parking h
  exact ⟨by rw [h, hp]; rfl, fun h0 => hp.trans h0⟩

theorem Calm.trans (h : Calm s t) (h' : Calm t u) : Calm s u :=
  ⟨by rw [h'.1, h.1], fun h0 => h'.2 (h.2 h0)⟩

theorem Calm.foldl {α : Type} {f : State → α → State} (h : ∀ s x, Calm s (f s x)) (l : List α) : ∀ s, Calm s (l.foldl f s) := by
  induction l with
  | nil => exact fun s => .of_outer rfl
  | cons x l ih => exact fun s => (h s x).trans (ih _)

variable (s)

theorem calm_tollCancelHandle (h : Nat) : Calm s (tollCancelHandle h s) := by
  refine ⟨rfl, fun h0 => ?_⟩
  simp [tollCancelHandle, modToll, h0]

theorem calm_endJobs (f : Job → Bool) : Calm s (endJobs f s) :=
  Calm.trans (t := modSpan (fun p => { p with jobs := p.jobs.filter (fun j => !f j) }) s) (.of_outer rfl)
    (.foldl (fun s j => by
      split
      · exact calm_tollCancelHandle s _
      · exact .of_outer rfl) _ _)

theorem calm_ledgerAnswer (f : JobKind → Option HostReq) (st : Status) : Calm s (ledgerAnswer f st s) :=
  (calm_endJobs s _).trans (.of_outer (foldl_keeps outer (fun s _ => outer_answerIf s _ _ _) _ _))

theorem calm_changeFailed (st : Status) (c : LedgerChange) : Calm s (changeFailed st c s) := by
  unfold changeFailed
  split
  · exact .of_outer (outer_reservationFailed s _)
  · exact calm_ledgerAnswer s _ _
  · exact calm_ledgerAnswer s _ _
  · exact calm_ledgerAnswer s _ _
  · exact (calm_endJobs s _).trans (.of_outer rfl)
  · exact .of_outer rfl

theorem calm_storeLeaves : Calm s (storeLeaves s) := by
  unfold storeLeaves
  dsimp only
  refine Calm.trans (.foldl (fun s c => ?_) _ _) (.of_outer ((outer_modStore _ _).trans ((outer_ownerLeaves _ _).trans (outer_storeLeave _))))
  split
  · exact .of_outer rfl
  · exact calm_changeFailed s _ _

/-- What an island's block loses leaves the power controller, PARK, time, freeze and the clock stop alone. -/
theorem calm_blockLeaves (i : Nat) : Calm s (blockLeaves i s) := by
  unfold blockLeaves
  split
  · exact ⟨rfl, fun _ => rfl⟩
  · split
    · exact .of_outer (outer_keystoneLeaves s)
    · split
      · exact .of_outer (outer_rfLeave s)
      · split
        · exact calm_storeLeaves s
        · split
          · exact .of_outer (outer_linkLeave s)
          · split <;> exact .of_outer rfl

@[simp] theorem outer_answerHeld (i : Nat) : outer (answerHeld i s) = outer s := by
  refine (foldl_keeps outer (fun s h => ?_) _ _).trans (outer_modVia s _)
  obtain ⟨v, p, hn, -⟩ := noteOff_eq s h.src (islandBase i) true false true
  rw [outer_setResp, outer_countEvent, hn]
  rfl

/-- An island that leaves RUN is STOPPING; of `outer` nothing else changes but that the PARK admission may go. -/
theorem calm_leaveRun {i : Nat} (hrun : pstate s i = .run) (hi : i ≠ 0) : Calm (setPState i .stopping s) (leaveRun i s) := by
  have hmon : ∀ u : State, outer (if i = 1 then modMon (fun m => { m with unlocked := false }) u else u) = outer u := by
    intro u; split <;> rfl
  rw [leaveRun, if_pos ⟨hrun, hi⟩]
  exact Calm.trans (.of_outer ((hmon _).trans (outer_answerHeld _ _))) (calm_blockLeaves _ _)

end Sys2Proof.Machine
end

section
/-! SUPPORT. The handshake of the power controller and the PARK admission, query by query (R97, R355 to R357). -/

namespace Sys2Proof.Machine

/-! ## Vectors updated entry by entry -/

/-- Entries updated one after another: each listed entry is updated once, every other stays. -/
theorem vget_foldl_vset {α : Type} {n : Nat} (d : α) (g : Nat → α → α) (l : List Nat) (hl : ∀ i ∈ l, i < n) (hnd : l.Nodup)
    (v : Vector α n) (j : Nat) :
    vget d (l.foldl (fun v i => vset v i (g i (vget d v i))) v) j = if j ∈ l then g j (vget d v j) else vget d v j := by
  induction l generalizing v with
  | nil => simp
  | cons i l ih =>
    rw [List.nodup_cons] at hnd
    rw [List.foldl_cons, ih (fun k hk => hl k (List.mem_cons_of_mem _ hk)) hnd.2, vget_vset _ _ _ (hl i List.mem_cons_self)]
    by_cases h : j = i
    · subst h; simp [hnd.1]
    · simp [h]

/-- A mapped vector reads as the mapped entry. -/
theorem vget_map {α β : Type} {n : Nat} (d : α) (f : α → β) (v : Vector α n) (j : Nat) : vget (f d) (v.map f) j = f (vget d v j) := by
  by_cases h : j < n <;> simp [vget, h]

/-- The islands are the numbers below 14. -/
theorem mem_allIslands {i : Nat} : i ∈ allIslands ↔ i < 14 := List.mem_range

/-- A choice of islands names each once. -/
theorem islands_filter (f : Nat → Bool) : (∀ i ∈ allIslands.filter f, i < 14) ∧ (allIslands.filter f).Nodup :=
  ⟨fun _ h => mem_allIslands.mp (List.mem_of_mem_filter h), List.Nodup.filter _ List.nodup_range⟩

variable (s : State)

/-- AON always acts. -/
@[simp] theorem canAct_aon : canAct s 0 = true := rfl

/-! ## Queries -/

/-- The state with its queries replaced. -/
def withQueries (q : Vector Query 14) (s : State) : State := { s with power := { s.power with query := q } }

/-- The query of no island. -/
def noQuery : Query := ⟨0, 0, 0, .idle⟩

/-- Steps that each change one query change the queries only, one by one. -/
theorem foldl_withQueries {f : State → Nat → State} {g : Nat → Query → Query} {l : List Nat}
    (h : ∀ q, ∀ i ∈ l, f (withQueries q s) i = withQueries (vset q i (g i (vget noQuery q i))) s) (q : Vector Query 14) :
    l.foldl f (withQueries q s) = withQueries (l.foldl (fun q i => vset q i (g i (vget noQuery q i))) q) s := by
  induction l generalizing q with
  | nil => rfl
  | cons i l ih =>
    rw [List.foldl_cons, h q i List.mem_cons_self, ih (fun q i hi => h q i (List.mem_cons_of_mem _ hi)), List.foldl_cons]

/-- A query withdrawn: an island that had accepted is told ABORTED (R356). -/
def Query.withdrawn (q : Query) : Query :=
  if q.phase = .idle then q else { q with kind := 0, level := 0, phase := .idle, outcome := if q.phase = .accepted then 2 else q.outcome }

/-- A withdrawn query is idle, and ABORTED where it had been accepted. -/
theorem Query.withdrawn_idle (q : Query) : q.withdrawn.phase = .idle ∧ (q.phase = .accepted → q.withdrawn.outcome = 2) := by
  unfold Query.withdrawn
  split
  · rename_i h
    exact ⟨h, fun h' => by rw [h] at h'; cases h'⟩
  · exact ⟨rfl, fun h => if_pos h⟩

/-- An entry put back where it stands changes nothing. -/
theorem vset_vget {α : Type} {n : Nat} (d : α) (v : Vector α n) (i : Nat) : vset v i (vget d v i) = v := by
  apply Vector.ext
  intro k hk
  simp only [vset, vget, Vector.getElem_setIfInBounds]
  split
  · subst_vars; simp [hk]
  · rfl

/-- A query withdrawn changes that query only. -/
theorem withdrawQuery_eq (i : Nat) : withdrawQuery i s = withQueries (vset s.power.query i (getQuery s i).withdrawn) s := by
  unfold withdrawQuery modPower Query.withdrawn withQueries
  dsimp only
  split
  · rw [getQuery, vset_vget]
  · rfl

/-- Withdrawing every query changes the queries only, each as `withdrawn` says. -/
theorem withdrawAll_eq : ∃ q, withdrawAll s = withQueries q s ∧ ∀ j, j < 14 → vget noQuery q j = (getQuery s j).withdrawn := by
  refine ⟨_, foldl_withQueries s (g := fun _ q => q.withdrawn) (fun q i _ => withdrawQuery_eq (withQueries q s) i) s.power.query, fun j hj => ?_⟩
  rw [vget_foldl_vset noQuery (fun _ q => q.withdrawn) allIslands (fun _ h => mem_allIslands.mp h) List.nodup_range, if_pos (mem_allIslands.mpr hj)]
  rfl

/-- The query that an island is sent: a HALTED core's island is answered ACCEPT on its behalf (R355). -/
def askedQuery (i kind level : Nat) : Query :=
  ⟨kind, level, (getQuery s i).outcome, if hasCore i = true ∧ (getCore s i).halted = true then .accepted else .awaiting s.time.us⟩

/-- An island queried. -/
theorem sendQuery_eq (i kind level : Nat) : sendQuery i kind level s = withQueries (vset s.power.query i (askedQuery s i kind level)) s := by
  unfold sendQuery askedQuery withQueries modPower
  simp only [Bool.and_eq_true]

/-- Islands queried one after another. -/
theorem sendQueries_eq (kind level : Nat) (f : Nat → Bool) : ∃ q, (allIslands.filter f).foldl (fun s i => sendQuery i kind level s) s = withQueries q s ∧
    ∀ j, j < 14 → vget noQuery q j = if f j = true then askedQuery s j kind level else getQuery s j := by
  refine ⟨_, foldl_withQueries s (g := fun i q => { askedQuery s i kind level with outcome := q.outcome }) (fun q i _ => by
    rw [sendQuery_eq]; rfl) s.power.query, fun j hj => ?_⟩
  rw [vget_foldl_vset noQuery (fun i q => { askedQuery s i kind level with outcome := q.outcome }) _ (islands_filter f).1 (islands_filter f).2]
  by_cases h : f j = true
  · rw [if_pos h, if_pos (List.mem_filter.mpr ⟨mem_allIslands.mpr hj, h⟩)]
    rfl
  · rw [if_neg h, if_neg (fun hm => h (List.mem_filter.mp hm).2)]
    rfl

/-- Queries that are over are idle. -/
theorem getQuery_closeQueries (j : Nat) : (getQuery (closeQueries s) j).phase = .idle := by
  have h := vget_map noQuery (fun q : Query => ({ q with kind := 0, level := 0, phase := .idle } : Query)) s.power.query j
  exact congrArg Query.phase h

/-- Every query answered ACCEPT, as the obligations say it. -/
theorem allAccepted_iff : allAccepted s = true ↔ ∀ q ∈ s.power.query.toList, q.phase = .idle ∨ q.phase = .accepted := by
  simp only [allAccepted, List.all_eq_true, Bool.or_eq_true, beq_iff_eq]

/-- The same, island by island. -/
theorem allAccepted_iff_islands : allAccepted s = true ↔ ∀ j : Island, (getQuery s j).phase = .idle ∨ (getQuery s j).phase = .accepted := by
  rw [allAccepted_iff]
  have get : ∀ j : Island, getQuery s j = s.power.query[j] := fun j => by simp [getQuery, vget]
  constructor
  · intro h j
    rw [get]
    exact h _ (Vector.mem_toList_iff.mpr (Vector.getElem_mem j.isLt))
  · intro h q hq
    obtain ⟨j, hj, rfl⟩ := Vector.mem_iff_getElem.mp (Vector.mem_toList_iff.mp hq)
    have := h ⟨j, hj⟩
    rwa [get] at this

/-! ## The PARK admission (R97, R357) -/

/-- From gate `a` to gate `b` the PARK admission and its handle are as they were, or both are gone. -/
def AdmissionKept (a b : TollState) : Prop :=
  (∀ h ∈ b.handles, h ∈ a.handles) ∧ (b.parking = a.parking ∨ b.parking = none ∧ ∀ h, a.parking = some h → h ∉ b.handles)

theorem AdmissionKept.refl (a : TollState) : AdmissionKept a a := ⟨fun _ h => h, .inl rfl⟩

theorem AdmissionKept.trans {a b c : TollState} (h : AdmissionKept a b) (h' : AdmissionKept b c) : AdmissionKept a c := by
  refine ⟨fun x hx => h.1 x (h'.1 x hx), ?_⟩
  rcases h'.2 with e' | ⟨e', g'⟩
  · rcases h.2 with e | ⟨e, g⟩
    · exact .inl (e'.trans e)
    · exact .inr ⟨e'.trans e, fun x hx hc => g x hx (h'.1 x hc)⟩
  · rcases h.2 with e | ⟨e, g⟩
    · exact .inr ⟨e', fun x hx => g' x (e.trans hx)⟩
    · exact .inr ⟨e', fun x hx hc => g x hx (h'.1 x hc)⟩

/-- A handle cancelled is gone, with the admission if it was its. -/
theorem tollCancelHandle_eq (h : Nat) : ∃ g, tollCancelHandle h s = { s with toll := g } ∧ AdmissionKept s.toll g ∧
    h ∉ g.handles ∧ (s.toll.parking = some h → g.parking = none) := by
  refine ⟨(tollCancelHandle h s).toll, rfl, ⟨fun x hx => (List.mem_filter.mp hx).1, ?_⟩, ?_, fun hp => if_pos hp⟩
  · by_cases hp : s.toll.parking = some h
    · refine .inr ⟨if_pos hp, fun x hx hm => ?_⟩
      rw [hp] at hx
      cases hx
      simp [tollCancelHandle, modToll] at hm
    · exact .inl (if_neg hp)
  · simp [tollCancelHandle, modToll]

/-- Jobs that end change the jobs and the gate only. -/
theorem endJobs_eq (f : Job → Bool) : ∃ g j, endJobs f s = { s with toll := g, span := { s.span with jobs := j } } ∧ AdmissionKept s.toll g := by
  have fold : ∀ (l : List Job) (s : State), ∃ g, l.foldl (fun s j => match j.handle with | some h => tollCancelHandle h s | none => s) s =
      { s with toll := g } ∧ AdmissionKept s.toll g := by
    intro l
    induction l with
    | nil => exact fun s => ⟨s.toll, rfl, .refl _⟩
    | cons j l ih =>
      intro s
      rw [List.foldl_cons]
      cases j.handle with
      | none => exact ih s
      | some h =>
        obtain ⟨g, hg, hk, -⟩ := tollCancelHandle_eq s h
        obtain ⟨g', hg', hk'⟩ := ih { s with toll := g }
        exact ⟨g', by dsimp only; rw [hg, hg'], hk.trans hk'⟩
  obtain ⟨g, hg, hk⟩ := fold (s.span.jobs.filter f) (modSpan (fun p => { p with jobs := p.jobs.filter (fun j => !f j) }) s)
  exact ⟨g, _, hg, hk⟩

/-- The answer of the PARK class takes the admission and its handle (R97, R357). -/
theorem parkAnswer_eq (st : Status) : ∃ g j, parkAnswer st s = { s with toll := g, span := { s.span with jobs := j } } ∧
    g.parking = none ∧ ∀ h, s.toll.parking = some h → h ∉ g.handles := by
  obtain ⟨g, j, h, hkept⟩ := endJobs_eq s (fun j => j.kind == .park)
  unfold parkAnswer
  dsimp only
  rw [h]
  cases hp : g.parking with
  | none =>
    refine ⟨g, j, rfl, hp, fun x hx => ?_⟩
    rcases hkept.2 with e | ⟨-, e⟩
    · rw [hp, hx] at e; cases e
    · exact e x hx
  | some x =>
    obtain ⟨g', hg', -, hno, hnone⟩ := tollCancelHandle_eq { s with toll := g, span := { s.span with jobs := j } } x
    refine ⟨g', j, hg', hnone hp, fun y hy => ?_⟩
    rcases hkept.2 with e | ⟨e, -⟩
    · rw [hp, hy] at e
      cases e
      exact hno
    · rw [hp] at e; cases e

end Sys2Proof.Machine
end

section
/-! SUPPORT. PARK entry, the wake sources and the wake event (R27, R357 to R361). -/

namespace Sys2Proof.Machine

/-! ## Islands that leave RUN together (R357) -/

section
variable {s t : State}

theorem Calm.power (h : Calm s t) : t.power = s.power := congrArg Outer.power h.1
theorem Calm.park (h : Calm s t) : t.park = s.park := congrArg Outer.park h.1
theorem Calm.time (h : Calm s t) : t.time = s.time := congrArg Outer.time h.1
theorem Calm.freeze (h : Calm s t) : t.freeze = s.freeze := congrArg Outer.freeze h.1

/-- The power controller updated on both sides. -/
theorem Calm.modPower (h : Calm s t) (f : PowerState → PowerState) : Calm (modPower f s) (modPower f t) := by
  obtain ⟨ho, hp⟩ := h
  refine ⟨?_, hp⟩
  rw [outer, Outer.mk.injEq] at ho ⊢
  exact ⟨congrArg f ho.1, ho.2⟩

end

variable (s : State)

/-- The power states once the listed islands are put in a state. -/
def putStates (p : PState) (l : List Nat) (w : PowerState) : PowerState := { w with st := l.foldl (fun v i => vset v i p) w.st }

/-- The listed islands stand in the state they were put in, every other as before. -/
theorem pstate_putStates {p : PState} {l : List Nat} (hl : ∀ i ∈ l, i < 14) (hnd : l.Nodup) {j : Nat} (hj : j ≠ 0) :
    pstate (modPower (putStates p l) s) j = if j ∈ l then p else pstate s j := by
  have h := vget_foldl_vset PState.off (fun _ _ => p) l hl hnd s.power.st j
  simp only [pstate, if_neg hj]
  exact h

/-- Islands in RUN that leave it one after another are STOPPING. -/
theorem calm_leaveRuns (l : List Nat) (hnd : l.Nodup) (h0 : ∀ i ∈ l, i ≠ 0) : ∀ s : State, (∀ i ∈ l, pstate s i = .run) →
    Calm (modPower (putStates .stopping l) s) (l.foldl (fun s i => leaveRun i s) s) := by
  induction l with
  | nil => exact fun s _ => .of_outer rfl
  | cons i l ih =>
    intro s hrun
    rw [List.nodup_cons] at hnd
    have hi := calm_leaveRun s (hrun i List.mem_cons_self) (h0 i List.mem_cons_self)
    have hrest : ∀ k ∈ l, pstate (leaveRun i s) k = .run := by
      intro k hk
      have hki : k ≠ i := fun e => hnd.1 (e ▸ hk)
      have h0k := h0 k (List.mem_cons_of_mem _ hk)
      rw [← hrun k (List.mem_cons_of_mem _ hk), pstate, pstate, if_neg h0k, if_neg h0k, hi.power]
      exact vget_vset_ne _ _ _ hki
    exact (hi.modPower (putStates .stopping l)).trans (ih hnd.2 (fun k hk => h0 k (List.mem_cons_of_mem _ hk)) _ hrest)

/-- The islands in RUN but AON, as PARK's commit names them. -/
theorem mem_running {j : Nat} (hj : j < 14) : j ∈ allIslands.filter (fun i => i != 0 && pstate s i == .run) ↔ j ≠ 0 ∧ pstate s j = .run := by
  simp [List.mem_filter, mem_allIslands, hj]

/-- Every island but AON is OFF. -/
theorem allOff_iff : allIslands.all (fun i => i == 0 || pstate s i == .off) = true ↔ ∀ j : Island, j.val ≠ 0 → pstate s j = .off := by
  simp only [List.all_eq_true, mem_allIslands, Bool.or_eq_true, beq_iff_eq]
  exact ⟨fun h j hj => (h j.val j.isLt).resolve_left hj, fun h i hi => or_iff_not_imp_left.mpr (h ⟨i, hi⟩)⟩

/-- The state in the commit cycle of PARK, before the islands stop: the queries over, the entry counted, the admission gone and
device time under the PARK rule. -/
def parkCommitted (φ : Fin 48) (s : State) : State :=
  stopReference φ (countEvent 0 0x041 1 (parkAnswer 0x00 (modPark (fun k =>
    { k with phase := .stopping, last := 0x00, entries := satTo 0xFFFF (k.entries + 1), woken := false }) (closeQueries s))))

/-- What the commit cycle of PARK does to the controller, PARK and device time. -/
theorem outer_parkCommitted (φ : Fin 48) : outer (parkCommitted φ s) =
    { power := (closeQueries s).power
      park := { s.park with phase := .stopping, last := 0x00, entries := satTo 0xFFFF (s.park.entries + 1), woken := false }
      time := { s.time with src := if s.time.xtal32Failed then .rc4M else .crystal, frac := 32 * φ.val }
      freeze := s.freeze, clockStop := s.par.clockStop, parking := none } := by
  obtain ⟨g, j, h, hg, -⟩ := parkAnswer_eq (modPark (fun k =>
    { k with phase := .stopping, last := 0x00, entries := satTo 0xFFFF (k.entries + 1), woken := false }) (closeQueries s)) 0x00
  unfold parkCommitted
  rw [h]
  obtain ⟨p, hp⟩ := countEvent_eq ({ modPark (fun k =>
    { k with phase := .stopping, last := 0x00, entries := satTo 0xFFFF (k.entries + 1), woken := false }) (closeQueries s) with
      toll := g, span := { s.span with jobs := j } }) 0 0x041 1
  refine (congrArg (fun u => outer (stopReference φ u)) hp).trans ?_
  rw [← hg]
  rfl

/-- PARK entry committed (R357, R358): every island in RUN but AON is STOPPING, and PARKED holds at once where all are OFF. -/
theorem parkCommit_eq (φ : Fin 48) : ∃ t, parkStopped ((allIslands.filter (fun i => i != 0 && pstate s i == .run)).foldl
      (fun s i => leaveRun i s) (parkCommitted φ s)) = t ∧
    t.park = { s.park with
      phase := if ∀ j : Island, j.val ≠ 0 → pstate s j = .off then .parked else .stopping
      last := 0x00, entries := satTo 0xFFFF (s.park.entries + 1), woken := false } ∧
    (∀ j : Island, j.val ≠ 0 → pstate t j = if pstate s j = .run then .stopping else pstate s j) ∧
    (∀ j : Island, (getQuery t j).phase = .idle) ∧ t.toll.parking = none ∧
    t.time = { s.time with src := if s.time.xtal32Failed then .rc4M else .crystal, frac := 32 * φ.val } := by
  obtain ⟨hl, hnd⟩ := islands_filter (fun i => i != 0 && pstate s i == .run)
  have hmem := @mem_running s
  generalize hls : allIslands.filter (fun i => i != 0 && pstate s i == .run) = l at hl hnd hmem
  have hu := outer_parkCommitted s φ
  generalize parkCommitted φ s = u at hu
  rw [outer, Outer.mk.injEq] at hu
  obtain ⟨hpower, hpark, htime, -, -, hparking⟩ := hu
  have hst : ∀ j, pstate u j = pstate s j := fun j => by simp only [pstate, hpower]; rfl
  have hcalm := calm_leaveRuns l hnd (fun i hi => ((hmem (hl i hi)).mp hi).1) u (fun i hi => (hst i).trans ((hmem (hl i hi)).mp hi).2)
  generalize l.foldl (fun s i => leaveRun i s) u = t at hcalm
  have htpark := hcalm.park.trans hpark
  have htst : ∀ j : Island, j.val ≠ 0 → pstate t j = if pstate s j = .run then .stopping else pstate s j := by
    intro j hj
    have : pstate t j = pstate (modPower (putStates .stopping l) u) j := by simp only [pstate, hcalm.power]
    rw [this, pstate_putStates u hl hnd hj, hst]
    simp only [hmem j.isLt, hj, ne_eq, not_false_eq_true, true_and]
  have hoff : allIslands.all (fun i => i == 0 || pstate t i == .off) = true ↔ ∀ j : Island, j.val ≠ 0 → pstate s j = .off := by
    rw [allOff_iff]
    refine forall_congr' fun j => imp_congr_right fun hj => ?_
    rw [htst j hj]
    by_cases h : pstate s j = .run <;> simp [h]
  have hquery : ∀ j : Island, (getQuery t j).phase = .idle := by
    intro j
    rw [← getQuery_closeQueries s j, getQuery, getQuery, hcalm.power]
    exact congrArg (fun w : PowerState => (vget noQuery (putStates .stopping l w).query j).phase) hpower
  have hnone := hcalm.2 hparking
  have htt := hcalm.time.trans htime
  unfold parkStopped
  by_cases h : ∀ j : Island, j.val ≠ 0 → pstate s j = .off
  · rw [if_pos h, if_pos ⟨by rw [htpark], hoff.mpr h⟩, if_neg (by rw [htpark]; simp)]
    exact ⟨_, rfl, by rw [modPark_park, htpark], htst, hquery, hnone, htt⟩
  · rw [if_neg h, if_neg (fun hc => h (hoff.mp hc.2))]
    exact ⟨t, rfl, htpark, htst, hquery, hnone, htt⟩

/-! ## The wake event (R360) -/

/-- The controller once the listed islands are STARTING at their resume levels. -/
def resumed (s : State) (l : List Nat) (w : PowerState) : PowerState :=
  { w with st := l.foldl (fun v i => vset v i .starting) w.st, level := l.foldl (fun v i => vset v i (resumeLevel s i)) w.level }

/-- The PARK exit begins: the islands of RESUME_MASK that are OFF start. -/
theorem parkWake_eq : parkWake s = { s with
    park := { s.park with phase := .waking }
    power := resumed s (allIslands.filter (fun i => i != 0 && bitOf (regValue s 0 .resumeMask 0) i && pstate s i == .off)) s.power } := by
  have fold : ∀ (l : List Nat) (u : State), (∀ i, resumeLevel u i = resumeLevel s i) →
      l.foldl (fun s i => setPState i .starting (modPower (fun p => { p with level := vset p.level i (resumeLevel s i) }) s)) u =
        { u with power := resumed s l u.power } := by
    intro l
    induction l with
    | nil => exact fun _ _ => rfl
    | cons i l ih =>
      intro u hu
      rw [List.foldl_cons, hu i]
      exact ih _ hu
  exact fold _ (modPark (fun k => { k with phase := .waking }) s) (fun _ => rfl)

/-- A resumed island is STARTING at its resume level, every other as before. -/
theorem resumed_reads (f : Nat → Bool) {j : Nat} (hj : j < 14) :
    vget .off (resumed s (allIslands.filter f) s.power).st j = (if f j = true then .starting else vget .off s.power.st j) ∧
    vget 3 (resumed s (allIslands.filter f) s.power).level j = (if f j = true then resumeLevel s j else vget 3 s.power.level j) := by
  obtain ⟨hl, hnd⟩ := islands_filter f
  have hmem : j ∈ allIslands.filter f ↔ f j = true := by simp [List.mem_filter, mem_allIslands, hj]
  have h1 := vget_foldl_vset PState.off (fun _ _ => .starting) _ hl hnd s.power.st j
  have h2 := vget_foldl_vset 3 (fun i _ => resumeLevel s i) _ hl hnd s.power.level j
  simp only [hmem] at h1 h2
  exact ⟨h1, h2⟩

/-- The state at a wake event with the ping engine stopped and the event counted: the sources and the time are latched. -/
def wokenUp (lf : LfState) (p : Vector PerfState 14) : State :=
  { s with lf := lf, perf := p, park := { s.park with wakeLast := wakeDue s, wakeTime := s.time.us, woken := true } }

/-- The wake event of a committed entry: the ping engine stops, the sources and the time are latched, and from PARKED the
islands start (R360, R361). -/
theorem execWakeEvent_committed (hphase : s.park.phase = .stopping ∨ s.park.phase = .parked) (hw : s.park.woken = false) (hd : wakeDue s ≠ 0) :
    ∃ lf p, execWakeEvent s = .next (if s.park.phase = .parked then parkWake (wokenUp s lf p) else wokenUp s lf p) := by
  obtain ⟨p, hp⟩ := countEvent_eq (modPark (fun k => { k with wakeLast := wakeDue s, wakeTime := s.time.us, woken := true }) (stopPingEngine s)) 0 0x042 1
  refine ⟨(stopPingEngine s).lf, p, ?_⟩
  unfold execWakeEvent
  rw [if_pos ⟨hphase, hw, hd⟩]
  dsimp only
  rw [hp]
  rfl

/-! ## PARK_CTRL.REQUEST (R357, R402) -/

/-- A register command to AON runs its action, on a state that differs in the counters only. -/
theorem aonWrite_runs {ini : Nat} (r : Reg) (act : State → Status × State) (hr : canReach s ini 0 = true) :
    ∃ p q, aonWrite ini r act s = setResp ini [] (act { s with perf := p }).1 { (act { s with perf := p }).2 with perf := q } :=
  islandWrite_runs s r act hr (canAct_aon s)

/-- What stands in the way of a PARK entry: a command, a warm restart or an entry under way. -/
def parkBusy : Prop := s.power.queue ≠ [] ∨ s.power.serving.isSome = true ∨ s.par.restarting.isSome = true ∨ s.park.phase ≠ .idle

theorem parkBusy_iff : parkBusy s ↔ ¬(s.power.queue = [] ∧ s.power.serving = none ∧ s.par.restarting = none ∧ s.park.phase = .idle) := by
  simp only [parkBusy, ne_eq, Option.isSome_iff_ne_none]
  tauto

/-- A saturating count is a minimum. -/
theorem satTo_eq (limit x : Nat) : satTo limit x = min limit x := by
  unfold satTo; split <;> omega

/-- PARK as an entry ended by a pending wake leaves it (R357). -/
def parkAborted : ParkState := { s.park with phase := .idle, last := 0x14, aborts := min 0xFFFF (s.park.aborts + 1) }

/-- A request by another writer, or without the PARK admission, is denied. -/
theorem parkRequestWrite_denied {ini : Nat} (h : ¬((ini = 1 ∨ ini = 2) ∧ s.toll.parking ≠ none)) : parkRequestWrite ini s = (0x02, s) := by
  unfold parkRequestWrite
  by_cases hi : ini = 1 ∨ ini = 2
  · have hp : s.toll.parking = none := by_contra fun hp => h ⟨hi, hp⟩
    rw [if_neg (by omega), if_pos (by simp [parkingHolds, hp])]
  · rw [if_pos (by omega)]

/-- A request that may be made: 0xC2 while something stands in its way, else a pending wake aborts it or the islands are asked. -/
theorem parkRequestWrite_allowed {ini : Nat} (h : (ini = 1 ∨ ini = 2) ∧ s.toll.parking ≠ none) :
    (parkBusy s → parkRequestWrite ini s = (0xC2, s)) ∧
    (¬parkBusy s → wakeDue s ≠ 0 → ∃ g j, parkRequestWrite ini s =
      (0x14, { s with park := parkAborted s, toll := g, span := { s.span with jobs := j } }) ∧
      g.parking = none ∧ ∀ h, s.toll.parking = some h → h ∉ g.handles) ∧
    (¬parkBusy s → wakeDue s = 0 → ∃ q, parkRequestWrite ini s =
      (0x00, withQueries q { s with park := { s.park with phase := .querying, first := s.time.us } }) ∧
      ∀ j, j < 14 → vget noQuery q j =
        if (j ≠ 0 ∧ j ≠ 1 ∧ j ≠ ini) ∧ pstate s j = .run then askedQuery s j 3 0 else getQuery s j) := by
  obtain ⟨hi, hp⟩ := h
  unfold parkRequestWrite
  rw [if_neg (by omega), if_neg (by simpa [parkingHolds, Option.ne_none_iff_isSome] using hp)]
  refine ⟨fun hb => if_pos hb, fun hb hw => ?_, fun hb hw => ?_⟩
  · obtain ⟨g, j, ha, hg⟩ := parkAnswer_eq (modPark (fun k => { k with last := 0x14, aborts := satTo 0xFFFF (k.aborts + 1) }) s) 0x14
    refine ⟨g, j, ?_, hg⟩
    have hpark : { s.park with last := 0x14, aborts := satTo 0xFFFF (s.park.aborts + 1) } = parkAborted s := by
      have hphase : s.park.phase = .idle := by_contra fun h => hb (.inr (.inr (.inr h)))
      rw [parkAborted, satTo_eq, ← hphase]
    rw [← hpark]
    exact (if_neg hb).trans ((if_pos hw).trans (congrArg _ ha))
  · obtain ⟨q, hq, hread⟩ := sendQueries_eq (modPark (fun k => { k with phase := .querying, first := s.time.us }) s) 3 0
      (fun i => i != 0 && i != 1 && i != ini && pstate s i == .run)
    refine ⟨q, (if_neg hb).trans ((if_neg (fun hne => hne hw)).trans (congrArg _ hq)), fun j hj => (hread j hj).trans ?_⟩
    simp only [Bool.and_eq_true, bne_iff_ne, beq_iff_eq, and_assoc]
    rfl

/-! ## PARK_COMMIT (R357) -/

/-- A commit with a pending wake ends the entry: the queries are withdrawn and the admission goes. -/
theorem execParkCommit_aborts (φ : Fin 48) (h : s.park.phase = .querying ∧ allAccepted s = true) (hw : wakeDue s ≠ 0) :
    ∃ q g j, execParkCommit φ s =
      .next (withQueries q { s with park := parkAborted s, toll := g, span := { s.span with jobs := j } }) ∧
      (∀ i, i < 14 → vget noQuery q i = (getQuery s i).withdrawn) ∧ g.parking = none ∧
      ∀ h, s.toll.parking = some h → h ∉ g.handles := by
  obtain ⟨q, hq, hread⟩ := withdrawAll_eq s
  obtain ⟨g, j, ha, hg⟩ := parkAnswer_eq (modPark (fun k => { k with phase := .idle, last := 0x14, aborts := satTo 0xFFFF (k.aborts + 1) })
    (withQueries q s)) 0x14
  refine ⟨q, g, j, ?_, hread, hg⟩
  unfold execParkCommit
  rw [if_pos h, if_pos hw, hq, ha, parkAborted, ← satTo_eq]
  rfl

/-- A commit without one: the islands stop. -/
theorem execParkCommit_commits (φ : Fin 48) (h : s.park.phase = .querying ∧ allAccepted s = true) (hw : wakeDue s = 0) :
    execParkCommit φ s = .next (parkStopped ((allIslands.filter (fun i => i != 0 && pstate s i == .run)).foldl
      (fun s i => leaveRun i s) (parkCommitted φ s))) := by
  unfold execParkCommit
  rw [if_pos h, if_neg (fun hne => hne hw)]
  rfl

end Sys2Proof.Machine
end

section
/-! SUPPORT. The boot ROM, the deck's start and an island's entry to RUN, as the power controller sees them: power states, the
command served and its results, PARK but for the wake sources, device time, freeze and the clock stop (R350, R360, R451). -/

namespace Sys2Proof.Machine

/-- What the power controller and PARK hold beside levels, queued commands, queries and wake sources. -/
structure Steady where
  st        : Vector PState 14
  serving   : Option Serving
  results   : List PwrResult
  park      : ParkState
  time      : TimeState
  freeze    : FreezeState
  clockStop : Bool

/-- These parts of a state. -/
def steady (s : State) : Steady :=
  ⟨s.power.st, s.power.serving, s.power.results, { s.park with wakePend := 0 }, s.time, s.freeze, s.par.clockStop⟩

variable (s : State)

/-- Either of two states is seen by its own view. -/
@[simp] theorem steady_ite (P : Prop) [Decidable P] (a b : State) : steady (if P then a else b) = if P then steady a else steady b :=
  apply_ite steady P a b

/-- A fold of steps that keep the view keeps it. -/
@[simp] theorem steady_foldl {α : Type} {f : State → α → State} (l : List α) (h : ∀ s x, steady (f s x) = steady s) :
    steady (l.foldl f s) = steady s := foldl_keeps steady h l s

/-! ## Updates of one block -/

@[simp] theorem steady_modBoot (f) : steady (modBoot f s) = steady s := rfl
@[simp] theorem steady_modCipher (f) : steady (modCipher f s) = steady s := rfl
@[simp] theorem steady_modSlot (i) (f) : steady (modSlot i f s) = steady s := rfl
@[simp] theorem steady_modCore (i) (f) : steady (modCore i f s) = steady s := rfl
@[simp] theorem steady_modLf (f) : steady (modLf f s) = steady s := rfl
@[simp] theorem steady_modRf (f) : steady (modRf f s) = steady s := rfl
@[simp] theorem steady_modPsr (f) : steady (modPsr f s) = steady s := rfl
@[simp] theorem steady_modVia (f) : steady (modVia f s) = steady s := rfl
@[simp] theorem steady_modSigner (f) : steady (modSigner f s) = steady s := rfl
@[simp] theorem steady_setKey (j k) : steady (setKey j k s) = steady s := rfl
@[simp] theorem steady_modSpan (f) : steady (modSpan f s) = steady s := rfl
@[simp] theorem steady_modBay (b) (f) : steady (modBay b f s) = steady s := rfl
@[simp] theorem steady_modStore (f) : steady (modStore f s) = steady s := rfl
@[simp] theorem steady_modToll (f) : steady (modToll f s) = steady s := rfl
@[simp] theorem steady_memWriteBytes (a bs) : steady (memWriteBytes a bs s) = steady s := rfl
@[simp] theorem steady_putReg (i r k w) : steady (putReg s i r k w) = steady s := rfl
@[simp] theorem steady_useFree : steady (useFree s) = steady s := rfl
@[simp] theorem steady_setResp (ini d st) : steady (setResp ini d st s) = steady s := rfl
@[simp] theorem steady_fireWake (b) : steady (fireWake b s) = steady s := rfl
@[simp] theorem steady_requestChange (c) : steady (requestChange c s) = steady s := rfl
@[simp] theorem steady_tollCancelHandle (h) : steady (tollCancelHandle h s) = steady s := rfl
@[simp] theorem steady_forgetJobs (b) : steady (forgetJobs b s) = steady s := rfl
@[simp] theorem steady_oweStop (b c) : steady (oweStop b c s) = steady s := rfl
@[simp] theorem steady_askCapture (b k t) : steady (askCapture b k t s) = steady s := rfl

@[simp] theorem steady_countEvent (i ev n : Nat) : steady (countEvent i ev n s) = steady s := by
  obtain ⟨p, h⟩ := countEvent_eq s i ev n
  rw [h]; rfl

/-! ## The journal and the host's frames -/

@[simp] theorem steady_submitRecord (r : JRecord) : steady (submitRecord r s) = steady s := by
  obtain ⟨q, c, o, m, p, h, -⟩ := submitRecord_eq r s
  rw [h]; rfl

@[simp] theorem steady_drainFrames : steady (drainFrames s) = steady s := by
  obtain ⟨l, z, o, p, h⟩ := drainFrames_eq s
  rw [h]; rfl

@[simp] theorem steady_sendEvent (typ bay : Nat) (st : Status) (body : List Byte) : steady (sendEvent typ bay st body s) = steady s := by
  obtain ⟨l, z, o, p, h⟩ := sendEvent_eq typ bay st body s
  rw [h]; rfl

@[simp] theorem steady_answerIf (r : Option HostReq) (st : Status) (cls : Nat) : steady (answerIf r st cls s) = steady s := by
  obtain ⟨l, z, o, p, h⟩ := answerIf_eq r st cls s
  rw [h]; rfl

@[simp] theorem steady_parapetEvent (code : Status) (i u : Nat) (d : List Byte) : steady (parapetEvent code i u d s) = steady s := by
  obtain ⟨p, h⟩ := parapetEvent_eq code i u d s
  rw [h]; rfl

/-! ## Spans and requests -/

@[simp] theorem steady_deckRequest (k : JobKind) (cl : List Nat) (b : Nat) : steady (deckRequest k cl b s).2 = steady s := by
  have hreq : ∀ w, steady (tollReqWrite w s).2 = steady s := by
    intro w
    unfold tollReqWrite
    cases s.toll.parking <;> dsimp only <;> split <;> simp
  unfold deckRequest
  dsimp only
  split <;> simp [hreq]

@[simp] theorem steady_reserveIds : steady (reserveIds s) = steady s := by
  obtain ⟨c, h⟩ := reserveIds_eq s
  rw [h]; rfl

@[simp] theorem steady_spanMove (b nxt : Nat) (st : Option Status) (seq : Nat) : steady (spanMove b nxt st seq s) = steady s := by
  obtain ⟨q, c, o, m, p, h, -⟩ := spanMove_eq b nxt st seq s
  rw [h]; rfl

@[simp] theorem steady_dropHandle (b : Nat) : steady (dropHandle b s) = steady s := by
  unfold dropHandle
  split <;> simp

@[simp] theorem steady_spanEnd (b nxt : Nat) (st : Option Status) (seq : Nat) : steady (spanEnd b nxt st seq s) = steady s := by
  simp [spanEnd]

@[simp] theorem steady_spanAbort (b : Nat) (st : Status) : steady (spanAbort b st s) = steady s := by
  simp [spanAbort]

@[simp] theorem steady_spanClosing (b reason : Nat) (st : Status) (stop : Bool) : steady (spanClosing b reason st stop s) = steady s := by
  simp [spanClosing]

@[simp] theorem steady_missedCapture (b kind time : Nat) : steady (missedCapture b kind time s) = steady s := by
  simp [missedCapture]

@[simp] theorem steady_releasedGoesOn (b : Nat) : steady (releasedGoesOn b s) = steady s := by
  simp [releasedGoesOn]

@[simp] theorem steady_meteringGoesOn (b : Nat) : steady (meteringGoesOn b s) = steady s := by
  simp [meteringGoesOn]

@[simp] theorem steady_closingGoesOn (b : Nat) : steady (closingGoesOn b s) = steady s := by
  simp [closingGoesOn]

@[simp] theorem steady_renewNext : steady (renewNext s) = steady s := by
  simp [renewNext]

/-! ## What waited for the deck -/

@[simp] theorem steady_captureOutcome (b : Nat) (st mst : Status) (e : Nat) (raw : List Byte) :
    steady (captureOutcome b st mst e raw s) = steady s := by
  simp [captureOutcome]

@[simp] theorem steady_bayEvent (b id st : Nat) (ev : Nat × Nat × List Byte × Status) : steady (bayEvent b id st ev s) = steady s := by
  unfold bayEvent sendSpanEvent
  split <;> simp

@[simp] theorem steady_tokenEnded (b : Nat) (t : Token) (how : Nat) (code : Byte) : steady (tokenEnded b t how code s) = steady s := by
  simp [tokenEnded]

@[simp] theorem steady_meterReplyTaken (b : Nat) (r : MeterReply) : steady (meterReplyTaken b r s) = steady s := by
  unfold meterReplyTaken
  split <;> simp

@[simp] theorem steady_reportTaken (b report : Nat) (code : Byte) (counter : Nat) :
    steady (reportTaken b report code counter s) = steady s := by
  have hstop : ∀ (q : Option StopReq) (u : State), steady (match q with
      | some q => if q.counter = counter then modSpan (fun x => { x with stops := vset x.stops b none }) u else u
      | none => u) = steady u := by
    intro q u
    cases q with
    | none => rfl
    | some q => exact ite_keeps steady rfl rfl
  have htoken : ∀ (t : Option Token) (u : State), steady (match t with
      | some t => if t.counter = counter ∧ report ≤ 1 then tokenEnded b t report (if report = 1 then code else 0) u else u
      | none => u) = steady u := by
    intro t u
    cases t with
    | none => rfl
    | some t => exact ite_keeps steady (steady_tokenEnded _ _ _ _ _) rfl
  unfold reportTaken
  refine ite_keeps steady rfl (ite_keeps steady
    (ite_keeps steady ((steady_modBay _ _ _).trans ?_) (ite_keeps steady ((steady_oweStop _ _ _).trans ?_) ?_))
    (ite_keeps steady (ite_keeps steady ((steady_spanClosing _ _ _ _ _).trans ?_) ?_)
      (ite_keeps steady ((steady_spanClosing _ _ _ _ _).trans ?_) ?_)))
  all_goals exact (htoken _ _).trans ((hstop _ _).trans (steady_submitRecord _ _))

@[simp] theorem steady_deliverHeld : steady (deliverHeld s) = steady s := by
  refine steady_foldl _ _ (fun s f => ?_)
  split <;> simp

@[simp] theorem steady_spansOpen : steady (spansOpen s) = steady s := by
  simp [spansOpen]

@[simp] theorem steady_recoveryRecord (i : Nat) (cause : Status) (lost ab : Nat) : steady (recoveryRecord i cause lost ab s) = steady s := by
  simp [recoveryRecord]

@[simp] theorem steady_restartRebuild : steady (restartRebuild s) = steady s := by
  refine (steady_spansOpen _).trans ((steady_foldl _ _ fun s x => ?_).trans ((steady_renewNext _).trans ((steady_putReg _ _ _ _ _).trans
    ((steady_foldl _ _ fun s x => ?_).trans ((steady_foldl _ _ fun s x => ?_).trans ((steady_recoveryRecord _ _ _ _ _).trans (steady_modSpan _ _)))))))
  · simp
  · simp
  · simp

@[simp] theorem steady_bootSpans : steady (bootSpans s) = steady s := by
  simp [bootSpans]

@[simp] theorem steady_deckStarts : steady (deckStarts s) = steady s := by
  simp [deckStarts]

/-! ## Keys and signatures -/

@[simp] theorem steady_signerStart (j : SignJob) : steady (signerStart j s) = steady s := by
  have hreq : ∀ w n (s : State), steady (rngRequest w n s) = steady s := by
    intro w n s
    unfold rngRequest
    dsimp only
    split
    · rfl
    · split
      · rfl
      · split
        · rfl
        · rfl
        · exact ite_keeps steady (ite_keeps steady rfl rfl) rfl
  simp [signerStart, hreq]

@[simp] theorem steady_sigAppend (j : SignJob) : steady (sigAppend j s) = steady s := by
  unfold sigAppend
  split
  · rfl
  · split
    · rfl
    · split <;> simp

@[simp] theorem steady_bootSign : steady (bootSign s) = steady s := by
  simp [bootSign]

@[simp] theorem steady_loadSigner : steady (loadSigner s) = steady s := by
  simp only [loadSigner, steady_setKey]

@[simp] theorem steady_deliverHwm : steady (deliverHwm s) = steady s := by
  simp [deliverHwm]

@[simp] theorem steady_loadBlob (i : Nat) : steady (loadBlob i s) = steady s := by
  simp [loadBlob]

@[simp] theorem steady_loadKeys : steady (loadKeys s) = steady s := by
  simp [loadKeys]

@[simp] theorem steady_keystoneLoads : steady (keystoneLoads s) = steady s := by
  simp [keystoneLoads]

/-! ## The boot ROM's steps (R451, R457 to R461) -/

@[simp] theorem steady_zeroKeyBlobs : steady (zeroKeyBlobs s) = steady s := rfl
@[simp] theorem steady_zeroIdentity : steady (zeroIdentity s) = steady s := rfl

@[simp] theorem steady_zeroOutside : steady (zeroOutside s) = steady s := by
  simp [zeroOutside]

@[simp] theorem steady_bootImage : steady (bootImage s) = steady s := by
  unfold bootImage bootFrom
  dsimp only
  split <;> simp

@[simp] theorem steady_clearOrder : steady (clearOrder s) = steady s := steady_foldl s _ (fun _ _ => rfl)

@[simp] theorem steady_orderOver (st : Status) : steady (orderOver st s) = steady s := by
  simp [orderOver]

@[simp] theorem steady_orderTaken (o : List Byte) : steady (orderTaken o s) = steady s := by
  simp [orderTaken]

@[simp] theorem steady_bootOrder : steady (bootOrder s) = steady s := by
  simp [bootOrder]

@[simp] theorem steady_rebuildLedger : steady (rebuildLedger s) = steady s := by
  simp [rebuildLedger, appendGap]

@[simp] theorem steady_bootBegin : steady (bootBegin s) = steady s := by
  unfold bootBegin orderKeys
  refine (steady_bootOrder _).trans ?_
  have hledger : ∀ u : State, steady (if u.store.taken then requestChange .bootCount u else rebuildLedger u) = steady u :=
    fun u => ite_keeps steady rfl (steady_rebuildLedger u)
  exact ite_keeps steady ((steady_loadSigner _).trans (hledger _)) (hledger _)

@[simp] theorem steady_claimRecords (k : SignKey) : steady (claimRecords k s) = steady s := by
  unfold claimRecords
  split <;> simp

/-- The boot ROM's steps leave the power controller's states, its results, PARK, device time, freeze and the clock stop alone. -/
@[simp] theorem steady_bootStep : steady (bootStep s) = steady s := by
  unfold bootStep
  dsimp only
  rw [steady_deckStarts, steady_bootSign]
  split
  · simp
  · split <;> simp
  · simp [committed]
  · rfl

/-! ## An island's entry to RUN (R28, R226, R249, R333, R360) -/

@[simp] theorem steady_rngEnableWrite (on : Bool) : steady (rngEnableWrite on s) = steady s := by
  unfold rngEnableWrite
  dsimp only
  split
  · exact ite_keeps steady rfl rfl
  · rfl

@[simp] theorem steady_storeStart : steady (storeStart s) = steady s := by
  unfold storeStart
  split <;> exact ite_keeps steady rfl rfl

@[simp] theorem steady_coreEnters (i : Nat) : steady (coreEnters i s) = steady s := by
  simp [coreEnters]

@[simp] theorem steady_deckWakes : steady (deckWakes s) = steady s := by
  simp [deckWakes]

/-- An island that reaches RUN is in RUN with its copy of device time loaded; of the view nothing else changes. -/
theorem steady_enterRun (i : Nat) : steady (enterRun i s) =
    { steady s with st := vset s.power.st i .run, time := { s.time with copies := vset s.time.copies i s.time.us } } := by
  have h0 : steady (modTime (fun t => { t with copies := vset t.copies i t.us }) (setPState i .run s)) =
      { steady s with st := vset s.power.st i .run, time := { s.time with copies := vset s.time.copies i s.time.us } } := rfl
  rw [← h0]
  simp [enterRun]

end Sys2Proof.Machine
end

section
/-! SUPPORT. The PARK exit: the islands run, AON's messages, a freeze asked for, and the clock stop of a reference that is not
valid (R360, R362, R373). -/

namespace Sys2Proof.Machine

variable (s : State)

/-! ## The clock stop (R372, R373) -/

theorem steady_stopAllPiers (st : Status) : steady (stopAllPiers st s) = steady s := by
  obtain ⟨⟨v, a, q, c, o, m, f, h⟩, -, -⟩ := pierEnd_fold st (List.range 8) (fun n hn => List.mem_range.mp hn) List.nodup_range s
  unfold stopAllPiers
  rw [h]
  rfl

theorem steady_radioOff : steady (radioOff s) = steady s := by
  unfold radioOff rfAtOnce rfEnded dropReq
  simp

/-- The reference's failure begins the clock stop; of the view nothing else changes. -/
theorem steady_crystalLost : steady (crystalLost s) = { steady s with clockStop := true } := by
  unfold crystalLost
  split
  · rename_i h
    rw [← h]
    rfl
  · rw [steady_parapetEvent, stopAir, steady_radioOff, steady_stopAllPiers]
    rfl

/-! ## Islands that enter RUN together (R360) -/

/-- The view once the listed islands run, their copies of device time loaded. -/
def Steady.ran (l : List Nat) (x : Steady) : Steady :=
  { x with
    st := l.foldl (fun v i => vset v i .run) x.st
    time := { x.time with copies := l.foldl (fun v i => vset v i x.time.us) x.time.copies } }

theorem steady_enterRuns (l : List Nat) : ∀ s : State, steady (l.foldl (fun s i => enterRun i s) s) = (steady s).ran l := by
  induction l with
  | nil => exact fun _ => rfl
  | cons i l ih =>
    intro s
    rw [List.foldl_cons, ih, steady_enterRun]
    rfl

/-! ## AON's messages and a freeze (R342, R360, R362, R440) -/

theorem steady_senseArrive (source b : Nat) (ident : List Byte) (req : Option HostReq) :
    steady (senseArrive source b ident req s) = steady s := by
  unfold senseArrive
  dsimp only
  cases s.span.queue.find? (fun e => e.bay == b && e.source == source) <;> simp

theorem steady_fobHello : steady (fobHello s) = steady s := by
  have hnext : ∀ u : State, steady (sweepNext u) = steady u := by
    intro u
    unfold sweepNext
    cases u.span.sweep with
    | none => rfl
    | some w => exact ite_keeps steady (steady_deckRequest u _ _ _) ((steady_modSpan _ _).trans (steady_deckRequest u _ _ _))
  exact ite_keeps steady rfl (hnext _)

/-- AON's messages leave the view alone but for what they were for. -/
theorem steady_parkMessages : steady (parkMessages s) =
    { steady s with park := { s.park with wakePend := 0, pingBay := none, wurxSite := none } } := by
  have hsense : ∀ p : Option (Nat × Nat), steady (match p with
      | some (b, _) => if bitOf s.park.wakeLast 0 ∧ canAct s 1 then senseArrive 0 b [] none (countEvent 1 0x008 1 s) else s
      | none => s) = steady s := by
    intro p
    cases p with
    | none => rfl
    | some x => exact ite_keeps steady ((steady_senseArrive _ _ _ _ _).trans (steady_countEvent _ _ _ _)) rfl
  have hclear : ∀ u : State, steady u = steady s → steady (modPark (fun k => { k with pingBay := none, wurxSite := none }) u) =
      { steady s with park := { s.park with wakePend := 0, pingBay := none, wurxSite := none } } := by
    intro u hu
    exact congrArg (fun x : Steady => { x with park := { x.park with pingBay := none, wurxSite := none } }) hu
  exact hclear _ (ite_keeps steady ((steady_fobHello _).trans ((steady_countEvent _ _ _ _).trans (hsense _))) (hsense _))

/-- A freeze that takes hold is noted; of the view nothing else changes. -/
theorem steady_freezeNow : steady (freezeNow s) = { steady s with freeze := { s.freeze with frozen := true, start := s.time.us } } := by
  have hheld : ∀ (s : State) (i : Nat), steady (answerHeld i s) = steady s := by
    intro s i
    refine (steady_foldl _ _ fun s h => ?_).trans (steady_modVia s _)
    obtain ⟨v, p, hn, -⟩ := noteOff_eq s h.src (islandBase i) true false true
    rw [steady_setResp, steady_countEvent, hn]
    rfl
  unfold freezeNow freezeOutputs
  rw [steady_modLf, steady_modRf, foldl_keeps steady hheld]
  rfl

/-- A freeze asked for in PARK takes hold, and is asked for no more. -/
theorem parkFreeze_view : (parkFreeze s).power.st = s.power.st ∧ (parkFreeze s).time = s.time ∧
    (parkFreeze s).par.clockStop = s.par.clockStop ∧ (parkFreeze s).park.phase = s.park.phase ∧
    (parkFreeze s).park.woken = s.park.woken ∧ (parkFreeze s).park.pingBay = s.park.pingBay ∧
    (parkFreeze s).park.freezeAtResume = false ∧ (parkFreeze s).freeze.frozen = (s.freeze.frozen || s.park.freezeAtResume) := by
  unfold parkFreeze
  by_cases hf : s.park.freezeAtResume = true
  · rw [if_pos hf, hf, Bool.or_true]
    have h := steady_freezeNow (modPark (fun k => { k with freezeAtResume := false }) s)
    generalize freezeNow _ = t at h ⊢
    refine ⟨congrArg Steady.st h, congrArg Steady.time h, congrArg Steady.clockStop h, ?_, ?_, ?_, ?_, ?_⟩
    · exact congrArg (fun x : Steady => x.park.phase) h
    · exact congrArg (fun x : Steady => x.park.woken) h
    · exact congrArg (fun x : Steady => x.park.pingBay) h
    · exact congrArg (fun x : Steady => x.park.freezeAtResume) h
    · exact congrArg (fun x : Steady => x.freeze.frozen) h
  · rw [if_neg hf, Bool.eq_false_iff.mpr hf, Bool.or_false]
    exact ⟨rfl, rfl, rfl, rfl, rfl, rfl, rfl, rfl⟩

/-! ## PARK_RESUME -/

/-- The state at the resume, before AON's messages: the clock stop where the reference is not valid, PARK over, and the starting
islands in RUN. -/
def parkResumed (refValid : Bool) (s : State) : State :=
  let u := modPark (fun k => { k with phase := .idle, woken := false }) (if refValid then s else crystalLost s)
  (allIslands.filter (fun i => pstate u i == .starting)).foldl (fun s i => enterRun i s) u

theorem execParkResume_due (refValid : Bool) (h : s.park.phase = .waking ∧ s.park.wakeTime + 2000 ≤ s.time.us) :
    execParkResume refValid s = .next (parkFreeze (bootStep (parkMessages (parkResumed refValid s)))) := by
  unfold execParkResume
  rw [if_pos h]
  rfl

/-- The view at the resume. -/
theorem steady_parkResumed (refValid : Bool) : steady (parkResumed refValid s) =
    Steady.ran (allIslands.filter (fun i => pstate s i == .starting)) { steady s with
      park := { s.park with wakePend := 0, phase := .idle, woken := false }
      clockStop := if refValid then s.par.clockStop else true } := by
  have hview : ∀ u : State, steady u = { steady s with clockStop := if refValid then s.par.clockStop else true } →
      steady (modPark (fun k => { k with phase := .idle, woken := false }) u) = { steady s with
        park := { s.park with wakePend := 0, phase := .idle, woken := false }
        clockStop := if refValid then s.par.clockStop else true } := fun u hu =>
    congrArg (fun x : Steady => { x with park := { x.park with phase := .idle, woken := false } }) hu
  have hlost : steady (if refValid then s else crystalLost s) = { steady s with clockStop := if refValid then s.par.clockStop else true } := by
    cases refValid with
    | true => rfl
    | false => exact steady_crystalLost s
  have hu := hview _ hlost
  unfold parkResumed
  dsimp only
  generalize modPark (fun k => { k with phase := .idle, woken := false }) (if refValid then s else crystalLost s) = u at hu
  have hst : ∀ i, pstate u i = pstate s i := fun i => by
    have := congrArg Steady.st hu
    simp only [pstate]
    rw [show u.power.st = s.power.st from this]
  rw [steady_enterRuns, hu]
  simp only [hst]

end Sys2Proof.Machine
end

section
/-! SUPPORT. The resume, the alarm, and what the views say of the state. -/

namespace Sys2Proof.Machine

variable (s : State)

/-- A view says what stands in its state. -/
theorem steady_eq {t : State} {x : Steady} (h : steady t = x) : t.power.st = x.st ∧ t.power.serving = x.serving ∧ t.power.results = x.results ∧
    t.park.phase = x.park.phase ∧ t.park.woken = x.park.woken ∧ t.park.pingBay = x.park.pingBay ∧
    t.park.freezeAtResume = x.park.freezeAtResume ∧ t.time = x.time ∧ t.freeze = x.freeze ∧ t.par.clockStop = x.clockStop := by
  subst h
  exact ⟨rfl, rfl, rfl, rfl, rfl, rfl, rfl, rfl, rfl, rfl⟩

/-- The islands once the starting ones run. -/
theorem ran_reads {j : Nat} (hj : j < 14) (h0 : j ≠ 0) (x : Steady) (hst : x.st = s.power.st) :
    vget .off (x.ran (allIslands.filter (fun i => pstate s i == .starting))).st j = (if pstate s j = .starting then .run else pstate s j) ∧
    (pstate s j = .starting → vget 0 (x.ran (allIslands.filter (fun i => pstate s i == .starting))).time.copies j = x.time.us) := by
  obtain ⟨hl, hnd⟩ := islands_filter (fun i => pstate s i == .starting)
  have hmem : j ∈ allIslands.filter (fun i => pstate s i == .starting) ↔ pstate s j = .starting := by
    simp [List.mem_filter, mem_allIslands, hj]
  have h1 := vget_foldl_vset PState.off (fun _ _ => .run) _ hl hnd x.st j
  have h2 := vget_foldl_vset 0 (fun _ _ => x.time.us) _ hl hnd x.time.copies j
  have hold : vget .off x.st j = pstate s j := by rw [hst, pstate, if_neg h0]
  simp only [hmem, hold] at h1 h2
  exact ⟨h1, fun h => h2.trans (if_pos h)⟩

/-- The PARK exit ends 2.0 ms after the wake event: the starting islands run, PARK is idle, and a freeze asked for holds. -/
theorem parkResume_eq (refValid : Bool) (h : s.park.phase = .waking ∧ s.park.wakeTime + 2000 ≤ s.time.us) :
    ∃ t, execParkResume refValid s = .next t ∧ t.park.phase = .idle ∧ t.park.woken = false ∧ t.park.pingBay = none ∧
      t.park.freezeAtResume = false ∧
      (∀ j : Island, j.val ≠ 0 → pstate t j = (if pstate s j = .starting then .run else pstate s j) ∧
        (pstate s j = .starting → localTime t j = s.time.us)) ∧
      t.par.clockStop = (if refValid then s.par.clockStop else true) ∧
      t.freeze.frozen = (s.freeze.frozen || s.park.freezeAtResume) := by
  have hmsg := (steady_bootStep (parkMessages (parkResumed refValid s))).trans (steady_parkMessages _)
  have hres := steady_parkResumed s refValid
  refine ⟨_, execParkResume_due s refValid h, ?_⟩
  generalize bootStep (parkMessages (parkResumed refValid s)) = u at hmsg ⊢
  generalize parkResumed refValid s = v at hmsg hres
  obtain ⟨hst, -, -, hphase, hwoken, hping, hask, htime, hfreeze, hclock⟩ := steady_eq hmsg
  obtain ⟨hst', -, -, hphase', hwoken', -, hask', htime', hfreeze', hclock'⟩ := steady_eq hres
  obtain ⟨fst, ftime, fclock, fphase, fwoken, fping, fask, ffrozen⟩ := parkFreeze_view u
  have hst : u.power.st = _ := hst.trans hst'
  have htime : u.time = _ := htime.trans htime'
  have hfreeze : u.freeze = s.freeze := hfreeze.trans hfreeze'
  have hask : u.park.freezeAtResume = s.park.freezeAtResume := hask.trans hask'
  refine ⟨fphase.trans (hphase.trans hphase'), fwoken.trans (hwoken.trans hwoken'), fping.trans hping, fask, fun j hj => ?_,
    fclock.trans (hclock.trans hclock'), by rw [ffrozen, hfreeze, hask]⟩
  obtain ⟨hrun, hcopy⟩ := ran_reads s j.isLt hj { steady s with
      park := { s.park with wakePend := 0, phase := .idle, woken := false }
      clockStop := if refValid then s.par.clockStop else true } rfl
  refine ⟨?_, fun hs => ?_⟩
  · rw [← hrun, pstate, if_neg hj, fst, hst]
  · rw [localTime, if_neg hj, ftime, htime]
    exact hcopy hs

/-- ALARM_HI written: the alarm fires at once where its time has come, else it is armed (R359). -/
theorem alarmArmWrite_eq (hi : Nat) : alarmArmWrite hi s = (0x00, { putReg s 0 .alarmHi 0 hi with
    park := if regValue s 0 .alarmLo 0 + 2 ^ 32 * hi ≤ s.time.us then { s.park with alarm := none, wakePend := s.park.wakePend ||| 8 }
      else { s.park with alarm := some (regValue s 0 .alarmLo 0 + 2 ^ 32 * hi) } }) := by
  unfold alarmArmWrite
  dsimp only
  by_cases hpast : regValue s 0 .alarmLo 0 + 2 ^ 32 * hi ≤ s.time.us
  · rw [if_pos hpast, if_pos (show _ ≤ (putReg s 0 .alarmHi 0 hi).time.us from hpast)]; rfl
  · rw [if_neg hpast, if_neg (show ¬_ ≤ (putReg s 0 .alarmHi 0 hi).time.us from hpast)]; rfl

end Sys2Proof.Machine

/-! The statement about PARK (01_architecture.md). -/

namespace Sys2Proof.Proofs

open Sys2Proof Sys2Proof.Machine

/-- Settles O44: the entry by its checks and its commit, the sources and the exit each by their own rule; what leaving and
entering RUN do beside is kept from the controller, PARK, time and freeze by `calm_leaveRuns` and `steady_parkResumed`. -/
theorem parkEntryAndExit : Obligations.ParkEntryAndExit := by
  intro s
  refine ⟨fun ini hr => ⟨fun hmay => ?_, fun hmay hidle => ?_, fun hmay hidle hwake => ?_, fun hmay hidle hwake => ?_⟩,
    fun φ hq hacc => ⟨fun hwake => ?_, fun hwake => ?_⟩, fun bit hbit => ?_, fun at_ hat => ?_, fun ini hi hr => ?_,
    fun hw hd => ⟨fun hph => ?_, fun hph => ?_⟩, fun refValid hph hdue => ?_⟩
  · obtain ⟨p, q, h⟩ := aonWrite_runs s .parkCtrl (parkRequestWrite ini) hr
    rw [parkRequestWrite_denied { s with perf := p } hmay] at h
    exact ⟨q, congrArg Host.Outcome.next h⟩
  · obtain ⟨p, q, h⟩ := aonWrite_runs s .parkCtrl (parkRequestWrite ini) hr
    rw [(parkRequestWrite_allowed { s with perf := p } hmay).1 ((parkBusy_iff s).mpr hidle)] at h
    exact ⟨q, congrArg Host.Outcome.next h⟩
  · obtain ⟨p, q, h⟩ := aonWrite_runs s .parkCtrl (parkRequestWrite ini) hr
    obtain ⟨g, j, hact, hgate⟩ := (parkRequestWrite_allowed { s with perf := p } hmay).2.1 (fun hb => (parkBusy_iff s).mp hb hidle) hwake
    rw [hact] at h
    exact ⟨_, congrArg Host.Outcome.next h, vget_vset_self _ _ _ ini.isLt, ⟨rfl, hgate⟩, rfl⟩
  · obtain ⟨p, q, h⟩ := aonWrite_runs s .parkCtrl (parkRequestWrite ini) hr
    obtain ⟨qs, hact, hread⟩ := (parkRequestWrite_allowed { s with perf := p } hmay).2.2 (fun hb => (parkBusy_iff s).mp hb hidle) hwake
    rw [hact] at h
    refine ⟨_, congrArg Host.Outcome.next h, vget_vset_self _ _ _ ini.isLt, rfl, fun j => (hread j j.isLt).trans ?_, rfl⟩
    simp only [ne_eq, Fin.ext_iff, and_assoc]
    rfl
  · obtain ⟨q, g, j, h, hread, hgate⟩ := execParkCommit_aborts s φ ⟨hq, (allAccepted_iff s).mpr hacc⟩ hwake
    refine ⟨_, h, ⟨rfl, hgate⟩, fun j => ?_, rfl⟩
    have hj := (getQuery s j).withdrawn_idle
    rwa [← hread j j.isLt] at hj
  · obtain ⟨t, ht, hpark, hst, hqueries, hparking, htime⟩ := parkCommit_eq s φ
    have h := execParkCommit_commits s φ ⟨hq, (allAccepted_iff s).mpr hacc⟩ hwake
    rw [ht] at h
    rw [satTo_eq] at hpark
    exact ⟨t, h, hpark, hst, hqueries, hparking, htime⟩
  · exact congrArg Host.Outcome.next (if_neg (fun e => hbit (congrArg Fin.val e)))
  · have h : execWakeSource 3 s = .next (match s.park.alarm with
      | some t => if t ≤ s.time.us then fireWake 3 (modPark (fun k => { k with alarm := none }) s) else s
      | none => s) := rfl
    rw [hat] at h
    exact h
  · obtain ⟨p, q, h⟩ := aonWrite_runs s .alarmHi (alarmArmWrite hi.toNat) hr
    rw [alarmArmWrite_eq] at h
    exact ⟨q, congrArg Host.Outcome.next h⟩
  · obtain ⟨lf, p, h⟩ := execWakeEvent_committed s (.inl hph) hw hd
    rw [if_neg (by rw [hph]; decide)] at h
    exact ⟨_, h, rfl, rfl⟩
  · obtain ⟨lf, p, h⟩ := execWakeEvent_committed s (.inr hph) hw hd
    rw [if_pos hph, parkWake_eq] at h
    refine ⟨_, h, rfl, fun j hj => ?_, rfl⟩
    obtain ⟨hst, hlevel⟩ := resumed_reads (wokenUp s lf p)
      (fun i => i != 0 && bitOf (regValue s 0 .resumeMask 0) i && pstate s i == .off) j.isLt
    have hstarts : (j.val != 0 && bitOf (regValue s 0 .resumeMask 0) j && pstate s j == .off) = true ↔
        bitOf (regValue s 0 .resumeMask 0) j = true ∧ pstate s j = .off := by simp [hj]
    have hold : vget .off (wokenUp s lf p).power.st j = pstate s j := (if_neg hj).symm
    simp only [hstarts, hold] at hst hlevel
    exact ⟨(if_neg hj).trans hst, hlevel⟩
  · obtain ⟨t, h, hphase, hwoken, hping, hask, hst, hclock, hfrozen⟩ := parkResume_eq s refValid ⟨hph, hdue⟩
    exact ⟨t, h, hphase, hwoken, hping, hask, hst, fun hv => by rw [hclock, hv]; rfl, fun hv => by rw [hclock, hv]; rfl, hfrozen⟩

end Sys2Proof.Proofs
end

section
/-! SUPPORT. The power controller's commands, checked, queued and served, and the replies to its queries (R349 to R357). -/

namespace Sys2Proof.Machine

variable (s : State)

/-! ## Commands checked and queued (R349, R352) -/

/-- The commands that count against the four, as the obligations write them. -/
theorem powerCount_eq : powerCount s = s.power.queue.length + s.power.results.length + (if s.power.serving = none then 0 else 1) +
    (if s.par.restarting = none then 0 else 1) := by
  unfold powerCount
  cases s.power.serving <;> cases s.par.restarting <;> rfl

/-- The first check of R352 that a command fails at its write, in order, or 0x00. -/
def commandStatus (s : State) (ini : Nat) (op : PwrOp) (island level : Nat) : Status :=
  if ini ≠ 1 ∧ ini ≠ 2 then 0x02
  else if 4 ≤ s.power.queue.length + s.power.results.length + (if s.power.serving = none then 0 else 1) +
    (if s.par.restarting = none then 0 else 1) ∨ s.park.phase ≠ .idle then 0xC2
  else if island = 0 ∨ 14 ≤ island ∨ op = .off ∧ (island = 1 ∨ island = ini) then 0xC4
  else if op = .level ∧ island = 3 ∧ 2 ≤ level then 0xC1
  else if op = .level ∧ tollFloor s island < level then 0xC0
  else if op = .off ∧ islandInUse s island = true then 0xC3 else 0x00

/-- Only a LEVEL's status hangs on the level. -/
theorem commandStatus_level (ini : Nat) (op : PwrOp) (island : Nat) {l level : Nat} (h : op = .level → l = level) :
    commandStatus s ini op island l = commandStatus s ini op island level := by
  by_cases ho : op = .level
  · rw [h ho]
  · simp only [commandStatus, ho, false_and, if_false]

/-- A command that no check of R352 fails is queued, another is answered with its check's status. -/
theorem pwrCmdWrite_eq (ini : Nat) (op : PwrOp) (island level tag : Nat) (hl : level < 4) :
    pwrCmdWrite ini true op island level tag s = (commandStatus s ini op island level,
      if commandStatus s ini op island level = 0x00 then
        { s with power := { s.power with queue := s.power.queue ++ [⟨op, island, level, tag, ini⟩] } } else s) := by
  unfold pwrCmdWrite
  by_cases hi : ini ≠ 1 ∧ ini ≠ 2
  · have hst : commandStatus s ini op island level = 0x02 := if_pos hi
    rw [if_pos hi, hst]
    rfl
  · have hst : powerCheck s true ⟨op, island, level, tag, ini⟩ = commandStatus s ini op island level := by
      rw [commandStatus, if_neg hi]
      simp only [powerCheck, powerCount_eq, powerRecheck, floorInForce, Bool.true_eq_false, false_or, not_le.mpr hl]
      rfl
    rw [if_neg hi, ← hst]
    dsimp only
    by_cases h0 : powerCheck s true ⟨op, island, level, tag, ini⟩ = 0
    · rw [if_pos h0, if_pos h0, h0]; rfl
    · rw [if_neg h0, if_neg h0]

/-! ## Commands served (R350, R353, R355) -/

/-- The state with the oldest command gone. -/
def dequeued (rest : List PwrCmd) (s : State) : State := modPower (fun p => { p with queue := rest }) s

/-- The state with a command served from now on. -/
def servedIn (c : PwrCmd) (ph : PwrPhase) (s : State) : State := modPower (fun p => { p with serving := some ⟨c, s.time.us, ph⟩ }) s

/-- A query that waits holds the command up. -/
theorem powerProceed_waits (h : allAccepted s = false) : powerProceed s = s := by
  unfold powerProceed
  split
  · rw [if_neg (fun hc => by rw [h] at hc; exact absurd hc.2 (by decide))]
  · rfl

/-- Every query accepted, a LEVEL changes. -/
theorem powerProceed_changes {v : Serving} (hv : s.power.serving = some v) (hq : v.phase = .querying) (ha : allAccepted s = true)
    (hop : v.cmd.op = .level) :
    powerProceed s = { s with power := { s.power with query := (closeQueries s).power.query, serving := some { v with phase := .changing } } } := by
  have h : powerProceed s = modPower (fun p => { p with serving := some { v with phase := .changing } }) (closeQueries s) := by
    simp only [powerProceed, hv, hop, if_pos (And.intro hq ha)]
  exact h

/-- Every query accepted, the island of an OFF stops. -/
theorem powerProceed_stops {v : Serving} (hv : s.power.serving = some v) (hq : v.phase = .querying) (ha : allAccepted s = true)
    (hop : v.cmd.op = .off) (hi : v.cmd.island ≠ 0) (hi' : v.cmd.island < 14) (hrun : pstate s v.cmd.island = .run) :
    (powerProceed s).power.serving = some { v with phase := .stopping } ∧ pstate (powerProceed s) v.cmd.island = .stopping := by
  have hx : powerProceed s = leaveRun v.cmd.island (modPower (fun p => { p with serving := some { v with phase := .stopping } }) (closeQueries s)) := by
    simp only [powerProceed, hv, hop, if_pos (And.intro hq ha)]
  have hp := (calm_leaveRun (modPower (fun p => { p with serving := some { v with phase := .stopping } }) (closeQueries s)) hrun hi).power
  rw [hx, pstate, hp, if_neg hi]
  exact ⟨rfl, vget_vset_self _ _ _ hi'⟩

/-- A command that nothing was started for ends with its result. -/
theorem powerResult_unserved (c : PwrCmd) (st : Status) (reason : Nat) (h : s.power.serving = none) :
    powerResult c st reason s = { s with power := { s.power with results := s.power.results ++ [⟨st, reason, c.island, c.tag⟩] } } := by
  unfold powerResult modPower
  rw [← h]

section
variable {s} {c : PwrCmd} {rest : List PwrCmd} (hq : s.power.queue = c :: rest) (hs : s.power.serving = none) (hr : s.par.restarting = none)
  (hp : s.park.phase = .idle) (hf : s.freeze.frozen = false)
include hq hs hr hp hf

/-- The oldest command that a check made again fails ends with its status. -/
theorem powerServe_refused (hst : powerRecheck s c ≠ 0) : powerServe s = powerResult c (powerRecheck s c) 0 (dequeued rest s) := by
  unfold powerServe
  simp only [hq]
  rw [if_neg (by simp [hs, hr, hp, hf])]
  exact if_pos hst

/-- An ON served. -/
theorem powerServe_on (hop : c.op = .on) : powerServe s =
    if pstate s c.island ≠ .off then powerResult c 0x00 0 (dequeued rest s)
    else servedIn c .starting (setPState c.island .starting (modPower (fun p =>
      { p with level := vset p.level c.island (min (getLevel s c.island) (tollFloor s c.island)) }) (dequeued rest s))) := by
  have hst : powerRecheck s c = 0 := by simp [powerRecheck, hop]
  unfold powerServe
  simp only [hq]
  rw [if_neg (by simp [hs, hr, hp, hf])]
  refine (if_neg (not_not.mpr hst)).trans ?_
  simp only [hop]
  rfl

/-- An OFF served. -/
theorem powerServe_off (hop : c.op = .off) (hst : powerRecheck s c = 0) : powerServe s =
    if pstate s c.island = .off then powerResult c 0x00 0 (dequeued rest s)
    else powerProceed (servedIn c .querying (if pstate s c.island = .run then sendQuery c.island 2 0 (dequeued rest s) else dequeued rest s)) := by
  unfold powerServe
  simp only [hq]
  rw [if_neg (by simp [hs, hr, hp, hf])]
  refine (if_neg (not_not.mpr hst)).trans ?_
  simp only [hop]
  rfl

/-- A LEVEL served. -/
theorem powerServe_level (hop : c.op = .level) (hst : powerRecheck s c = 0) : powerServe s =
    if getLevel s c.island = c.level then powerResult c 0x00 0 (dequeued rest s)
    else if pstate s c.island = .off then
      powerResult c 0x00 0 (modPower (fun p => { p with level := vset p.level c.island c.level }) (dequeued rest s))
    else powerProceed (servedIn c .querying
      (if pstate s c.island = .run ∧ c.island ≠ c.writer then sendQuery c.island 1 c.level (dequeued rest s) else dequeued rest s)) := by
  unfold powerServe
  simp only [hq]
  rw [if_neg (by simp [hs, hr, hp, hf])]
  refine (if_neg (not_not.mpr hst)).trans ?_
  simp only [hop]
  rfl

end

/-- A served command whose island was asked and waits: nothing more happens. -/
theorem powerProceed_asked {i : Nat} (hi : i < 14) (kind level : Nat) (c : PwrCmd) (h : ¬(hasCore i = true ∧ (getCore s i).halted = true)) :
    powerProceed (servedIn c .querying (sendQuery i kind level s)) =
      servedIn c .querying (withQueries (vset s.power.query i ⟨kind, level, (getQuery s i).outcome, .awaiting s.time.us⟩) s) := by
  have hask : askedQuery s i kind level = ⟨kind, level, (getQuery s i).outcome, .awaiting s.time.us⟩ := by rw [askedQuery, if_neg h]
  rw [sendQuery_eq, ← hask]
  refine powerProceed_waits _ (Bool.eq_false_iff.mpr fun ha => ?_)
  have hj := (allAccepted_iff_islands _).mp ha ⟨i, hi⟩
  have hget : getQuery (servedIn c .querying (withQueries (vset s.power.query i (askedQuery s i kind level)) s)) i = askedQuery s i kind level :=
    vget_vset_self _ _ _ hi
  rw [hget, hask] at hj
  simp at hj

/-- With no query out, an island that is not asked or answers by itself leaves every query accepted. -/
theorem allAccepted_asked {i : Nat} (hi : i < 14) (kind level : Nat) (c : PwrCmd) (hnone : ∀ q ∈ s.power.query.toList, q.phase = .idle)
    (h : hasCore i = true ∧ (getCore s i).halted = true) :
    allAccepted (servedIn c .querying (sendQuery i kind level s)) = true := by
  rw [sendQuery_eq, allAccepted_iff_islands]
  intro j
  have hidle := (allAccepted_iff_islands s).mp ((allAccepted_iff s).mpr fun q hq => .inl (hnone q hq)) j
  have hget : getQuery (servedIn c .querying (withQueries (vset s.power.query i (askedQuery s i kind level)) s)) j =
      if j.val = i then askedQuery s i kind level else getQuery s j := vget_vset _ _ _ hi j
  rw [hget]
  by_cases hji : j.val = i
  · rw [if_pos hji, askedQuery, if_pos h]
    exact .inr rfl
  · rwa [if_neg hji]

/-- A LEVEL whose island need not be asked, or answers by itself, changes at once; beside the controller nothing does. -/
theorem powerProceed_level {c : PwrCmd} (hop : c.op = .level) (hi : c.island < 14) (hnone : ∀ q ∈ s.power.query.toList, q.phase = .idle)
    (h : c.island = c.writer ∨ hasCore c.island = true ∧ (getCore s c.island).halted = true) :
    ∃ w : PowerState, powerProceed (servedIn c .querying (if pstate s c.island = .run ∧ c.island ≠ c.writer then sendQuery c.island 1 c.level s else s)) =
      { s with power := w } ∧ w.serving = some ⟨c, s.time.us, .changing⟩ := by
  split
  · rename_i hasks
    rw [powerProceed_changes _ rfl rfl (allAccepted_asked s hi 1 c.level c hnone (h.resolve_left hasks.2)) hop, sendQuery_eq]
    exact ⟨_, rfl, rfl⟩
  · rw [powerProceed_changes (servedIn c .querying s) rfl rfl ((allAccepted_iff s).mpr fun q hq => .inl (hnone q hq)) hop]
    exact ⟨_, rfl, rfl⟩

/-! ## Replies (R355, R356, R402) -/

/-- Queries as a refusal by an island leaves them: all idle, the other islands that had accepted told ABORTED. -/
def RefusedQueries (s : State) (i : Nat) (q : Vector Query 14) : Prop :=
  ∀ j, j < 14 → (vget noQuery q j).phase = .idle ∧ (j ≠ i → (getQuery s j).phase = .accepted → (vget noQuery q j).outcome = 2)

theorem withdrawAll_refused (i : Nat) : ∃ q, withdrawAll (setQueryPhase i .idle s) = withQueries q s ∧ RefusedQueries s i q := by
  obtain ⟨q, hq, hread⟩ := withdrawAll_eq (setQueryPhase i .idle s)
  refine ⟨q, hq, fun j hj => ?_⟩
  rw [hread j hj]
  refine ⟨(Query.withdrawn_idle _).1, fun hji hacc => (Query.withdrawn_idle _).2 ?_⟩
  rw [getQuery, setQueryPhase, modPower_power, vget_vset_ne _ _ _ hji]
  exact hacc

/-- A REFUSE, or a silence taken for one, withdraws every query and ends the command served with 0xC5. -/
theorem refuse_command (i reason : Nat) {v : Serving} (hv : s.power.serving = some v) : ∃ q, RefusedQueries s i q ∧
    refuse i reason s = { s with power := { s.power with
      query := q, serving := none, results := s.power.results ++ [⟨0xC5, reason, v.cmd.island, v.cmd.tag⟩] } } := by
  obtain ⟨q, hq, hread⟩ := withdrawAll_refused s i
  refine ⟨q, hread, ?_⟩
  simp only [refuse, hv, hq]
  rfl

/-- The same for a PARK entry, which ends with 0x15 and the island that refused. -/
theorem refuse_park (i reason : Nat) (hv : s.power.serving = none) (hp : s.park.phase = .querying) : ∃ q g jobs, RefusedQueries s i q ∧
    refuse i reason s = { s with
      power := { s.power with query := q }
      park := { s.park with phase := .idle, last := 0x15, refuser := i, reason := reason }
      toll := g, span := { s.span with jobs := jobs } } := by
  obtain ⟨q, hq, hread⟩ := withdrawAll_refused s i
  obtain ⟨g, jobs, ha, -⟩ := parkAnswer_eq (modPark (fun k => { k with phase := .idle, last := 0x15, refuser := i, reason := reason })
    (withQueries q s)) 0x15
  refine ⟨q, g, jobs, hread, ?_⟩
  have hx : refuse i reason s = parkAnswer 0x15 (modPark (fun k => { k with phase := .idle, last := 0x15, refuser := i, reason := reason })
      (withdrawAll (setQueryPhase i .idle s))) := by
    simp only [refuse, hv, if_pos hp]
  rw [hx, hq, ha]
  rfl

/-- A clamp is a maximum of a minimum. -/
theorem clampTo_eq {lo hi : Nat} (h : lo ≤ hi) (x : Nat) : clampTo lo hi x = max lo (min hi x) := by
  unfold clampTo
  split
  · omega
  · split <;> omega

/-- A reply as the controller takes it: 0 ACCEPT, 1 DELAY, 2 REFUSE. -/
def takeReply (ini answer delay reason : Nat) (s : State) : State :=
  if answer = 0 then powerProceed (setQueryPhase ini .accepted s)
  else if answer = 1 then
    if firstQuery s + 8000 ≤ s.time.us then refuse ini 4 s
    else setQueryPhase ini (.delayed (s.time.us + 100 * max 1 (min 80 delay))) s
  else refuse ini reason s

/-- The answer, delay and reason that count: STORE and LINK answer by their hardware, DELAY 1 while they are busy, otherwise ACCEPT,
and the master of a ring refuses PARK with WORK_PENDING. -/
def replyOf (s : State) (ini answer delay reason : Nat) : Nat × Nat × Nat :=
  if ini = 5 ∧ (getQuery s ini).kind = 3 ∧ ringMaster s = true then (2, delay, 1)
  else if ini = 4 ∨ ini = 5 then
    if ini = 4 ∧ storeBusy s = true ∨ ini = 5 ∧ linkBusy s = true then (1, 1, reason) else (0, delay, reason)
  else (answer, delay, reason)

/-- What holds of the reply that counts, case by case. -/
theorem replyOf_cases (P : Nat → Nat → Nat → Prop) {ini answer delay reason : Nat}
    (h : P (replyOf s ini answer delay reason).1 (replyOf s ini answer delay reason).2.1 (replyOf s ini answer delay reason).2.2) :
    if ini = 5 ∧ (getQuery s ini).kind = 3 ∧ ringMaster s = true then P 2 delay 1
    else if ini = 4 ∨ ini = 5 then
      if ini = 4 ∧ storeBusy s = true ∨ ini = 5 ∧ linkBusy s = true then P 1 1 reason else P 0 delay reason
    else P answer delay reason := by
  unfold replyOf at h
  split_ifs at h ⊢ <;> exact h

/-- The reply of an island that is asked, or of its hardware in its stead, is taken with 0x00 (R355, R402). -/
theorem pwrReplyWrite_asked (ini answer delay reason : Nat) {t0 : Nat} (hq : (getQuery s ini).phase = .awaiting t0) (ha : answer < 3) :
    ∃ p, pwrReplyWrite ini answer delay reason s = (0x00, takeReply ini (replyOf s ini answer delay reason).1
      (replyOf s ini answer delay reason).2.1 (replyOf s ini answer delay reason).2.2 { s with perf := p }) := by
  obtain ⟨p, hp⟩ := countEvent_eq s ini 0x00F 1
  have take : ∀ a d r, (if a = 0 then ((0x00 : Status), powerProceed (setQueryPhase ini .accepted { s with perf := p }))
      else if a = 1 then
        if firstQuery { s with perf := p } + 8000 ≤ s.time.us then (0x00, refuse ini 4 { s with perf := p })
        else (0x00, setQueryPhase ini (.delayed (s.time.us + 100 * clampTo 1 80 d)) { s with perf := p })
      else (0x00, refuse ini r { s with perf := p })) = (0x00, takeReply ini a d r { s with perf := p }) := by
    intro a d r
    rw [takeReply, clampTo_eq (by decide)]
    split
    · rfl
    · split
      · split <;> rfl
      · rfl
  refine ⟨p, ?_⟩
  unfold pwrReplyWrite replyOf
  simp only [hq, hp, Bool.and_eq_true, Bool.or_eq_true, beq_iff_eq]
  rw [if_neg (by split_ifs <;> omega)]
  refine (take _ _ _).trans ?_
  by_cases hk : (ini = 5 ∧ (getQuery s ini).kind = 3) ∧ ringMaster s = true
  · rw [if_pos hk, if_pos hk, if_pos (and_assoc.mp hk)]
    rfl
  · rw [if_neg hk, if_neg hk, if_neg (fun h => hk (and_assoc.mpr h))]
    by_cases hw : ini = 4 ∨ ini = 5
    · rw [if_pos hw, if_pos hw, if_pos hw]
      split <;> rfl
    · rw [if_neg hw, if_neg hw, if_neg hw]

end Sys2Proof.Machine
end

section
/-! SUPPORT. A reply taken, and the islands whose start, stop or change of level completes (R26, R28, R36, R350 to R357). -/

namespace Sys2Proof.Machine

variable (s : State)

/-! ## Replies taken -/

/-- A refusal is taken: every query is withdrawn, and the command served, or else the PARK entry, ends. -/
def RefusalTaken (s : State) (ini : Island) (reason : Nat) (t : State) : Prop :=
  answerOf t ini = ⟨[], 0x00⟩ ∧
  (s.power.serving ≠ none ∨ s.park.phase = .querying → ∀ j : Island, (getQuery t j).phase = .idle ∧
    (j ≠ ini → (getQuery s j).phase = .accepted → (getQuery t j).outcome = 2)) ∧
  (∀ v, s.power.serving = some v → t.power.serving = none ∧ t.power.results = s.power.results ++ [⟨0xC5, reason, v.cmd.island, v.cmd.tag⟩] ∧
    { t with power := s.power, via := s.via, perf := s.perf } = s) ∧
  (s.power.serving = none → s.park.phase = .querying → t.park = { s.park with phase := .idle, last := 0x15, refuser := ini, reason := reason } ∧
    { t with power := s.power, park := s.park, via := s.via, perf := s.perf, span := s.span, toll := s.toll } = s)

theorem refuse_taken (ini : Island) (reason : Nat) (p c : Vector PerfState 14) :
    RefusalTaken s ini reason (setResp ini [] 0x00 { refuse ini reason { s with perf := p } with perf := c }) := by
  refine ⟨vget_vset_self _ _ _ ini.isLt, ?_⟩
  cases hv : s.power.serving with
  | some v =>
    obtain ⟨q, hq, hx⟩ := refuse_command { s with perf := p } ini reason hv
    rw [hx]
    refine ⟨fun _ j => ⟨(hq j j.isLt).1, fun hj => (hq j j.isLt).2 (fun e => hj (Fin.ext e))⟩, fun w hw => ?_, fun h => by cases h⟩
    cases hw
    exact ⟨rfl, rfl, rfl⟩
  | none =>
    refine ⟨fun h => ?_, fun w hw => (by cases hw), fun _ hp => ?_⟩
    · obtain ⟨q, g, jobs, hq, hx⟩ := refuse_park { s with perf := p } ini reason hv (h.resolve_left (fun h => h rfl))
      rw [hx]
      exact fun j => ⟨(hq j j.isLt).1, fun hj => (hq j j.isLt).2 (fun e => hj (Fin.ext e))⟩
    · obtain ⟨q, g, jobs, hq, hx⟩ := refuse_park { s with perf := p } ini reason hv hp
      rw [hx]
      exact ⟨rfl, rfl⟩

/-- An island that accepts while another is still asked: its query is accepted and nothing else happens. -/
theorem takeReply_accept_waits (ini : Island) (n r : Nat) (h : ∀ v, s.power.serving = some v → v.phase = .querying →
    ∃ j : Island, j ≠ ini ∧ (getQuery s j).phase ≠ .idle ∧ (getQuery s j).phase ≠ .accepted) :
    takeReply ini 0 n r s = setQueryPhase ini .accepted s := by
  rw [takeReply, if_pos rfl]
  cases hv : s.power.serving with
  | none =>
    unfold powerProceed
    simp only [setQueryPhase, modPower_power, hv]
  | some v =>
    by_cases hq : v.phase = .querying
    · obtain ⟨j, hj, hidle, hacc⟩ := h v hv hq
      refine powerProceed_waits _ (Bool.eq_false_iff.mpr fun ha => ?_)
      have := (allAccepted_iff_islands _).mp ha j
      rw [getQuery, setQueryPhase, modPower_power, vget_vset_ne _ _ _ (fun e => hj (Fin.ext e))] at this
      exact this.elim hidle hacc
    · unfold powerProceed
      simp only [setQueryPhase, modPower_power, hv, hq, false_and, if_false]

/-- Every query accepted once the island has accepted. -/
theorem allAccepted_accept (ini : Island) (h : ∀ j : Island, j ≠ ini → (getQuery s j).phase = .idle ∨ (getQuery s j).phase = .accepted) :
    allAccepted (setQueryPhase ini .accepted s) = true := by
  rw [allAccepted_iff_islands]
  intro j
  rw [getQuery, setQueryPhase, modPower_power, vget_vset _ _ _ ini.isLt]
  by_cases hj : j = ini
  · rw [if_pos (congrArg Fin.val hj)]
    exact .inr rfl
  · rw [if_neg (fun e => hj (Fin.ext e))]
    exact h j hj

/-- The last island asked accepts: the command is carried out. -/
theorem takeReply_accept_proceeds (ini : Island) (n r : Nat)
    (h : ∀ j : Island, j ≠ ini → (getQuery s j).phase = .idle ∨ (getQuery s j).phase = .accepted) {v : Serving}
    (hv : s.power.serving = some v) (hq : v.phase = .querying) :
    (v.cmd.op = .level → ∃ q, takeReply ini 0 n r s = { s with power := { s.power with query := q, serving := some { v with phase := .changing } } }) ∧
    (v.cmd.op = .off → 0 < v.cmd.island → v.cmd.island < 14 → pstate s v.cmd.island = .run →
      (takeReply ini 0 n r s).power.serving = some { v with phase := .stopping } ∧ pstate (takeReply ini 0 n r s) v.cmd.island = .stopping) := by
  have ha := allAccepted_accept s ini h
  refine ⟨fun hop => ⟨_, (powerProceed_changes (setQueryPhase ini .accepted s) hv hq ha hop).trans rfl⟩, fun hop h0 hi hrun => ?_⟩
  exact powerProceed_stops (setQueryPhase ini .accepted s) hv hq ha hop (by omega) hi hrun

/-- A delay puts the query off, or past 8 ms from the first query refuses it. -/
theorem takeReply_delay (ini n r : Nat) : takeReply ini 1 n r s =
    if firstQuery s + 8000 ≤ s.time.us then refuse ini 4 s else setQueryPhase ini (.delayed (s.time.us + 100 * max 1 (min 80 n))) s := by
  rw [takeReply, if_neg (by decide), if_pos rfl]

/-- What a reply does, by its answer: 0 ACCEPT, 1 DELAY, 2 REFUSE. -/
def ReplyTaken (s : State) (ini : Island) (a n r : Nat) (o : Host.Outcome State Fault Refusal) : Prop :=
  (a = 0 → (∀ v, s.power.serving = some v → v.phase = .querying →
      ∃ j : Island, j ≠ ini ∧ (getQuery s j).phase ≠ .idle ∧ (getQuery s j).phase ≠ .accepted) →
    ∃ c, o = .next (setResp ini [] 0x00 { setQueryPhase ini .accepted s with perf := c })) ∧
  (a = 0 → (∀ j : Island, j ≠ ini → (getQuery s j).phase = .idle ∨ (getQuery s j).phase = .accepted) →
    ∀ v, s.power.serving = some v → v.phase = .querying → ∃ t, o = .next t ∧ answerOf t ini = ⟨[], 0x00⟩ ∧
      (v.cmd.op = .level → t.power.serving = some { v with phase := .changing } ∧ { t with power := s.power, via := s.via, perf := s.perf } = s) ∧
      (v.cmd.op = .off → 0 < v.cmd.island → v.cmd.island < 14 → pstate s v.cmd.island = .run →
        t.power.serving = some { v with phase := .stopping } ∧ pstate t v.cmd.island = .stopping)) ∧
  (a = 1 → ¬firstQuery s + 8000 ≤ s.time.us →
    ∃ c, o = .next (setResp ini [] 0x00 { setQueryPhase ini (.delayed (s.time.us + 100 * max 1 (min 80 n))) s with perf := c })) ∧
  (a = 1 → firstQuery s + 8000 ≤ s.time.us → ∃ t, o = .next t ∧ RefusalTaken s ini 4 t) ∧
  (a = 2 → ∃ t, o = .next t ∧ RefusalTaken s ini r t)

theorem takeReply_taken (ini : Island) (a n r : Nat) (p c : Vector PerfState 14) :
    ReplyTaken s ini a n r (.next (setResp ini [] 0x00 { takeReply ini a n r { s with perf := p } with perf := c })) := by
  refine ⟨fun ha hwait => ?_, fun ha hacc v hv hq => ?_, fun ha hlate => ?_, fun ha hlate => ?_, fun ha => ?_⟩ <;> subst ha
  · rw [takeReply_accept_waits { s with perf := p } ini n r hwait]
    exact ⟨c, rfl⟩
  · obtain ⟨hlevel, hoff⟩ := takeReply_accept_proceeds { s with perf := p } ini n r hacc hv hq
    refine ⟨_, rfl, vget_vset_self _ _ _ ini.isLt, fun hop => ?_, hoff⟩
    obtain ⟨q, hx⟩ := hlevel hop
    rw [hx]
    exact ⟨rfl, rfl⟩
  · rw [(takeReply_delay { s with perf := p } ini n r).trans (if_neg hlate)]
    exact ⟨c, rfl⟩
  · rw [(takeReply_delay { s with perf := p } ini n r).trans (if_pos hlate)]
    exact ⟨_, rfl, refuse_taken s ini 4 p c⟩
  · exact ⟨_, rfl, refuse_taken s ini r p c⟩

/-! ## Starts, stops and changes of level that complete (R26, R28, R36, R350, R381) -/

/-- The command whose island has reached what it asked for ends with 0x00; nothing else changes. -/
theorem servedIsland_eq (i : Nat) (ph : PwrPhase) : ∃ v rs, servedIsland i ph s = { s with power := { s.power with serving := v, results := rs } } ∧
    ∀ w, s.power.serving = some w → w.cmd.island = i → w.phase = ph →
      v = none ∧ rs = s.power.results ++ [⟨0x00, 0, w.cmd.island, w.cmd.tag⟩] := by
  cases hv : s.power.serving with
  | none =>
    have hsame : servedIsland i ph s = s := by simp only [servedIsland, hv]
    exact ⟨s.power.serving, s.power.results, hsame, fun w hw => by cases hw⟩
  | some v =>
    have hx : servedIsland i ph s = if v.cmd.island = i ∧ v.phase = ph then powerResult v.cmd 0x00 0 s else s := by
      simp only [servedIsland, hv]
    by_cases h : v.cmd.island = i ∧ v.phase = ph
    · refine ⟨none, s.power.results ++ [⟨0x00, 0, v.cmd.island, v.cmd.tag⟩], hx.trans (if_pos h), fun w hw _ _ => ?_⟩
      cases hw
      exact ⟨rfl, rfl⟩
    · refine ⟨s.power.serving, s.power.results, hx.trans (if_neg h), fun w hw hi hp => ?_⟩
      cases hw
      exact absurd ⟨hi, hp⟩ h

theorem steady_restartedCoreless (i : Nat) : steady (restartedCoreless i s) = steady s := by
  unfold restartedCoreless
  split <;> rfl

/-- A STARTING island that has locked runs with its copy of device time loaded, and an ON that it was started for ends. -/
theorem execIslandStartDone_runs (i : Island) (hi : pstate s i = .starting) (hp : s.park.phase ≠ .waking) (hf : s.freeze.frozen = false) :
    ∃ t, execIslandStartDone i s = .next t ∧ pstate t i = .run ∧ localTime t i = s.time.us ∧
      ∀ v, s.power.serving = some v → v.cmd.island = i.val → v.phase = .starting → t.power.serving = none ∧
        t.power.results = s.power.results ++ [⟨0x00, 0, v.cmd.island, v.cmd.tag⟩] := by
  have h0 : i.val ≠ 0 := fun h => by rw [h] at hi; cases hi
  refine ⟨_, congrArg Host.Outcome.next (if_pos ⟨hi, hp, hf⟩), ?_⟩
  obtain ⟨v, rs, hserved, hends⟩ := servedIsland_eq (enterRun i s) i .starting
  have hview := (steady_bootStep (restartedCoreless i (servedIsland i .starting (enterRun i s)))).trans (steady_restartedCoreless _ _)
  have hrun := steady_enterRun s i
  rw [hserved] at hview ⊢
  generalize enterRun i s = u at hview hrun hends ⊢
  obtain ⟨hst, hserving, hresults, -, -, -, -, htime, -, -⟩ := steady_eq hview
  obtain ⟨hst', hserving', hresults', -, -, -, -, htime', -, -⟩ := steady_eq hrun
  refine ⟨?_, ?_, fun w hw hwi hwp => ?_⟩
  · rw [pstate, if_neg h0, hst.trans hst']
    exact vget_vset_self _ _ _ i.isLt
  · rw [localTime, if_neg h0, htime.trans htime']
    exact vget_vset_self _ _ _ i.isLt
  · obtain ⟨hv, hrs⟩ := hends w (hserving'.trans hw) hwi hwp
    rw [hresults'] at hrs
    exact ⟨hserving.trans hv, hresults.trans hrs⟩

/-- A key that a filter takes out reads the default. -/
theorem SMap.get_filter {α : Type} (d : α) (k : Nat) (f : Nat × α → Bool) (h : ∀ x, f (k, x) = false) (m : SMap α) : SMap.get d k (m.filter f) = d := by
  induction m with
  | nil => rfl
  | cons e m ih =>
    obtain ⟨k', x⟩ := e
    by_cases hf : f (k', x) = true
    · rw [List.filter_cons_of_pos hf, SMap.get, if_neg (fun e => by rw [e, h] at hf; cases hf), ih, ite_self]
    · rw [List.filter_cons_of_neg hf, ih]

/-- A register of an island whose switch has opened reads its reset value, but for the caisson registers that the abutment keeps. -/
theorem regValue_clearRegs (i : Nat) (r : Reg) (k : Nat) (hw : inWindow i (regAddr i r k) = true) (hk : abutmentKeeps (regAddr i r k) = false)
    {t : State} (ht : t.cfg = (clearRegs i s).cfg) : regValue t i r k = regValue State.reset i r k := by
  have h := SMap.get_filter (resetWord r (rowFor i r) k) (regAddr i r k) (fun e => !inWindow i e.1 || abutmentKeeps e.1)
    (fun _ => by simp [hw, hk]) s.cfg
  rw [regValue_reset, regValue, ht]
  dsimp only [clearRegs]
  rw [h]

/-- The switch of an island opens: it is OFF, its inbox and registers are gone; the controller, PARK and the parapet keep the rest. -/
theorem powerOff_reads {i : Nat} (h0 : i ≠ 0) (hi : i < 14) : (powerOff i s).power = { s.power with st := vset s.power.st i .off } ∧
    (powerOff i s).park = s.park ∧ inboxOf (powerOff i s) i = [] ∧ (powerOff i s).cfg = (clearRegs i s).cfg := by
  have hin : inboxOf (powerOff i s) i = vget [] (vset s.via.inbox i []) i := by
    rw [powerOff, if_neg h0]
    dsimp only
    split <;> rfl
  rw [hin, vget_vset_self _ _ _ hi, powerOff, if_neg h0]
  dsimp only
  split <;> exact ⟨rfl, rfl, rfl, rfl⟩

/-- A port is drained once it holds nothing, nothing of its island is held elsewhere, and its own transactions are answered. -/
theorem portDrained_of (i : Nat) (ht : vget [] s.via.txns i = []) (ho : ∀ j : Island, ∀ h ∈ vget [] s.via.held j, h.src ≠ i)
    (hh : vget [] s.via.held i = []) : portDrained s i = true := by
  simp only [portDrained, outstanding, ht, hh, List.length_nil, List.isEmpty_nil, Bool.and_eq_true, List.all_eq_true]
  refine ⟨⟨rfl, trivial⟩, fun l hl h hm => ?_⟩
  obtain ⟨j, hj, rfl⟩ := Vector.mem_iff_getElem.mp (Vector.mem_toList_iff.mp hl)
  have hget : vget [] s.via.held j = s.via.held[j] := by simp [vget, hj]
  exact bne_iff_ne.mpr (ho ⟨j, hj⟩ h (hget ▸ hm))

/-- A STOPPING island whose port has drained. -/
theorem execIslandStopDone_drained (i : Island) (hi : pstate s i = .stopping) (hd : portDrained s i = true) :
    execIslandStopDone i s = .next (if isRestarting s i then (if s.freeze.frozen then s else restartStarts i s)
      else parkStopped (servedIsland i .stopping (powerOff i s))) :=
  congrArg Host.Outcome.next (if_pos ⟨hi, hd⟩)

/-- A restarting island is STARTING again, its core held and not locked up (R381). -/
theorem restartStarts_reads {i : Nat} (h0 : i ≠ 0) (hi : i < 14) : pstate (restartStarts i s) i = .starting ∧
    (getCore (restartStarts i s) i).hold = true ∧ (getCore (restartStarts i s) i).lock = false := by
  have hcore : getCore (restartStarts i s) i = Core.reset := by
    have h : (restartStarts i s).cores = vset (powerOff i s).cores i Core.reset := by
      unfold restartStarts restartClears
      dsimp only
      split
      · rfl
      · split <;> rfl
    rw [getCore, h]
    exact vget_vset_self _ _ _ hi
  rw [hcore, pstate, if_neg h0]
  exact ⟨vget_vset_self _ _ _ hi, rfl, rfl⟩

/-- An island that has stopped is OFF and an OFF that it stopped for ends, outside PARK entry. -/
theorem stopped_reads (i : Island) (h0 : i.val ≠ 0) (hp : s.park.phase ≠ .stopping) :
    ∃ t, parkStopped (servedIsland i .stopping (powerOff i s)) = t ∧ pstate t i = .off ∧ inboxOf t i = [] ∧
      (∀ v, s.power.serving = some v → v.cmd.island = i.val → v.phase = .stopping → t.power.serving = none ∧
        t.power.results = s.power.results ++ [⟨0x00, 0, v.cmd.island, v.cmd.tag⟩]) ∧
      ∀ (r : Reg) (k : Nat), inWindow i (regAddr i r k) = true → abutmentKeeps (regAddr i r k) = false →
        regValue t i r k = regValue State.reset i r k := by
  obtain ⟨hpower, hpark, hinbox, hcfg⟩ := powerOff_reads s h0 i.isLt
  obtain ⟨v, rs, hserved, hends⟩ := servedIsland_eq (powerOff i s) i .stopping
  rw [hserved]
  generalize powerOff i s = u at hpower hpark hinbox hcfg hends
  refine ⟨_, if_neg (fun h => hp (hpark ▸ h.1)), ?_, hinbox, fun w hw hwi hwp => ?_, fun r k hw hk => regValue_clearRegs s i r k hw hk hcfg⟩
  · rw [pstate, if_neg h0]
    dsimp only
    rw [hpower]
    exact vget_vset_self _ _ _ i.isLt
  · obtain ⟨hv, hrs⟩ := hends w (by rw [hpower]; exact hw) hwi hwp
    rw [hpower] at hrs
    exact ⟨hv, hrs⟩

end Sys2Proof.Machine
end

section
/-! SUPPORT. The power controller's commands and replies as the island's register takes them. -/

namespace Sys2Proof.Machine

variable (s : State)

/-- A power command written by an island that reaches AON. -/
theorem powerCommand_answered (ini : Island) (op : PwrOp) (i : Nat) (level : Fin 4) (l tag : Nat) (hl : l < 4) (hop : op = .level → l = level)
    (hr : canReach s ini 0 = true) :
    ∃ q, Host.Outcome.next (aonWrite ini .pwrCmd (pwrCmdWrite ini true op i l tag) s) =
      (.next (setResp ini [] (commandStatus s ini op i level)
        (if commandStatus s ini op i level = 0x00 then
          { s with perf := q, power := { s.power with queue := s.power.queue ++ [⟨op, i, l, tag, ini⟩] } }
        else { s with perf := q })) : Host.Outcome State Fault Refusal) := by
  obtain ⟨p, q, h⟩ := aonWrite_runs s .pwrCmd (pwrCmdWrite ini true op i l tag) hr
  have hst : commandStatus { s with perf := p } ini op i l = commandStatus s ini op i level := commandStatus_level s ini op i hop
  rw [pwrCmdWrite_eq { s with perf := p } ini op i l tag hl, hst] at h
  refine ⟨q, congrArg Host.Outcome.next (h.trans ?_)⟩
  by_cases h0 : commandStatus s ini op i level = 0x00
  · simp only [if_pos h0]
  · simp only [if_neg h0]

/-- A reply of an island that is asked, or its hardware's in its stead, is taken. -/
theorem pwrReply_asked (ini : Island) (a n r : Nat) {t0 : Nat} (hq : (getQuery s ini).phase = .awaiting t0) (ha : a < 3) (hr : canReach s ini 0 = true) :
    ReplyTaken s ini (replyOf s ini a n r).1 (replyOf s ini a n r).2.1 (replyOf s ini a n r).2.2
      (.next (aonWrite ini .pwrReply (pwrReplyWrite ini a n r) s)) := by
  obtain ⟨p, c, h⟩ := aonWrite_runs s .pwrReply (pwrReplyWrite ini a n r) hr
  obtain ⟨p', hx⟩ := pwrReplyWrite_asked { s with perf := p } ini a n r hq ha
  rw [hx] at h
  rw [h]
  exact takeReply_taken s ini _ _ _ p' c

/-- A reply of an island that is not asked is answered 0x02. -/
theorem pwrReply_notAsked (ini : Island) (a n r : Nat) (hq : ∀ t0, (getQuery s ini).phase ≠ .awaiting t0) (hr : canReach s ini 0 = true) :
    ∃ c, Host.Outcome.next (aonWrite ini .pwrReply (pwrReplyWrite ini a n r) s) =
      (.next (setResp ini [] 0x02 { s with perf := c }) : Host.Outcome State Fault Refusal) := by
  obtain ⟨p, c, h⟩ := aonWrite_runs s .pwrReply (pwrReplyWrite ini a n r) hr
  have hx : pwrReplyWrite ini a n r { s with perf := p } = (0x02, { s with perf := p }) := by
    unfold pwrReplyWrite
    split
    · rename_i t0 ht
      exact absurd ht (hq t0)
    · rfl
  rw [hx] at h
  exact ⟨c, congrArg Host.Outcome.next h⟩

end Sys2Proof.Machine

/-! The statement about the power controller (01_architecture.md). -/

namespace Sys2Proof.Proofs

open Sys2Proof Sys2Proof.Machine

/-- Settles O43: commands by the checks of R352, one served at a time, replies as `ReplyTaken` has them, and each completion. -/
theorem powerCommands : Obligations.PowerCommands := by
  intro s
  refine ⟨fun ini i tag level hr => ?_, fun c rest hq hs hr hp hf hi => ?_, fun ini hr => ⟨fun t0 hq => ?_, fun hq => ?_⟩, fun i => ?_⟩
  · have hanswers := fun op l hl hop => powerCommand_answered s ini op i level l tag hl hop hr
    exact ⟨hanswers .on 0 (by decide) (fun h => by cases h), hanswers .off 0 (by decide) (fun h => by cases h),
      hanswers .level level level.isLt (fun _ => rfl)⟩
  · have hends : ∀ st, powerResult c st 0 (dequeued rest s) = _ := fun st => powerResult_unserved (dequeued rest s) c st 0 hs
    refine ⟨fun hop => ?_, fun hop => ⟨fun huse => ?_, fun huse => ?_⟩, fun hop => ⟨fun hfloor => ?_, fun hfloor => ?_⟩⟩
    · have hx := powerServe_on hq hs hr hp hf hop
      exact ⟨fun h => congrArg Host.Outcome.next (hx.trans ((if_pos h).trans (hends _))),
        fun h => congrArg Host.Outcome.next (hx.trans (if_neg (not_not.mpr h)))⟩
    · have hst : powerRecheck s c = 0xC3 := by simp [powerRecheck, hop, huse]
      have hx := powerServe_refused hq hs hr hp hf (by rw [hst]; decide)
      rw [hst] at hx
      exact congrArg Host.Outcome.next (hx.trans (hends _))
    · have hx := powerServe_off hq hs hr hp hf hop (by simp [powerRecheck, hop, huse])
      refine ⟨fun h => congrArg Host.Outcome.next (hx.trans ((if_pos h).trans (hends _))), fun h hself => ?_, fun h hself hnone => ?_⟩
      · rw [if_neg (by rw [h]; decide), if_pos h, powerProceed_asked (dequeued rest s) hi 2 0 c hself] at hx
        exact congrArg Host.Outcome.next hx
      · rw [if_neg (by rw [h]; decide), if_pos h] at hx
        have h0 : c.island ≠ 0 := fun h => by rw [h] at hself; exact absurd hself.1 (by decide)
        obtain ⟨hserving, hstops⟩ := powerProceed_stops (servedIn c .querying (sendQuery c.island 2 0 (dequeued rest s))) rfl rfl
          (allAccepted_asked (dequeued rest s) hi 2 0 c hnone hself) hop h0 hi h
        rw [← hx] at hserving hstops
        exact ⟨_, rfl, hserving, hstops⟩
    · have hst : powerRecheck s c = 0xC0 := by simp [powerRecheck, hop, floorInForce, hfloor]
      have hx := powerServe_refused hq hs hr hp hf (by rw [hst]; decide)
      rw [hst] at hx
      exact congrArg Host.Outcome.next (hx.trans (hends _))
    · have hx := powerServe_level hq hs hr hp hf hop (by simp [powerRecheck, hop, floorInForce, hfloor])
      refine ⟨fun h => congrArg Host.Outcome.next (hx.trans ((if_pos h).trans (hends _))), fun h hoff => ?_, fun h hrun hw hself => ?_,
        fun h hrun hw hnone => ?_⟩
      · rw [if_neg h, if_pos hoff] at hx
        exact congrArg Host.Outcome.next (hx.trans (powerResult_unserved _ c 0x00 0 hs))
      · rw [if_neg h, if_neg (by rw [hrun]; decide), if_pos ⟨hrun, hw⟩, powerProceed_asked (dequeued rest s) hi 1 c.level c hself] at hx
        exact congrArg Host.Outcome.next hx
      · rw [if_neg h, if_neg (by rw [hrun]; decide)] at hx
        obtain ⟨w, hproceeds, hserving⟩ := powerProceed_level (dequeued rest s) hop hi hnone hw
        exact ⟨_, congrArg Host.Outcome.next (hx.trans hproceeds), hserving, rfl⟩
  · have hasked : ∀ a n r, a < 3 → _ := fun a n r ha => replyOf_cases s (fun a' n' r' => ReplyTaken s ini a' n' r'
      (.next (aonWrite ini .pwrReply (pwrReplyWrite ini a n r) s))) (pwrReply_asked s ini a n r hq ha hr)
    exact ⟨hasked 0 0 0 (by decide), fun n => hasked 1 n.toNat 0 (by decide), fun r => hasked 2 0 r.val (by decide)⟩
  · exact ⟨pwrReply_notAsked s ini 0 0 0 hq hr, fun n => pwrReply_notAsked s ini 1 n.toNat 0 hq hr,
      fun r => pwrReply_notAsked s ini 2 0 r.val hq hr⟩
  · refine ⟨fun t0 v hq hlate hv => ?_, fun t0 hq hdue => ?_, execIslandStartDone_runs s i, fun hi ht ho hh hp => ?_, fun l hl => ?_,
      fun v hl hv hi hph => ?_⟩
    · obtain ⟨q, -, hx⟩ := refuse_command s i 5 hv
      have h : execQueryNoReply i s = .next (refuse i 5 s) := by simp only [execQueryNoReply, hq, if_pos hlate]
      rw [hx] at h
      exact ⟨_, h, rfl, rfl, rfl⟩
    · have h : execQueryRepeat i s = .next (setQueryPhase i (.awaiting s.time.us) s) := by simp only [execQueryRepeat, hq, if_pos hdue]
      exact h
    · have h0 : i.val ≠ 0 := fun h => by rw [h] at hi; cases hi
      have hx := execIslandStopDone_drained s i hi (portDrained_of s i ht ho hh)
      refine ⟨fun hre hf => ?_, fun hre => ?_⟩
      · rw [if_pos hre, if_neg (by rw [hf]; decide)] at hx
        obtain ⟨hst, hcore⟩ := restartStarts_reads s h0 i.isLt
        exact ⟨_, hx, hst, fun _ => hcore⟩
      · obtain ⟨t, ht, hreads⟩ := stopped_reads s i h0 hp
        rw [if_neg (by rw [hre]; decide), ht] at hx
        exact ⟨t, hx, hreads⟩
    · have h : execLevelChangeDone i s = .next (modPower (fun p => { p with level := vset p.level i l, raising := vset p.raising i none }) s) := by
        simp only [execLevelChangeDone, hl]
      exact h
    · have h : execLevelChangeDone i s = .next (powerResult v.cmd 0x00 0 (modPower (fun p => { p with level := vset p.level i v.cmd.level }) s)) := by
        simp only [execLevelChangeDone, hl, hv, if_pos (And.intro hi hph)]
      exact h

end Sys2Proof.Proofs
end

section
/-! SUPPORT. Messages between programs, sent and turned away, and what a pier's program does with the deck's (R35, R108, R111 to
R113, R342). -/

namespace Sys2Proof.Machine

variable (s : State)

/-! ## Messages sent (R30, R35, R342) -/

/-- A message that reaches an island that acts is answered 0x00 and its work done, on a state that differs in the counters. -/
theorem sendMsg_taken {src dst : Nat} (work fail : State → State) (hr : canReach s src dst = true) (ha : canAct s dst = true) :
    ∃ p, sendMsg src dst work fail s = work (setResp src [] 0x00 { s with perf := p }) := by
  obtain ⟨p₁, h₁⟩ := countEvent_eq s src 0x005 1
  obtain ⟨p₂, h₂⟩ := countEvent_eq { s with perf := p₁ } dst 0x006 1
  obtain ⟨p₃, h₃⟩ := countEvent_eq { s with perf := p₂ } dst 0x008 1
  refine ⟨p₃, ?_⟩
  unfold sendMsg
  rw [if_pos hr, h₁]
  dsimp only
  rw [if_pos (show canAct { s with perf := p₁ } dst = true from ha), h₂, h₃]

/-- A message to an island that is off or frozen is answered 0x03 and noted, and its sender goes on. -/
theorem sendMsg_off {src dst : Nat} (hi : src < 14) (work fail : State → State) (hr : canReach s src dst = true) (ha : canAct s dst = false) :
    ∃ v p, sendMsg src dst work fail s = fail { s with via := v, perf := p } ∧ vget ⟨[], 0⟩ v.resp src = ⟨[], 0x03⟩ ∧
      v.offCount = satTo 0xFFFFFFFF (s.via.offCount + 1) := by
  obtain ⟨p₁, h₁⟩ := countEvent_eq s src 0x005 1
  obtain ⟨v, p₂, h₂, hoff, -⟩ := noteOff_eq { s with perf := p₁ } src (islandBase dst) true false true
  obtain ⟨p₃, h₃⟩ := countEvent_eq { s with via := v, perf := p₂ } src 0x00A 1
  refine ⟨{ v with resp := vset v.resp src ⟨[], 0x03⟩ }, p₃, ?_, vget_vset_self _ _ _ hi, hoff⟩
  unfold sendMsg
  rw [if_pos hr, h₁]
  dsimp only
  rw [if_neg (by rw [show canAct { s with perf := p₁ } dst = canAct s dst from rfl, ha]; decide), h₂, h₃]
  rfl

/-! ## A pier's program prepares and starts a burst (R108, R111, R127) -/

/-- The state with a pier's LF array enabled. -/
def enabledPier (s : State) (p : Nat) : State := if lfEnabled s p then s else putReg s (6 + p) .lfCtrl 0 1

theorem enabledPier_eq (p : Nat) : enabledPier s p = { s with cfg := (enabledPier s p).cfg } := by
  unfold enabledPier
  split <;> rfl

/-- What enabling writes hangs on the registers only. -/
theorem enabledPier_cfg (p : Nat) {t : State} (h : t.cfg = s.cfg) : (enabledPier t p).cfg = (enabledPier s p).cfg := by
  have hen : lfEnabled t p = lfEnabled s p := by simp only [lfEnabled, regValue, h]
  unfold enabledPier
  rw [hen]
  split
  · exact h
  · simp only [putReg, h]

/-- Preparing a burst enables the pier and writes two registers. -/
theorem pierPrepare_enabled (p drive : Nat) : pierPrepare p drive s =
    putReg (putReg (enabledPier s p) (6 + p) .lfMod 0 1) (6 + p) .lfDrive 0 (drive % 2 ^ 23) := rfl

/-- Preparing a burst writes registers only. -/
theorem pierPrepare_eq (p drive : Nat) : pierPrepare p drive s = { s with cfg := (pierPrepare p drive s).cfg } := by
  rw [pierPrepare_enabled, enabledPier_eq]
  rfl

/-- What it writes hangs on the registers only. -/
theorem pierPrepare_cfg (p drive : Nat) {t : State} (h : t.cfg = s.cfg) : (pierPrepare p drive t).cfg = (pierPrepare p drive s).cfg := by
  simp only [pierPrepare_enabled, putReg, enabledPier_cfg s p h]

/-- The LF array after a START of a burst on aerial k of pier p, answered with a status: its burst runs, or stays as it was. -/
def BurstStarted (s : State) (p k mode : Nat) (st : Status) (l : LfState) : Prop :=
  (∀ n, n ≠ p → vget Pier.reset l.piers n = getPier s n) ∧
  (st = 0x00 → ∃ c, (vget Pier.reset l.piers p).burst = some { Burst.fresh k mode 0 none with start := s.time.us, clamped := c }) ∧
  (st ≠ 0x00 → (vget Pier.reset l.piers p).burst = (getPier s p).burst)

section
variable {s t : State}

/-- Registers latched one after another: only what has latched changes. -/
theorem latchReg_of (h : ∃ a, t = { s with latched := a }) (i : Nat) (r : Reg) (k : Nat) : ∃ a, latchReg t i r k = { s with latched := a } := by
  obtain ⟨a, rfl⟩ := h
  exact ⟨_, rfl⟩

/-- Registers written one after another: only the registers change. -/
theorem putReg_of (h : ∃ c, t = { s with cfg := c }) (i : Nat) (r : Reg) (k w : Nat) : ∃ c, putReg t i r k w = { s with cfg := c } := by
  obtain ⟨c, rfl⟩ := h
  exact ⟨_, rfl⟩

end

/-- The start of a burst latches registers only (R124). -/
theorem latchBurst_eq (p mode : Nat) : ∃ a, latchBurst p mode s = { s with latched := a } := by
  have h := latchReg_of (latchReg_of (latchReg_of ⟨s.latched, (rfl : s = s)⟩ (6 + p) .lfDrive 0) (6 + p) .lfMod 0) (6 + p) .lfLen 0
  unfold latchBurst
  dsimp only
  split
  · exact latchReg_of h _ _ _
  · exact h

/-- The state with a burst on a pier. -/
def withBurst (p : Nat) (b : Burst) (s : State) : State := modPier p (fun q => { q with burst := some b, aerial := b.aerial, mode := b.mode }) s

/-- A burst that begins: its pier runs it, its registers latch and it is counted. -/
theorem beginBurst_eq (p k mode : Nat) : ∃ a c q, beginBurst p (Burst.fresh k mode 0 none) s =
    { withBurst p { Burst.fresh k mode 0 none with start := s.time.us, clamped := c } (abortPing p s) with latched := a, perf := q } := by
  obtain ⟨a, ha⟩ := latchBurst_eq (abortPing p s) p mode
  have hbegin : ∀ u : State, latchBurst p mode (abortPing p s) = u → beginBurst p (Burst.fresh k mode 0 none) s = countEvent (6 + p) 0x040 1
      (withBurst p { Burst.fresh k mode 0 none with start := u.time.us, clamped := (mode == 0 || mode == 3) && overLimit u p } u) := by
    rintro u rfl
    rfl
  obtain ⟨q, hq⟩ := countEvent_eq (withBurst p { Burst.fresh k mode 0 none with
    start := s.time.us, clamped := (mode == 0 || mode == 3) && overLimit { abortPing p s with latched := a } p } { abortPing p s with latched := a })
    (6 + p) 0x040 1
  exact ⟨a, _, q, (hbegin _ ha).trans hq⟩

/-- A burst started with 0x00, or refused. -/
theorem lfStart_eq {p : Nat} (hp : p < 8) (k : Nat) {mode : Nat} (hm : mode ≠ 3) : ∃ l a q, lfStart p k mode 0 s =
    (lfStartStatus s p k mode, { s with lf := l, latched := a, perf := q }) ∧ BurstStarted s p k mode (lfStartStatus s p k mode) l := by
  unfold lfStart
  dsimp only
  by_cases h : lfStartStatus s p k mode = 0x00
  · obtain ⟨a, c, q, hb⟩ := beginBurst_eq s p k mode
    rw [if_neg (not_not.mpr h), if_neg hm, hb, h]
    refine ⟨(withBurst p { Burst.fresh k mode 0 none with start := s.time.us, clamped := c } (abortPing p s)).lf, a, q, rfl, fun n hn => ?_,
      fun _ => ⟨c, ?_⟩, fun hne => absurd rfl hne⟩
    · exact (getPier_modPier_ne hn _ (abortPing p s)).trans (getPier_modPier_ne hn _ s)
    · exact congrArg Pier.burst ((getPier_modPier hp _ (abortPing p s) p).trans (if_pos rfl))
  · exact ⟨s.lf, s.latched, s.perf, if_pos h, fun _ _ => rfl, fun h0 => absurd h0 h, fun _ => rfl⟩

/-- The exchange of a tag read: KT first, else the inventory, else an end with 0x50. -/
def readJob (bay tag : Nat) (kt op : Bool) : TagJob :=
  let j := { TagJob.fresh bay tag .waitRc with openId := op }
  if kt then j else if op then j.inventory else j.ended 0x50

/-- The exchange of a tag write, with the data of the pier's mailbox: a check where its UID is on the caution list. -/
def writeJob (s : State) (bay tag uid : Nat) : TagJob :=
  { TagJob.fresh bay tag (.open_ (cautionFind s uid).isSome) with
    write := true, check := (cautionFind s uid).isSome, kind := 1, uid := uid, data := memReadBytes s (sramKey (6 + bay / 8) 0xFF00) 32 }

/-- A tag burst's exchange stands in its pier, or has ended with the status of the START. -/
theorem tagStart_eq (p k drive : Nat) (j : TagJob) : tagStart p k drive j s =
    setJob p (if (lfStart p k 0 0 (pierPrepare p drive s)).1 = 0x00 then j else j.ended (lfStart p k 0 0 (pierPrepare p drive s)).1)
      (lfStart p k 0 0 (pierPrepare p drive s)).2 := by
  unfold tagStart
  dsimp only
  split <;> rfl

section
variable (v : ViaState) (f : Vector PerfState 14)

/-- What a pier's program writes and how its START is answered does not hang on the viaduct and the counters. -/
theorem pierPrepare_sent (p drive : Nat) : pierPrepare p drive { s with via := v, perf := f } =
    { s with via := v, perf := f, cfg := (pierPrepare p drive s).cfg } :=
  (pierPrepare_eq _ p drive).trans
    (congrArg (fun c => ({ s with via := v, perf := f, cfg := c } : State)) (pierPrepare_cfg s p drive rfl))

theorem enabledPier_sent (p : Nat) : enabledPier { s with via := v, perf := f } p =
    { s with via := v, perf := f, cfg := (enabledPier s p).cfg } :=
  (enabledPier_eq _ p).trans (congrArg (fun c => ({ s with via := v, perf := f, cfg := c } : State)) (enabledPier_cfg s p rfl))

theorem lfStartStatus_sent {u : State} (h : u = { s with cfg := u.cfg }) (p k mode : Nat) :
    lfStartStatus u p k mode = lfStartStatus { s with via := v, perf := f, cfg := u.cfg } p k mode := by
  generalize u.cfg = c at h ⊢
  rw [h]
  rfl

/-- A tag burst is prepared and started with its exchange, or the exchange ends with the status of the START (R141, R149). -/
theorem tagStart_sent {p : Nat} (hp : p < 8) (k drive : Nat) (j : TagJob) : ∃ l a q, tagStart p k drive j { s with via := v, perf := f } =
    { s with via := v, cfg := (pierPrepare p drive s).cfg, lf := l, latched := a, perf := q } ∧
    BurstStarted s p k 0 (lfStartStatus (pierPrepare p drive s) p k 0) l ∧
    (vget Pier.reset l.piers p).job = some (if lfStartStatus (pierPrepare p drive s) p k 0 = 0x00 then j else j.ended (lfStartStatus (pierPrepare p drive s) p k 0)) := by
  obtain ⟨l, a, q, hx, hrest, hruns, hkeeps⟩ := lfStart_eq { s with via := v, perf := f, cfg := (pierPrepare p drive s).cfg } hp k (mode := 0) (by decide)
  rw [tagStart_eq, pierPrepare_sent, hx, lfStartStatus_sent s v f (pierPrepare_eq s p drive)]
  generalize lfStartStatus _ p k 0 = st at hruns hkeeps ⊢
  have hpier : getPier (setJob p (if st = 0x00 then j else j.ended st) { s with lf := l }) p = _ := (getPier_modPier hp _ _ p).trans (if_pos rfl)
  refine ⟨(setJob p (if st = 0x00 then j else j.ended st) { s with lf := l }).lf, a, q, rfl, ⟨fun n hn => ?_, fun h => ?_, fun h => ?_⟩,
    congrArg Pier.job hpier⟩
  · exact (getPier_modPier_ne hn _ { s with lf := l }).trans (hrest n hn)
  · obtain ⟨c, hc⟩ := hruns h
    exact ⟨c, (congrArg Pier.burst hpier).trans hc⟩
  · exact (congrArg Pier.burst hpier).trans (hkeeps h)

/-- A TUNE burst is started on a pier that is enabled (R117). -/
theorem tune_sent {p : Nat} (hp : p < 8) (k : Nat) : ∃ l a q, (lfStart p k 2 0 (enabledPier { s with via := v, perf := f } p)).2 =
    { s with via := v, cfg := (enabledPier s p).cfg, lf := l, latched := a, perf := q } ∧
    BurstStarted s p k 2 (lfStartStatus (enabledPier s p) p k 2) l := by
  obtain ⟨l, a, q, hx, hstarted⟩ := lfStart_eq { s with via := v, perf := f, cfg := (enabledPier s p).cfg } hp k (mode := 2) (by decide)
  rw [enabledPier_sent, hx, lfStartStatus_sent s v f (enabledPier_eq s p)]
  exact ⟨l, a, q, rfl, hstarted⟩

end

/-- STOP marks a running burst, ends an armed chord, and on an idle pier does nothing (R113). -/
theorem lfStop_eq {p : Nat} (hp : p < 8) : lfStop p s = { s with lf := (lfStop p s).lf } ∧
    (∀ n, n ≠ p → getPier (lfStop p s) n = getPier s n) ∧ ((getPier s p).burst = none → (lfStop p s).lf = s.lf) ∧
    ∀ b, (getPier s p).burst = some b → b.armed = none → (getPier (lfStop p s) p).burst = some { b with stopped := true } := by
  cases hb : (getPier s p).burst with
  | none =>
    have hx : lfStop p s = s := by simp only [lfStop, hb]
    rw [hx]
    exact ⟨rfl, fun _ _ => rfl, fun _ => rfl, fun b h => by cases h⟩
  | some b =>
    by_cases ha : b.armed = none
    · have hx : lfStop p s = modPier p (fun q => { q with burst := some { b with stopped := true } }) s := by
        simp only [lfStop, hb, if_neg (not_not.mpr ha)]
      rw [hx]
      refine ⟨rfl, fun n hn => getPier_modPier_ne hn _ s, fun h => (by cases h), fun b' hb' _ => ?_⟩
      cases hb'
      exact congrArg Pier.burst ((getPier_modPier hp _ s p).trans (if_pos rfl))
    · have hx : lfStop p s = tagBurstEnded p 0x48 (modPier p (fun q => { q with burst := none, last := 0x48, event := q.event ||| 1 }) s) := by
        simp only [lfStop, hb, if_pos ha, burstEnded, if_neg ha]
      obtain ⟨v, hv, hrest, -⟩ := tagBurstEnded_eq hp 0x48 (modPier p (fun q => { q with burst := none, last := 0x48, event := q.event ||| 1 }) s)
      rw [hx, hv]
      refine ⟨rfl, fun n hn => (hrest n hn).trans (getPier_modPier_ne hn _ s), fun h => (by cases h), fun b' hb' hna => ?_⟩
      cases hb'
      exact absurd hna ha

/-! ## A chord loaded and armed (R108, R130 to R132) -/

/-- Settling the downlink FIFO changes its pier only. -/
theorem settleTx_lf (p : Nat) : settleTx p s = { s with lf := (settleTx p s).lf } ∧ ∀ n, n ≠ p → getPier (settleTx p s) n = getPier s n := by
  unfold settleTx
  cases (getPier s p).burst with
  | none => exact ⟨rfl, fun _ _ => rfl⟩
  | some b =>
    dsimp only
    split_ifs
    · exact ⟨rfl, fun _ _ => rfl⟩
    · exact ⟨rfl, fun n hn => getPier_modPier_ne hn _ s⟩
    · exact ⟨rfl, fun n hn => getPier_modPier_ne hn _ s⟩

/-- How it settles does not hang on the viaduct and the counters. -/
theorem settleTx_sent (v f) (p : Nat) : settleTx p { s with via := v, perf := f } = { settleTx p s with via := v, perf := f } := by
  unfold settleTx
  rw [show getPier { s with via := v, perf := f } p = getPier s p from rfl]
  cases (getPier s p).burst with
  | none => rfl
  | some b =>
    dsimp only
    rw [show txTaken { s with via := v, perf := f } p b = txTaken s p b from rfl]
    split_ifs <;> rfl

/-- The same of a word pushed. -/
theorem lfTxdPush_lf (p w : Nat) : (lfTxdPush p w s).2 = { s with lf := (lfTxdPush p w s).2.lf } ∧
    ∀ n, n ≠ p → getPier (lfTxdPush p w s).2 n = getPier s n := by
  obtain ⟨h, hrest⟩ := settleTx_lf s p
  unfold lfTxdPush
  dsimp only
  split
  · exact ⟨h, hrest⟩
  · refine ⟨?_, fun n hn => (getPier_modPier_ne hn _ _).trans (hrest n hn)⟩
    exact congrArg (modPier p (fun q => { q with tx := q.tx ++ [w] })) h

theorem lfTxdPush_sent (v f) (p w : Nat) : (lfTxdPush p w { s with via := v, perf := f }).2 = { (lfTxdPush p w s).2 with via := v, perf := f } := by
  unfold lfTxdPush
  rw [settleTx_sent]
  dsimp only
  rw [show getPier { settleTx p s with via := v, perf := f } p = getPier (settleTx p s) p from rfl]
  split <;> rfl

/-- A chord loaded changes registers and its pier only. -/
theorem pierLoad_eq (p drive header t0 : Nat) : (∃ c l, pierLoad p drive header t0 s = { s with cfg := c, lf := l }) ∧
    ∀ n, n ≠ p → getPier (pierLoad p drive header t0 s) n = getPier s n := by
  obtain ⟨c, hc⟩ := putReg_of (putReg_of (putReg_of ⟨_, pierPrepare_eq s p drive⟩ (6 + p) .chordCfg 0 p) (6 + p) .chordT0Lo 0 (t0 % 2 ^ 32))
    (6 + p) .chordT0Hi 0 (t0 / 2 ^ 32 % 2 ^ 32)
  unfold pierLoad
  dsimp only
  rw [hc]
  obtain ⟨h, hrest⟩ := lfTxdPush_lf { s with cfg := c } p (header % 64 * 2 ^ 26)
  exact ⟨⟨c, _, h⟩, hrest⟩

/-- What is loaded does not hang on the viaduct and the counters. -/
theorem pierLoad_sent (v f) (p drive header t0 : Nat) : pierLoad p drive header t0 { s with via := v, perf := f } =
    { pierLoad p drive header t0 s with via := v, perf := f } := by
  have hprep := pierPrepare_eq s p drive
  unfold pierLoad
  rw [pierPrepare_sent]
  dsimp only
  generalize (pierPrepare p drive s).cfg = c at hprep ⊢
  rw [hprep]
  exact lfTxdPush_sent (putReg (putReg (putReg { s with cfg := c } (6 + p) .chordCfg 0 p) (6 + p) .chordT0Lo 0 (t0 % 2 ^ 32))
    (6 + p) .chordT0Hi 0 (t0 / 2 ^ 32 % 2 ^ 32)) v f p (header % 64 * 2 ^ 26)

/-- A chord armed with its T0, or refused. -/
theorem lfStart_chord {p : Nat} (hp : p < 8) (k : Nat) : (∃ l a, (lfStart p k 3 0 s).2 = { s with lf := l, latched := a }) ∧
    (∀ n, n ≠ p → getPier (lfStart p k 3 0 s).2 n = getPier s n) ∧
    (lfStartStatus s p k 3 = 0x00 → (getPier (lfStart p k 3 0 s).2 p).burst = some (Burst.fresh k 3 0 (some (chordT0 s p)))) ∧
    (lfStartStatus s p k 3 ≠ 0x00 → (getPier (lfStart p k 3 0 s).2 p).burst = (getPier s p).burst) := by
  obtain ⟨a, ha⟩ := latchReg_of (latchReg_of (latchReg_of ⟨s.latched, (rfl : s = s)⟩ (6 + p) .chordCfg 0) (6 + p) .chordT0Lo 0) (6 + p) .chordT0Hi 0
  unfold lfStart
  dsimp only
  rw [ha]
  by_cases h : lfStartStatus s p k 3 = 0x00
  · rw [if_neg (not_not.mpr h), if_pos rfl]
    refine ⟨⟨_, a, rfl⟩, fun n hn => getPier_modPier_ne hn _ { s with latched := a }, fun _ => ?_, fun hne => absurd h hne⟩
    exact congrArg Pier.burst ((getPier_modPier hp _ { s with latched := a } p).trans (if_pos rfl))
  · rw [if_pos h]
    exact ⟨⟨s.lf, s.latched, rfl⟩, fun _ _ => rfl, fun h0 => absurd h0 h, fun _ => rfl⟩

/-- A pier loads and arms its chord; beside it, registers only change. -/
theorem pierArm_sent (v f) {p : Nat} (hp : p < 8) (k drive header t0 : Nat) :
    (∃ c l a, pierArm p k drive header t0 { s with via := v, perf := f } = { s with via := v, perf := f, cfg := c, lf := l, latched := a }) ∧
    (∀ n, n ≠ p → getPier (pierArm p k drive header t0 { s with via := v, perf := f }) n = getPier s n) ∧
    (lfStartStatus (pierLoad p drive header t0 s) p k 3 = 0x00 → (getPier (pierArm p k drive header t0 { s with via := v, perf := f }) p).burst =
      some (Burst.fresh k 3 0 (some (chordT0 (pierLoad p drive header t0 s) p)))) ∧
    (lfStartStatus (pierLoad p drive header t0 s) p k 3 ≠ 0x00 → (getPier (pierArm p k drive header t0 { s with via := v, perf := f }) p).burst =
      (getPier (pierLoad p drive header t0 s) p).burst) := by
  obtain ⟨⟨c, l, hload⟩, hothers⟩ := pierLoad_eq s p drive header t0
  unfold pierArm
  rw [pierLoad_sent]
  obtain ⟨⟨l', a, hx⟩, hrest, harmed, hkeeps⟩ := lfStart_chord { pierLoad p drive header t0 s with via := v, perf := f } hp k
  refine ⟨⟨c, l', a, ?_⟩, fun n hn => (hrest n hn).trans (hothers n hn), harmed, hkeeps⟩
  rw [hx, hload]

/-- The deck notes T0 of a chord that its pier has armed. -/
theorem chordArmed_reached (tag n t0 : Nat) : ∃ x, chordArmed tag n t0 true s = { s with span := x } ∧
    (tag < 64 → (vget Span.reset x.bays tag).chordT0 = t0) := by
  unfold chordArmed
  by_cases h : tag < 64
  · rw [if_pos h, if_pos rfl]
    exact ⟨_, rfl, fun _ => congrArg Span.chordT0 ((getSpan_modBay h (fun p => { p with chordT0 := t0 }) s tag).trans (if_pos rfl))⟩
  · rw [if_neg h, if_pos rfl]
    exact ⟨s.span, rfl, fun h' => absurd h' h⟩

/-- What MSG_CHORD_ARM does where its pier takes it: the pier of its bay arms the chord, and the deck notes T0. -/
def chordTaken (p b tag drive header t0 : Nat) (s : State) : State :=
  chordArmed tag p t0 true (if b / 8 = p then pierArm p (b % 8) drive header t0 s else s)

theorem chordTaken_sent (v f) {p : Nat} (hp : p < 8) (b tag drive header t0 : Nat) : ∃ c l a x,
    chordTaken p b tag drive header t0 { s with via := v, perf := f } = { s with via := v, perf := f, cfg := c, lf := l, latched := a, span := x } ∧
    (∀ n, n ≠ p → vget Pier.reset l.piers n = getPier s n) ∧ (tag < 64 → (vget Span.reset x.bays tag).chordT0 = t0) ∧
    (b / 8 ≠ p → vget Pier.reset l.piers p = getPier s p) ∧
    (b / 8 = p →
      (lfStartStatus (pierLoad p drive header t0 s) p (b % 8) 3 = 0x00 →
        (vget Pier.reset l.piers p).burst = some (Burst.fresh (b % 8) 3 0 (some (chordT0 (pierLoad p drive header t0 s) p)))) ∧
      (lfStartStatus (pierLoad p drive header t0 s) p (b % 8) 3 ≠ 0x00 →
        (vget Pier.reset l.piers p).burst = (getPier (pierLoad p drive header t0 s) p).burst)) := by
  unfold chordTaken
  by_cases hb : b / 8 = p
  · obtain ⟨⟨c, l, a, harm⟩, hothers, harmed, hkeeps⟩ := pierArm_sent s v f hp (b % 8) drive header t0
    rw [if_pos hb]
    rw [harm] at hothers harmed hkeeps ⊢
    obtain ⟨x, hchord, ht0⟩ := chordArmed_reached { s with via := v, perf := f, cfg := c, lf := l, latched := a } tag p t0
    exact ⟨c, l, a, x, hchord, hothers, ht0, fun hne => absurd hb hne, fun _ => ⟨harmed, hkeeps⟩⟩
  · rw [if_neg hb]
    obtain ⟨x, hchord, ht0⟩ := chordArmed_reached { s with via := v, perf := f } tag p t0
    exact ⟨s.cfg, s.lf, s.latched, x, hchord, fun _ _ => rfl, ht0, fun _ => rfl, fun he => absurd he hb⟩

/-! ## A pier that a chord does not reach (R35, R137) -/

section
variable {b : Nat} (hb : b < 64)
include hb

/-- An update of a bay that keeps the piers present. -/
theorem present_modBay (f : Span → Span) (hf : ∀ p, (f p).present = p.present) : (getSpan (modBay b f s) b).present = (getSpan s b).present :=
  (congrArg Span.present ((getSpan_modBay hb f s b).trans (if_pos rfl))).trans (hf _)

theorem present_spanMove (nxt : Nat) (st : Option Status) (seq : Nat) : (getSpan (spanMove b nxt st seq s) b).present = (getSpan s b).present := by
  obtain ⟨q, c, o, m, p, h, -⟩ := spanMove_eq b nxt st seq s
  rw [h]
  exact present_modBay { s with store := { s.store with queue := q, changes := c, opened := o }, mem := m, perf := p } hb _ fun _ => rfl

theorem present_dropHandle : (getSpan (dropHandle b s) b).present = (getSpan s b).present := by
  obtain ⟨g, h, -⟩ := dropHandle_eq b s
  rw [h]
  exact present_modBay { s with toll := g } hb _ fun _ => rfl

theorem present_spanEnd (nxt : Nat) (st : Option Status) (seq : Nat) : (getSpan (spanEnd b nxt st seq s) b).present = (getSpan s b).present := by
  have hforget : ∀ u : State, getSpan (forgetJobs b u) b = getSpan u b := fun _ => rfl
  unfold spanEnd
  dsimp only
  rw [hforget, present_dropHandle _ hb, present_modBay _ hb, present_spanMove _ hb]
  exact fun _ => rfl

/-- A span that is refused keeps the piers that its chord has. -/
theorem present_spanRefuse (st : Status) : (getSpan (spanRefuse b st s) b).present = (getSpan s b).present := by
  unfold spanRefuse
  dsimp only
  split <;> exact present_spanEnd _ hb _ _ _

end

/-- A span's step leaves the viaduct alone. -/
theorem BayStep.via {b : Nat} {s t : State} (h : BayStep b s t) : t.via = s.via := by
  obtain ⟨-, -, hrest⟩ := h
  have hvia := congrArg State.via hrest
  exact hvia

/-- A chord's pier that the deck does not reach is absent from the span's chord, which ends the span at its own pier (R137). -/
theorem chordAbsent_eq {b n : Nat} (hb : b < 64) (st : Status) (hw : awaitsChord s b = true) (hp : bitOf (getSpan s b).present n = true) :
    (chordAbsent b n st s).via = s.via ∧ (getSpan (chordAbsent b n st s) b).present = (getSpan s b).present - 2 ^ n ∧
    (n = b / 8 → (getSpan (chordAbsent b n st s) b).state = 10 ∧ (getSpan (chordAbsent b n st s) b).status = st) ∧
    (n ≠ b / 8 → (getSpan (chordAbsent b n st s) b).state = (getSpan s b).state) := by
  have hspan := (getSpan_modBay hb (fun p => { p with present := p.present - 2 ^ n }) s b).trans (if_pos rfl)
  have hpresent := congrArg Span.present hspan
  have hstate := congrArg Span.state hspan
  have hvia : (modBay b (fun p => { p with present := p.present - 2 ^ n }) s).via = s.via := rfl
  unfold chordAbsent
  rw [if_neg (by simp [hw, hp])]
  dsimp only
  generalize modBay b (fun p => { p with present := p.present - 2 ^ n }) s = u at hpresent hstate hvia ⊢
  by_cases hn : n = b / 8
  · obtain ⟨hstep, -, hended, hstatus, -⟩ := spanRefuse_eq hb st u
    rw [if_pos hn]
    exact ⟨hstep.via.trans hvia, (present_spanRefuse u hb st).trans hpresent, fun _ => ⟨hended, hstatus⟩,
      fun h => absurd hn h⟩
  · rw [if_neg hn]
    exact ⟨hvia, hpresent, fun h => absurd h hn, fun _ => hstate⟩

end Sys2Proof.Machine
end

section
/-! The statement about messages from the deck to a pier (01_architecture.md). -/

namespace Sys2Proof.Proofs

open Sys2Proof Sys2Proof.Machine

/-- Settles O39: each message's work on a state that `sendMsg` has changed in the viaduct and the counters only. -/
theorem messagesToPiers : Obligations.MessagesToPiers := by
  intro bay tag drive uid s p k rest begun
  have hp : p < 8 := by have := bay.isLt; omega
  have hanswer : ∀ (v : ViaState) (st : Status), vget ⟨[], 0⟩ (vset v.resp 1 ⟨[], st⟩) 1 = ⟨[], st⟩ := fun v st => vget_vset_self _ _ _ (by decide)
  refine ⟨fun hr ha => ⟨fun kt op => ⟨fun hok => ?_, fun hok => ?_⟩, fun uid => ?_, ?_, ?_⟩, fun hr ha => ⟨fun i hi => ?_, fun kt op hok => ?_⟩,
    fun pier b dr header t0 c hplan => ⟨fun hc => ?_, fun hc hr => ⟨fun ha => ?_, fun ha htag hpresent => ?_⟩⟩⟩
  · exact congrArg Host.Outcome.next (if_neg (by rw [hok]; decide))
  · obtain ⟨f, h⟩ := sendMsg_taken s (tagStart p k drive.toNat (readJob bay tag.toNat kt op)) (stepFails bay 0x03) hr ha
    obtain ⟨l, a, q, hx, ⟨hothers, hruns, hkeeps⟩, hjob⟩ := tagStart_sent s _ f hp k drive.toNat (readJob bay tag.toNat kt op)
    exact ⟨_, congrArg Host.Outcome.next ((if_pos hok).trans (h.trans hx)), ⟨hanswer _ _, hothers, rfl⟩, rfl, hjob, hruns, hkeeps⟩
  · obtain ⟨f, h⟩ := sendMsg_taken s (fun s => tagStart p k drive.toNat (writeJob s bay tag.toNat uid) s) id hr ha
    obtain ⟨l, a, q, hx, ⟨hothers, hruns, hkeeps⟩, hjob⟩ := tagStart_sent s _ f hp k drive.toNat (writeJob s bay tag.toNat uid)
    exact ⟨_, congrArg Host.Outcome.next (h.trans hx), ⟨hanswer _ _, hothers, rfl⟩, rfl, hjob, hruns, hkeeps⟩
  · obtain ⟨f, h⟩ := sendMsg_taken s (fun s => (lfStart p k 2 0 (enabledPier s p)).2) id hr ha
    obtain ⟨l, a, q, hx, hothers, hruns, hkeeps⟩ := tune_sent s _ f hp k
    exact ⟨_, congrArg Host.Outcome.next (h.trans hx), ⟨hanswer _ _, hothers, rfl⟩, rfl, hruns, hkeeps⟩
  · obtain ⟨f, h⟩ := sendMsg_taken s (lfStop p) id hr ha
    obtain ⟨hlf, hothers, hidle, hstops⟩ := lfStop_eq (setResp 1 [] 0x00 { s with perf := f }) hp
    refine ⟨_, congrArg Host.Outcome.next h, ⟨?_, hothers, ?_⟩, hidle, hstops⟩
    · rw [hlf]
      exact hanswer _ _
    · rw [hlf]
      rfl
  · have hoff : ∀ work, ∃ t, Host.Outcome.next (sendMsg 1 (6 + p) work id s) = (.next t : Host.Outcome State Fault Refusal) ∧
        (answerOf t 1 = ⟨[], 0x03⟩ ∧ t.via.offCount = satTo 0xFFFFFFFF (s.via.offCount + 1)) ∧ { t with via := s.via, perf := s.perf } = s := by
      intro work
      obtain ⟨v, f, h, hresp, hcount⟩ := sendMsg_off s (by decide) work id hr ha
      exact ⟨_, congrArg Host.Outcome.next h, ⟨hresp, hcount⟩, rfl⟩
    simp only [List.mem_cons, List.not_mem_nil, or_false] at hi
    rcases hi with rfl | rfl | rfl
    · exact hoff _
    · exact hoff _
    · exact hoff _
  · obtain ⟨v, f, h, hresp, hoff⟩ := sendMsg_off s (by decide) (tagStart p k drive.toNat (readJob bay tag.toNat kt op)) (stepFails bay 0x03) hr ha
    have hx : execMsgTagread bay tag drive kt op s = .next (stepFails bay 0x03 { s with via := v, perf := f }) :=
      congrArg Host.Outcome.next ((if_pos hok).trans h)
    by_cases hlive : (getSpan s bay).live = true
    · have hfails : stepFails bay 0x03 { s with via := v, perf := f } = noteFail bay 0x03 { s with via := v, perf := f } := if_pos hlive
      rw [hfails] at hx
      exact ⟨_, hx, ⟨hresp, hoff⟩, (if_pos hlive).symm⟩
    · have hfails : stepFails bay 0x03 { s with via := v, perf := f } = { s with via := v, perf := f } := if_neg hlive
      rw [hfails] at hx
      exact ⟨_, hx, ⟨hresp, hoff⟩, (if_neg hlive).symm⟩
  · exact congrArg Host.Outcome.next (if_neg (by rw [hplan]; exact hc))
  · have hplanned : (plannedBay s tag.toNat pier).getD b.toNat = b.toNat := by rw [hplan]; exact hc
    obtain ⟨f, h⟩ := sendMsg_taken s (chordTaken pier b.toNat tag.toNat dr.toNat header.toNat t0) (chordArmed tag.toNat pier t0 false) hr ha
    obtain ⟨c', l, a, x, hx, hothers, ht0, hsilent, hown⟩ := chordTaken_sent s _ f pier.isLt b.toNat tag.toNat dr.toNat header.toNat t0
    exact ⟨_, congrArg Host.Outcome.next ((if_pos hplanned).trans (h.trans hx)), hanswer _ _, hothers, ht0, hsilent, hown⟩
  · have hplanned : (plannedBay s tag.toNat pier).getD b.toNat = b.toNat := by rw [hplan]; exact hc
    obtain ⟨v, f, h, hresp, -⟩ := sendMsg_off s (by decide) (chordTaken pier b.toNat tag.toNat dr.toNat header.toNat t0)
      (chordArmed tag.toNat pier t0 false) hr ha
    have hx : execMsgChordArm pier b tag dr header t0 s = _ := congrArg Host.Outcome.next ((if_pos hplanned).trans h)
    have hwaits : awaitsChord s tag.toNat = true := by
      rw [plannedBay, if_pos htag] at hplan
      exact by_contra fun hw => by rw [if_neg hw] at hplan; cases hplan
    obtain ⟨hvia, habsent, howner, hother⟩ := chordAbsent_eq { s with via := v, perf := f } htag 0x03 hwaits hpresent
    have hfails : chordArmed tag.toNat pier t0 false { s with via := v, perf := f } = chordAbsent tag.toNat pier 0x03 { s with via := v, perf := f } :=
      (if_pos htag).trans (if_neg (by decide))
    rw [hfails] at hx
    exact ⟨_, hx, (congrArg (fun v : ViaState => vget ⟨[], 0⟩ v.resp 1) hvia).trans hresp, habsent, howner, hother⟩

end Sys2Proof.Proofs
end

section
/-! SUPPORT. Sense requests at the deck's queue, and a host's request as the device takes it (R43 to R47, R416, R483). -/

namespace Sys2Proof.Machine

variable (s : State)

/-! ## Sense requests (R43 to R47) -/

section
variable {source b : Nat} (ident : List Byte) (req : Option HostReq) (hon : spanEnabled s = true)
include hon

/-- A request for a live span, not by the host, is merged and counted. -/
theorem senseArrive_merged (hlive : (getSpan s b).live = true) (hsource : source ≠ 3) : ∃ p, senseArrive source b ident req s =
    { s with perf := p, span := { s.span with merged := satTo 0xFFFFFFFF (s.span.merged + 1) } } := by
  unfold senseArrive
  rw [if_neg (by simp [hon]), if_pos ⟨hlive, hsource⟩]
  exact countEvent_eq _ _ _ _

/-- A host's request for a live span that is not CLOSING is answered 0x20. -/
theorem senseArrive_hostLive (hlive : (getSpan s b).live = true) (hstate : (getSpan s b).state ≠ 8) :
    senseArrive 3 b ident req s = answerIf req 0x20 2 s := by
  unfold senseArrive
  rw [if_neg (by simp [hon]), if_neg (by simp), if_pos ⟨hlive, hstate⟩]

/-- A request that no span of the bay takes, no retry hold stops and no entry of its own awaits: it becomes the youngest
entry, or finds the queue full. -/
theorem senseArrive_new (hfree : (getSpan s b).live = false ∨ source = 3 ∧ (getSpan s b).state = 8)
    (hretry : source = 0 ∨ source = 1 → vget 0 s.span.retry b ≤ s.time.us)
    (hnew : s.span.queue.find? (fun e => e.bay == b && e.source == source) = none) : senseArrive source b ident req s =
    if 256 ≤ s.span.queue.length then
      answerIf req 0x21 2 { s with span := { s.span with drops := satTo 0xFFFFFFFF (s.span.drops + 1) } }
    else { s with span := { s.span with queue := s.span.queue ++ [⟨source, b, s.time.us, ident, req⟩] } } := by
  have hmerge : ¬((getSpan s b).live = true ∧ source ≠ 3) := by
    rintro ⟨hl, hs⟩
    rcases hfree with h | h
    · simp [h] at hl
    · exact hs h.1
  have hlive : ¬((getSpan s b).live = true ∧ (getSpan s b).state ≠ 8) := by
    rintro ⟨hl, hs⟩
    rcases hfree with h | h
    · simp [h] at hl
    · exact hs h.2
  have hheld : ¬((source = 0 ∨ source = 1) ∧ s.time.us < vget 0 s.span.retry b) := fun h => absurd (hretry h.1) (Nat.not_le.2 h.2)
  unfold senseArrive
  rw [if_neg (by simp [hon]), if_neg hmerge, if_neg hlive, if_neg hheld, hnew]
  rfl

end

/-- No entry of a bay and source stands in the queue. -/
theorem find_entry_none {b source : Nat} (h : ∀ e ∈ s.span.queue, ¬(e.bay = b ∧ e.source = source)) :
    s.span.queue.find? (fun e => e.bay == b && e.source == source) = none := by
  simpa [List.find?_eq_none] using h

/-! ## A host's request (R414, R416) -/

/-- Hearing a frame of the host changes LINK and the open values. -/
theorem hostHeard_eq (h : HostHdr) : ∃ l f, hostHeard h s = { s with link := l, free := f } := by
  unfold hostHeard
  split
  · exact ⟨_, _, rfl⟩
  · exact ⟨s.link, s.free, rfl⟩

/-- Accepting a request changes LINK, the open values and the counters. -/
theorem hostAccepted_eq (h : HostHdr) (typ : Nat) : ∃ l f p, hostAccepted h typ s = { s with link := l, free := f, perf := p } := by
  obtain ⟨l, f, hh⟩ := hostHeard_eq s h
  obtain ⟨p, hp⟩ := countEvent_eq (hostHeard h s) 5 0x040 1
  unfold hostAccepted
  rw [hp, hh]
  exact ⟨_, f, p, rfl⟩

/-- A host's row of a header whose port is on and whose frame names this device brings the request of `hostReqOf`. -/
theorem hostRow_own (h : HostHdr) (typ : Nat) (body : List Byte) (hook : Status × List Byte) (hr : HostReaches h s) :
    hostRow typ h body hook s = hostOwn (hostReqOf h typ s) body hook (countEvent 5 0x040 1 (hostHeard h s)) := by
  obtain ⟨hlink, hport, hdeck, hdevice⟩ := hr
  have hheard : (if h.eth = true ∧ s.link.lastMac = none then useFree (modLink (fun l => { l with lastMac := some (freeValue s % 2 ^ 48) }) s) else s) =
      hostHeard h s := by
    unfold hostHeard
    cases h.eth with
    | false => rfl
    | true =>
      cases hmac : s.link.lastMac with
      | none => rfl
      | some m => rfl
  have hdest : (if h.eth then HostDest.eth (hostHeard h s).link.lastMac else .spi) = (hostReqOf h typ s).dest := by
    unfold hostHeard hostReqOf
    cases h.eth with
    | false => rfl
    | true => cases hmac : s.link.lastMac with
      | none => rfl
      | some m => simp [hmac]
  obtain ⟨l, f, hh⟩ := hostHeard_eq s h
  have hacts : ¬(canAct (hostHeard h s) 5 = false ∨ canAct (hostHeard h s) 1 = false) := by
    rw [hh]
    simpa [canAct, isRun, pstate] using And.intro hlink hdeck
  have hstrap : (countEvent 5 0x040 1 (hostHeard h s)).boot.strapId = s.boot.strapId := by rw [countEvent_boot, hh]
  unfold hostRow
  rw [if_neg (by simp [hostPortOn, hlink, hport])]
  dsimp only
  rw [hheard, hdest]
  unfold hostTake
  rw [if_neg hacts]
  dsimp only
  rw [hstrap, if_pos hdevice]
  by_cases hall : h.device.toNat = 0xFF
  · have hslave : ringMaster (countEvent 5 0x040 1 (hostHeard h s)) = false := by
      rw [ringMaster, hstrap, ← hdevice, hall]
      exact Bool.and_false _
    rw [if_pos hall, hslave]
    rfl
  · rw [if_neg hall]
    rfl

/-- An accepted request is acted on. -/
theorem hostRow_accepted (h : HostHdr) (typ : Nat) (body : List Byte) (hook : Status × List Byte) (ha : HostAccepts h typ s) :
    hostRow typ h body hook s = hostAct (hostReqOf h typ s) body hook (hostAccepted h typ s) := by
  obtain ⟨hreach, hnew, hroom⟩ := ha
  obtain ⟨p, hp⟩ := countEvent_eq (hostHeard h s) 5 0x040 1
  have hseqs : (hostHeard h s).link.seqs = s.link.seqs ∧ (hostHeard h s).link.waiting = s.link.waiting := by
    unfold hostHeard
    split <;> exact ⟨rfl, rfl⟩
  have hfind : (countEvent 5 0x040 1 (hostHeard h s)).link.seqs.find? (fun e => e.1 == (hostReqOf h typ s).seq) = none := by
    rw [countEvent_link, hseqs.1]
    exact List.find?_eq_none.2 fun e he => by simpa using (show e.1 ≠ (hostReqOf h typ s).seq from hnew e he)
  have hfull : ¬((hostReqOf h typ s).typ ≠ 1 ∧ hostFull (countEvent 5 0x040 1 (hostHeard h s)) = true) := by
    rintro ⟨htyp, hfull⟩
    rcases hroom with h1 | h8
    · exact htyp h1
    · rw [hostFull, countEvent_link, hseqs.2] at hfull
      simp at hfull
      omega
  rw [hostRow_own s h typ body hook hreach]
  unfold hostOwn
  rw [hfind]
  dsimp only
  rw [if_neg hfull]
  unfold hostAccepted
  rw [← hseqs.1, ← hseqs.2]
  simp only [hp]
  rfl

end Sys2Proof.Machine
end

section
/-! The statement about a full queue (02_span_service.md). -/

namespace Sys2Proof.Proofs

open Sys2Proof Sys2Proof.Machine

/-- Settles O57: each request reaches a full queue without an entry of its own. -/
theorem fullQueueRefuses : Obligations.FullQueueRefuses := by
  intro bay s hact hon hfull counted new
  have hlen : 256 ≤ s.span.queue.length := hfull.ge
  have hcounted : ({ s with span := { s.span with drops := satTo 0xFFFFFFFF (s.span.drops + 1) } } : State) = counted s := by
    rw [satTo_eq]
  have hwhen : ∀ act : State → State, when_ 1 s act = act s := fun _ => if_pos hact
  refine ⟨fun hlive => ⟨fun src n hsrc hnew hretry => ?_, fun hnew => ?_⟩, fun hfree hnew => ⟨fun ident q => ?_, fun h ident hbay ha => ?_⟩⟩
  · have harrive := senseArrive_new s [] none hon (source := n) (.inl hlive) (fun _ => hretry) (find_entry_none s hnew)
    rw [if_pos hlen, hcounted] at harrive
    simp only [List.mem_cons, List.not_mem_nil, or_false, Prod.mk.injEq] at hsrc
    rcases hsrc with ⟨rfl, rfl⟩ | ⟨rfl, rfl⟩
    · exact congrArg Host.Outcome.next ((hwhen _).trans harrive)
    · exact congrArg Host.Outcome.next ((hwhen _).trans harrive)
  · have harrive := senseArrive_new s [] none hon (source := 2) (.inl hlive) (fun h => by simp at h) (find_entry_none s hnew)
    rw [if_pos hlen, hcounted] at harrive
    exact congrArg Host.Outcome.next ((hwhen _).trans harrive)
  · have harrive := senseArrive_new s (padTo 16 ident) (some (startReq s bay q)) hon (source := 3) (hfree.imp id (fun h => ⟨rfl, h⟩))
      (fun h => by simp at h) (find_entry_none s hnew)
    rw [if_pos hlen, hcounted] at harrive
    exact congrArg Host.Outcome.next ((hwhen _).trans harrive)
  · obtain ⟨l, f, p, hacc⟩ := hostAccepted_eq s h 0x01
    have hrow := hostRow_accepted s h 0x01 (padTo 16 ident) (0x02, []) ha
    have hact' : hostAct (hostReqOf h 0x01 s) (padTo 16 ident) (0x02, []) (hostAccepted h 0x01 s) =
        senseArrive 3 bay (sliceZ (padTo 16 ident) 0 16) (some (hostReqOf h 0x01 s)) (hostAccepted h 0x01 s) := by
      have hb : (hostReqOf h 0x01 s).bay = bay.val := hbay
      show hostBay _ _ _ = _
      rw [hostBay, if_pos (hb ▸ bay.isLt), hb]
    have harrive := senseArrive_new { s with link := l, free := f, perf := p } (sliceZ (padTo 16 ident) 0 16) (some (hostReqOf h 0x01 s)) hon
      (source := 3) (hfree.imp id fun h => ⟨rfl, h⟩) (fun h => by simp at h) (find_entry_none s hnew)
    rw [if_pos hlen, satTo_eq] at harrive
    have hx : exec (.hostStart h ident) s = .next _ := congrArg Host.Outcome.next (hrow.trans hact')
    rw [hx, hacc, harrive]
    rfl

end Sys2Proof.Proofs
end

section
/-! SUPPORT. The span service's block after a span's moves, its end and the operations beside them (R48, R49, R90). -/

namespace Sys2Proof.Machine

variable (s : State)

/-! ## Bays (R44) -/

/-- The span service with bay b's span updated. -/
def SpanState.withBay (b : Nat) (f : Span → Span) (x : SpanState) : SpanState := { x with bays := vset x.bays b (f (vget Span.reset x.bays b)) }

/-- A span in its next state, with a status where the move gives one (R48). -/
def Span.moved (nxt : Nat) (st : Option Status) (p : Span) : Span := { p with state := nxt, status := st.getD p.status }

/-- A span that has ended: its timers, captures and handle are gone (R49, R90). -/
def Span.over (nxt : Nat) (st : Status) (p : Span) : Span :=
  { p with state := nxt, status := st, authLeft := none, relLeft := none, nextInterim := none, caps := [], sending := false, built := false, handle := none }

/-- Bay b's span of a span service. -/
def SpanState.bay (x : SpanState) (b : Nat) : Span := vget Span.reset x.bays b

theorem getSpan_eq (b : Nat) : getSpan s b = s.span.bay b := rfl

section
variable (x : SpanState) {b : Nat} (f g : Span → Span)

theorem SpanState.bay_withBay (hb : b < 64) : (x.withBay b f).bay b = f (x.bay b) := vget_vset_self _ _ _ hb

theorem SpanState.bay_withBay_ne {b' : Nat} (h : b' ≠ b) : (x.withBay b f).bay b' = x.bay b' := vget_vset_ne _ _ _ h

/-- Two updates of a bay, one after the other, are one. -/
theorem SpanState.withBay_withBay (hb : b < 64) : (x.withBay b g).withBay b f = x.withBay b (fun p => f (g p)) := by
  have h := x.bay_withBay g hb
  unfold SpanState.bay at h
  simp only [SpanState.withBay] at h ⊢
  rw [h]
  congr 1
  apply Vector.ext
  intro i hi
  simp only [vset, Vector.getElem_setIfInBounds]
  split <;> rfl

end

/-! ## The span service after an operation -/

@[simp] theorem modBay_span (b : Nat) (f : Span → Span) : (modBay b f s).span = s.span.withBay b f := rfl

@[simp] theorem answerReq_span (r : HostReq) (st : Status) (cls : Nat) (body : List Byte) : (answerReq r st cls body s).span = s.span := by
  obtain ⟨l, z, o, p, h⟩ := answerReq_eq r st cls body s
  rw [h]

@[simp] theorem answerIf_span (r : Option HostReq) (st : Status) (cls : Nat) : (answerIf r st cls s).span = s.span := by
  obtain ⟨l, z, o, p, h⟩ := answerIf_eq r st cls s
  rw [h]

@[simp] theorem sendSpanEvent_span (b id st : Nat) (ev : Nat × Nat × List Byte × Status) : (sendSpanEvent b id st ev s).span = s.span := by
  unfold sendSpanEvent
  split
  · rfl
  · obtain ⟨l, z, o, p, h⟩ := sendEvent_eq 0xA0 b ev.2.2.2 (eventBody s b id st ev.1 ev.2.1 ev.2.2.1) s
    rw [h]

@[simp] theorem submitRecord_span (r : JRecord) : (submitRecord r s).span = s.span := by
  obtain ⟨q, c, o, m, p, h, -⟩ := submitRecord_eq r s
  rw [h]

@[simp] theorem reserveIds_span : (reserveIds s).span = s.span := by
  obtain ⟨c, h⟩ := reserveIds_eq s
  rw [h]

@[simp] theorem spanMove_span (b nxt : Nat) (st : Option Status) (seq : Nat) : (spanMove b nxt st seq s).span = s.span.withBay b (Span.moved nxt st) := by
  obtain ⟨q, c, o, m, p, h, -⟩ := spanMove_eq b nxt st seq s
  rw [h]
  rfl

@[simp] theorem dropHandle_span (b : Nat) : (dropHandle b s).span = s.span.withBay b (fun p => { p with handle := none }) := by
  obtain ⟨g, h, -⟩ := dropHandle_eq b s
  rw [h]
  rfl

/-- What the deck's request leaves of the span service: its jobs and the next tag change. -/
theorem deckRequest_span (k : JobKind) (cl : List Nat) (b : Nat) : ∃ j n, (deckRequest k cl b s).2.span = { s.span with jobs := j, nextTag := n } := by
  obtain ⟨g, pk, p, j, n, h⟩ := deckReq_eq k cl b s
  exact ⟨j, n, by rw [h]⟩

section
variable {b : Nat} (hb : b < 64)
include hb

/-- A span that ends leaves its bay over; the deck's jobs and the keystone's job for it go. -/
theorem spanEnd_span (nxt : Nat) (st : Status) (seq : Nat) : ∃ j, (spanEnd b nxt (some st) seq s).span =
    { s.span.withBay b (Span.over nxt st) with jobs := j, auth := vset s.span.auth b none } := by
  have hover : ((dropHandle b (modBay b (fun p => { p with authLeft := none, relLeft := none, nextInterim := none, caps := [], sending := false, built := false })
      (spanMove b nxt (some st) seq s)))).span = s.span.withBay b (Span.over nxt st) := by
    simp only [dropHandle_span, modBay_span, spanMove_span, SpanState.withBay_withBay _ _ _ hb]
    rfl
  unfold spanEnd forgetJobs
  dsimp only [modSpan]
  rw [hover]
  exact ⟨_, rfl⟩

/-- So does one that is refused, which may start the retry hold of R47. -/
theorem spanRefuse_span (st : Status) : ∃ r j, (spanRefuse b st s).span =
    { s.span.withBay b (Span.over 10 st) with retry := r, jobs := j, auth := vset s.span.auth b none } := by
  unfold spanRefuse
  dsimp only
  split
  · obtain ⟨j, h⟩ := spanEnd_span (modSpan (fun p => { p with retry := vset p.retry b (s.time.us + 1000 * regField s 1 .spanCtrl 0 4 12) }) s) hb 10 st 0
    exact ⟨_, j, h⟩
  · obtain ⟨j, h⟩ := spanEnd_span s hb 10 st 0
    exact ⟨_, j, h⟩

theorem spanRefuse_bay (st : Status) : (spanRefuse b st s).span.bay b = (s.span.bay b).over 10 st := by
  obtain ⟨r, j, h⟩ := spanRefuse_span s hb st
  rw [h]
  exact SpanState.bay_withBay s.span _ hb

end

end Sys2Proof.Machine
end

section
/-! SUPPORT. The queue's entries as they leave, and a span's birth (R43, R48, R73, R483). -/

namespace Sys2Proof.Machine

variable (s : State)

/-- Entries dropped one after another leave the queue, their host STARTs answered. -/
theorem dropEntries_eq (st : Status) (es : List QEntry) : ∀ s : State, ∃ l z o p, es.foldl (fun s e => dropEntry e st s) s =
    { s with link := l, zw := z, sent := o, perf := p, span := { s.span with queue := s.span.queue.filter (fun x => decide (x ∉ es)) } } := by
  induction es with
  | nil => exact fun s => ⟨s.link, s.zw, s.sent, s.perf, by simp⟩
  | cons e es ih =>
    intro s
    obtain ⟨l, z, o, p, h⟩ := answerIf_eq e.req st 2 (modSpan (fun p => { p with queue := p.queue.filter (fun x => x ≠ e) }) s)
    obtain ⟨l', z', o', p', h'⟩ := ih { modSpan (fun p => { p with queue := p.queue.filter (fun x => x ≠ e) }) s with link := l, zw := z, sent := o, perf := p }
    refine ⟨l', z', o', p', ?_⟩
    rw [List.foldl_cons, dropEntry, h, h']
    have hq : ((s.span.queue.filter (fun x => decide (x ≠ e))).filter (fun x => decide (x ∉ es))) = s.span.queue.filter (fun x => decide (x ∉ e :: es)) := by
      rw [List.filter_filter]
      congr 1
      funext x
      simp [Bool.and_comm]
    rw [← hq]
    rfl

/-- What a birth from entry `e` leaves of the span service `x` (R43, R48, R60): the bay's span is in state `n`. -/
structure Born (e : QEntry) (x : SpanState) (n : Nat) (y : SpanState) : Prop where
  lastId : y.lastId = x.lastId + 1
  queue : y.queue = x.queue.filter (fun z => z ≠ e)
  id : (y.bay e.bay).id = x.lastId + 1
  source : (y.bay e.bay).source = e.source
  state : (y.bay e.bay).state = n
  others : ∀ b, b ≠ e.bay → y.bay b = x.bay b

section
variable {s} {e : QEntry} {x : SpanState} {n : Nat} (hb : e.bay < 64)
include hb

/-- A born span that is refused is REFUSED. -/
theorem Born.refused (h : Born e x n s.span) (st : Status) : Born e x 10 (spanRefuse e.bay st s).span := by
  obtain ⟨r, j, hs⟩ := spanRefuse_span s hb st
  have hbay := spanRefuse_bay s hb st
  refine ⟨?_, ?_, ?_, ?_, ?_, fun b hne => ?_⟩
  · rw [hs]; exact h.lastId
  · rw [hs]; exact h.queue
  · rw [hbay]; exact h.id
  · rw [hbay]; exact h.source
  · rw [hbay]; rfl
  · rw [hs]; exact (s.span.bay_withBay_ne _ hne).trans (h.others b hne)

omit hb in
/-- Asking the gate keeps it born. -/
theorem Born.requested (h : Born e x n s.span) (k : JobKind) (cl : List Nat) (b : Nat) : Born e x n (deckRequest k cl b s).2.span := by
  obtain ⟨j, m, hs⟩ := deckRequest_span s k cl b
  rw [hs]
  exact ⟨h.lastId, h.queue, h.id, h.source, h.state, h.others⟩

/-- A birth leaves the span SENSED with its group asked for, or REFUSED. -/
theorem spanBorn_born : Born e s.span 1 (spanBorn e s).span ∨ Born e s.span 10 (spanBorn e s).span := by
  unfold spanBorn
  dsimp only
  generalize hu : reserveIds _ = u
  have hborn : Born e s.span 1 u.span := by
    rw [← hu]
    simp only [reserveIds_span, answerIf_span, countEvent_span, spanMove_span]
    refine ⟨rfl, rfl, ?_, ?_, ?_, fun b hne => ?_⟩
    · rw [SpanState.bay_withBay _ _ hb]; change (vget Span.reset (vset _ e.bay _) e.bay).id = _; rw [vget_vset_self _ _ _ hb]
    · rw [SpanState.bay_withBay _ _ hb]; change (vget Span.reset (vset _ e.bay _) e.bay).source = _; rw [vget_vset_self _ _ _ hb]
    · rw [SpanState.bay_withBay _ _ hb]; rfl
    · change vget Span.reset (vset (vset s.span.bays e.bay _) e.bay _) b = _
      rw [vget_vset_ne _ _ _ hne, vget_vset_ne _ _ _ hne]
      rfl
  split
  · exact .inr (hborn.refused hb _)
  · have hreq := hborn.requested (.entry e.bay) [entryClass (leAt (getSpan u e.bay).policy 0 1) e.source, 3, 4] e.bay
    split
    · exact .inl hreq
    · exact .inr (hreq.refused hb _)

end

end Sys2Proof.Machine
end

section
/-! The statement about the requests of the span service (02_span_service.md). -/

namespace Sys2Proof.Proofs

open Sys2Proof Sys2Proof.Machine

/-- Settles O22: each request by the case of its bay, and the births by what they leave of the span service. -/
theorem spanRequests : Obligations.SpanRequests := by
  refine ⟨fun src n bay s hact hon hsrc => ?_, fun bay ident q s hact hon => ⟨fun hfree hlen hnew => ?_, fun hlive hstate => ?_⟩,
    fun bay source e s hact hold hfind => ?_, fun ini s ha => ?_, fun e s hact hacc hb hfind hid hhwm => ?_⟩
  · have hexec : exec (.senseRequest src bay) s = .next (senseArrive n bay [] none s) := by
      simp only [List.mem_cons, List.not_mem_nil, or_false, Prod.mk.injEq] at hsrc
      rcases hsrc with ⟨rfl, rfl⟩ | ⟨rfl, rfl⟩ | ⟨rfl, rfl⟩ <;> exact congrArg Host.Outcome.next (if_pos hact)
    have hhost : n ≠ 3 := by
      rintro rfl
      simp at hsrc
    rw [hexec]
    refine ⟨fun hidle hretry hlen hnew => ?_, fun hlive => ?_, fun hidle hretry hlen hnew => ?_⟩
    · rw [senseArrive_new s [] none hon (.inl hidle) (fun _ => hretry) hnew, if_neg (by omega)]
    · obtain ⟨p, h⟩ := senseArrive_merged s [] none hon hlive hhost
      exact ⟨p, by rw [h]⟩
    · rw [senseArrive_new s [] none hon (.inl hidle) (fun _ => hretry) hnew, if_pos hlen.ge]
      rfl
  · have h := senseArrive_new s (padTo 16 ident) (some (startReq s bay q)) hon (source := 3) (hfree.imp id fun h => ⟨rfl, h⟩)
      (fun h => by simp at h) hnew
    rw [if_neg (by omega)] at h
    exact congrArg Host.Outcome.next ((if_pos hact).trans h)
  · obtain ⟨l, z, o, p, h⟩ := answerIf_eq (some (startReq s bay q)) 0x20 2 s
    exact ⟨l, z, o, p, congrArg Host.Outcome.next ((if_pos hact).trans ((senseArrive_hostLive s _ _ hon hlive hstate).trans h))⟩
  · obtain ⟨l, z, o, p, h⟩ := answerIf_eq e.req 0x05 2 (modSpan (fun p => { p with queue := p.queue.filter (fun x => x ≠ e) }) s)
    refine ⟨l, z, o, p, congrArg Host.Outcome.next (a₁ := entryTimeout bay source s) ?_⟩
    unfold entryTimeout
    rw [hfind]
    exact (if_pos ⟨hact, hold⟩).trans h
  · obtain ⟨hreach, hcan, hmay⟩ := ha
    obtain ⟨p, q, hrun⟩ := islandWrite_runs s .spanCtrl (fun s => if mayWrite ini 1 .spanCtrl then (0x00, spanDisableAct s) else (0x02, s)) hreach hcan
    obtain ⟨l, z, o, p', hdrop⟩ := dropEntries_eq 0x02 s.span.queue (putReg { s with perf := p } 1 .spanCtrl 0 (setField (regValue s 1 .spanCtrl 0) 0 1 0))
    refine ⟨l, z, o, q, congrArg Host.Outcome.next (hrun.trans ?_)⟩
    have hact' : spanDisableAct { s with perf := p } = _ := hdrop
    have hall : s.span.queue.filter (fun x => decide (x ∉ s.span.queue)) = [] := by simp
    rw [if_pos hmay, hact']
    dsimp only [putReg]
    rw [hall]
  · have hexec : exec .birth s = .next (spanBorn e s) := congrArg Host.Outcome.next (by
      show birth s = _
      unfold birth
      rw [if_neg (by simp [hact, hacc]), hfind]
      dsimp only
      rw [if_neg (by omega), if_neg (by omega)])
    refine ⟨_, hexec, ?_⟩
    rcases spanBorn_born (s := s) hb with h | h
    · exact ⟨h.lastId, h.queue, h.id, h.source, .inl h.state, h.others⟩
    · exact ⟨h.lastId, h.queue, h.id, h.source, .inr h.state, h.others⟩

end Sys2Proof.Proofs
end

section
/-! SUPPORT. Spans that close and tokens that end (R48, R63, R65, R68). -/

namespace Sys2Proof.Machine

variable (s : State)

/-- A span in CLOSING with a reason and a status, its closing capture asked for unless the start capture failed (R48, R68). -/
def Span.closing (reason : Nat) (st : Status) (now : Nat) (p : Span) : Span :=
  { p with state := 8, status := st, closeReason := reason, nextInterim := none
           caps := if reason = 5 then p.caps else p.caps ++ [⟨2, now, none, false⟩] }

/-- The span service with bay b's span CLOSING, a STOP for its counter owed where `stop` says so (R65). -/
def SpanState.closing (b reason : Nat) (st : Status) (stop : Bool) (now : Nat) (x : SpanState) : SpanState :=
  { x.withBay b (Span.closing reason st now) with stops := if stop then vset x.stops b (some ⟨(x.bay b).counter, 10⟩) else x.stops }

@[simp] theorem askCapture_span (b kind time : Nat) :
    (askCapture b kind time s).span = s.span.withBay b (fun p => { p with caps := p.caps ++ [⟨kind, time, none, false⟩] }) := rfl

section
variable {b : Nat} (hb : b < 64) (reason : Nat) (st : Status) (stop : Bool)

include hb in
theorem spanClosing_span : (spanClosing b reason st stop s).span = s.span.closing b reason st stop s.time.us := by
  have htime : ∀ u : State, (spanMove b 8 (some st) 0 u).time = u.time := by
    intro u
    obtain ⟨q, c, o, m, p, h, -⟩ := spanMove_eq b 8 (some st) 0 u
    rw [h]
    rfl
  unfold spanClosing
  dsimp only
  by_cases h5 : reason = 5
  · subst h5
    rw [if_pos rfl, spanMove_span, modBay_span, SpanState.withBay_withBay _ _ _ hb]
    cases stop <;> rfl
  · rw [if_neg h5, htime, askCapture_span, spanMove_span, modBay_span, SpanState.withBay_withBay _ _ _ hb, SpanState.withBay_withBay _ _ _ hb]
    unfold SpanState.closing Span.closing Span.moved
    simp only [if_neg h5]
    cases stop <;> rfl

include hb in
/-- A span that goes to CLOSING changes its bay, the STOP it may owe, the journal's queue and the counters, and is recorded. -/
theorem spanClosing_step : BayStep b s (spanClosing b reason st stop s) ∧ Recorded b 8 st s (spanClosing b reason st stop s) := by
  have hspan := spanClosing_span s hb reason st stop
  have hothers : ∀ b', b' ≠ b → getSpan (spanClosing b reason st stop s) b' = getSpan s b' := by
    intro b' hne
    rw [getSpan_eq, hspan]
    exact s.span.bay_withBay_ne _ hne
  generalize hu : modBay b (fun p => { p with closeReason := reason, nextInterim := none }) (if stop then oweStop b (getSpan s b).counter s else s) = u
  have huspan : { u with span := s.span } = s := by
    rw [← hu]
    cases stop <;> rfl
  have hubay : (getSpan u b).id = (getSpan s b).id ∧ (getSpan u b).state = (getSpan s b).state := by
    rw [← hu, getSpan_modBay hb, if_pos rfl]
    cases stop <;> exact ⟨rfl, rfl⟩
  obtain ⟨q, c, o, m, p, hmove, ⟨ev, hrec⟩, -, hmem⟩ := spanMove_eq b 8 (some st) 0 u
  have hclosing : ∃ x, spanClosing b reason st stop s =
      { u with span := x, store := { u.store with queue := q, changes := c, opened := o }, mem := m, perf := p } := by
    unfold spanClosing
    dsimp only
    rw [hu, hmove]
    split
    · exact ⟨_, rfl⟩
    · exact ⟨_, rfl⟩
  obtain ⟨x, hclosing⟩ := hclosing
  have hkeeps : KeepsMemory s m := by
    rw [← huspan]
    exact hmem
  refine ⟨⟨hothers, ?_, ?_⟩, spanRecord u b 8 st ev, ?_, rfl, hubay.1, ?_⟩
  · rw [hclosing]
    exact hkeeps
  · rw [hclosing, ← huspan]
  · rw [hclosing]
    exact hrec
  · rw [spanRecord_body, hubay.2]

end

/-- A token that ends is its bay's no more; the bays stay as they were. -/
@[simp] theorem tokenEnded_span (b : Nat) (k : Token) (how : Nat) (code : Byte) :
    (tokenEnded b k how code s).span = { s.span with tokens := vset s.span.tokens b none } := by
  unfold tokenEnded bayEvent
  dsimp only
  split
  · rfl
  · rw [sendSpanEvent_span]
    rfl

end Sys2Proof.Machine
end

section
/-! The statement about a span's deadlines (02_span_service.md). -/

namespace Sys2Proof.Proofs

open Sys2Proof Sys2Proof.Machine

/-- Settles O23: a refusal and a closing by what they leave of the bay. -/
theorem spanDeadlines : Obligations.SpanDeadlines := by
  intro bay s hact p fails
  have hb : (bay : Nat) < 64 := bay.isLt
  refine ⟨fun d hleft hdue h2 h4 => ?_, fun d hleft hdue h5 => ?_, fun h7 hmax hdue => ?_, fun d hnext hdue h7 => ?_, fun k htok hdue => ?_⟩
  · refine ⟨_, congrArg Host.Outcome.next (a₁ := authDeadlineAct bay s) ?_, spanRefuse_eq hb fails s⟩
    unfold authDeadlineAct
    dsimp only
    rw [hleft]
    exact if_pos ⟨hact, h2, h4, hdue⟩
  · refine ⟨_, congrArg Host.Outcome.next (a₁ := releaseDeadlineAct bay s) ?_, spanRefuse_eq hb fails s⟩
    unfold releaseDeadlineAct
    dsimp only
    rw [hleft]
    exact if_pos ⟨hact, h5, hdue⟩
  · have hspan := spanClosing_span s hb 2 0x00 true
    obtain ⟨hstep, hrec⟩ := spanClosing_step s hb 2 0x00 true
    refine ⟨_, congrArg Host.Outcome.next (a₁ := maxDurationAct bay s) (if_pos ⟨hact, h7, hmax, hdue⟩), hstep, hrec, ?_, ?_, ?_⟩
    · rw [getSpan_eq, hspan]
      exact s.span.bay_withBay _ hb
    · rw [hspan]
      exact vget_vset_self _ _ _ hb
    · rw [hspan]
      rfl
  · refine congrArg Host.Outcome.next (a₁ := interimAct bay s) ?_
    unfold interimAct
    dsimp only
    rw [hnext]
    dsimp only
    rw [if_pos ⟨hact, h7, hdue⟩, askCapture, modBay_modBay]
    simp only [hb, if_true]
    rfl
  · generalize hu : tokenEnded bay k 2 0 s = u
    have huspan : u.span = { s.span with tokens := vset s.span.tokens bay none } := by rw [← hu, tokenEnded_span]
    have hexec : exec (.tokenNotAfter bay) s = .next (if (p.state = 6 ∨ p.state = 7) ∧ p.counter = k.counter ∧ p.accepted = false
        then spanClosing bay 4 0x2A false u else u) := by
      refine congrArg Host.Outcome.next (a₁ := tokenNotAfterAct bay s) ?_
      unfold tokenNotAfterAct
      rw [htok]
      dsimp only
      rw [if_pos ⟨hact, hdue⟩, hu]
    refine ⟨_, hexec, ?_⟩
    by_cases hmine : (p.state = 6 ∨ p.state = 7) ∧ p.counter = k.counter ∧ p.accepted = false
    · rw [if_pos hmine, if_pos hmine]
      have hspan := spanClosing_span u hb 4 0x2A false
      simp only [getSpan_eq]
      rw [hspan, huspan]
      refine ⟨rfl, fun b hne => SpanState.bay_withBay_ne _ _ hne, ?_⟩
      have hbay : (SpanState.closing bay 4 0x2A false u.time.us { s.span with tokens := vset s.span.tokens bay none }).bay bay =
          Span.closing 4 0x2A u.time.us (s.span.bay bay) := SpanState.bay_withBay _ _ hb
      rw [hbay]
      exact ⟨rfl, rfl, rfl⟩
    · rw [if_neg hmine, if_neg hmine]
      simp only [getSpan_eq]
      rw [huspan]
      exact ⟨rfl, fun b _ => rfl, rfl⟩

end Sys2Proof.Proofs
end

section
/-! SUPPORT. The captures of a bay's spans on the meter bus (R66, R421). -/

namespace Sys2Proof.Machine

variable (s : State)

/-- Counting changes the counters only. -/
theorem countEvent_self (i e n : Nat) : countEvent i e n s = { s with perf := (countEvent i e n s).perf } := by
  obtain ⟨p, h⟩ := countEvent_eq s i e n
  rw [h]

/-- A frame that LINK has room for is held (R388). -/
theorem holdField_room (f : FieldFrame) (hroom : s.link.held.length < 16) :
    holdField f s = { s with link := { s.link with held := s.link.held ++ [f] } } := by
  unfold holdField modLink
  dsimp only
  rw [if_pos hroom]

/-- An update of listed bays by the time and their spans changes those spans only. -/
theorem modBays_eq (f : Nat → Span → Span) (bs : List Nat) : ∀ s : State, bs.foldl (fun s b => modBay b (f s.time.us) s) s =
    { s with span := { s.span with bays := bs.foldl (fun v b => vset v b (f s.time.us (vget Span.reset v b))) s.span.bays } } := by
  induction bs with
  | nil => exact fun _ => rfl
  | cons b bs ih =>
    intro s
    rw [List.foldl_cons, List.foldl_cons, ih]
    rfl

/-- The captures of a span that no latch has stamped and whose instant is at most 1 ms after `now`, stamped `t` (R421). -/
def Span.stamped (now t : Nat) (p : Span) : Span :=
  { p with caps := p.caps.map (fun c => if c.stamp.isNone && decide (c.reqTime ≤ now + 1000) then { c with stamp := some t } else c) }

/-- A latch on a bus that is not faulty stamps the captures of every bay that are due. -/
theorem meterLatchAct_eq (hon : meterOn s = true) (hread : s.link.mRead = none) (hfault : s.par.mFault = 0) : ∃ q, meterLatchAct s =
    { s with perf := q, sent := s.sent ++ [.meterLatch s.time.us], span := { s.span with
      bays := (List.range 64).foldl (fun v b => vset v b (Span.stamped s.time.us s.time.us (vget Span.reset v b))) s.span.bays } } := by
  obtain ⟨q, hq⟩ := countEvent_eq (emit (.meterLatch s.time.us) s) 5 0x042 8
  generalize hu : ({ emit (.meterLatch s.time.us) s with perf := q } : State) = u at hq
  have htime : u.time = s.time := by rw [← hu]; rfl
  have hbays := modBays_eq (Span.stamped s.time.us) (List.range 64) u
  generalize hv : u.span.bays = bays at hbays
  have hs : s.span.bays = bays := by rw [← hv, ← hu]; rfl
  have hpar : u.par.mFault = 0 := by rw [← hu]; exact hfault
  rw [hs]
  rw [htime] at hbays
  generalize (List.range 64).foldl (fun v b => vset v b (Span.stamped s.time.us s.time.us (vget Span.reset v b))) bays = v at hbays ⊢
  unfold meterLatchAct
  dsimp only
  rw [if_pos ⟨hon, hread⟩, hq]
  unfold Span.stamped at hbays
  rw [hbays]
  refine ⟨q, (if_pos hpar).trans ?_⟩
  rw [← hu]
  rfl

/-- The record of a capture begins with its kind, the meter's status, the meter's address, the capture's status, the instant
and the energy (R293). -/
theorem captureRecord_body (b : Nat) (c : Capture) (st mst : Status) (e : Nat) (raw : List Byte) :
    (captureRecord s b c st mst e raw).body.take 20 =
      [BitVec.ofNat 8 c.kind, mst, BitVec.ofNat 8 (leAt (getSpan s b).policy 8 1), st] ++ leBytes 8 c.reqTime ++ leBytes 8 e := by
  simp [captureRecord, leBytes]

/-- A read's outcome is journalled for each capture it serves, and those captures go; beside them the journal's queue, the
requested ledger changes, the next ring slot and the counters change. -/
theorem captureOutcome_eq (b : Nat) (st mst : Status) (e : Nat) (raw : List Byte) : ∃ q c o m p, captureOutcome b st mst e raw s =
    modBay b (fun p => { p with caps := p.caps.filter (fun c => !c.reading) })
      { s with store := { s.store with queue := q, changes := c, opened := o }, mem := m, perf := p } ∧
    (∀ c ∈ (getSpan s b).caps, c.reading = true → captureRecord s b c st mst e raw ∈ q) ∧ KeepsMemory s m := by
  obtain ⟨q, c, o, m, p, h, hq, -, hm⟩ := submitFold_eq (fun s c => captureRecord s b c st mst e raw) ((getSpan s b).caps.filter (·.reading))
    (fun s t x htime hboot hspan => by simp only [captureRecord, siteBay, getSpan, htime, hboot, hspan]) s
  refine ⟨q, c, o, m, p, ?_, fun x hx hr => hq x (List.mem_filter.2 ⟨hx, hr⟩), hm⟩
  unfold captureOutcome
  dsimp only
  rw [h]

theorem noEnergy_eq : noEnergy = 2 ^ 64 - 1 := by simp [noEnergy]

/-- What a meter reply says, as the deck takes it. -/
theorem meterReplyTaken_eq {reply : MeterReply} {raw : List Byte} {e n : Nat} {c st mst : Byte} (b : Nat)
    (h : (reply, st, mst, n) ∈ [(MeterReply.normal raw e, 0x00, 0x00, e % 2 ^ 64), (.exception raw c, 0x05, c, 2 ^ 64 - 1),
      (.bad raw, 0x05, 0xFF, 2 ^ 64 - 1)]) : meterReplyTaken b reply s = captureOutcome b st mst n (raw.take 32) s := by
  simp only [List.mem_cons, List.not_mem_nil, or_false, Prod.mk.injEq] at h
  rcases h with ⟨rfl, rfl, rfl, rfl⟩ | ⟨rfl, rfl, rfl, rfl⟩ | ⟨rfl, rfl, rfl, rfl⟩ <;> rfl

end Sys2Proof.Machine
end

section
/-! The statement about the meter bus (02_span_service.md). -/

namespace Sys2Proof.Proofs

open Sys2Proof Sys2Proof.Machine

/-- Settles O26: the latch by its fold over the bays, each outcome by what the journal takes. -/
theorem meterBus : Obligations.MeterBus := by
  intro bay s hon p served
  have hb : (bay : Nat) < 64 := bay.isLt
  have hserved : ∀ (u : State) (st mst : Status) (e : Nat) (raw : List Byte), u.span = s.span → u.mem = s.mem → u.store = s.store → u.link.mRead = none →
      served (captureOutcome bay st mst e raw u) st mst e := by
    intro u st mst e raw hspan hmem hstore hread
    obtain ⟨q, c, o, m, perf, h, hq, hm⟩ := captureOutcome_eq u bay st mst e raw
    have hbay : ∀ b, getSpan u b = getSpan s b := fun b => by rw [getSpan_eq, hspan]; rfl
    have hbays : ∀ b, getSpan (captureOutcome bay st mst e raw u) b =
        if b = bay then { p with caps := p.caps.filter (fun c => !c.reading) } else getSpan s b := by
      intro b
      rw [h, getSpan_modBay hb]
      exact congr (congrArg (ite _) (congrArg (fun p : Span => { p with caps := p.caps.filter (fun c => !c.reading) }) (hbay bay))) (hbay b)
    refine ⟨?_, ?_, fun b hne => ?_, ?_, fun x hx hr => ⟨captureRecord u bay x st mst e raw, ?_, rfl, ?_, ?_⟩⟩
    · rw [h]; exact hread
    · rw [hbays, if_pos rfl]
    · rw [hbays, if_neg hne]
    · rw [h]
      unfold KeepsMemory MemoryCanonical at hm
      rw [hmem, hstore] at hm
      exact hm
    · rw [h]; exact hq x (by rw [hbay]; exact hx) hr
    · exact congrArg Span.id (hbay bay)
    · rw [captureRecord_body, hbay]
  refine ⟨fun hread => ⟨fun hfault => ?_, fun hany => ?_⟩, fun hread => ⟨fun htakes => ⟨fun reply raw e c st mst n hr => ?_, ?_⟩, fun hheld hroom reply => ?_⟩⟩
  · obtain ⟨q, h⟩ := meterLatchAct_eq s hon hread hfault
    refine ⟨_, q, congrArg Host.Outcome.next h, rfl, fun b hlt => ?_⟩
    have hget := vget_foldl_vset Span.reset (fun _ => Span.stamped s.time.us s.time.us) (List.range 64) (fun _ => List.mem_range.1) List.nodup_range s.span.bays b
    rw [if_pos (List.mem_range.2 hlt)] at hget
    refine hget.trans ?_
    unfold Span.stamped
    simp only [Bool.and_eq_true, decide_eq_true_eq]
    rfl
  · obtain ⟨c, hc, hstamp, hreading⟩ := hany
    have hany' : (getSpan s bay).caps.any (fun c => c.stamp.isSome && !c.reading) = true :=
      List.any_eq_true.2 ⟨c, hc, by simp [hstamp, hreading]⟩
    have hpolicy : (getSpan (modBay bay (fun x => { x with caps := x.caps.map (fun c => if c.stamp.isSome then { c with reading := true } else c) }) s) bay).policy =
        p.policy := by
      rw [getSpan_modBay hb, if_pos rfl]
    have hexec : exec (.meterRead bay) s = .next _ := congrArg Host.Outcome.next (a₁ := meterReadAct bay s) (if_pos ⟨hon, hread, hany'⟩)
    dsimp only at hexec
    rw [hpolicy] at hexec
    exact ⟨_, hexec.trans (congrArg Host.Outcome.next (countEvent_self _ _ _ _))⟩
  · have hexec : exec (.meterReply bay reply) s = .next _ := congrArg Host.Outcome.next (a₁ := meterReplyAct bay reply s) (if_pos ⟨hon, hread⟩)
    dsimp only at hexec
    rw [countEvent_self, if_pos (by exact htakes), meterReplyTaken_eq _ _ hr] at hexec
    exact ⟨_, hexec, hserved _ st mst n (raw.take 32) rfl rfl rfl rfl⟩
  · have hexec : exec (.meterTimeout bay) s = .next _ := congrArg Host.Outcome.next (a₁ := meterTimeoutAct bay s) (if_pos ⟨hon, hread⟩)
    dsimp only at hexec
    rw [if_pos (by exact htakes), noEnergy_eq] at hexec
    refine ⟨_, hexec, hserved _ 0x05 0xFF (2 ^ 64 - 1) [] rfl rfl rfl rfl, ?_⟩
    obtain ⟨q, c, o, m, perf, h, -⟩ := captureOutcome_eq (modLink (fun l => { l with mRead := none, mTimeout := satTo 0xFFFF (l.mTimeout + 1) }) s) bay 0x05 0xFF (2 ^ 64 - 1) []
    exact congrArg (fun t : State => t.link.mTimeout) h
  · have hno : ¬deckTakes s = true := by simp [hheld]
    have hexec : exec (.meterReply bay reply) s = .next _ := congrArg Host.Outcome.next (a₁ := meterReplyAct bay reply s) (if_pos ⟨hon, hread⟩)
    dsimp only at hexec
    rw [countEvent_self, if_neg (by exact hno), holdField_room _ _ (by exact hroom)] at hexec
    exact ⟨_, hexec⟩

end Sys2Proof.Proofs
end

section
/-! SUPPORT. What reaches a bay's dispenser and what it reports (R48, R63, R65, R423, R424). -/

namespace Sys2Proof.Machine

/-- From s to t LINK's poll of a dispenser stays, and so do the types and bodies of the records in the journal's queue. -/
def KeepsBodies (s t : State) : Prop :=
  t.link.dPoll = s.link.dPoll ∧ ∀ x ∈ s.store.queue, ∃ y ∈ t.store.queue, y.typ = x.typ ∧ y.body = x.body

theorem KeepsBodies.of_eq {s t : State} (hpoll : t.link.dPoll = s.link.dPoll) (hqueue : ∀ x ∈ s.store.queue, x ∈ t.store.queue) : KeepsBodies s t :=
  ⟨hpoll, fun x hx => ⟨x, hqueue x hx, rfl, rfl⟩⟩

theorem KeepsBodies.refl (s : State) : KeepsBodies s s := .of_eq rfl fun _ h => h

theorem KeepsBodies.trans {s t u : State} (h : KeepsBodies s t) (h' : KeepsBodies t u) : KeepsBodies s u := by
  refine ⟨h'.1.trans h.1, fun x hx => ?_⟩
  obtain ⟨y, hy, htyp, hbody⟩ := h.2 x hx
  obtain ⟨z, hz, htyp', hbody'⟩ := h'.2 y hy
  exact ⟨z, hz, htyp'.trans htyp, hbody'.trans hbody⟩

variable (s : State)

/-! ## Frames and LINK's poll -/

theorem sendOut_dPoll (f : Frame) : (sendOut f s).link.dPoll = s.link.dPoll := by
  obtain ⟨p, hp⟩ := countEvent_eq (modLink (fun l => { l with sentCount := l.sentCount + 1 }) s) 5 0x041 1
  unfold sendOut
  rw [hp]
  generalize hu : ({ modLink (fun l => { l with sentCount := l.sentCount + 1 }) s with perf := p } : State) = u
  have hpoll : u.link.dPoll = s.link.dPoll := by rw [← hu]; rfl
  dsimp only
  split
  · obtain ⟨z, o, h⟩ := ringFrames_eq 0 false 0x10 (fragments ((f.bytes u).length / 1024 + 1) (f.bytes u)) true u
    exact (congrArg (fun t : State => t.link.dPoll) h).trans hpoll
  · exact hpoll
  · exact hpoll

theorem drainFrames_dPoll : (drainFrames s).link.dPoll = s.link.dPoll := by
  have hfold : ∀ (fs : List Frame) (u : State), (fs.foldl (fun s f => sendOut f s) u).link.dPoll = u.link.dPoll := by
    intro fs
    induction fs with
    | nil => exact fun _ => rfl
    | cons f fs ih => exact fun u => (ih _).trans (sendOut_dPoll u f)
  exact hfold _ _

theorem sendSpanEvent_keeps (b id st : Nat) (ev : Nat × Nat × List Byte × Status) : KeepsBodies s (sendSpanEvent b id st ev s) := by
  unfold sendSpanEvent
  split
  · exact .refl s
  · refine .of_eq (drainFrames_dPoll _) fun x hx => ?_
    obtain ⟨l, z, o, p, h⟩ := sendEvent_eq 0xA0 b ev.2.2.2 (eventBody s b id st ev.1 ev.2.1 ev.2.2.1) s
    rw [h]
    exact hx

/-- An event that a queued record takes on changes what follows that record only. -/
theorem attachEvent_bodies (b id st : Nat) (ev : Nat × Nat × List Byte × Status) : ∀ (l q : List JRecord), attachEvent b id st ev l = some q →
    ∀ x ∈ l, ∃ y ∈ q, y.typ = x.typ ∧ y.body = x.body := by
  intro l
  induction l with
  | nil => exact fun q h => by simp [attachEvent] at h
  | cons r rest ih =>
    intro q h x hx
    unfold attachEvent at h
    split at h
    · next rest' hrest =>
      obtain rfl := Option.some.inj h
      rcases List.mem_cons.1 hx with rfl | hx
      · exact ⟨x, List.mem_cons_self, rfl, rfl⟩
      · obtain ⟨y, hy, hxy⟩ := ih rest' hrest x hx
        exact ⟨y, List.mem_cons_of_mem _ hy, hxy⟩
    · split at h
      · obtain rfl := Option.some.inj h
        rcases List.mem_cons.1 hx with rfl | hx
        · exact ⟨_, List.mem_cons_self, rfl, rfl⟩
        · exact ⟨x, List.mem_cons_of_mem _ hx, rfl, rfl⟩
      · cases h

theorem tokenEnded_keeps (b : Nat) (k : Token) (how : Nat) (code : Byte) : KeepsBodies s (tokenEnded b k how code s) := by
  unfold tokenEnded bayEvent
  dsimp only
  split
  · next q hq => exact ⟨rfl, attachEvent_bodies _ _ _ _ _ q hq⟩
  · exact sendSpanEvent_keeps (modSpan (fun x => { x with tokens := vset x.tokens b none }) s) _ _ _ _

theorem spanMove_keeps (b nxt : Nat) (st : Option Status) (seq : Nat) : KeepsBodies s (spanMove b nxt st seq s) := by
  obtain ⟨q, c, o, m, p, h, -, hq, -⟩ := spanMove_eq b nxt st seq s
  rw [h]
  exact .of_eq rfl hq

theorem spanClosing_keeps (b reason : Nat) (st : Status) : KeepsBodies s (spanClosing b reason st false s) := by
  have hmove := spanMove_keeps (modBay b (fun p => { p with closeReason := reason, nextInterim := none }) s) b 8 (some st) 0
  unfold spanClosing
  dsimp only
  split
  · exact hmove
  · exact hmove

/-! ## Messages -/

/-- A message on the dispenser bus leaves, and the bus is faulty no more (R374, R423). -/
theorem dispSend_eq (addr typ : Nat) (payload : List Byte) : ∃ q, dispSend addr typ payload s =
    { s with sent := s.sent ++ [.disp addr typ payload], par := { s.par with dFault := 0 }, perf := q } :=
  countEvent_eq (emit (.disp addr typ payload) (modPar (fun p => { p with dFault := 0 }) s)) 5 0x043 (5 + payload.length)

theorem dispStopAct_eq {b : Nat} {r : StopReq} (hon : dispOn s = true) (hpoll : s.link.dPoll = none) (hr : vget none s.span.stops b = some r) :
    dispStopAct b s = dispSend (dispAddr s b) 0x04 (leBytes 8 r.counter)
      (modSpan (fun x => { x with stops := vset x.stops b (if r.left ≤ 1 then none else some { r with left := r.left - 1 }) }) s) := by
  unfold dispStopAct
  rw [hr]
  exact if_pos ⟨hon, hpoll⟩

/-- A first beacon at a frame divisible by 100 leaves. -/
theorem dispBeaconAct_first (hon : dispOn s = true) (hpoll : s.link.dPoll = none) (hframe : s.time.us / 1000 % 100 = 0) (hlast : s.link.lastBeacon = none) :
    dispBeaconAct s = dispSend 0xFF 0x02 (leBytes 8 s.time.us)
      (modLink (fun l => { l with lastBeacon := some (s.time.us / 1000) }) (latchReg s 5 .dbusBeacon 0)) := by
  unfold dispBeaconAct
  rw [hlast]
  exact if_pos ⟨hon, hpoll, hframe, rfl⟩

/-! ## Reports -/

/-- A report of a dispenser before its effect on the bay's span: it is journalled, the STOP that waits for its counter is
owed no more, and ACCEPT and REJECT end the bay's token of that counter (R63, R65, R424). -/
def reportHeard (b report : Nat) (code : Byte) (counter : Nat) (s : State) : State :=
  let s := submitRecord (dispenserRecord s b report code counter) (modSpan (fun x => { x with reports := vset x.reports b (some (report, counter)) }) s)
  let s := match vget none s.span.stops b with
    | some q => if q.counter = counter then modSpan (fun x => { x with stops := vset x.stops b none }) s else s
    | none => s
  match getToken s b with
  | some t => if t.counter = counter ∧ report ≤ 1 then tokenEnded b t report (if report = 1 then code else 0) s else s
  | none => s

section
variable {b report counter : Nat} (code : Byte)

theorem reportHeard_span : ∃ k q, (reportHeard b report code counter s).span =
    { s.span with reports := vset s.span.reports b (some (report, counter)), stops := k, tokens := q } := by
  unfold reportHeard
  dsimp only
  generalize hu : submitRecord (dispenserRecord s b report code counter) _ = u
  have huspan : u.span = { s.span with reports := vset s.span.reports b (some (report, counter)) } := by
    rw [← hu, submitRecord_span]
    rfl
  generalize hv : (match vget none u.span.stops b with
    | some q => if q.counter = counter then modSpan (fun x => { x with stops := vset x.stops b none }) u else u
    | none => u) = v
  have hvspan : ∃ k, v.span = { s.span with reports := vset s.span.reports b (some (report, counter)), stops := k } := by
    rw [← hv]
    split
    · split
      · exact ⟨_, congrArg (fun x : SpanState => { x with stops := vset x.stops b none }) huspan⟩
      · exact ⟨_, huspan⟩
    · exact ⟨_, huspan⟩
  obtain ⟨k, hvspan⟩ := hvspan
  split
  · split
    · exact ⟨k, _, by rw [tokenEnded_span, hvspan]⟩
    · exact ⟨k, _, hvspan⟩
  · exact ⟨k, _, hvspan⟩

/-- The report's record stands in the queue. -/
theorem reportHeard_record : (reportHeard b report code counter s).link.dPoll = s.link.dPoll ∧
    ∃ r ∈ (reportHeard b report code counter s).store.queue, r.typ = 0x0B ∧ r.body = (dispenserRecord s b report code counter).body := by
  obtain ⟨q, c, o, m, p, hsub, hmem, -⟩ := submitRecord_eq (dispenserRecord s b report code counter)
    (modSpan (fun x => { x with reports := vset x.reports b (some (report, counter)) }) s)
  unfold reportHeard
  dsimp only
  rw [hsub]
  generalize hu : ({ modSpan (fun x => { x with reports := vset x.reports b (some (report, counter)) }) s with
    store := { (modSpan (fun x => { x with reports := vset x.reports b (some (report, counter)) }) s).store with queue := q, changes := c, opened := o }
    mem := m, perf := p } : State) = u
  have hpoll : u.link.dPoll = s.link.dPoll := by rw [← hu]; rfl
  have hqueue : u.store.queue = q := by rw [← hu]
  generalize hv : (match vget none u.span.stops b with
    | some q => if q.counter = counter then modSpan (fun x => { x with stops := vset x.stops b none }) u else u
    | none => u) = v
  have huv : KeepsBodies u v := by
    rw [← hv]
    split
    · split
      · exact .of_eq rfl fun _ h => h
      · exact .refl u
    · exact .refl u
  have hend : ∀ t, KeepsBodies v t → t.link.dPoll = s.link.dPoll ∧
      ∃ r ∈ t.store.queue, r.typ = 0x0B ∧ r.body = (dispenserRecord s b report code counter).body := by
    intro t hvt
    obtain ⟨hp, hb⟩ := huv.trans hvt
    obtain ⟨y, hy, htyp, hbody⟩ := hb _ (hqueue ▸ hmem)
    exact ⟨hp.trans hpoll, y, hy, htyp, hbody⟩
  split
  · split
    · exact hend _ (tokenEnded_keeps v _ _ _ _)
    · exact hend _ (.refl v)
  · exact hend _ (.refl v)

/-- A report that is not a repeat, on the bay's span (R48). -/
theorem reportTaken_eq (hnew : vget none s.span.reports b ≠ some (report, counter)) : reportTaken b report code counter s =
    (let p := getSpan s b
     let u := reportHeard b report code counter s
     let mine := p.counter == counter && (p.state == 6 || p.state == 7)
     if report = 0 then
       (if mine then modBay b (fun p => { p with accepted := true }) u
        else if p.state = 11 ∨ p.status = 0x11 ∨ p.status = 0x16 then oweStop b counter u else u)
     else if report = 1 then (if mine then spanClosing b 3 0x29 false u else u)
     else if p.counter = counter ∧ p.state = 7 then spanClosing b 0 0x00 false u
     else u) := if_neg hnew

/-- What a report that is not a repeat leaves: LINK's poll, its mark, its record, and the bays but this one. -/
theorem reportTaken_leaves (hb : b < 64) (hnew : vget none s.span.reports b ≠ some (report, counter)) :
    (reportTaken b report code counter s).link.dPoll = s.link.dPoll ∧
    vget none (reportTaken b report code counter s).span.reports b = some (report, counter) ∧
    (∃ r ∈ (reportTaken b report code counter s).store.queue, r.typ = 0x0B ∧ r.body = (dispenserRecord s b report code counter).body) ∧
    ∀ b', b' ≠ b → getSpan (reportTaken b report code counter s) b' = getSpan s b' := by
  obtain ⟨k, q, hspan⟩ := reportHeard_span s code (b := b) (report := report) (counter := counter)
  obtain ⟨hpoll, r, hr, htyp, hbody⟩ := reportHeard_record s code (b := b) (report := report) (counter := counter)
  rw [reportTaken_eq s code hnew]
  dsimp only
  generalize reportHeard b report code counter s = u at hspan hpoll hr
  have hend : ∀ t, KeepsBodies u t → t.span.reports = u.span.reports → (∀ b', b' ≠ b → t.span.bay b' = u.span.bay b') →
      t.link.dPoll = s.link.dPoll ∧ vget none t.span.reports b = some (report, counter) ∧
      (∃ r ∈ t.store.queue, r.typ = 0x0B ∧ r.body = (dispenserRecord s b report code counter).body) ∧
      ∀ b', b' ≠ b → getSpan t b' = getSpan s b' := by
    rintro t ⟨hp, hbodies⟩ hreports hbays
    obtain ⟨y, hy, hytyp, hybody⟩ := hbodies r hr
    refine ⟨hp.trans hpoll, ?_, ⟨y, hy, hytyp.trans htyp, hybody.trans hbody⟩, fun b' hne => (hbays b' hne).trans ?_⟩
    · rw [hreports, hspan]
      exact vget_vset_self _ _ _ hb
    · rw [hspan]
      rfl
  have hsame := hend u (.refl u) rfl fun _ _ => rfl
  have hclosing : ∀ reason st, _ := fun reason st => hend (spanClosing b reason st false u) (spanClosing_keeps u b reason st)
    (by rw [spanClosing_span u hb]; rfl) (fun b' hne => by rw [spanClosing_span u hb]; exact SpanState.bay_withBay_ne _ _ hne)
  split
  · split
    · exact hend _ (.of_eq rfl fun _ h => h) rfl fun b' hne => by rw [modBay_span]; exact SpanState.bay_withBay_ne _ _ hne
    · split
      · exact hend _ (.of_eq rfl fun _ h => h) rfl fun _ _ => rfl
      · exact hsame
  · split
    · split
      · exact hclosing 3 0x29
      · exact hsame
    · split
      · exact hclosing 0 0x00
      · exact hsame

/-- A report on a METERING span's own token, by the bay it leaves (R48). -/
theorem reportTaken_bay (hb : b < 64) (hnew : vget none s.span.reports b ≠ some (report, counter))
    (hcounter : (s.span.bay b).counter = counter) (hstate : (s.span.bay b).state = 7) :
    ∃ now, (reportTaken b report code counter s).span.bay b =
      if report = 0 then { s.span.bay b with accepted := true }
      else if report = 1 then (s.span.bay b).closing 3 0x29 now else (s.span.bay b).closing 0 0x00 now := by
  obtain ⟨k, q, hspan⟩ := reportHeard_span s code (b := b) (report := report) (counter := counter)
  have hmine : ((getSpan s b).counter == counter && ((getSpan s b).state == 6 || (getSpan s b).state == 7)) = true := by
    simp [getSpan_eq, hcounter, hstate]
  rw [reportTaken_eq s code hnew]
  dsimp only
  rw [hmine, if_pos rfl, if_pos rfl, if_pos (⟨hcounter, hstate⟩ : (getSpan s b).counter = counter ∧ (getSpan s b).state = 7)]
  generalize reportHeard b report code counter s = u at hspan
  have hbay : u.span.bay b = s.span.bay b := by rw [hspan]; rfl
  refine ⟨u.time.us, ?_⟩
  split
  · rw [modBay_span, SpanState.bay_withBay _ _ hb, hbay]
  · split
    · rw [spanClosing_span u hb, ← hbay]
      exact SpanState.bay_withBay _ _ hb
    · rw [spanClosing_span u hb, ← hbay]
      exact SpanState.bay_withBay _ _ hb

end

/-! ## The token's last byte (R48, R63) -/

/-- A span as its token's last byte releases it: its start capture is asked for. -/
def Span.released (now : Nat) (p : Span) : Span :=
  { p with state := 6, sending := false, built := false, relAt := now, relLeft := none, lastFail := 0, caps := p.caps ++ [⟨0, now, none, false⟩] }

/-- The token's last byte releases the span, makes the token live and is recorded. -/
theorem tokenLastByteAct_leaves {b : Nat} (hb : b < 64) (hlink : canAct s 5 = true) (hact : canAct s 1 = true) (h5 : (getSpan s b).state = 5)
    (hsending : (getSpan s b).sending = true) :
    (∃ j n, (tokenLastByteAct b s).span = { s.span.withBay b (Span.released s.time.us) with
      tokens := vset s.span.tokens b (some ⟨(getSpan s b).counter, (getSpan s b).notAfter⟩), jobs := j, nextTag := n }) ∧
    Recorded b 6 0x00 s (tokenLastByteAct b s) := by
  generalize hv : modBay b (fun p => { p with sending := false, built := false, relAt := s.time.us, relLeft := none, lastFail := 0 })
    (modLink (fun l => { l with polled := vset l.polled b s.time.us })
      (modSpan (fun x => { x with tokens := vset x.tokens b (some ⟨(getSpan s b).counter, (getSpan s b).notAfter⟩) }) s)) = v
  have hact' : tokenLastByteAct b s = (deckRequest (.renew b) [5] b (askCapture b 0 s.time.us (spanMove b 6 none 0 v))).2 := by
    rw [← hv]
    exact if_pos ⟨hlink, hact, h5, hsending⟩
  have hvspan : v.span = { s.span.withBay b (fun p => { p with sending := false, built := false, relAt := s.time.us, relLeft := none, lastFail := 0 }) with
      tokens := vset s.span.tokens b (some ⟨(getSpan s b).counter, (getSpan s b).notAfter⟩) } := by rw [← hv]; rfl
  have hvbay : (getSpan v b).id = (getSpan s b).id ∧ (getSpan v b).state = (getSpan s b).state := by
    rw [← hv, getSpan_modBay hb, if_pos rfl]
    exact ⟨rfl, rfl⟩
  obtain ⟨q, c, o, m, p, hmove, ⟨ev, hrec⟩, -⟩ := spanMove_eq b 6 none 0 v
  obtain ⟨g, pk, p', j, n, hreq⟩ := deckReq_eq (.renew b) [5] b (askCapture b 0 s.time.us (spanMove b 6 none 0 v))
  rw [hact', hreq]
  refine ⟨⟨j, n, ?_⟩, spanRecord v b 6 0x00 ev, ?_, rfl, hvbay.1, ?_⟩
  · dsimp only
    rw [askCapture_span, spanMove_span, SpanState.withBay_withBay _ _ _ hb, hvspan]
    exact congrArg (fun x : SpanState => { x with
        tokens := vset s.span.tokens b (some ⟨(getSpan s b).counter, (getSpan s b).notAfter⟩), jobs := j, nextTag := n })
      (s.span.withBay_withBay (fun p => { p.moved 6 none with caps := p.caps ++ [⟨0, s.time.us, none, false⟩] })
        (fun p => { p with sending := false, built := false, relAt := s.time.us, relLeft := none, lastFail := 0 }) hb)
  · rw [hmove]
    exact hrec
  · rw [spanRecord_body, hvbay.2]

end Sys2Proof.Machine
end

section
/-! The statement about the dispenser bus (02_span_service.md). -/

namespace Sys2Proof.Proofs

open Sys2Proof Sys2Proof.Machine

/-- Settles O25: each message by what LINK sends, each report by what it leaves of its bay. -/
theorem dispenserBus : Obligations.DispenserBus := by
  intro bay s p out
  have hb : (bay : Nat) < 64 := bay.isLt
  refine ⟨fun hon => ⟨fun h5 hfault hbuilt hsending htok hold => ?_, fun hpoll => ⟨fun r hr => ?_, fun hdue => ?_, fun hframe hlast => ?_⟩,
    fun hpoll => ⟨?_, ?_, fun report code n hn => ⟨fun htakes hnew => ?_, fun hheld hroom => ?_⟩⟩⟩, fun hact h5 hfault => ?_, fun hlink hact h5 hsending => ?_⟩
  · have hno : ¬((getSpan s bay).state = 5 ∧ s.par.dFault ≠ 0 ∧ canAct s 1 = true) := fun h => h.2.1 hfault
    have hexec : exec (.dispToken bay) s = .next _ := congrArg Host.Outcome.next (a₁ := dispTokenAct bay s)
      ((if_neg hno).trans (if_pos ⟨hon, h5, hbuilt, hsending, htok, hold⟩))
    exact ⟨_, hexec.trans (congrArg Host.Outcome.next (countEvent_self _ _ _ _))⟩
  · obtain ⟨q, hq⟩ := dispSend_eq (modSpan (fun x => { x with stops := vset x.stops bay (if r.left ≤ 1 then none else some { r with left := r.left - 1 }) }) s)
      (dispAddr s bay) 0x04 (leBytes 8 r.counter)
    exact ⟨q, congrArg Host.Outcome.next ((dispStopAct_eq s hon hpoll hr).trans hq)⟩
  · have hexec : exec (.dispPoll bay) s = .next _ := congrArg Host.Outcome.next (a₁ := dispPollAct bay s) (if_pos ⟨hon, hpoll, hdue⟩)
    obtain ⟨q, hq⟩ := dispSend_eq s (dispAddr s bay) 0x03 []
    rw [hq] at hexec
    exact ⟨q, hexec⟩
  · obtain ⟨q, hq⟩ := dispSend_eq (modLink (fun l => { l with lastBeacon := some (s.time.us / 1000) }) (latchReg s 5 .dbusBeacon 0)) 0xFF 0x02 (leBytes 8 s.time.us)
    exact ⟨_, q, congrArg Host.Outcome.next ((dispBeaconAct_first s hon hpoll hframe hlast).trans hq)⟩
  · have hexec : exec (.dispNone bay) s = .next _ := congrArg Host.Outcome.next (a₁ := dispNoneAct bay s) (if_pos ⟨hon, hpoll⟩)
    exact ⟨_, hexec.trans (congrArg Host.Outcome.next (countEvent_self _ _ _ _))⟩
  · exact congrArg Host.Outcome.next (a₁ := dispTimeoutAct bay s) (if_pos ⟨hon, hpoll⟩)
  · have hexec : exec (.dispReport bay report code n) s = .next _ := congrArg Host.Outcome.next (a₁ := dispReportAct bay report code (n % 2 ^ 64) s) (if_pos ⟨hon, hpoll⟩)
    rw [Nat.mod_eq_of_lt hn] at hexec
    dsimp only at hexec
    rw [countEvent_self, if_pos (by exact htakes)] at hexec
    generalize hu : ({ modLink (fun l => { l with dPoll := none }) s with perf := _ } : State) = u at hexec
    have hspan : u.span = s.span := by rw [← hu]; rfl
    have hnone : u.link.dPoll = none := by rw [← hu]; rfl
    have hnew' : vget none u.span.reports bay ≠ some (report.val, n) := by rw [hspan]; exact hnew
    obtain ⟨hpoll', hreport, ⟨r, hr, htyp, hbody⟩, hothers⟩ := reportTaken_leaves u code hb hnew'
    have hbays : ∀ b, getSpan u b = getSpan s b := fun b => by rw [getSpan_eq, hspan]; rfl
    refine ⟨_, hexec, hpoll'.trans hnone, hreport, fun b hne => (hothers b hne).trans (hbays b), ⟨r, hr, htyp, ?_⟩, fun hcounter h7 => ?_⟩
    · rw [hbody]
      simp [dispenserRecord, leBytes]
    · obtain ⟨now, hbay⟩ := reportTaken_bay u code hb hnew' (by rw [hspan]; exact hcounter) (by rw [hspan]; exact h7)
      simp only [getSpan_eq]
      rw [hbay, hspan]
      refine ⟨fun h0 => ?_, fun h1 => ?_, fun h2 => ?_⟩
      · rw [if_pos h0]; rfl
      · rw [h1]; exact ⟨rfl, rfl, rfl⟩
      · rw [h2]; exact ⟨rfl, rfl, rfl⟩
  · have hno : ¬deckTakes s = true := by simp [hheld]
    have hexec : exec (.dispReport bay report code n) s = .next _ := congrArg Host.Outcome.next (a₁ := dispReportAct bay report code (n % 2 ^ 64) s) (if_pos ⟨hon, hpoll⟩)
    rw [Nat.mod_eq_of_lt hn] at hexec
    dsimp only at hexec
    rw [countEvent_self, if_neg (by exact hno), holdField_room _ _ (by exact hroom)] at hexec
    exact ⟨_, hexec⟩
  · exact ⟨_, congrArg Host.Outcome.next (a₁ := dispTokenAct bay s) (if_pos ⟨h5, hfault, hact⟩), spanRefuse_eq hb 0x05 s⟩
  · obtain ⟨⟨j, n, hspan⟩, hrec⟩ := tokenLastByteAct_leaves s hb hlink hact h5 hsending
    refine ⟨_, rfl, ?_, ?_, hrec, fun b hne => ?_⟩
    · exact (congrArg (fun x => SpanState.bay x bay) hspan).trans (s.span.bay_withBay _ hb)
    · exact (congrArg (fun x : SpanState => vget none x.tokens bay) hspan).trans (vget_vset_self _ _ _ hb)
    · exact (congrArg (fun x => SpanState.bay x b) hspan).trans (s.span.bay_withBay_ne _ hne)

end Sys2Proof.Proofs
end

section
/-! SUPPORT. What the deck makes of the piers' and the fobs' messages (R43, R48, R89, R138, R153). -/

namespace Sys2Proof.Machine

variable {s t u : State}

theorem answerOf_setResp {ini : Nat} (hi : ini < 14) (d : List Nat) (st : Status) (s : State) : answerOf (setResp ini d st s) ini = ⟨d, st⟩ :=
  vget_vset_self _ _ _ hi

/-- A request for an idle bay that finds room becomes the youngest entry. -/
theorem senseArrive_queued {source b : Nat} (hon : spanEnabled s = true) (hidle : (getSpan s b).live = false) (hroom : s.span.queue.length < 256)
    (hretry : source = 0 ∨ source = 1 → vget 0 s.span.retry b ≤ s.time.us)
    (hnew : s.span.queue.find? (fun e => e.bay == b && e.source == source) = none) :
    senseArrive source b [] none s = { s with span := { s.span with queue := s.span.queue ++ [⟨source, b, s.time.us, [], none⟩] } } :=
  (senseArrive_new s [] none hon (.inl hidle) hretry hnew).trans (if_neg (Nat.not_le.2 hroom))

/-! ## A bay's credential -/

/-- From s to t bay b's span keeps its credential and its LF evidence; other bays, the piers and the viaduct stay as they were. -/
structure KeepsCredential (b : Nat) (s t : State) : Prop where
  via : t.via = s.via
  lf : t.lf = s.lf
  others : ∀ b', b' ≠ b → getSpan t b' = getSpan s b'
  ident : (getSpan t b).ident = (getSpan s b).ident
  kind : (getSpan t b).kind = (getSpan s b).kind
  evLf : (getSpan t b).evLf = (getSpan s b).evLf

theorem KeepsCredential.refl (b : Nat) (s : State) : KeepsCredential b s s := ⟨rfl, rfl, fun _ _ => rfl, rfl, rfl, rfl⟩

theorem KeepsCredential.trans {b : Nat} (h : KeepsCredential b s t) (h' : KeepsCredential b t u) : KeepsCredential b s u :=
  ⟨h'.via.trans h.via, h'.lf.trans h.lf, fun b' hne => (h'.others b' hne).trans (h.others b' hne), h'.ident.trans h.ident, h'.kind.trans h.kind,
    h'.evLf.trans h.evLf⟩

section
variable {b : Nat} (hb : b < 64)
include hb

theorem spanMove_keepsCredential (nxt : Nat) (st : Option Status) (seq : Nat) (s : State) : KeepsCredential b s (spanMove b nxt st seq s) := by
  obtain ⟨q, c, o, m, p, h, -⟩ := spanMove_eq b nxt st seq s
  have hspan := spanMove_span s b nxt st seq
  have hbay : getSpan (spanMove b nxt st seq s) b = (getSpan s b).moved nxt st := by
    rw [getSpan_eq, hspan]
    exact SpanState.bay_withBay _ _ hb
  refine ⟨by rw [h]; rfl, by rw [h]; rfl, fun b' hne => ?_, ?_, ?_, ?_⟩
  · rw [getSpan_eq, hspan]
    exact SpanState.bay_withBay_ne _ _ hne
  · rw [hbay]; rfl
  · rw [hbay]; rfl
  · rw [hbay]; rfl

theorem spanRefuse_keepsCredential (st : Status) (s : State) : KeepsCredential b s (spanRefuse b st s) := by
  obtain ⟨⟨hothers, -, hrest⟩, -⟩ := spanRefuse_eq hb st s
  have hbay : getSpan (spanRefuse b st s) b = (getSpan s b).over 10 st := spanRefuse_bay s hb st
  have hvia := congrArg State.via hrest
  have hlf := congrArg State.lf hrest
  exact ⟨hvia, hlf, hothers, by rw [hbay]; rfl, by rw [hbay]; rfl, by rw [hbay]; rfl⟩

/-- A verdict that is recorded keeps the credential. -/
theorem applyVerdict_keepsCredential (i : PxIn) (s : State) : KeepsCredential b s (applyVerdict b i s) := by
  unfold applyVerdict
  dsimp only
  generalize hu : modBay b (fun p => { p with verdict := i.result.verdict, reason := i.result.reason, evidence := i.result.evidence, base := _ }) _ = u
  have hsu : KeepsCredential b s u := by
    have hbays : ∀ b', getSpan u b' = if b' = b then _ else getSpan s b' := fun b' => by
      rw [← hu, getSpan_modBay hb]
      rfl
    refine ⟨by rw [← hu]; rfl, by rw [← hu]; rfl, fun b' hne => by rw [hbays, if_neg hne], ?_, ?_, ?_⟩
    · rw [hbays, if_pos rfl]; rfl
    · rw [hbays, if_pos rfl]; rfl
    · rw [hbays, if_pos rfl]; rfl
  split
  · exact hsu.trans (spanRefuse_keepsCredential hb _ u)
  · split
    · exact hsu.trans (spanMove_keepsCredential hb _ _ _ u)
    · exact hsu.trans (spanRefuse_keepsCredential hb _ u)

theorem tagVerdict_keepsCredential (s : State) : KeepsCredential b s (tagVerdict b s) := by
  unfold tagVerdict
  dsimp only
  split
  · exact .refl b s
  · exact applyVerdict_keepsCredential hb _ s

/-- A span that is identified by a credential keeps it. -/
theorem spanIdentified_keepsCredential (kind : Nat) (ident : List Byte) (s : State) :
    KeepsCredential b (modBay b (fun p => { p with kind := kind, ident := ident }) s) (spanIdentified b kind ident s) := by
  have hmove := spanMove_keepsCredential hb 3 none 0 (modBay b (fun p => { p with kind := kind, ident := ident }) s)
  unfold spanIdentified
  dsimp only
  split
  · exact hmove.trans (spanRefuse_keepsCredential hb _ _)
  · split
    · exact hmove.trans (spanMove_keepsCredential hb _ _ _ _)
    · exact hmove

/-- A tag exchange that found an identifier gives it to the span that waits for it (R48, R146). -/
theorem tagResult_found {j : TagJob} {id : Nat} {more : List Nat} (hfound : j.found = id :: more) (hwaits : awaitsTag s b = true) :
    (tagResult b j s).via = s.via ∧ (tagResult b j s).lf = s.lf ∧ (getSpan (tagResult b j s) b).ident = ident8 j.kind id ∧
    (getSpan (tagResult b j s) b).kind = j.kind ∧ (getSpan (tagResult b j s) b).evLf = some j.since ∧
    ∀ b', b' ≠ b → getSpan (tagResult b j s) b' = getSpan s b' := by
  have hkeeps : KeepsCredential b (modBay b (fun p => { p with kind := j.kind, ident := ident8 j.kind id }) (modBay b (fun p => { p with evLf := some j.since }) s))
      (tagResult b j s) := by
    have hident := spanIdentified_keepsCredential hb j.kind (ident8 j.kind id) (modBay b (fun p => { p with evLf := some j.since }) s)
    unfold tagResult
    rw [hwaits, hfound]
    rw [if_neg (by decide)]
    dsimp only
    split
    · exact hident.trans (tagVerdict_keepsCredential hb _)
    · exact hident
  have hbays : ∀ b', getSpan (modBay b (fun p => { p with kind := j.kind, ident := ident8 j.kind id }) (modBay b (fun p => { p with evLf := some j.since }) s)) b' =
      if b' = b then { getSpan s b with evLf := some j.since, kind := j.kind, ident := ident8 j.kind id } else getSpan s b' := by
    intro b'
    rw [modBay_modBay, getSpan_modBay hb]
    simp only [hb, if_true]
  refine ⟨hkeeps.via, hkeeps.lf, ?_, ?_, ?_, fun b' hne => ?_⟩
  · rw [hkeeps.ident, hbays, if_pos rfl]
  · rw [hkeeps.kind, hbays, if_pos rfl]
  · rw [hkeeps.evLf, hbays, if_pos rfl]
  · rw [hkeeps.others b' hne, hbays, if_neg hne]

omit hb in
/-- One that found none refuses that span, or notes the exchange's status (R48, R51). -/
theorem tagResult_none {j : TagJob} (hfound : j.found = []) (hwaits : awaitsTag s b = true) : tagResult b j s =
    if j.status = 0x50 ∨ j.status = 0x00 then spanRefuse b 0x23 s else noteFail b j.status s := by
  unfold tagResult
  rw [hwaits, hfound]
  exact if_neg (by decide)

omit hb in
/-- A result that no span waits for does nothing. -/
theorem tagResult_unawaited {j : TagJob} (hwaits : awaitsTag s b = false) : tagResult b j s = s := if_pos hwaits

/-- A tag exchange's result leaves the viaduct and the piers alone. -/
theorem tagResult_viaLf (j : TagJob) (s : State) : (tagResult b j s).via = s.via ∧ (tagResult b j s).lf = s.lf := by
  cases hwaits : awaitsTag s b with
  | false =>
    rw [tagResult_unawaited hwaits]
    exact ⟨rfl, rfl⟩
  | true =>
    cases hfound : j.found with
    | nil =>
      rw [tagResult_none hfound hwaits]
      split
      · exact ⟨(spanRefuse_keepsCredential hb _ s).via, (spanRefuse_keepsCredential hb _ s).lf⟩
      · exact ⟨rfl, rfl⟩
    | cons id more => exact ⟨(tagResult_found hb hfound hwaits).1, (tagResult_found hb hfound hwaits).2.1⟩

end

/-- How a span ends does not hang on the counters. -/
theorem EndedAs.perf {b nxt : Nat} {st : Status} (h : EndedAs b nxt st s t) (p) : EndedAs b nxt st { s with perf := p } t := by
  obtain ⟨⟨hothers, hmem, hrest⟩, hrec, hspan⟩ := h
  exact ⟨⟨hothers, hmem, congrArg (fun x : State => { x with perf := p }) hrest⟩, hrec, hspan⟩

/-! ## The gate's answer to the deck (R88, R89, R138) -/

/-- A request that the gate has room for, with no PARK admission to withdraw, waits at the gate. -/
theorem deckRequest_room (k : JobKind) (cl : List Nat) (b : Nat) (hpark : s.toll.parking = none) (hroom : inFlight s < 4) (hfree : freeHandle s ≠ none) :
    ∃ w p, deckRequest k cl b s = (0x00, { s with perf := p, toll := { s.toll with reqs := s.toll.reqs ++ [w] }, span := { s.span with
      jobs := s.span.jobs ++ [⟨s.span.nextTag, k, none⟩], nextTag := (s.span.nextTag + 1) % 16 } }) := by
  unfold deckRequest
  dsimp only
  generalize (List.range cl.length).foldl (fun w i => w + cl.getD i 0 * 2 ^ (5 * i)) 0 + (cl.length - 1) * 2 ^ 20 + b * 2 ^ 22 + s.span.nextTag * 2 ^ 28 = w
  obtain ⟨p, hp⟩ := countEvent_eq (modToll (fun t => { t with reqs := t.reqs ++ [w] }) s) 1 0x040 1
  have hwrite : tollReqWrite w s = (0x00, { modToll (fun t => { t with reqs := t.reqs ++ [w] }) s with perf := p }) := by
    unfold tollReqWrite
    rw [hpark]
    dsimp only
    rw [if_neg (by rintro (h | h); exacts [absurd hroom (Nat.not_lt.2 h), hfree h]), hp]
  rw [hwrite]
  exact ⟨w, p, rfl⟩

/-- One that it has none for leaves everything as it was. -/
theorem deckRequest_full (k : JobKind) (cl : List Nat) (b : Nat) (hpark : s.toll.parking = none) (hfull : 4 ≤ inFlight s ∨ freeHandle s = none) :
    deckRequest k cl b s = (0x01, s) := by
  have hwrite : ∀ w, tollReqWrite w s = (0x01, s) := by
    intro w
    unfold tollReqWrite
    rw [hpark]
    exact if_pos hfull
  unfold deckRequest
  dsimp only
  rw [hwrite]
  rfl

/-- A fob hello starts a sweep and asks for its first chord where the gate has room. -/
theorem fobHello_room (hsweep : s.span.sweep = none) (hpark : s.toll.parking = none) (hroom : inFlight s < 4) (hfree : freeHandle s ≠ none) :
    ∃ w p, fobHello s = { s with perf := p, toll := { s.toll with reqs := s.toll.reqs ++ [w] }, span := { s.span with
      sweep := some ⟨[], (List.range 8).map (chordOrder s none), 0⟩, jobs := s.span.jobs ++ [⟨s.span.nextTag, .chordSweep 0, none⟩],
      nextTag := (s.span.nextTag + 1) % 16 } } := by
  obtain ⟨w, p, h⟩ := deckRequest_room (s := modSpan (fun p => { p with sweep := some ⟨[], (List.range 8).map (chordOrder s none), 0⟩ }) s)
    (.chordSweep 0) [0] 0 hpark hroom hfree
  refine ⟨w, p, ?_⟩
  unfold fobHello
  rw [if_neg (by rw [hsweep]; exact fun h => h rfl)]
  exact (if_pos (congrArg Prod.fst h)).trans (congrArg Prod.snd h)

/-- Where it has none the hello is dropped. -/
theorem fobHello_full (hsweep : s.span.sweep = none) (hpark : s.toll.parking = none) (hfull : 4 ≤ inFlight s ∨ freeHandle s = none) : fobHello s = s := by
  have h := deckRequest_full (s := modSpan (fun p => { p with sweep := some ⟨[], (List.range 8).map (chordOrder s none), 0⟩ }) s)
    (.chordSweep 0) [0] 0 hpark hfull
  have hno : ¬(deckRequest (.chordSweep 0) [0] 0 (modSpan (fun p => { p with sweep := some ⟨[], (List.range 8).map (chordOrder s none), 0⟩ }) s)).1 = 0 := by
    rw [h]
    exact (by decide : ¬(0x01 : Status) = 0)
  have hdrop : ({ s with span := { s.span with sweep := none } } : State) = s := by rw [← hsweep]
  unfold fobHello
  rw [if_neg (by rw [hsweep]; exact fun h => h rfl)]
  exact (if_neg hno).trans ((congrArg (fun x : Status × State => modSpan (fun p => { p with sweep := none }) x.2) h).trans hdrop)

/-! ## Exchanges that have ended (R146) -/

theorem endedJob_some {b tag : Nat} {j : TagJob} (hj : (getPier s (b / 8)).job = some j) (hbay : j.bay = b) (htag : j.tag = tag)
    (hdone : j.phase = .done) : endedJob s b tag = some j := by
  unfold endedJob
  rw [hj]
  exact if_pos ⟨hbay, htag, hdone⟩

theorem endedJob_none {b tag : Nat} (hj : (getPier s (b / 8)).job = none) : endedJob s b tag = none := by
  unfold endedJob
  rw [hj]

/-! ## Writes (R153) -/

/-- The caution list changes memory only. -/
theorem cautionAfter_eq (uid crc outcome : Nat) (check : Bool) (s : State) : ∃ m, cautionAfter uid crc outcome check s = { s with mem := m } := by
  unfold cautionAfter
  split
  · split
    · exact ⟨_, rfl⟩
    · exact ⟨s.mem, rfl⟩
  · split
    · split
      · exact ⟨_, rfl⟩
      · exact ⟨s.mem, rfl⟩
    · exact ⟨s.mem, rfl⟩

/-- A write's outcome leaves its record, on whatever the host's answer waits for. -/
theorem writeResult_record (j : TagJob) (s : State) : (writeResult j s).via = s.via ∧ (writeResult j s).lf = s.lf ∧
    ∃ after, tagWriteRecord s j after ∈ (writeResult j s).store.queue := by
  obtain ⟨m, hm⟩ := cautionAfter_eq j.uid (pageCrc j.data) j.outcome j.check s
  have hsubmit : ∀ (u : State) (after : JAfter), u.via = s.via → u.lf = s.lf →
      (submitRecord (tagWriteRecord { s with mem := m } j after) u).via = s.via ∧ (submitRecord (tagWriteRecord { s with mem := m } j after) u).lf = s.lf ∧
      ∃ after', tagWriteRecord s j after' ∈ (submitRecord (tagWriteRecord { s with mem := m } j after) u).store.queue := by
    intro u after hvia hlf
    obtain ⟨q, c, o, m', p, h, hmem, -⟩ := submitRecord_eq (tagWriteRecord { s with mem := m } j after) u
    rw [h]
    exact ⟨hvia, hlf, after, hmem⟩
  have hjobs : ∀ f, (endJobs f { s with mem := m }).via = s.via ∧ (endJobs f { s with mem := m }).lf = s.lf := by
    intro f
    obtain ⟨g, js, hend, -⟩ := endJobs_eq { s with mem := m } f
    rw [hend]
    exact ⟨rfl, rfl⟩
  unfold writeResult
  rw [hm]
  dsimp only
  split
  · exact hsubmit _ _ (hjobs _).1 (hjobs _).2
  · exact hsubmit _ _ rfl rfl

end Sys2Proof.Machine
end

section
/-! The statement about messages of the piers, AON and RF to the deck (02_span_service.md). -/

namespace Sys2Proof.Proofs

open Sys2Proof Sys2Proof.Machine

/-- Settles O40: each message's work on a state that `sendMsg` has changed in the viaduct and the counters only. -/
theorem messagesToTheDeck : Obligations.MessagesToTheDeck := by
  intro bay tag time site ctr fob s hact p free
  have hb : (bay : Nat) < 64 := bay.isLt
  have hp : p < 8 := by omega
  have hacts : ∀ {src : Nat}, canReach s src 1 = true → canAct s src = true := fun hr => (Bool.and_eq_true_iff.1 hr).1
  refine ⟨fun i src hi hr hon => ⟨fun hfree hretry hnew => ?_, fun hlive => ?_⟩, fun i src hi hr => ⟨fun hsweep => ?_, fun hsweep hpark => ?_⟩,
    fun j hj hbay htag hdone hr => ⟨fun ident more hmore hfree hon hnew => ?_, fun hwrite hmore kind hkind => ?_, fun hwrite outcome hout => ?_⟩,
    fun hjob hburst hr htag st outcome => ⟨fun hnone => ?_, fun hst hwaits hpresent => ?_⟩⟩
  · obtain ⟨q, h⟩ := sendMsg_taken s (senseArrive 0 bay [] none) id hr hact
    have harrive := senseArrive_queued (s := setResp src [] 0x00 { s with perf := q }) hon hfree.1 hfree.2 (fun _ => hretry) hnew
    simp only [List.mem_cons, List.not_mem_nil, or_false, Prod.mk.injEq] at hi
    rcases hi with ⟨rfl, rfl⟩ | ⟨rfl, rfl⟩
    · exact ⟨q, congrArg Host.Outcome.next (h.trans harrive)⟩
    · exact ⟨q, congrArg Host.Outcome.next (h.trans harrive)⟩
  · obtain ⟨q, h⟩ := sendMsg_taken s (senseArrive 0 bay [] none) id hr hact
    obtain ⟨q', harrive⟩ := senseArrive_merged (setResp src [] 0x00 { s with perf := q }) [] none hon (source := 0) hlive (by decide)
    simp only [List.mem_cons, List.not_mem_nil, or_false, Prod.mk.injEq] at hi
    rcases hi with ⟨rfl, rfl⟩ | ⟨rfl, rfl⟩
    · exact ⟨q', congrArg Host.Outcome.next (h.trans harrive)⟩
    · exact ⟨q', congrArg Host.Outcome.next (h.trans harrive)⟩
  · obtain ⟨q, h⟩ := sendMsg_taken s fobHello id hr hact
    have hwork : fobHello (setResp src [] 0x00 { s with perf := q }) = setResp src [] 0x00 { s with perf := q } := if_pos hsweep
    simp only [List.mem_cons, List.not_mem_nil, or_false, Prod.mk.injEq] at hi
    rcases hi with ⟨rfl, rfl⟩ | ⟨rfl, rfl⟩
    · exact ⟨q, congrArg Host.Outcome.next (h.trans hwork)⟩
    · exact ⟨q, congrArg Host.Outcome.next (h.trans hwork)⟩
  · obtain ⟨q, h⟩ := sendMsg_taken s fobHello id hr hact
    have hexec : exec i s = .next (fobHello (setResp src [] 0x00 { s with perf := q })) := by
      simp only [List.mem_cons, List.not_mem_nil, or_false, Prod.mk.injEq] at hi
      rcases hi with ⟨rfl, rfl⟩ | ⟨rfl, rfl⟩
      · exact congrArg Host.Outcome.next h
      · exact congrArg Host.Outcome.next h
    have hsrc : src < 14 := by
      simp only [List.mem_cons, List.not_mem_nil, or_false, Prod.mk.injEq] at hi
      omega
    refine ⟨_, hexec, ?_⟩
    by_cases hroom : inFlight s < 4 ∧ freeHandle s ≠ none
    · obtain ⟨w, q', hwork⟩ := fobHello_room (s := setResp src [] 0x00 { s with perf := q }) hsweep hpark hroom.1 hroom.2
      rw [hwork]
      refine ⟨answerOf_setResp hsrc _ _ _, rfl, fun _ _ => ⟨List.length_append, rfl, _, List.mem_append_right _ List.mem_cons_self, rfl⟩, fun h => ?_⟩
      exact h.elim (fun h => absurd hroom.1 (Nat.not_lt.2 h)) fun h => absurd h hroom.2
    · have hfull : 4 ≤ inFlight s ∨ freeHandle s = none := (not_and_or.1 hroom).imp Nat.not_lt.1 not_not.1
      rw [fobHello_full (s := setResp src [] 0x00 { s with perf := q }) hsweep hpark hfull]
      exact ⟨answerOf_setResp hsrc _ _ _, rfl, fun h1 h2 => absurd ⟨h1, h2⟩ hroom, fun _ => ⟨rfl, hsweep, rfl⟩⟩
  · have hended := endedJob_some hj hbay htag hdone
    obtain ⟨q, h⟩ := sendMsg_taken (setJob p { j with more := more } s) (senseArrive 2 bay [] none) id hr hact
    have harrive := senseArrive_queued (s := setResp (6 + p) [] 0x00 { setJob p { j with more := more } s with perf := q }) hon hfree.1 hfree.2
      (fun h => by simp at h) hnew
    have hwork : (if j.more.head? = some ident ∧ canAct s (6 + bay / 8) = true then
        sendMsg (6 + bay / 8) 1 (senseArrive 2 bay [] none) id (setJob (bay / 8) { j with more := j.more.drop 1 } s) else s) =
        sendMsg (6 + p) 1 (senseArrive 2 bay [] none) id (setJob p { j with more := more } s) := by
      rw [hmore]
      exact if_pos ⟨rfl, hacts hr⟩
    refine ⟨q, congrArg Host.Outcome.next (Eq.trans ?_ (h.trans harrive))⟩
    rw [hended]
    exact hwork
  · obtain ⟨q, h⟩ := sendMsg_taken (modPier p (fun x => { x with job := none }) s) (tagResult bay j) id hr hact
    have hexec : exec (.msgTagResult bay tag j.status kind j.found.length (j.found.headD 0)) s =
        .next (tagResult bay j (setResp (6 + p) [] 0x00 { modPier p (fun x => { x with job := none }) s with perf := q })) := by
      refine congrArg Host.Outcome.next (Eq.trans ?_ h)
      rw [endedJob_some hj hbay htag hdone]
      exact if_pos ⟨hwrite, hmore, rfl, hkind, rfl, rfl, hacts hr⟩
    have hpier : (getPier (modPier p (fun x => { x with job := none }) s) p).job = none := by
      rw [getPier_modPier hp, if_pos rfl]
    refine ⟨_, hexec, ?_⟩
    generalize hu : setResp (6 + p) [] 0x00 { modPier p (fun x => { x with job := none }) s with perf := q } = u
    have hanswer : answerOf u (6 + p) = ⟨[], 0x00⟩ := by rw [← hu]; exact answerOf_setResp (by omega) _ _ _
    have hidle : (getPier u p).job = none := by rw [← hu]; exact hpier
    have hgone : { u with perf := s.perf } = ({ s with via := u.via, lf := u.lf } : State) := by rw [← hu]; rfl
    have hsame : awaitsTag u bay = awaitsTag s bay := by rw [← hu]; rfl
    obtain ⟨hvia, hlf⟩ := tagResult_viaLf hb j u
    have hgone' : ({ s with via := (tagResult bay j u).via, lf := (tagResult bay j u).lf } : State) = { u with perf := s.perf } := by
      rw [hvia, hlf, hgone]
    refine ⟨?_, ?_, fun hno => ?_, fun hwaits => ⟨fun hnil hst => ?_, fun hnil hst => ?_, fun id more hfound => ?_⟩⟩
    · unfold answerOf
      rw [hvia]
      exact hanswer
    · unfold getPier
      rw [hlf]
      exact hidle
    · dsimp only
      rw [hgone', tagResult_unawaited (hsame.trans hno)]
    · dsimp only
      rw [hgone', tagResult_none hnil (hsame.trans hwaits), if_pos hst]
      exact (spanRefuse_eq hb 0x23 u).perf s.perf
    · dsimp only
      rw [hgone', tagResult_none hnil (hsame.trans hwaits), if_neg hst]
      rfl
    · obtain ⟨-, -, hident, hkind', hevLf, hothers⟩ := tagResult_found hb hfound (hsame.trans hwaits)
      exact ⟨hident, hkind', hevLf, fun b hne => (hothers b hne).trans (by rw [← hu]; rfl)⟩
  · obtain ⟨q, h⟩ := sendMsg_taken (modPier p (fun x => { x with job := none }) s) (writeResult j) id hr hact
    have hexec : exec (.msgBurstResult bay tag j.status 0 outcome) s =
        .next (writeResult j (setResp (6 + p) [] 0x00 { modPier p (fun x => { x with job := none }) s with perf := q })) := by
      refine congrArg Host.Outcome.next (Eq.trans ?_ h)
      rw [endedJob_some hj hbay htag hdone]
      exact (if_pos ⟨hwrite, rfl⟩).trans (if_pos ⟨rfl, hout, hacts hr⟩)
    have hpier : (getPier (modPier p (fun x => { x with job := none }) s) p).job = none := by
      rw [getPier_modPier hp, if_pos rfl]
    obtain ⟨hvia, hlf, after, hrec⟩ := writeResult_record j (setResp (6 + p) [] 0x00 { modPier p (fun x => { x with job := none }) s with perf := q })
    refine ⟨_, hexec, ?_, ?_, _, hrec, rfl, congrArg (siteBay s) hbay, rfl⟩
    · unfold answerOf
      rw [hvia]
      exact answerOf_setResp (by omega) _ _ _
    · unfold getPier
      rw [hlf]
      exact hpier
  · obtain ⟨q, h⟩ := sendMsg_taken s (chordBurst bay tag.toNat st) id hr hact
    have hexec : exec (.msgBurstResult bay tag st 3 outcome) s = .next (chordBurst bay tag.toNat st (setResp (6 + p) [] 0x00 { s with perf := q })) := by
      refine congrArg Host.Outcome.next (Eq.trans ?_ h)
      rw [endedJob_none hjob]
      exact if_neg (by rw [show (getPier s (bay / 8)).burst = none from hburst]; exact fun h => h rfl)
    refine ⟨q, hexec.trans (congrArg Host.Outcome.next ?_)⟩
    unfold chordBurst
    by_cases hst : st = 0
    · exact if_pos hst
    · rw [if_neg hst, if_pos htag]
      exact if_pos (hnone.resolve_left hst)
  · obtain ⟨q, h⟩ := sendMsg_taken s (chordBurst bay tag.toNat st) id hr hact
    have hexec : exec (.msgBurstResult bay tag st 3 outcome) s = .next (chordAbsent tag.toNat p st (setResp (6 + p) [] 0x00 { s with perf := q })) := by
      refine congrArg Host.Outcome.next (Eq.trans ?_ (h.trans ((if_neg hst).trans (if_pos htag))))
      rw [endedJob_none hjob]
      exact if_neg (by rw [show (getPier s (bay / 8)).burst = none from hburst]; exact fun h => h rfl)
    obtain ⟨-, habsent, howner, hother⟩ := chordAbsent_eq (setResp (6 + p) [] 0x00 { s with perf := q }) htag st hwaits hpresent
    exact ⟨_, hexec, habsent, howner, hother⟩

end Sys2Proof.Proofs
end

section
/-! SUPPORT. STORE's flash operations and the credential lookup at the deck (R48, R277 to R288). -/

namespace Sys2Proof.Machine

variable {s t u : State}

/-! ## What the end of a flash operation keeps -/

/-- From s to t flash stays as it was but for the operation to start next, and every requested ledger change stays requested. -/
structure KeepsFlash (s t : State) : Prop where
  flashLast : t.store.flashLast = s.store.flashLast
  timeouts : t.store.timeouts = s.store.timeouts
  flash : t.store.flash = s.store.flash
  mem : t.mem = s.mem
  changes : ∀ c ∈ s.store.changes, c ∈ t.store.changes

theorem KeepsFlash.refl (s : State) : KeepsFlash s s := ⟨rfl, rfl, rfl, rfl, fun _ h => h⟩

theorem KeepsFlash.of_store (hstore : t.store = s.store) (hmem : t.mem = s.mem) : KeepsFlash s t :=
  ⟨congrArg StoreState.flashLast hstore, congrArg StoreState.timeouts hstore, congrArg StoreState.flash hstore, hmem, fun _ h => hstore ▸ h⟩

theorem KeepsFlash.trans (h : KeepsFlash s t) (h' : KeepsFlash t u) : KeepsFlash s u :=
  ⟨h'.flashLast.trans h.flashLast, h'.timeouts.trans h.timeouts, h'.flash.trans h.flash, h'.mem.trans h.mem, fun c hc => h'.changes c (h.changes c hc)⟩

theorem endJobs_keepsFlash (f : Job → Bool) (s : State) : KeepsFlash s (endJobs f s) := by
  obtain ⟨g, j, h, -⟩ := endJobs_eq s f
  rw [h]
  exact .of_store rfl rfl

theorem answerReq_keepsFlash (r : HostReq) (st : Status) (cls : Nat) (body : List Byte) (s : State) : KeepsFlash s (answerReq r st cls body s) := by
  obtain ⟨l, z, o, p, h⟩ := answerReq_eq r st cls body s
  rw [h]
  exact .of_store rfl rfl

theorem chunkDone_keepsFlash (c : Nat) (st : Status) (s : State) : KeepsFlash s (chunkDone c st s) := by
  unfold chunkDone
  split
  · exact (endJobs_keepsFlash _ s).trans (answerReq_keepsFlash _ _ _ _ _)
  · exact .refl s

theorem chunkStart_keepsFlash (r : HostReq) (c : List Byte) (s : State) : KeepsFlash s (chunkStart r c s) := by
  have hdone : ∀ (st : Status) (f : Job → Bool) (u : State), KeepsFlash u (answerReq r st 11 [] (endJobs f u)) :=
    fun st f u => (endJobs_keepsFlash f u).trans (answerReq_keepsFlash _ _ _ _ _)
  have hupdate : ∀ (current : Bool) (x : Option CredUpdate) (f : Job → Bool) (op : FlashOp), KeepsFlash s
      (if current = false then answerReq r 0xA7 11 [] (endJobs f (modStore (fun t => { t with update := x, erasing := true }) s))
      else if s.store.flashOp ≠ none then s else modStore (fun t => { t with flashOp := some op }) s) := by
    intro current x f op
    split
    · exact KeepsFlash.trans (t := modStore (fun t => { t with update := x, erasing := true }) s) ⟨rfl, rfl, rfl, rfl, fun _ h => h⟩ (hdone _ _ _)
    · split
      · exact .refl s
      · exact ⟨rfl, rfl, rfl, rfl, fun _ h => h⟩
  unfold chunkStart
  dsimp only
  split
  · exact hdone _ _ s
  · exact hupdate _ _ _ _

theorem flashNext_keepsFlash (s : State) : KeepsFlash s (flashNext s) := by
  unfold flashNext
  split
  · exact chunkStart_keepsFlash _ _ s
  · exact .refl s

/-- With no jobs of the deck no chunk's request is answered, and none waits for flash. -/
theorem chunkDone_idle (hjobs : s.span.jobs = []) (c : Nat) (st : Status) : chunkDone c st s = s := by
  unfold chunkDone findJob
  rw [hjobs]
  rfl

theorem flashNext_idle (hjobs : s.span.jobs = []) : flashNext s = s := by
  unfold flashNext findJob
  rw [hjobs]
  split
  · next h => cases h
  · rfl

/-- Archived records change memory and the archive's floor only. -/
theorem archiveWrite_eq (k : Nat) : ∀ (n : Nat) (s : State), ∃ m a, archiveWrite n k s = { s with mem := m, store := { s.store with arcFloor := a } } := by
  induction k with
  | zero => exact fun _ s => ⟨s.mem, s.store.arcFloor, rfl⟩
  | succ k ih =>
    intro n s
    unfold archiveWrite
    dsimp only
    split
    · exact (ih _ _).imp fun m h => h
    · exact (ih _ _).imp fun m h => h

/-- A format writes the header and empties the archive (R278). -/
theorem flashFormatted_mem (s : State) : (flashFormatted s).mem =
    Memory.writeBytes s.mem flashBase ([0x51, 0x46, 0x48, 0x31] ++ serialBytes ++ leBytes 4 (archiveSlots s)) := by
  simp only [flashFormatted, requestChange, modStore, memWriteBytes, flashHeader, archiveSlots]

theorem flashFormatted_changes (s : State) : (flashFormatted s).store.changes =
    s.store.changes ++ [.credInvalid, .archiveEmpty s.store.ledger.tailSeq s.store.ledger.tailChain] :=
  List.append_assoc s.store.changes [.credInvalid] [.archiveEmpty s.store.ledger.tailSeq s.store.ledger.tailChain]

/-! ## Operations done and timed out -/

/-- The state once a flash operation has ended with a status, before what hangs on the operation. -/
def flashEnded (n : Nat) (st : Status) (failed : Bool) (s : State) : State :=
  modStore (fun t => { t with flashOp := none, timeouts := n, flashLast := st, flash := if failed then .failed else t.flash }) s

section
variable (hrun : isRun s 4 = true) (hfrozen : s.freeze.frozen = false)
include hrun hfrozen

/-- A chunk programmed: its body stands encrypted in the inactive area and its chunk is written. -/
theorem flashDone_chunk {c f : Nat} {body k : List Byte} {x : CredUpdate} (hop : s.store.flashOp = some (.chunk c body f)) (hx : s.store.update = some x)
    (hk : storeKey s = some k) : flashDone true s = flashNext (chunkDone c 0x00
      (memWriteBytes (flashBase + chunkOffset (1 - s.store.ledger.credArea) c) (chunkCipher k (chunkOffset (1 - s.store.ledger.credArea) c) body)
        (modStore (fun t => { t with update := some { x with written := x.written ||| 2 ^ c } }) (flashEnded 0 0x00 false s)))) := by
  unfold flashDone
  rw [if_neg (by simp [hrun, hfrozen])]
  simp only [hop]
  split
  · next x' k' hx' hk' =>
    obtain rfl : x = x' := Option.some.inj (hx.symm.trans hx')
    obtain rfl : k = k' := Option.some.inj (hk.symm.trans hk')
    rfl
  · next h => exact (h x k hx hk).elim

/-- Records archived: the ledger change of the last one is asked for. -/
theorem flashDone_archive {first n : Nat} (hop : s.store.flashOp = some (.archive first n)) : flashDone true s =
    flashNext (requestChange (.arc (first + n - 1)) (archiveWrite first n (flashEnded 0 0x00 false s))) := by
  unfold flashDone
  rw [if_neg (by simp [hrun, hfrozen])]
  simp only [hop]
  rfl

/-- Flash formatted. -/
theorem flashDone_format (hop : s.store.flashOp = some .format) : flashDone true s = flashFormatted (flashEnded 0 0x00 false s) := by
  unfold flashDone
  rw [if_neg (by simp [hrun, hfrozen])]
  simp only [hop]
  rfl

/-- A failed operation leaves 0xA5 and flash failed, and memory as it was. -/
theorem flashDone_failed {op : FlashOp} (hop : s.store.flashOp = some op) : (flashDone false s).store.flashLast = 0xA5 ∧
    (flashDone false s).store.timeouts = 0 ∧ (flashDone false s).store.flash = .failed ∧ (flashDone false s).mem = s.mem := by
  unfold flashDone
  rw [if_neg (by simp [hrun, hfrozen])]
  simp only [hop]
  cases op with
  | chunk c body f =>
    dsimp only
    refine ⟨(chunkDone_keepsFlash _ _ _).flashLast, (chunkDone_keepsFlash _ _ _).timeouts, (chunkDone_keepsFlash _ _ _).flash, (chunkDone_keepsFlash _ _ _).mem⟩
  | archive first n =>
    have hk := fun f u => endJobs_keepsFlash f u
    exact ⟨(hk _ _).flashLast, (hk _ _).timeouts, (hk _ _).flash, (hk _ _).mem⟩
  | eraseArea a => exact ⟨rfl, rfl, rfl, rfl⟩
  | format => exact ⟨rfl, rfl, rfl, rfl⟩

/-- An operation done leaves its status, and ends the timeouts in a row; flash is ready once formatted. -/
theorem flashDone_done {op : FlashOp} (hop : s.store.flashOp = some op) : (flashDone true s).store.flashLast = 0x00 ∧
    (flashDone true s).store.timeouts = 0 ∧ (flashDone true s).store.flash = if op = .format then .ready else s.store.flash := by
  cases op with
  | chunk c body f =>
    have hkeeps : ∃ u, u.store.flashLast = 0x00 ∧ u.store.timeouts = 0 ∧ u.store.flash = s.store.flash ∧ KeepsFlash u (flashDone true s) := by
      unfold flashDone
      rw [if_neg (by simp [hrun, hfrozen])]
      simp only [hop]
      refine ⟨_, ?_, ?_, ?_, (chunkDone_keepsFlash _ _ _).trans (flashNext_keepsFlash _)⟩
      · split <;> rfl
      · split <;> rfl
      · split <;> rfl
    obtain ⟨u, hlast, htimeouts, hflash, hk⟩ := hkeeps
    exact ⟨hk.flashLast.trans hlast, hk.timeouts.trans htimeouts, (hk.flash.trans hflash).trans (if_neg FlashOp.noConfusion).symm⟩
  | archive first n =>
    obtain ⟨m, a, h⟩ := archiveWrite_eq n first (flashEnded 0 0x00 false s)
    have hk := flashNext_keepsFlash (requestChange (.arc (first + n - 1)) (archiveWrite first n (flashEnded 0 0x00 false s)))
    rw [h] at hk
    rw [flashDone_archive hrun hfrozen hop, h]
    exact ⟨hk.flashLast, hk.timeouts, hk.flash.trans (if_neg FlashOp.noConfusion).symm⟩
  | eraseArea a =>
    have hdone : flashDone true s = flashEnded 0 0x00 false s := by
      unfold flashDone
      rw [if_neg (by simp [hrun, hfrozen])]
      simp only [hop]
      rfl
    rw [hdone]
    exact ⟨rfl, rfl, (if_neg FlashOp.noConfusion).symm⟩
  | format =>
    rw [flashDone_format hrun hfrozen hop]
    exact ⟨rfl, rfl, (if_pos rfl).symm⟩

/-- A timed-out operation leaves 0xA4, and memory as it was; the third in a row leaves flash failed. -/
theorem flashTimedOut_leaves {op : FlashOp} (hop : s.store.flashOp = some op) : (flashTimedOut s).store.flashLast = 0xA4 ∧
    (flashTimedOut s).store.timeouts = s.store.timeouts + 1 ∧
    (flashTimedOut s).store.flash = (if 3 ≤ s.store.timeouts + 1 then .failed else s.store.flash) ∧ (flashTimedOut s).mem = s.mem := by
  unfold flashTimedOut
  rw [if_neg (by simp [hrun, hfrozen])]
  simp only [hop]
  cases op with
  | chunk c body f =>
    have hk := fun u => (chunkDone_keepsFlash c 0xA4 u).trans (flashNext_keepsFlash _)
    exact ⟨(hk _).flashLast, (hk _).timeouts, (hk _).flash, (hk _).mem⟩
  | archive first n =>
    have hk := fun f u => endJobs_keepsFlash f u
    exact ⟨(hk _ _).flashLast, (hk _ _).timeouts, (hk _ _).flash, (hk _ _).mem⟩
  | eraseArea a => exact ⟨rfl, rfl, rfl, rfl⟩
  | format => exact ⟨rfl, rfl, rfl, rfl⟩

end

/-! ## The lookup's answer (R48) -/

/-- A step of a span does not hang on what STORE's lookups hold nor on the counters. -/
theorem BayStep.base {b : Nat} {x : StoreState} (hhead : x.head = s.store.head) (p) (h : BayStep b { s with store := x, perf := p } t) : BayStep b s t := by
  obtain ⟨hothers, hmem, hrest⟩ := h
  refine ⟨hothers, ?_, congrArg (fun u : State => { u with store := s.store, perf := s.perf }) hrest⟩
  unfold KeepsMemory MemoryCanonical at hmem ⊢
  dsimp only at hmem
  rw [hhead] at hmem
  exact hmem

theorem EndedAs.base {b nxt : Nat} {st : Status} {x : StoreState} (hhead : x.head = s.store.head) (p)
    (h : EndedAs b nxt st { s with store := x, perf := p } t) : EndedAs b nxt st s t :=
  ⟨BayStep.base hhead p h.1, h.2⟩

/-- What a lookup's answer and its entry say of the span (R48, R56 to R59). -/
def answerStatus (s : State) (b : Nat) (st : Status) (e : List Byte) : Status :=
  if st = 0x24 then 0x24 else if st ≠ 0x00 then 0x10 else entryStatus s b e

/-- An answer refuses the span in PROVEN that it reaches, or authenticates it. -/
theorem lookupApplied_proven {b : Nat} (h4 : (getSpan s b).state = 4) (st : Status) (e : List Byte) : lookupApplied b st e s =
    if answerStatus s b st e ≠ 0x00 then spanRefuse b (answerStatus s b st e) s else spanAuthenticated b e s := by
  unfold lookupApplied answerStatus
  rw [if_neg (fun h => h h4)]
  by_cases h24 : st = 0x24
  · rw [if_pos h24, if_pos h24]; exact (if_pos (by decide)).symm
  · rw [if_neg h24, if_neg h24]
    by_cases h0 : st ≠ 0x00
    · rw [if_pos h0, if_pos h0]; exact (if_pos (by decide)).symm
    · rw [if_neg h0, if_neg h0]

/-- A span that is authenticated takes its account and class from the entry, and its AUTH deadline goes (R48, R52). -/
theorem spanAuthenticated_leaves {b : Nat} (hb : b < 64) (e : List Byte) (s : State) : BayStep b s (spanAuthenticated b e s) ∧
    (getSpan (spanAuthenticated b e s) b).state = 5 ∧ (getSpan (spanAuthenticated b e s) b).account = sliceZ e 28 16 ∧
    (getSpan (spanAuthenticated b e s) b).cls = leAt e 16 1 ∧ (getSpan (spanAuthenticated b e s) b).authLeft = none := by
  unfold spanAuthenticated
  dsimp only
  generalize hu : modBay b _ s = u
  have huspan : { u with span := s.span } = s := by rw [← hu]; rfl
  have hubay : ∀ b', b' ≠ b → getSpan u b' = getSpan s b' := fun b' hne => by rw [← hu, getSpan_modBay hb, if_neg hne]
  have haccount : (getSpan u b).account = sliceZ e 28 16 := by rw [← hu, getSpan_modBay hb, if_pos rfl]
  have hcls : (getSpan u b).cls = leAt e 16 1 := by rw [← hu, getSpan_modBay hb, if_pos rfl]
  have hauth : (getSpan u b).authLeft = none := by rw [← hu, getSpan_modBay hb, if_pos rfl]
  have hbay : ∀ b', getSpan (spanMove b 5 none 0 u) b' = if b' = b then (getSpan u b).moved 5 none else getSpan u b' := by
    intro b'
    obtain ⟨q, c, o, m, p, h, -⟩ := spanMove_eq b 5 none 0 u
    rw [h, getSpan_modBay hb]
    rfl
  obtain ⟨q, c, o, m, p, h, -, -, hm⟩ := spanMove_eq b 5 none 0 u
  refine ⟨⟨fun b' hne => by rw [hbay, if_neg hne, hubay b' hne], ?_, ?_⟩, ?_, ?_, ?_, ?_⟩
  · rw [h]
    rw [← huspan]
    exact hm
  · rw [h, ← huspan]
    rfl
  · rw [hbay, if_pos rfl]; rfl
  · rw [hbay, if_pos rfl]; exact haccount
  · rw [hbay, if_pos rfl]; exact hcls
  · rw [hbay, if_pos rfl]; exact hauth

/-- STORE answers the lookup of a span in PROVEN (R283). -/
theorem lookupAnswer_found {b : Nat} {l : Lookup} (hact : canAct s 1 = true) (h4 : (getSpan s b).state = 4) (hrun : isRun s 4 = true)
    (hfrozen : s.freeze.frozen = false) (hl : s.store.lookups.find? (fun l => l.ident == padTo 16 (getSpan s b).ident) = some l) :
    ∃ ls c p, lookupAnswer b s = lookupApplied b (lookupEntry s l).1 (lookupEntry s l).2
      { s with store := { s.store with lookups := ls, cache := c }, perf := p } := by
  have hcount : ∀ (u : State) (n m : Nat), ∃ p, countEvent 4 0x045 n (countEvent 4 0x044 m u) = { u with perf := p } := by
    intro u n m
    obtain ⟨p, hp⟩ := countEvent_eq u 4 0x044 m
    obtain ⟨p', hp'⟩ := countEvent_eq { u with perf := p } 4 0x045 n
    exact ⟨p', by rw [hp, hp']⟩
  unfold lookupAnswer
  simp only [hl]
  rw [if_neg (by simp [hact, h4]), if_neg (by simp [hrun, hfrozen])]
  obtain ⟨p, hp⟩ := hcount (modStore (fun t => { t with lookups := t.lookups.erase l
                                                        cache := if (lookupEntry s l).1 = 0 ∨ (lookupEntry s l).1 = 0x24 then cacheUse l t.cache else t.cache }) s) _ _
  exact ⟨_, _, p, congrArg (lookupApplied b (lookupEntry s l).1 (lookupEntry s l).2) hp⟩

end Sys2Proof.Machine
end

section
/-! The statement about lookups, flash operations and images (02_span_service.md). -/

namespace Sys2Proof.Proofs

open Sys2Proof Sys2Proof.Machine

/-- Settles O38: the lookup's answer by its two outcomes, each flash operation by what its end keeps. -/
theorem lookupsFlashAndImages : Obligations.LookupsFlashAndImages := by
  intro ini bay s x runs
  have hb : (bay : Nat) < 64 := bay.isLt
  refine ⟨fun ident hruns => ?_, fun hact h4 => ⟨fun l hruns hl => ?_, fun hoff hnone => ?_⟩, fun hruns herasing => ?_,
    fun op hruns hop => ⟨fun ok => ?_, ?_⟩, fun hacc => ⟨?_, ?_, ?_⟩, fun readable hact hbusy hjobs => ?_⟩
  · obtain ⟨q, hq⟩ := countEvent_eq (modStore (fun t => { t with lookups := t.lookups ++ [newLookup s ident] }) s) 4 0x043 1
    exact ⟨q, congrArg Host.Outcome.next (a₁ := lookupStart ident s) ((if_pos hruns).trans hq)⟩
  · obtain ⟨ls, c, q, h⟩ := lookupAnswer_found hact h4 hruns.1 hruns.2 hl
    generalize hu : ({ s with store := { s.store with lookups := ls, cache := c }, perf := q } : State) = u at h
    have hst : answerStatus u bay (lookupEntry s l).1 (lookupEntry s l).2 = answerStatus s bay (lookupEntry s l).1 (lookupEntry s l).2 := by rw [← hu]; rfl
    have happlied := lookupApplied_proven (s := u) (by rw [← hu]; exact h4) (lookupEntry s l).1 (lookupEntry s l).2
    rw [hst] at happlied
    refine ⟨_, congrArg Host.Outcome.next h, fun hne => ?_, fun heq => ?_⟩
    · have hended := spanRefuse_eq hb (answerStatus s bay (lookupEntry s l).1 (lookupEntry s l).2) u
      rw [happlied, if_pos (show answerStatus s bay (lookupEntry s l).1 (lookupEntry s l).2 ≠ 0x00 from hne)]
      rw [← hu] at hended ⊢
      exact EndedAs.base (x := { s.store with lookups := ls, cache := c }) rfl q hended
    · obtain ⟨hstep, hstate, hleaves⟩ := spanAuthenticated_leaves hb (lookupEntry s l).2 u
      rw [happlied, if_neg (not_not.2 (show answerStatus s bay (lookupEntry s l).1 (lookupEntry s l).2 = 0x00 from heq))]
      rw [← hu] at hstep hstate hleaves ⊢
      exact ⟨BayStep.base (x := { s.store with lookups := ls, cache := c }) rfl q hstep, hstate, hleaves⟩
  · have hfind : s.store.lookups.find? (fun l => l.ident == padTo 16 (getSpan s bay).ident) = none :=
      congrArg (List.find? (fun l : Lookup => l.ident == padTo 16 (getSpan s bay).ident)) (show s.store.lookups = [] from hnone)
    have h : lookupAnswer bay s = spanRefuse bay 0x10 s := by
      unfold lookupAnswer
      simp only [hfind]
      rw [if_neg (by simp [hact, h4]), if_neg (by simp [hoff]), lookupApplied_proven h4]
      exact if_pos (by decide : (0x10 : Status) ≠ 0x00)
    exact ⟨_, congrArg Host.Outcome.next h, spanRefuse_eq hb 0x10 s⟩
  · exact congrArg Host.Outcome.next (a₁ := credEraseDone s) (if_pos ⟨hruns.1, hruns.2, herasing⟩)
  · refine ⟨flashDone ok s, rfl, ?_⟩
    cases ok with
    | false =>
      obtain ⟨hlast, htimeouts, hflash, hmem⟩ := flashDone_failed hruns.1 hruns.2 hop
      exact ⟨hlast, htimeouts, hflash, fun _ => hmem, fun _ _ _ _ _ h => absurd h Bool.false_ne_true, fun _ _ h => absurd h Bool.false_ne_true, fun h => absurd h Bool.false_ne_true⟩
    | true =>
      obtain ⟨hlast, htimeouts, hflash⟩ := flashDone_done hruns.1 hruns.2 hop
      refine ⟨hlast, htimeouts, hflash, fun h => absurd h.symm Bool.false_ne_true, fun c body f u k _ hchunk hu hk => ?_, fun first n _ harchive => ?_, fun _ hformat => ?_⟩
      · rw [flashDone_chunk hruns.1 hruns.2 (hop.trans (congrArg some hchunk)) hu hk]
        refine ⟨((chunkDone_keepsFlash _ _ _).trans (flashNext_keepsFlash _)).mem, fun hjobs => ?_⟩
        rw [chunkDone_idle (by exact hjobs), flashNext_idle (by exact hjobs)]
        rfl
      · rw [flashDone_archive hruns.1 hruns.2 (hop.trans (congrArg some harchive))]
        exact (flashNext_keepsFlash _).changes _ (List.mem_append_right _ List.mem_cons_self)
      · rw [flashDone_format hruns.1 hruns.2 (hop.trans (congrArg some hformat))]
        exact ⟨flashFormatted_mem _, flashFormatted_changes _⟩
  · obtain ⟨hlast, htimeouts, hflash, hmem⟩ := flashTimedOut_leaves hruns.1 hruns.2 hop
    exact ⟨_, rfl, hmem, hlast, htimeouts, hflash⟩
  · obtain ⟨hr, ha, hw⟩ := hacc
    obtain ⟨q, h⟩ := islandWrite_next s .imgCtrl (act := fun s => if mayWrite ini 4 .imgCtrl then imgOpenWrite false s else (0x02, s)) (st := 0x00)
      (t := { s with store := { x with imgOpen := false } }) hr ha fun p => ⟨p, if_pos hw⟩
    exact ⟨q, congrArg Host.Outcome.next h⟩
  · obtain ⟨hr, ha, hw⟩ := hacc
    by_cases hbusy : x.imgBusy = true
    · obtain ⟨q, h⟩ := islandWrite_next s .imgCtrl (act := fun s => if mayWrite ini 4 .imgCtrl then imgOpenWrite true s else (0x02, s)) (st := 0x02)
        (t := s) hr ha fun p => ⟨p, (if_pos hw).trans (if_pos hbusy)⟩
      exact ⟨q, (congrArg Host.Outcome.next h).trans (congrArg Host.Outcome.next (if_pos hbusy).symm)⟩
    · obtain ⟨q, h⟩ := islandWrite_next s .imgCtrl (act := fun s => if mayWrite ini 4 .imgCtrl then imgOpenWrite true s else (0x02, s)) (st := 0x00)
        (t := { s with store := { x with imgOpen := true, imgDone := false } }) hr ha fun p => ⟨p, (if_pos hw).trans (if_neg hbusy)⟩
      exact ⟨q, (congrArg Host.Outcome.next h).trans (congrArg Host.Outcome.next (if_neg hbusy).symm)⟩
  · obtain ⟨hr, ha, hw⟩ := hacc
    have hact : ∀ {st : Status} {t : State}, (∀ p, imgHashWrite { s with perf := p } = (st, { t with perf := p })) → ∃ q, exec (.imgHash ini) s =
        .next (setResp ini [] st { t with perf := q }) := by
      intro st t h
      obtain ⟨q, h⟩ := islandWrite_next s .imgCtrl (act := fun s => if mayWrite ini 4 .imgCtrl then imgHashWrite s else (0x02, s)) hr ha
        fun p => ⟨p, (if_pos hw).trans (h p)⟩
      exact ⟨q, congrArg Host.Outcome.next h⟩
    by_cases hbusy : x.imgOpen = true ∨ x.imgBusy = true
    · obtain ⟨q, h⟩ := hact (st := 0x02) (t := s) fun p => if_pos hbusy
      exact ⟨q, h.trans (congrArg Host.Outcome.next (if_pos hbusy).symm)⟩
    · by_cases hlength : imageLengthOk s (inactiveBank s) = true
      · obtain ⟨q, h⟩ := hact (st := 0x00) (t := { s with store := { x with imgBusy := true, imgDone := false } }) fun p => (if_neg hbusy).trans (if_pos hlength)
        exact ⟨q, h.trans (congrArg Host.Outcome.next ((if_neg hbusy).trans (if_pos hlength)).symm)⟩
      · obtain ⟨q, h⟩ := hact (st := 0x00) (t := { s with store := { x with imgDone := true, imgStatus := 0x02 } }) fun p =>
          (if_neg hbusy).trans (if_neg hlength)
        exact ⟨q, h.trans (congrArg Host.Outcome.next ((if_neg hbusy).trans (if_neg hlength)).symm)⟩
  · have hidle : (imgHashEnd readable s).span.jobs.find? (fun j => j.tag == 16) = none := List.find?_eq_none.2 fun j hj => by simpa using hjobs j hj
    have h : imageHashed (imgHashEnd readable s) = imgHashEnd readable s := by
      unfold imageHashed
      rw [hidle]
    exact congrArg Host.Outcome.next ((if_pos hact).trans ((if_pos hbusy).trans h))

end Sys2Proof.Proofs
end

section
/-! SUPPORT. The keystone at its messages: draws, signatures, counters and tokens (R61 to R63, R172, R224 to R227, R246, R257). -/

namespace Sys2Proof.Machine

variable {s t u : State}

/-- A message that is taken, by what its work leaves. -/
theorem sendMsg_next {src dst : Nat} {work fail : State → State} {f : Vector PerfState 14 → State} (hr : canReach s src dst = true)
    (ha : canAct s dst = true) (h : ∀ q, work (setResp src [] 0x00 { s with perf := q }) = f q) :
    ∃ q, (.next (sendMsg src dst work fail s) : Host.Outcome State Fault Refusal) = .next (f q) := by
  obtain ⟨q, hsent⟩ := sendMsg_taken s work fail hr ha
  exact ⟨q, congrArg Host.Outcome.next (hsent.trans (h q))⟩

/-! ## The keystone's jobs -/

theorem getAuth_setAuth {b : Nat} (hb : b < 64) (a : Option AuthJob) (s : State) : getAuth (setAuth b a s) b = a := vget_vset_self _ _ _ hb

theorem getAuth_setAuth_ne {b b' : Nat} (h : b' ≠ b) (a : Option AuthJob) (s : State) : getAuth (setAuth b a s) b' = getAuth s b' := vget_vset_ne _ _ _ h

/-- How a span ends does not hang on the keystone's jobs, the viaduct nor the counters. -/
theorem EndedAs.viaduct {b nxt : Nat} {st : Status}
    (hrest : { u with via := s.via, span := s.span, store := s.store, toll := s.toll, mem := s.mem, perf := s.perf } = s) (hbays : u.span.bays = s.span.bays)
    (htokens : u.span.tokens = s.span.tokens) (hmem : u.mem = s.mem) (hstore : u.store = s.store) (h : EndedAs b nxt st u t) :
    EndedAs b nxt st { s with via := t.via } t := by
  have hbay : ∀ b', getSpan u b' = getSpan s b' := fun b' => congrArg (fun v => vget Span.reset v b') hbays
  have hvia := h.1.via
  obtain ⟨⟨hothers, hkeeps, heq⟩, ⟨r, hr, htyp, hid, hbody⟩, hstate, hstatus, hspanId, hhandle, hauth, hrel, hinterim, hcaps, htok, hgone⟩ := h
  refine ⟨⟨fun b' hne => (hothers b' hne).trans (hbay b'), ?_, ?_⟩, ⟨r, hr, htyp, hid.trans (congrArg Span.id (hbay b)), ?_⟩, hstate, hstatus,
    hspanId.trans (congrArg Span.id (hbay b)), hhandle, hauth, hrel, hinterim, hcaps, htok.trans htokens, fun h' hh => hgone h' ?_⟩
  · unfold KeepsMemory MemoryCanonical at hkeeps ⊢
    rw [hmem, hstore] at hkeeps
    exact hkeeps
  · have hchain := congrArg (fun x : State => { x with span := s.span, store := s.store, toll := s.toll, mem := s.mem, perf := s.perf }) heq
    have hbase := congrArg (fun x : State => { x with via := u.via }) hrest
    exact hchain.trans (hbase.trans (congrArg (fun v => { s with via := v }) hvia.symm))
  · rw [hbody]
    exact congrArg (fun p : Span => [BitVec.ofNat 8 p.state, BitVec.ofNat 8 nxt, st]) (hbay b)
  · rw [hbay]
    exact hh

/-! ## Draws (R246) -/

theorem latchFields_eq (i : Nat) (r : Reg) (k mask : Nat) (s : State) : ∃ l, latchFields i r k mask s = { s with latched := l } := ⟨_, rfl⟩

/-- A request to the DRBG changes the RNG and what has latched of its register. -/
theorem rngRequest_eq (w n : Nat) (s : State) : ∃ r l, rngRequest w n s = { s with rng := r, latched := l } := by
  have hask : ∀ (resists : Bool) (u : State), (∃ r l, u = { s with rng := r, latched := l }) →
      ∃ r l, (if resists = true then rngAskReseed u else u) = { s with rng := r, latched := l } := by
    rintro resists u ⟨r, l, rfl⟩
    unfold rngAskReseed
    split
    · split
      · exact ⟨_, l, rfl⟩
      · exact ⟨r, l, rfl⟩
    · exact ⟨r, l, rfl⟩
  unfold rngRequest
  split
  · exact ⟨s.rng, s.latched, rfl⟩
  · dsimp only
    split
    · exact ⟨_, s.latched, rfl⟩
    · split
      · exact ⟨_, s.latched, rfl⟩
      · exact ⟨_, s.latched, rfl⟩
      · exact hask _ _ ⟨_, _, rfl⟩

/-- A running RNG that is ready or still to be seeded takes the request of a free wire. -/
theorem rngRequest_waits {w : Nat} (hw : w < 3) (n : Nat) (hrun : s.rng.running = true) (hst : s.rng.st = .ready ∨ s.rng.st = .unseeded)
    (hfree : vget none s.rng.waits w = none) : vget none (rngRequest w n s).rng.waits w = some n := by
  have hask : ∀ (resists : Bool) (u : State), vget none u.rng.waits w = some n → vget none (if resists = true then rngAskReseed u else u).rng.waits w = some n := by
    intro resists u h
    unfold rngAskReseed
    split
    · split
      · exact h
      · exact h
    · exact h
  have hset : vget none (vset s.rng.waits w (some n)) w = some n := vget_vset_self _ _ _ hw
  unfold rngRequest
  rw [if_neg (fun h => h hfree)]
  dsimp only
  rw [if_neg (by simp [hrun])]
  rcases hst with hst | hst
  · rw [hst]
    exact hask _ _ hset
  · rw [hst]
    exact hask _ _ hset

/-- A signer command changes the signer's job, the RNG and what has latched of its register. -/
theorem signerStart_eq (j : SignJob) (s : State) : ∃ r l, signerStart j s = { s with signer := { s.signer with job := some j }, rng := r, latched := l } := by
  unfold signerStart
  dsimp only
  split
  · obtain ⟨r, l, h⟩ := rngRequest_eq (signWire j.op) (signSize (modSigner (fun g => { g with job := some j }) s) j.op) (modSigner (fun g => { g with job := some j }) s)
    exact ⟨r, l, h⟩
  · exact ⟨s.rng, s.latched, rfl⟩

/-! ## Counters (R224 to R227) -/

/-- From s to t only the slots, the cipher's events and the requested ledger changes differ, and every slot keeps its counter. -/
def CountersKept (s t : State) : Prop :=
  (∃ c x, t = { s with cipher := c, store := { s.store with changes := x } }) ∧ ∀ i, (getSlot t i).ctr = (getSlot s i).ctr

theorem CountersKept.refl (s : State) : CountersKept s s := ⟨⟨s.cipher, s.store.changes, rfl⟩, fun _ => rfl⟩

theorem CountersKept.trans (h : CountersKept s t) (h' : CountersKept t u) : CountersKept s u := by
  obtain ⟨⟨c, x, rfl⟩, hctr⟩ := h
  obtain ⟨⟨c', x', rfl⟩, hctr'⟩ := h'
  exact ⟨⟨c', x', rfl⟩, fun i => (hctr' i).trans (hctr i)⟩

theorem getSlot_modSlot {i : Nat} (hi : i < 96) (f : Slot → Slot) (s : State) (j : Nat) :
    getSlot (modSlot i f s) j = if j = i then f (getSlot s i) else getSlot s j := by
  by_cases h : j = i
  · subst h
    rw [if_pos rfl]
    exact vget_vset_self _ _ _ hi
  · rw [if_neg h]
    exact vget_vset_ne _ _ _ h

/-- An update of a slot that keeps its counter. -/
theorem modSlot_kept {i : Nat} (hi : i < 96) (f : Slot → Slot) (hf : ∀ k, (f k).ctr = k.ctr) (s : State) : CountersKept s (modSlot i f s) := by
  refine ⟨⟨_, s.store.changes, rfl⟩, fun j => ?_⟩
  rw [getSlot_modSlot hi]
  split
  · next h => rw [hf, h]
  · rfl

theorem reserveCounter_kept {i : Nat} (hi : i < 96) (s : State) : CountersKept s (reserveCounter i s) := by
  unfold reserveCounter
  split
  · split
    · exact .refl s
    · split
      · exact (modSlot_kept hi (fun k => { k with resv := true }) (fun _ => rfl) s).trans ⟨⟨_, _, rfl⟩, fun _ => rfl⟩
      · exact ⟨⟨_, s.store.changes, rfl⟩, fun _ => rfl⟩
  · exact .refl s

theorem afterConsume_kept {i : Nat} (hi : i < 96) (s : State) : CountersKept s (afterConsume i s) := by
  have hspent : ∀ spent : Bool, CountersKept s
      (if spent = true then modCipher (fun c => { c with event := c.event ||| 8 }) (modSlot i (fun k => { k with st := .spent }) s) else s) := by
    intro spent
    split
    · exact (modSlot_kept hi (fun k => { k with st := .spent }) (fun _ => rfl) s).trans ⟨⟨_, s.store.changes, rfl⟩, fun _ => rfl⟩
    · exact .refl s
  have hreserve : ∀ (low : Prop) [Decidable low] (u : State), CountersKept s u → CountersKept s (if low then reserveCounter i u else u) := by
    intro low _ u h
    split
    · exact h.trans (reserveCounter_kept hi u)
    · exact h
  exact hreserve _ _ (hspent _)

/-! ## Tokens (R61 to R63) -/

/-- What stops a slot from giving a token, or 0x00 (R63). -/
def tokenStatus (k : Slot) : Status :=
  if k.st = .empty then 0x82 else if k.st = .spent then 0x08 else if bitOf k.policy 11 = true ∧ k.ready = false then 0x10 else 0x00

theorem buildToken_refused {b : Nat} (a : AuthJob) (h : tokenStatus (getSlot s b) ≠ 0x00) :
    buildToken b a s = setAuth b (some { a with st := some (tokenStatus (getSlot s b)) }) s := by
  unfold tokenStatus at h
  unfold buildToken tokenStatus
  dsimp only
  by_cases h1 : (getSlot s b).st = .empty
  · rw [if_pos h1, if_pos h1]
  · by_cases h2 : (getSlot s b).st = .spent
    · rw [if_neg h1, if_neg h1, if_pos h2, if_pos h2]
    · by_cases h3 : bitOf (getSlot s b).policy 11 = true ∧ (getSlot s b).ready = false
      · rw [if_neg h1, if_neg h1, if_neg h2, if_neg h2, if_pos h3, if_pos h3]
      · rw [if_neg h1, if_neg h2, if_neg h3] at h
        exact absurd rfl h

/-- A slot that may count consumes its counter value and gives the token. -/
theorem buildToken_built {b : Nat} (hb : b < 64) (a : AuthJob) (hst : (getSlot s b).st = .loaded ∨ (getSlot s b).st = .derived)
    (hcount : bitOf (getSlot s b).policy 11 = false ∨ ((getSlot s b).ready = true ∧ (getSlot s b).ctr < (getSlot s b).hwm)) :
    ∃ c x, buildToken b a s = setAuth b (some { a with
      st := some 0x00, rc := (getSlot s b).ctr
      plain := a.sent ++ leBytes 8 (getSlot s b).ctr ++ gcmTag ((getSlot s b).key.take (16 + 8 * bitsOf (getSlot s b).policy 0 2))
        (leBytes 2 (siteBay s b) ++ [0, 0] ++ leBytes 8 (getSlot s b).ctr) (a.sent ++ leBytes 8 (getSlot s b).ctr) [] })
      { s with cipher := c, store := { s.store with changes := x } } ∧ (vget Slot.reset c.slots b).ctr = (getSlot s b).ctr + 1 := by
  have h1 : (getSlot s b).st ≠ .empty := by rcases hst with h | h <;> rw [h] <;> decide
  have h2 : (getSlot s b).st ≠ .spent := by rcases hst with h | h <;> rw [h] <;> decide
  have h3 : ¬(bitOf (getSlot s b).policy 11 = true ∧ (getSlot s b).ready = false) := by
    rintro ⟨hbit, hready⟩
    rcases hcount with h | ⟨h, -⟩
    · rw [h] at hbit; cases hbit
    · rw [h] at hready; cases hready
  have h4 : ¬(bitOf (getSlot s b).policy 11 = true ∧ (getSlot s b).hwm ≤ (getSlot s b).ctr) := by
    rintro ⟨hbit, hhwm⟩
    rcases hcount with h | ⟨-, h⟩
    · rw [h] at hbit; cases hbit
    · omega
  obtain ⟨⟨c, x, h⟩, hctr⟩ := afterConsume_kept (show b < 96 by omega) (modSlot b (fun k => { k with ctr := k.ctr + 1 }) s)
  have hslot : (vget Slot.reset c.slots b).ctr = (getSlot s b).ctr + 1 := by
    have := hctr b
    rw [h, getSlot_modSlot (by omega), if_pos rfl] at this
    exact this
  refine ⟨c, x, ?_, hslot⟩
  unfold buildToken
  dsimp only
  rw [if_neg h1, if_neg h2, if_neg h3, if_neg h4, h]
  rfl

/-- The keystone's part of a TOKEN message: the token built, and what follows its head left beside it (R61, R342). -/
def tokenWork (b a : Nat) (x : AuthJob) (s : State) : State :=
  match getAuth (buildToken b x s) b with
  | some y => memWriteBytes (a + 24) (y.plain.drop 24) (buildToken b x s)
  | none => buildToken b x s

theorem tokenWork_refused {b : Nat} (hb : b < 64) (a : Nat) {x : AuthJob} (hx : x.plain = []) (h : tokenStatus (getSlot s b) ≠ 0x00) :
    tokenWork b a x s = setAuth b (some { x with st := some (tokenStatus (getSlot s b)) }) s := by
  unfold tokenWork
  rw [buildToken_refused x h, getAuth_setAuth hb]
  dsimp only
  rw [hx]
  rfl

/-- The token that slot `k` gives bay b with its next counter value, from its first bytes (R61, R63). -/
def tokenBytes (s : State) (b : Nat) (k : Slot) (head : List Byte) : List Byte :=
  head ++ leBytes 8 k.ctr ++ gcmTag (k.key.take (16 + 8 * bitsOf k.policy 0 2)) (leBytes 2 (siteBay s b) ++ [0, 0] ++ leBytes 8 k.ctr) (head ++ leBytes 8 k.ctr) []

theorem tokenWork_built {b : Nat} (hb : b < 64) (a : Nat) (x : AuthJob) (hst : (getSlot s b).st = .loaded ∨ (getSlot s b).st = .derived)
    (hcount : bitOf (getSlot s b).policy 11 = false ∨ ((getSlot s b).ready = true ∧ (getSlot s b).ctr < (getSlot s b).hwm)) :
    ∃ c y, tokenWork b a x s = memWriteBytes (a + 24) ((tokenBytes s b (getSlot s b) x.sent).drop 24)
      (setAuth b (some { x with st := some 0x00, rc := (getSlot s b).ctr, plain := tokenBytes s b (getSlot s b) x.sent })
        { s with cipher := c, store := { s.store with changes := y } }) ∧ (vget Slot.reset c.slots b).ctr = (getSlot s b).ctr + 1 := by
  obtain ⟨c, y, hbuild, hctr⟩ := buildToken_built hb x hst hcount
  refine ⟨c, y, ?_, hctr⟩
  unfold tokenWork
  rw [hbuild, getAuth_setAuth hb]
  rfl

/-! ## What the keystone sends the deck (R48, R51, R342) -/

section
variable {b : Bay} {tag : Byte} {a : AuthJob} {st : Status} (hauth : getAuth s b = some a) (htag : a.tag = tag.toNat) (hst : a.st = some st)
  (hr : canReach s 2 1 = true) (ha : canAct s 1 = true)
include hauth htag hst hr ha

/-- An AUTH_RESULT for the span that it was asked for. -/
theorem authResult_sent (hkind : a.kind < 4) (h3 : (getSpan s b).state = 3) (hid : a.spanId = (getSpan s b).id) (hsame : (getSpan s b).kind = a.kind) :
    ∃ q, exec (.msgAuthResult b tag st) s = .next (if st = 0x06 ∨ st = 0x07 ∨ st = 0x0B ∨ st = 0x0C then spanRefuse b st (setResp 2 [] 0x00 { s with perf := q })
      else if st ≠ 0 then noteFail b st (setResp 2 [] 0x00 { s with perf := q })
      else if a.kind = 1 then tagVerdict b (modBay b (fun p => { p with evAuth := if a.kind = 0 then some a.rxTime else p.evLf }) (setResp 2 [] 0x00 { s with perf := q }))
      else modBay b (fun p => { p with evAuth := if a.kind = 0 then some a.rxTime else p.evLf }) (setResp 2 [] 0x00 { s with perf := q })) := by
  obtain ⟨q, h⟩ := sendMsg_taken s (authResult b a st) id hr ha
  refine ⟨q, congrArg Host.Outcome.next (Eq.trans ?_ (h.trans (if_pos ⟨h3, hid, hsame⟩)))⟩
  rw [hauth]
  exact if_pos ⟨htag, hkind, hst⟩

/-- A TOKEN_READY for the span that the token is for. -/
theorem tokenReady_sent {counter : Nat} (hkind : a.kind = 4) (h5 : (getSpan s b).state = 5) (hid : (getSpan s b).id = a.spanId) (hcounter : st = 0x00 → a.rc = counter) :
    ∃ q, exec (.msgTokenReady b tag st counter) s = .next
      (if st = 0 then modBay b (fun p => { p with token := a.plain, counter := a.rc, built := true }) (setAuth b none (setResp 2 [] 0x00 { s with perf := q }))
      else spanRefuse b st (setAuth b none (setResp 2 [] 0x00 { s with perf := q }))) := by
  obtain ⟨q, h⟩ := sendMsg_taken s (fun s =>
    let s := setAuth b none s
    if (getSpan s b).state ≠ 5 ∨ (getSpan s b).id ≠ a.spanId then s
    else if st = 0 then modBay b (fun p => { p with token := a.plain, counter := a.rc, built := true }) s
    else spanRefuse b st s) id hr ha
  have hmine : ¬((getSpan s b).state ≠ 5 ∨ (getSpan s b).id ≠ a.spanId) := by
    rintro (h | h)
    · exact h h5
    · exact h hid
  have hruns : ¬(canAct s 2 = false ∨ a.kind ≠ 4 ∨ a.tag ≠ tag.toNat) := by
    rintro (h | h | h)
    · rw [(Bool.and_eq_true_iff.1 hr).1] at h; cases h
    · exact h hkind
    · exact h htag
  refine ⟨q, congrArg Host.Outcome.next (Eq.trans ?_ (h.trans (if_neg hmine)))⟩
  rw [hauth]
  dsimp only
  rw [if_neg hruns, if_neg (by rw [hst]; exact Option.some_ne_none st), hauth]
  exact if_pos ⟨hst, (Decidable.em (st = 0)).elim (fun h0 => .inr (hcounter h0)) .inl⟩

end

end Sys2Proof.Machine
end

section
/-! The statement about messages with the keystone (02_span_service.md). -/

namespace Sys2Proof.Proofs

open Sys2Proof Sys2Proof.Machine

/-- Settles O41: each message's work on a state that `sendMsg` has changed in the viaduct and the counters only. -/
theorem keystoneMessages : Obligations.KeystoneMessages := by
  intro bay tag s p n sid ok
  have hb : (bay : Nat) < 64 := bay.isLt
  have hn : n < 8 := by omega
  have hanswer : ∀ {src : Nat} (_ : src < 14) (u : State), answerOf (setResp src [] 0x00 u) src = ⟨[], 0x00⟩ := fun hsrc u => answerOf_setResp hsrc [] 0x00 u
  refine ⟨fun hr ha => ⟨fun ident => ?_, fun ident => ?_, fun ident => ?_, fun addr hact h5 hdur hbuilt htok hold => ?_, fun howed hidle => ?_⟩,
    fun hr ha addr h5 hdur hbuilt htok hold => ?_, fun hr ha => ⟨fun st q => ?_, fun a st hauth htag hst => ?_⟩,
    fun hr ha j hj hbay => ⟨fun rc hready hphase => ?_, fun a mac tw hauth hkind hphase hmac => ?_⟩, fun rc hready => ?_,
    fun hr ha j hj hbay => ⟨fun a uid r htag hdone hkind hwrite hfound hdata hauth => ?_, fun tw hphase => ?_⟩⟩
  · obtain ⟨q, h⟩ := sendMsg_taken s (fun s => rngRequest 0 16 (setAuth bay (some (AuthJob.fresh tag.toNat 0 ident (authSpanId s bay))) s)) (stepFails bay 0x03) hr ha
    obtain ⟨r, l, hrng⟩ := rngRequest_eq 0 16 (setAuth bay (some (AuthJob.fresh tag.toNat 0 ident sid)) (setResp 1 [] 0x00 { s with perf := q }))
    have hexec : exec (.msgAuthStart bay tag 0 ident) s = .next (rngRequest 0 16 (setAuth bay (some (AuthJob.fresh tag.toNat 0 ident sid))
      (setResp 1 [] 0x00 { s with perf := q }))) := congrArg Host.Outcome.next h
    refine ⟨_, hexec, ⟨?_, fun b hne => ?_⟩, ?_, ?_, fun hrun hst hfree => rngRequest_waits (by decide) 16 hrun hst hfree⟩
    · rw [hrng]; exact hanswer (by decide) _
    · rw [hrng]; exact getAuth_setAuth_ne hne _ _
    · rw [hrng]; exact getAuth_setAuth hb _ _
    · rw [hrng]; rfl
  · exact sendMsg_next hr ha fun q => rfl
  · exact sendMsg_next hr ha fun q => rfl
  · intro k at_ head a
    have hcond : canAct s 1 = true ∧ p.state = 5 ∧ p.authDurable = true ∧ p.built = false ∧ getToken s bay = none ∧ oldTokenHolds s bay s.time.us = false :=
      ⟨hact, h5, hdur, hbuilt, htok, hold⟩
    obtain ⟨q, h⟩ := sendMsg_taken (memWriteBytes at_ head s) (tokenWork bay at_ a) (fun s => spanRefuse bay 0x11 s) hr ha
    have hexec : exec (.msgToken bay tag addr) s = .next (tokenWork bay at_ a (setResp 1 [] 0x00 { memWriteBytes at_ head s with perf := q })) :=
      congrArg Host.Outcome.next ((if_pos hcond).trans h)
    refine ⟨fun st hst hne => ?_, fun hk hcount => ?_⟩
    · have hstatus : st = tokenStatus (getSlot s bay) := hst
      have hwork := tokenWork_refused (s := setResp 1 [] 0x00 { memWriteBytes at_ head s with perf := q }) hb at_ (x := a) rfl
        (show tokenStatus (getSlot s bay) ≠ 0x00 from hstatus ▸ hne)
      rw [hstatus]
      exact ⟨q, hexec.trans (congrArg Host.Outcome.next hwork)⟩
    · intro h' w
      obtain ⟨c, x, hwork, hctr⟩ := tokenWork_built (s := setResp 1 [] 0x00 { memWriteBytes at_ head s with perf := q }) hb at_ a hk hcount
      exact ⟨_, hexec.trans (congrArg Host.Outcome.next hwork), ⟨hanswer (by decide) _, fun b hne => getAuth_setAuth_ne hne _ _⟩,
        getAuth_setAuth hb _ _, hctr, rfl⟩
  · obtain ⟨q, h⟩ := sendMsg_taken s (signerStart ⟨2, 0, 0, none, 0, .sig tag.toNat s.store.head⟩) id hr ha
    obtain ⟨r, l, hsign⟩ := signerStart_eq ⟨2, 0, 0, none, 0, .sig tag.toNat s.store.head⟩ (setResp 1 [] 0x00 { s with perf := q })
    refine ⟨_, congrArg Host.Outcome.next ((if_pos ⟨howed, rfl, hidle⟩).trans (h.trans hsign)), hanswer (by decide) _, rfl, rfl⟩
  · have hcond : canAct s 1 = true ∧ p.state = 5 ∧ p.authDurable = true ∧ p.built = false ∧ getToken s bay = none ∧ oldTokenHolds s bay s.time.us = false :=
      ⟨(Bool.and_eq_true_iff.1 hr).1, h5, hdur, hbuilt, htok, hold⟩
    obtain ⟨v, q, h, -⟩ := sendMsg_off (memWriteBytes (deckSram + addr.toNat % 0x100000) ((tokenHead s bay 0).take 24) s) (by decide)
      (tokenWork bay (deckSram + addr.toNat % 0x100000) { AuthJob.fresh tag.toNat 4 0 p.id with sent := (tokenHead s bay 0).take 24 })
      (fun s => spanRefuse bay 0x11 s) hr ha
    obtain ⟨-, -, hstate, hstatus, -⟩ := spanRefuse_eq hb 0x11
      { memWriteBytes (deckSram + addr.toNat % 0x100000) ((tokenHead s bay 0).take 24) s with via := v, perf := q }
    exact ⟨_, congrArg Host.Outcome.next ((if_pos hcond).trans h), hstate, hstatus⟩
  · exact sendMsg_next hr ha fun q => rfl
  · intro via
    refine ⟨fun hkind h3 hid hsame => ⟨fun hbad => ?_, fun hother => ?_, fun h0 hfob => ?_⟩, fun hkind h5 hid => ⟨fun h0 => ?_, fun hne c => ?_⟩⟩
    · obtain ⟨q, h⟩ := authResult_sent hauth htag hst hr ha hkind h3 hid hsame
      rw [if_pos (by simpa using hbad)] at h
      exact ⟨_, h, EndedAs.viaduct (u := setResp 2 [] 0x00 { s with perf := q }) rfl rfl rfl rfl rfl (spanRefuse_eq hb st (setResp 2 [] 0x00 { s with perf := q }))⟩
    · obtain ⟨q, h⟩ := authResult_sent hauth htag hst hr ha hkind h3 hid hsame
      simp only [List.mem_cons, List.not_mem_nil, or_false, not_or] at hother
      rw [if_neg (by tauto), if_pos hother.1] at h
      exact ⟨q, h⟩
    · obtain ⟨q, h⟩ := authResult_sent hauth htag hst hr ha hkind h3 hid hsame
      rw [if_neg (by rw [h0]; decide), if_neg (fun h => h h0), if_neg (by rw [hfob]; decide)] at h
      simp only [if_pos hfob] at h
      exact ⟨q, h⟩
    · obtain ⟨q, h⟩ := tokenReady_sent hauth htag hst hr ha hkind h5 hid (fun _ => rfl)
      rw [if_pos h0] at h
      exact ⟨q, h⟩
    · obtain ⟨q, h⟩ := tokenReady_sent (counter := c) hauth htag hst hr ha hkind h5 hid (fun h => absurd h hne)
      rw [if_neg hne] at h
      obtain ⟨r, js, hspan⟩ := spanRefuse_span (setAuth bay none (setResp 2 [] 0x00 { s with perf := q })) hb st
      refine ⟨_, h, EndedAs.viaduct (u := setAuth bay none (setResp 2 [] 0x00 { s with perf := q })) rfl rfl rfl rfl rfl (spanRefuse_eq hb st (setAuth bay none (setResp 2 [] 0x00 { s with perf := q }))), ?_⟩
      unfold getAuth
      rw [hspan]
      exact vget_vset_self _ _ _ hb
  · have hexec : exec (.msgKtChallenge bay tag rc) s = .next (sendMsg 2 (6 + n) _ id s) := congrArg Host.Outcome.next (if_pos hready)
    rw [hexec]
    refine sendMsg_next hr ha fun q => ?_
    have hjob : (getPier (setAuth bay (some { AuthJob.fresh tag.toNat 1 0 0 with rc := rc.toNat }) (setResp 2 [] 0x00 { s with perf := q })) n).job = some j := hj
    dsimp only
    rw [hjob]
    exact if_pos ⟨hbay, hphase⟩
  · have hexec : exec (.msgKtMac bay tag mac) s = .next (sendMsg 2 (6 + n) _ id s) := congrArg Host.Outcome.next (by
      rw [hauth]
      exact if_pos ⟨hkind, hmac⟩)
    rw [hexec]
    refine sendMsg_next hr ha fun q => ?_
    have hjob : (getPier (setResp 2 [] 0x00 { s with perf := q }) n).job = some j := hj
    dsimp only
    rw [hjob]
    dsimp only
    rw [hphase]
    exact if_pos hbay
  · exact congrArg Host.Outcome.next (if_neg hready)
  · have hexec : exec (.msgKtReply bay tag r uid) s = .next (sendMsg (6 + n) 2 _ id s) := congrArg Host.Outcome.next (by
      rw [endedJob_some hj hbay htag hdone]
      exact if_pos ⟨hkind, hwrite, hfound, hdata⟩)
    rw [hexec]
    refine sendMsg_next hr ha fun q => ?_
    have hauth' : getAuth (setResp (6 + n) [] 0x00 { s with perf := q }) bay = some a := hauth
    dsimp only
    rw [hauth']
    rfl
  · have hexec : exec (.msgKtOpened bay tag tw j.uid) s = .next (sendMsg (6 + n) 2 _ id s) := congrArg Host.Outcome.next (by
      rw [show (getPier s (bay / 8)).job = some j from hj]
      exact if_pos ⟨hbay, rfl, hphase⟩)
    rw [hexec]
    exact sendMsg_next hr ha fun q => rfl

end Sys2Proof.Proofs
end

section
/-! SUPPORT. The radio at the keystone's and the deck's messages, and the verdict (R161 to R164, R171 to R173, R187 to R205). -/

namespace Sys2Proof.Machine

variable {s t u : State}

/-! ## Commands of the radio (R161 to R164) -/

/-- From s to t only the radio and what has latched of its registers differ. -/
def RadioOnly (s t : State) : Prop := ∃ r l, t = { s with rf := r, latched := l }

theorem RadioOnly.refl (s : State) : RadioOnly s s := ⟨s.rf, s.latched, rfl⟩

theorem RadioOnly.trans (h : RadioOnly s t) (h' : RadioOnly t u) : RadioOnly s u := by
  obtain ⟨r, l, rfl⟩ := h
  obtain ⟨r', l', rfl⟩ := h'
  exact ⟨r', l', rfl⟩

theorem modRf_radioOnly (f : RfState → RfState) (s : State) : RadioOnly s (modRf f s) := ⟨_, s.latched, rfl⟩

theorem latchRegs_radioOnly (i : Nat) (rs : List Reg) : ∀ s : State, RadioOnly s (rs.foldl (fun s r => latchReg s i r 0) s) := by
  induction rs with
  | nil => exact .refl
  | cons r rs ih => exact fun s => RadioOnly.trans (t := latchReg s i r 0) ⟨s.rf, _, rfl⟩ (ih _)

theorem raiseReq_radioOnly (s : State) : RadioOnly s (raiseReq s) := ⟨_, s.latched, rfl⟩

theorem takeAir_radioOnly (c : RfCmd) (s : State) : RadioOnly s (takeAir c s) := by
  unfold takeAir
  dsimp only
  have hlatched := latchRegs_radioOnly 3 [.autoReturn, .rxWin, .txPtr, .rxPtr] s
  generalize [Reg.autoReturn, .rxWin, .txPtr, .rxPtr].foldl (fun s r => latchReg s 3 r 0) s = u at hlatched ⊢
  exact (hlatched.trans (modRf_radioOnly _ u)).trans (raiseReq_radioOnly _)

theorem actCmd_radioOnly (c : RfCmd) (s : State) : RadioOnly s (actCmd c s) := by
  unfold actCmd
  split
  · exact modRf_radioOnly _ s
  · split
    · split
      · exact (modRf_radioOnly _ s).trans (modRf_radioOnly _ _)
      · exact takeAir_radioOnly c s
    · exact modRf_radioOnly _ s

/-- A choice between an operation of the radio and none. -/
theorem RadioOnly.choice {p : Prop} [Decidable p] {f g : State → State} (hf : ∀ u, RadioOnly u (f u)) (hg : ∀ u, RadioOnly u (g u)) (s : State) :
    RadioOnly s (if p then f s else g s) := by
  split
  · exact hf s
  · exact hg s

theorem holdCmd_radioOnly (c : RfCmd) (s : State) : RadioOnly s (holdCmd c s) := by
  unfold holdCmd
  dsimp only
  have hmid := (RadioOnly.choice (p := s.rf.held ≠ none) (f := rfEnded 0x60) (g := id) (modRf_radioOnly _) .refl s).trans
    (RadioOnly.choice (p := c.op = 3 ∨ c.op = 4 ∨ c.op = 6) (f := raiseReq) (g := id) raiseReq_radioOnly .refl _)
  split
  · split
    · exact hmid.trans ((modRf_radioOnly _ _).trans (modRf_radioOnly _ _))
    · exact hmid.trans (modRf_radioOnly _ _)
  · exact hmid.trans (modRf_radioOnly _ _)

/-- A command changes the radio only. -/
theorem rfCommand_radioOnly (c : RfCmd) (s : State) : RadioOnly s (rfCommand c s).2 := by
  unfold rfCommand
  dsimp only
  split
  · exact .refl s
  · split
    · exact holdCmd_radioOnly c s
    · exact ((RadioOnly.choice (p := s.rf.mode = .rx ∧ s.rf.phase = .active) (f := rfEnded 0x63) (g := id) (modRf_radioOnly _) .refl s).trans
        (RadioOnly.choice (p := c.op = 3 ∨ c.op = 4 ∨ c.op = 6) (f := raiseReq) (g := dropReq) raiseReq_radioOnly (modRf_radioOnly _) _)).trans
        (actCmd_radioOnly c _)

/-- A command and, where it is taken, the next. -/
theorem rfCommand_then (c d : RfCmd) (s : State) :
    RadioOnly s (if (rfCommand c s).1 = 0 then (rfCommand d (rfCommand c s).2).2 else (rfCommand c s).2) := by
  split
  · exact (rfCommand_radioOnly c s).trans (rfCommand_radioOnly d _)
  · exact rfCommand_radioOnly c s

/-! ## The verdict (R187, R205) -/

/-- The first row that applies, written as a choice. -/
theorem firstRow (b : Bool) (v : Nat × Status) (rest : List (Bool × Nat × Status)) :
    (((b, v) :: rest).find? (fun r => r.1)).elim ((0, 0x00) : Nat × Status) (fun r => r.2) =
      if b = true then v else (rest.find? (fun r => r.1)).elim (0, 0x00) (fun r => r.2) := by
  cases b <;> rfl

/-- The verdict is that of the first row of R205 that applies. -/
theorem PxIn.verdict_firstRow (i : PxIn) :
    let rAuth := bitOf i.req 0
    let rLf := bitOf i.req 1
    let rPsr := bitOf i.req 2
    i.verdict = (([(i.fob && !i.bound, 3, 0x7C), (i.maskFails, 3, 0x7A), (i.row3, 3, 0x78), (i.row4, 3, 0x79), (i.row5, 3, 0x7B),
      (rAuth && i.stale i.evAuth || rLf && i.stale i.evLf || rPsr && i.stale i.evPsr, 1, 0x70), ((rLf || rPsr) && !i.geo, 1, 0x7E),
      (rLf && i.fob && i.lfWeak, 2, 0x71), (rPsr && i.far, 2, 0x75), (rLf && i.fob && i.saturated, 1, 0x73), (rLf && i.fob && i.lfMargin, 1, 0x72),
      (rLf && i.fob && i.unmeasured && !rPsr, 1, 0x74), (rPsr && !i.answered, 1, 0x7D), (rPsr && i.near, 1, 0x76), (rPsr && i.few, 1, 0x77)] :
        List (Bool × Nat × Status)).find? (fun r => r.1)).elim (0, 0x00) (fun r => r.2) := by
  intro rAuth rLf rPsr
  rw [firstRow, firstRow, firstRow, firstRow, firstRow, firstRow, firstRow, firstRow, firstRow, firstRow, firstRow, firstRow, firstRow, firstRow, firstRow]
  rfl

section
variable {b : Nat} (hb : b < 64)
include hb

/-- A verdict is recorded with its reason; another than INSIDE refuses the span, and INSIDE proves it where its evidence is what the
bay requires. -/
theorem applyVerdict_leaves (i : PxIn) (s : State) :
    (getSpan (applyVerdict b i s) b).verdict = i.verdict.1 ∧ (getSpan (applyVerdict b i s) b).reason = i.verdict.2 ∧
    (i.verdict.1 ≠ 0 → (getSpan (applyVerdict b i s) b).state = 10 ∧ (getSpan (applyVerdict b i s) b).status = verdictStatus i.verdict.1) ∧
    (i.verdict.1 = 0 → (getSpan (applyVerdict b i s) b).state = if (i.evidence &&& (getSpan s b).reqBits) = (getSpan s b).reqBits then 4 else 10) := by
  unfold applyVerdict
  dsimp only
  generalize hu : modBay b (fun p => { p with verdict := i.result.verdict, reason := i.result.reason, evidence := i.result.evidence, base := _ }) _ = u
  have hbay : getSpan u b = { getSpan s b with verdict := i.verdict.1, reason := i.verdict.2, evidence := i.evidence, base := s.time.us } := by
    rw [← hu, getSpan_modBay hb, if_pos rfl]
    rfl
  have hreq : (getSpan u b).reqBits = (getSpan s b).reqBits := by rw [hbay]; rfl
  have hrefused : ∀ st, getSpan (spanRefuse b st u) b = (getSpan u b).over 10 st := fun st => spanRefuse_bay u hb st
  have hmoved : getSpan (spanMove b 4 none 0 u) b = (getSpan u b).moved 4 none := by
    rw [getSpan_eq, spanMove_span]
    exact SpanState.bay_withBay _ _ hb
  by_cases hv : i.verdict.1 = 0
  · rw [if_neg (show ¬i.result.verdict ≠ 0 from not_not.2 hv), hreq]
    by_cases hev : (i.evidence &&& (getSpan s b).reqBits) = (getSpan s b).reqBits
    · rw [if_pos (show (i.result.evidence &&& (getSpan s b).reqBits) = (getSpan s b).reqBits from hev), hmoved, hbay, if_pos hev]
      exact ⟨rfl, rfl, fun h => absurd hv h, fun _ => rfl⟩
    · rw [if_neg (show ¬(i.result.evidence &&& (getSpan s b).reqBits) = (getSpan s b).reqBits from hev), hrefused, hbay, if_neg hev]
      exact ⟨rfl, rfl, fun h => absurd hv h, fun _ => rfl⟩
  · rw [if_pos (show i.result.verdict ≠ 0 from hv), hrefused, hbay]
    exact ⟨rfl, rfl, fun _ => ⟨rfl, rfl⟩, fun h => absurd h hv⟩

end

/-! ## Messages taken and chords answered (R137, R342) -/

/-- A message that is taken, by its work's state. -/
theorem sendMsg_takes {src dst : Nat} {work fail : State → State} {o : Host.Outcome State Fault Refusal} (ho : o = .next (sendMsg src dst work fail s))
    (hr : canReach s src dst = true) (ha : canAct s dst = true) : ∃ q, o = .next (work (setResp src [] 0x00 { s with perf := q })) := by
  obtain ⟨q, h⟩ := sendMsg_taken s work fail hr ha
  exact ⟨q, ho.trans (congrArg Host.Outcome.next h)⟩

/-- How a span ends does not hang on the radio and its exchange either. -/
theorem EndedAs.radio {b nxt : Nat} {st : Status}
    (hrest : { u with via := s.via, rf := s.rf, psr := s.psr, span := s.span, store := s.store, toll := s.toll, mem := s.mem, perf := s.perf } = s)
    (hbays : u.span.bays = s.span.bays) (htokens : u.span.tokens = s.span.tokens) (hmem : u.mem = s.mem) (hstore : u.store = s.store)
    (h : EndedAs b nxt st u t) : t.rf = u.rf ∧ t.psr = u.psr ∧ EndedAs b nxt st { s with via := t.via, rf := t.rf, psr := t.psr } t := by
  have heq := h.1.2.2
  have hrf := congrArg State.rf heq
  have hpsr := congrArg State.psr heq
  have hbase := congrArg (fun x : State => { x with rf := u.rf, psr := u.psr }) hrest
  refine ⟨hrf, hpsr, ?_⟩
  have hended := EndedAs.viaduct (s := { s with rf := u.rf, psr := u.psr }) hbase hbays htokens hmem hstore h
  rw [show t.rf = u.rf from hrf, show t.psr = u.psr from hpsr]
  exact hended

/-- A chord that brought no report refuses the span with 0x23, or leaves its status noted (R51, R137). -/
theorem chordAnswer_none {b : Nat} (hwaits : awaitsChord s b = true) (st : Status) : chordAnswer b st [] s =
    if st = 0x00 ∨ st = 0x5A ∨ st = 0x5B ∨ st = 0x61 then spanRefuse b 0x23 s else noteFail b st s := by
  unfold chordAnswer
  rw [hwaits]
  exact if_neg (by decide)

/-- The reports RF kept for the chord of a tag are placed and handed over (R137). -/
theorem chordReports_sent {b tag : Byte} {st : Status} {offset : Word} {t0 : Nat} {reps : List (List Byte)} (hlisten : s.rf.listen = some (tag.toNat, t0, reps))
    (hlt : b.toNat < 64) (hr : canReach s 3 1 = true) (ha : canAct s 1 = true) :
    ∃ q x, exec (.msgChordReports b tag st reps.length offset) s = .next (chordAnswer b.toNat st x (setResp 3 [] 0x00
      { placeReports (offset.toNat % 0x8000) reps (modRf (fun r => { r with listen := none }) s) with perf := q })) ∧ x.length = reps.length := by
  have hgo : ¬(canAct s 3 = false ∨ (some reps).any (fun r => r.length != reps.length) = true) := by
    rintro (h | h)
    · rw [(Bool.and_eq_true_iff.1 hr).1] at h; cases h
    · simp at h
  have hexec : exec (.msgChordReports b tag st reps.length offset) s = .next (sendMsg 3 1 _ id
      (placeReports (offset.toNat % 0x8000) reps (modRf (fun r => { r with listen := none }) s))) := congrArg Host.Outcome.next (by
    rw [hlisten]
    simp only [if_true]
    exact if_neg hgo)
  obtain ⟨q, h⟩ := sendMsg_takes hexec hr ha
  exact ⟨q, _, h.trans (congrArg Host.Outcome.next (if_pos hlt)), by simp⟩

/-- The exchange at bay b has ended, and the deck is told. -/
theorem psrDone_sent {b : Bay} {tag : Byte} {st : Status} {offset : Word} (howed : s.psr.owed = true) (hbusy : s.psr.busy = false) (hbay : s.psr.bay = b.val)
    (hst : st = match getAuth s b with | some a => (if a.res ≠ 0x00 then a.res else s.psr.last) | none => s.psr.last)
    (hr : canReach s 3 1 = true) (ha : canAct s 1 = true) : ∃ q, exec (.msgPsrDone b tag st offset) s =
      .next (psrDone b st (getAuth s b) (setResp 3 [] 0x00 { modPsr (fun p => { p with owed := false }) s with perf := q })) := by
  have hgo : canAct s 3 = true ∧ s.psr.owed = true ∧ s.psr.busy = false ∧ s.psr.bay = b.val ∧
      (match getAuth s b with | some a => (if a.res ≠ 0x00 then a.res else s.psr.last) | none => s.psr.last) = st :=
    ⟨(Bool.and_eq_true_iff.1 hr).1, howed, hbusy, hbay, hst.symm⟩
  have hexec : exec (.msgPsrDone b tag st offset) s = .next (sendMsg 3 1 _ id (modPsr (fun p => { p with owed := false }) s)) :=
    congrArg Host.Outcome.next (if_pos hgo)
  obtain ⟨q, h⟩ := sendMsg_takes hexec hr ha
  exact ⟨q, h⟩

/-- The span an exchange was for, its result failed or to be judged (R187, R205). -/
theorem psrDone_refused {b : Nat} {st : Status} (h3 : (getSpan s b).state = 3) (hkind : (getSpan s b).kind = 0) (hbad : st = 0x07 ∨ st = 0x0B ∨ st = 0x0C)
    (a : Option AuthJob) : psrDone b st a s = spanRefuse b st s := (if_pos ⟨h3, hkind⟩).trans (if_pos hbad)

theorem psrDone_judged {b : Nat} {st : Status} {a : AuthJob} (h3 : (getSpan s b).state = 3) (hkind : (getSpan s b).kind = 0)
    (hgood : ¬(st = 0x07 ∨ st = 0x0B ∨ st = 0x0C)) (hreq : (getSpan s b).reqBits ≠ 0) (hauth : getAuth s b = some a) (x : Option AuthJob) :
    psrDone b st x s = applyVerdict b (pxInput s b (fobBound (getSpan s b) a) (some s.psr) a.plain (sliceZ a.ms 328 8)) s := by
  have hverdict : fobVerdict b s = applyVerdict b (pxInput s b (fobBound (getSpan s b) a) (some s.psr) a.plain (sliceZ a.ms 328 8)) s := by
    unfold fobVerdict
    rw [hauth]
    exact if_neg (by rintro (h | h); exacts [h h3, hreq h])
  exact ((if_pos ⟨h3, hkind⟩).trans (if_neg hgood)).trans hverdict

end Sys2Proof.Machine
end

section
/-! The statement about messages with RF and the verdict (02_span_service.md). -/

namespace Sys2Proof.Proofs

open Sys2Proof Sys2Proof.Machine

/-- Settles O42: each message's work on a state that `sendMsg` has changed in the viaduct and the counters only, and the verdict by
its rows. -/
theorem radioMessagesAndVerdicts : Obligations.RadioMessagesAndVerdicts := by
  refine ⟨fun bay tag offset s => ?_, PxIn.verdict_firstRow⟩
  intro p at_
  have hb : (bay : Nat) < 64 := bay.isLt
  refine ⟨fun hr ha a hauth htag => ⟨fun e hkind hsent he => ?_, fun hks => ?_⟩, fun hr ha a hauth htag hkind => ⟨fun st hnone => ?_, fun r hres => ?_⟩,
    fun hr ha => ⟨fun t0 => ?_, fun primary use hbusy => ?_⟩, fun hr ha => ?_⟩
  · intro taken
    have hgo : ¬(a.kind ≠ 0 ∨ a.tag ≠ tag.toNat ∨ a.sent ≠ [] ∨ canAct s 2 = false) := by
      rintro (h | h | h | h)
      · exact h hkind
      · exact h htag
      · exact h hsent
      · rw [(Bool.and_eq_true_iff.1 hr).1] at h; cases h
    refine ⟨fun hfail => congrArg Host.Outcome.next ?_, fun hok => ?_⟩
    · rw [hauth, he]
      exact (if_neg hgo).trans (if_pos hfail)
    · have hexec : exec (.msgChallenge bay tag offset) s = .next (sendMsg 2 3 _ _
          (setAuth bay (some { a with ch := padTo 16 e.data, sent := challengePayload s bay a (padTo 16 e.data) }) taken)) := congrArg Host.Outcome.next (by
        rw [hauth, he]
        exact (if_neg hgo).trans (if_neg (not_not.2 hok)))
      obtain ⟨q, h⟩ := sendMsg_takes hexec hr ha
      dsimp only at h
      obtain ⟨t, ht, r, l, rfl⟩ : ∃ t, exec (.msgChallenge bay tag offset) s = .next t ∧ RadioOnly (putReg (memWriteBytes at_ (31 :: challengePayload s bay a (padTo 16 e.data))
          (setResp 2 [] 0x00 { setAuth bay (some { a with ch := padTo 16 e.data, sent := challengePayload s bay a (padTo 16 e.data) }) taken with perf := q }))
          3 .txPtr 0 (offset.toNat % 0x8000 / 4 * 4)) t := ⟨_, h, rfCommand_then _ _ _⟩
      refine ⟨_, ht, answerOf_setResp (by decide) _ _ _, ?_⟩
      intro pay
      rw [show pay = challengePayload s bay a (padTo 16 e.data) from rfl]
      generalize challengePayload s bay a (padTo 16 e.data) = x
      exact ⟨getAuth_setAuth hb _ _, rfl, rfl, vget_vset_self _ _ _ (by decide)⟩
  · have hexec : exec (.msgMaskReady bay tag offset) s = .next (sendMsg 2 3 _ id s) := congrArg Host.Outcome.next (by
      rw [hauth]
      exact if_pos ⟨htag, hks⟩)
    rw [hexec]
    exact sendMsg_next hr ha fun q => rfl
  · intro d fob done
    have hdone : done (if st ≠ 0 then { a with st := some st } else responseTaken s a d) := by
      refine sendMsg_next hr ha fun q => ?_
      have hauth' : getAuth (setResp 3 [] 0x00 { s with perf := q }) bay = some a := hauth
      dsimp only
      rw [hauth']
      exact if_neg (by rintro (h | h | h); exacts [h hkind, h htag, h hnone])
    refine ⟨fun hne => ?_, fun h0 hkey => ?_, fun k h0 hkey => ?_⟩
    · rw [if_pos hne] at hdone
      exact hdone
    · have htaken : responseTaken s a d = { a with st := some 0x82 } := by
        unfold responseTaken
        dsimp only
        rw [show fobKey s (ofBe (sliceZ d 1 8)) = none from hkey]
      rw [if_neg (not_not.2 h0), htaken] at hdone
      exact hdone
    · intro good ks
      have htaken : responseTaken s a d = if good then { a with
          st := some 0x00, fobId := fob, wakeCtr := ofBe (sliceZ d 9 4), rxTime := s.rf.rxTime, ks := some ks, ms := maskStream ks a.spanId } else { a with st := some 0x06 } := by
        unfold responseTaken
        dsimp only
        rw [show fobKey s (ofBe (sliceZ d 1 8)) = some k from hkey]
      rw [if_neg (not_not.2 h0), htaken] at hdone
      refine ⟨fun hbad => ?_, fun hgood => ?_⟩
      · rw [if_neg hbad] at hdone
        exact hdone
      · rw [if_pos hgood] at hdone
        exact hdone
  · obtain ⟨q, h⟩ := sendMsg_takes (o := exec (.msgResult bay tag 0x00 offset) s) rfl hr ha
    have hplaced : exec (.msgResult bay tag 0x00 offset) s = .next (setAuth bay (some (resultTaken a (memReadBytes (memWriteBytes at_ (padTo 113 r) s) at_ 113)))
        (memWriteBytes at_ (padTo 113 r) (setResp 3 [] 0x00 { s with perf := q }))) := by
      refine h.trans (congrArg Host.Outcome.next ?_)
      have hres' : (setResp 3 [] 0x00 { s with perf := q }).psr.result = some r := hres
      have hauth' : getAuth (memWriteBytes at_ (padTo 113 r) (setResp 3 [] 0x00 { s with perf := q })) bay = some a := hauth
      dsimp only
      rw [hres']
      dsimp only
      rw [hauth']
      exact if_neg (by rintro (h | h | h); exacts [h hkind, h htag, h rfl])
    refine ⟨_, hplaced, answerOf_setResp (by decide) _ _ _, rfl, fun hks => ?_, fun k hks => ?_⟩
    · rw [getAuth_setAuth hb]
      unfold resultTaken
      rw [hks]
    · intro iv d
      rw [getAuth_setAuth hb]
      unfold resultTaken
      rw [hks]
      rfl
  · exact sendMsg_next hr ha fun q => rfl
  · obtain ⟨q, h⟩ := sendMsg_takes (o := exec (.msgRange bay tag primary use) s) rfl hr ha
    have hidle : ¬s.psr.busy = true := by rw [hbusy]; decide
    have hexec : exec (.msgRange bay tag primary use) s = .next _ := h.trans (congrArg Host.Outcome.next ((if_neg hidle).trans (if_neg hidle)))
    exact ⟨_, hexec, answerOf_setResp (by decide) _ _ _, rfl, rfl, rfl, rfl, rfl, rfl⟩
  · intro gone
    refine ⟨fun st t0 reps b hlisten hlt hno => ?_, fun st t0 b hlisten hlt hwaits => ⟨fun hst => ?_, fun hst => ?_⟩, fun howed hbusy hbay h3 hfob => ?_⟩
    · obtain ⟨q, x, h, -⟩ := chordReports_sent (st := st) (offset := offset) hlisten hlt hr ha
      exact ⟨q, h.trans (congrArg Host.Outcome.next (if_pos hno))⟩
    · obtain ⟨q, x, h, hx⟩ := chordReports_sent (st := st) (offset := offset) hlisten hlt hr ha
      obtain rfl : x = [] := List.eq_nil_of_length_eq_zero hx
      generalize hu : setResp 3 [] 0x00 { placeReports (offset.toNat % 0x8000) [] (modRf (fun r => { r with listen := none }) s) with perf := q } = u at h
      have hended := spanRefuse_eq hlt 0x23 u
      obtain ⟨hrf, hpsr, hgone⟩ := EndedAs.radio (s := s) (by rw [← hu]; rfl) (by rw [← hu]; rfl) (by rw [← hu]; rfl) (by rw [← hu]; rfl) (by rw [← hu]; rfl) hended
      rw [chordAnswer_none (show awaitsChord u b.toNat = true by rw [← hu]; exact hwaits), if_pos (by simpa using hst)] at h
      exact ⟨_, h, by rw [hrf, ← hu]; rfl, hgone⟩
    · obtain ⟨q, x, h, hx⟩ := chordReports_sent (st := st) (offset := offset) hlisten hlt hr ha
      obtain rfl : x = [] := List.eq_nil_of_length_eq_zero hx
      rw [chordAnswer_none (by exact hwaits), if_neg (by simpa using hst)] at h
      exact ⟨_, h, rfl, rfl⟩
    · intro st
      refine ⟨fun hst => ?_, fun a hst hreq hauth => ?_⟩
      · obtain ⟨q, h⟩ := psrDone_sent (tag := tag) (st := st) (offset := offset) howed hbusy hbay rfl hr ha
        generalize hu : setResp 3 [] 0x00 { modPsr (fun p => { p with owed := false }) s with perf := q } = u at h
        rw [psrDone_refused (by rw [← hu]; exact h3) (by rw [← hu]; exact hfob) (by simpa using hst)] at h
        obtain ⟨hrf, hpsr, hgone⟩ := EndedAs.radio (s := s) (by rw [← hu]; rfl) (by rw [← hu]; rfl) (by rw [← hu]; rfl) (by rw [← hu]; rfl) (by rw [← hu]; rfl)
          (spanRefuse_eq hb st u)
        exact ⟨_, h, by rw [hpsr, ← hu]; rfl, hgone⟩
      · intro i v
        obtain ⟨q, h⟩ := psrDone_sent (tag := tag) (st := st) (offset := offset) howed hbusy hbay rfl hr ha
        rw [psrDone_judged (a := a) (by exact h3) (by exact hfob) (by simpa using hst) (by exact hreq) (by exact hauth)] at h
        obtain ⟨hverdict, hreason, hrefused, hinside⟩ := applyVerdict_leaves hb i (setResp 3 [] 0x00 { modPsr (fun p => { p with owed := false }) s with perf := q })
        refine ⟨_, h, hverdict, hreason, fun h3 => ?_, fun h12 => ?_, hinside⟩
        · obtain ⟨hstate, hstatus⟩ := hrefused (by rw [show i.verdict.1 = 3 from h3]; decide)
          exact ⟨hstate, hstatus.trans (congrArg verdictStatus h3)⟩
        · obtain ⟨hstate, hstatus⟩ := hrefused (by rcases h12 with h | h <;> rw [show i.verdict.1 = _ from h] <;> decide)
          exact ⟨hstate, hstatus.trans (h12.elim (congrArg verdictStatus) (congrArg verdictStatus))⟩

end Sys2Proof.Proofs
end


section
/-! SUPPORT. The body fields of a host's request, and what the deck does with each one (R50, R299, R339, R415). -/

namespace Sys2Proof.Machine

open Sys2Proof

/-! ## The fields of a body -/

/-- A number held to a limit is within it, -/
theorem satTo_le (limit x : Nat) : satTo limit x ≤ limit := by
  rw [satTo_eq]
  exact Nat.min_le_left limit x

/-- and a number out of a count's range, which the limit does not reach, stays so. -/
theorem satTo_outside {limit most x : Nat} (hlimit : most < limit) : (satTo limit x = 0 ∨ most < satTo limit x) ↔ (x = 0 ∨ most < x) := by
  rw [satTo_eq]
  omega

/-- A number at the start of a body. -/
theorem leAt_first (n x : Nat) (b : List Byte) (hx : x < 256 ^ n) : leAt (leBytes n x ++ b) 0 n = x :=
  (leAt_of (a := []) rfl rfl).trans (Nat.mod_eq_of_lt hx)

/-- A number that is the whole body. -/
theorem leAt_only (n x : Nat) (hx : x < 256 ^ n) : leAt (leBytes n x) 0 n = x := by
  simpa using leAt_first n x [] hx

/-- A number after a first part. -/
theorem leAt_second {a : List Byte} {o : Nat} (n x : Nat) (b : List Byte) (ho : a.length = o) (hx : x < 256 ^ n) : leAt (a ++ leBytes n x ++ b) o n = x :=
  (leAt_of rfl ho).trans (Nat.mod_eq_of_lt hx)

/-- A padded string at the start of a body. -/
theorem sliceZ_padTo (n : Nat) (d : List Byte) : sliceZ (padTo n d) 0 n = padTo n d := by
  have h := sliceZ_whole (padTo n d)
  rwa [padTo_length] at h

/-- The words of a register write, where they stand. -/
theorem words_read (ws : List Word) : ∀ a : List Byte,
    (List.range ws.length).map (fun i => leAt (a ++ ws.flatMap (fun w => leBytes 4 w.toNat)) (a.length + 4 * i) 4) = ws.map (·.toNat) := by
  induction ws with
  | nil => exact fun _ => rfl
  | cons w ws ih =>
    intro a
    have hhead : leAt (a ++ leBytes 4 w.toNat ++ ws.flatMap (fun w => leBytes 4 w.toNat)) a.length 4 = w.toNat :=
      leAt_second 4 w.toNat _ rfl w.isLt
    have htail := ih (a ++ leBytes 4 w.toNat)
    simp only [List.length_append, leBytes_length] at htail
    simp only [List.length_cons, List.range_succ_eq_map, List.map_cons, List.map_map, List.flatMap_cons, ← List.append_assoc, Nat.mul_zero, Nat.add_zero, hhead]
    rw [← htail]
    congr 1
    refine List.map_congr_left fun i _ => ?_
    simp only [Function.comp, Nat.mul_succ]
    congr 1
    omega

/-! ## Reading the journal (R299) -/

variable {s : State}

/-- The records of a journal read go up to the first absent one, whose status they have. -/
theorem hostRecords_absent {m : Nat} (k : Nat) : ∀ {n : Nat}, k < m → (∀ i, i < k → (readRecord s (n + i)).2 = 0x00) → (readRecord s (n + k)).2 ≠ 0x00 →
    hostRecords s n m = ((List.range k).flatMap (fun i => (readRecord s (n + i)).1), (readRecord s (n + k)).2) := by
  induction k generalizing m with
  | zero =>
    intro n hlt _ hbad
    obtain ⟨m, rfl⟩ := Nat.exists_eq_succ_of_ne_zero (Nat.ne_of_gt hlt)
    exact if_pos hbad
  | succ k ih =>
    intro n hlt hgood hbad
    obtain ⟨m, rfl⟩ := Nat.exists_eq_succ_of_ne_zero (Nat.ne_of_gt (Nat.lt_of_le_of_lt (Nat.zero_le _) hlt))
    have hrest := ih (n := n + 1) (Nat.lt_of_succ_lt_succ hlt) (fun i hi => by rw [Nat.add_right_comm]; exact hgood (i + 1) (Nat.succ_lt_succ hi))
      (by rw [Nat.add_right_comm]; exact hbad)
    have hfirst : (readRecord s n).2 = 0x00 := hgood 0 (Nat.succ_pos k)
    refine (if_neg (not_not.2 hfirst)).trans ?_
    simp only [hrest, List.range_succ_eq_map, List.flatMap_cons, List.flatMap_map, Nat.add_zero, Nat.succ_eq_add_one, Nat.add_right_comm n 1, Nat.add_assoc]

/-- Where none is absent, all of them are read. -/
theorem hostRecords_all {m : Nat} : ∀ {n : Nat}, (∀ i, i < m → (readRecord s (n + i)).2 = 0x00) →
    hostRecords s n m = ((List.range m).flatMap (fun i => (readRecord s (n + i)).1), 0x00) := by
  induction m with
  | zero => exact fun _ => rfl
  | succ m ih =>
    intro n hgood
    have hrest := ih (n := n + 1) (fun i hi => by rw [Nat.add_right_comm]; exact hgood (i + 1) (Nat.succ_lt_succ hi))
    have hfirst : (readRecord s n).2 = 0x00 := hgood 0 (Nat.succ_pos m)
    refine (if_neg (not_not.2 hfirst)).trans ?_
    simp only [hrest, List.range_succ_eq_map, List.flatMap_cons, List.flatMap_map, Nat.add_zero, Nat.succ_eq_add_one, Nat.add_right_comm n 1, Nat.add_assoc]

/-- LINK, the open values and the counters are no part of a record. -/
theorem hostRecords_keeps (l : LinkState) (f : Nat) (p : Vector PerfState 14) (k : Nat) : ∀ n, hostRecords { s with link := l, free := f, perf := p } n k = hostRecords s n k := by
  induction k with
  | zero => exact fun _ => rfl
  | succ k ih =>
    intro n
    unfold hostRecords
    rw [ih]
    rfl

/-! ## What the deck does with a request (R50, R154, R260, R289, R297, R339) -/

variable {r : HostReq}

/-- What a host's row leaves, once the device acts on its request. -/
theorem hostDoes {h : HostHdr} {typ : Nat} {c : Instr} {body : List Byte} {hook : Status × List Byte} {t : State}
    (hexec : exec c s = .next (hostRow typ h body hook s)) (hact : hostAct (hostReqOf h typ s) body hook (hostAccepted h typ s) = t) :
    HostAccepts h typ s → exec c s = .next t :=
  fun ha => hexec.trans (congrArg Host.Outcome.next ((hostRow_accepted s h typ body hook ha).trans hact))

/-- The same of a work that reads s: its state differs from s in LINK, the open values and the counters only. -/
theorem hostDoes_work {h : HostHdr} {typ : Nat} {c : Instr} {body : List Byte} {hook : Status × List Byte} (work : State → State)
    (hexec : exec c s = .next (hostRow typ h body hook s))
    (hact : ∀ l f p, hostAct (hostReqOf h typ s) body hook { s with link := l, free := f, perf := p } = work { s with link := l, free := f, perf := p }) :
    HostAccepts h typ s → exec c s = .next (work (hostAccepted h typ s)) := by
  obtain ⟨l, f, p, hu⟩ := hostAccepted_eq s h typ
  exact hostDoes hexec (by rw [hu, hact])

/-- A TYPE with no request of its own goes to the hook. -/
theorem hostAct_hook {body : List Byte} {hook : Status × List Byte} (htyp : 0x12 < r.typ) : hostAct r body hook s = hostAnswer r hook.1 hook.2 s := by
  unfold hostAct
  split
  case h_19 => rfl
  all_goals omega

/-- A request that needs STORE while STORE does not run. -/
theorem hostStore_off (act : State → State) (hoff : canAct s 4 = false) : hostStore r act s = hostAnswer r 0x03 [] s := by
  unfold hostStore
  rw [hoff]
  rfl

/-- The same request while STORE runs. -/
theorem hostStore_on (act : State → State) (hon : ¬canAct s 4 = false) : hostStore r act s = act s :=
  if_pos (Bool.not_eq_false _ ▸ hon)

/-- A request for a bay that is none is answered 0x02. -/
theorem hostBay_none (act : State → State) (hb : 64 ≤ r.bay) : hostBay r act s = hostAnswer r 0x02 [] s := if_neg (Nat.not_lt.2 hb)

/-- A request for one of the device's bays is carried out. -/
theorem hostBay_some (act : State → State) (hb : r.bay < 64) : hostBay r act s = act s := if_pos hb

/-- Taking a request leaves the span service and the clock. -/
theorem hostAccepted_keeps (s : State) (h : HostHdr) (typ : Nat) : (∀ b, getSpan (hostAccepted h typ s) b = getSpan s b) ∧ (hostAccepted h typ s).time = s.time := by
  obtain ⟨l, f, p, hu⟩ := hostAccepted_eq s h typ
  rw [hu]
  exact ⟨fun _ => rfl, rfl⟩

/-- A request for a bay that the device has not. -/
theorem hostAct_noBay {h : HostHdr} {typ : Nat} {u : State} {body : List Byte} {hook : Status × List Byte} (hb : 64 ≤ h.bay.toNat)
    (htyp : typ ∈ [0x01, 0x02, 0x03, 0x10, 0x11, 0x12]) : hostAct (hostReqOf h typ s) body hook u = answerReq (hostReqOf h typ s) 0x02 (hostClass typ) [] u := by
  simp only [List.mem_cons, List.not_mem_nil, or_false] at htyp
  unfold hostAct
  rcases htyp with rfl | rfl | rfl | rfl | rfl | rfl
  all_goals exact hostBay_none _ hb

/-- STOP and CANCEL act on the span that their body names. -/
theorem hostAct_stop {h : HostHdr} {typ : Nat} {u : State} {hook : Status × List Byte} (i : Word) (hb : h.bay.toNat < 64) (htyp : typ = 0x02 ∨ typ = 0x03) {st : Status} {t : State}
    (hx : hostStopAct h.bay.toNat i.toNat (typ == 0x03) u = (st, t)) :
    hostAct (hostReqOf h typ s) (leBytes 4 i.toNat) hook u = answerReq (hostReqOf h typ s) st (hostClass typ) [] t := by
  rw [← show (hostStopAct h.bay.toNat i.toNat (typ == 0x03) u).1 = st from congrArg Prod.fst hx,
    ← show (hostStopAct h.bay.toNat i.toNat (typ == 0x03) u).2 = t from congrArg Prod.snd hx]
  unfold hostAct
  rcases htyp with rfl | rfl
  all_goals
    refine (hostBay_some _ hb).trans ?_
    rw [leAt_only 4 _ i.isLt]
    rfl

/-- START is a sense request of source 3. -/
theorem hostAct_start {h : HostHdr} {u : State} {hook : Status × List Byte} (d : List Byte) (hb : h.bay.toNat < 64) :
    hostAct (hostReqOf h 0x01 s) (padTo 16 d) hook u = senseArrive 3 h.bay.toNat (padTo 16 d) (some (hostReqOf h 0x01 s)) u :=
  (hostBay_some _ hb).trans (by rw [sliceZ_padTo]; rfl)

/-- A METERING span that STOP closes: CLOSING with reason 1, its closing capture asked for now and a STOP owed. -/
theorem spanClosing_stop {b : Nat} (hb : b < 64) (u : State) : (getSpan (spanClosing b 1 0x00 true u) b).state = 8 ∧
    (getSpan (spanClosing b 1 0x00 true u) b).closeReason = 1 ∧
    (getSpan (spanClosing b 1 0x00 true u) b).caps = (getSpan u b).caps ++ [⟨2, u.time.us, none, false⟩] ∧
    (vget none (spanClosing b 1 0x00 true u).span.stops b).map (·.counter) = some (getSpan u b).counter := by
  have hspan := spanClosing_span u hb 1 0x00 true
  have hbay : getSpan (spanClosing b 1 0x00 true u) b = (getSpan u b).closing 1 0x00 u.time.us := by
    rw [getSpan_eq, hspan]
    exact u.span.bay_withBay _ hb
  rw [hbay, hspan]
  exact ⟨rfl, rfl, rfl, congrArg (Option.map StopReq.counter) (vget_vset_self _ _ _ hb)⟩

/-- A STOP or CANCEL that does not name the bay's live span does nothing. -/
theorem hostStopAct_other {b i : Nat} (cancel : Bool) (h : (getSpan s b).id ≠ i ∨ (getSpan s b).live = false) : hostStopAct b i cancel s = (0x02, s) :=
  if_pos h

/-- Before release either refuses the span. -/
theorem hostStopAct_early {b i : Nat} (cancel : Bool) (hid : (getSpan s b).id = i) (hlive : (getSpan s b).live = true) (h6 : (getSpan s b).state < 6) :
    hostStopAct b i cancel s = (0x00, spanRefuse b 0x2C s) :=
  (if_neg (by rintro (h | h); exacts [h hid, Bool.false_ne_true (h.symm.trans hlive)])).trans (if_pos h6)

/-- After release CANCEL is refused. -/
theorem hostStopAct_lateCancel {b i : Nat} (hid : (getSpan s b).id = i) (hlive : (getSpan s b).live = true) (h6 : 6 ≤ (getSpan s b).state) :
    hostStopAct b i true s = (0x02, s) :=
  (if_neg (by rintro (h | h); exacts [h hid, Bool.false_ne_true (h.symm.trans hlive)])).trans (if_neg (Nat.not_lt.2 h6))

/-- STOP closes a METERING span. -/
theorem hostStopAct_metering {b i : Nat} (hid : (getSpan s b).id = i) (hlive : (getSpan s b).live = true) (h7 : (getSpan s b).state = 7) :
    hostStopAct b i false s = (0x00, spanClosing b 1 0x00 true s) :=
  (if_neg (by rintro (h | h); exacts [h hid, Bool.false_ne_true (h.symm.trans hlive)])).trans ((if_neg (by omega)).trans
    ((if_neg Bool.false_ne_true).trans (if_pos h7)))

/-- STOP of a RELEASED or CLOSING span is granted and does nothing. -/
theorem hostStopAct_granted {b i : Nat} (hid : (getSpan s b).id = i) (hlive : (getSpan s b).live = true)
    (h68 : (getSpan s b).state = 6 ∨ (getSpan s b).state = 8) : hostStopAct b i false s = (0x00, s) :=
  (if_neg (by rintro (h | h); exacts [h hid, Bool.false_ne_true (h.symm.trans hlive)])).trans ((if_neg (by omega)).trans
    ((if_neg Bool.false_ne_true).trans ((if_neg (by omega)).trans (ite_self _))))

/-- DB_COMMIT without every chunk of its VERSION. -/
theorem hostCommit_refused {v : Nat} (h : ∀ x, s.store.update = some x → x.version ≠ v ∨ chunksWritten s ≠ 1040) : hostCommit r v s = hostAnswer r 0xA9 [] s := by
  unfold hostCommit
  cases hx : s.store.update with
  | none => rfl
  | some x => exact if_neg (fun hall => (h x hx).elim (fun hne => hne hall.1) (fun hne => hne hall.2))

/-- DB_COMMIT with them: the switch of areas becomes a change of the ledger, and the answer waits for it. -/
theorem hostCommit_granted {v : Nat} {x : CredUpdate} (hx : s.store.update = some x) (hv : x.version = v) (hall : chunksWritten s = 1040) :
    hostCommit r v s = { s with
      store := { s.store with changes := s.store.changes ++ [.cred (1 - s.store.ledger.credArea) v x.seed x.entries] }
      span := { s.span with jobs := s.span.jobs ++ [⟨17, .dbCommit r, none⟩] } } := by
  unfold hostCommit
  rw [hx]
  exact if_pos ⟨hv, hall⟩

/-- IMAGE_DATA of a bad length or place, or while a hash runs. -/
theorem hostImage_refused {o : Nat} {d : List Byte}
    (h : (d.length < 64 ∨ 16384 < d.length ∨ d.length % 64 ≠ 0 ∨ 0xA0000 < o + d.length) ∨ s.store.imgBusy = true) : hostImage r o d s = hostAnswer r 0x02 [] s := by
  unfold hostImage imgOpenWrite
  split
  · rfl
  next hgood =>
    rw [h.resolve_left hgood]
    rfl

/-- IMAGE_DATA of a good one: the bank that is not in force is opened and written. -/
theorem hostImage_taken {o : Nat} {d : List Byte} (hgood : ¬(d.length < 64 ∨ 16384 < d.length ∨ d.length % 64 ≠ 0 ∨ 0xA0000 < o + d.length))
    (hidle : s.store.imgBusy = false) : hostImage r o d s = hostAnswer r 0x00 [] { s with
      mem := Memory.writeBytes s.mem (0xA0000 * (1 - s.store.ledger.imageBank) + o) d, store := { s.store with imgOpen := true, imgDone := false } } := by
  refine (if_neg hgood).trans ?_
  unfold imgOpenWrite
  rw [hidle]
  rfl

/-- The last job of a list is the first of its tag, where no other has that tag. -/
theorem find_lastJob {js : List Job} (j : Job) (hnone : ∀ x ∈ js, x.tag ≠ j.tag) : (js ++ [j]).find? (fun x => x.tag == j.tag) = some j := by
  rw [List.find?_append, List.find?_eq_none.2 (by simpa using hnone)]
  simp

/-- A list without its last element, which alone a test refuses. -/
theorem filter_dropLast {js : List Job} {j : Job} {keep : Job → Bool} (hall : ∀ x ∈ js, keep x = true) (hlast : keep j = false) :
    (js ++ [j]).filter keep = js := by
  rw [List.filter_append, List.filter_eq_self.2 hall, List.filter_singleton, hlast]
  simp

/-- IMAGE_COMMIT by what the write of HASH does on the closed bank. -/
theorem hostImageEnd_of {q : Status × State} (hhash : imgHashWrite { s with store := { s.store with imgOpen := false } } = q) : hostImageEnd r s =
    if q.1 ≠ 0 then hostAnswer r q.1 [] q.2
    else
      let t := modSpan (fun p => { p with jobs := p.jobs ++ [⟨16, .imageVerify r, none⟩] }) q.2
      if t.store.imgBusy then t else imageHashed t := by
  subst hhash
  rfl

/-- IMAGE_COMMIT while a hash runs closes the bank only. -/
theorem hostImageEnd_busy (hbusy : s.store.imgBusy = true) :
    hostImageEnd r s = hostAnswer r 0x02 [] { s with store := { s.store with imgOpen := false } } := by
  have hhash : imgHashWrite { s with store := { s.store with imgOpen := false } } = (0x02, { s with store := { s.store with imgOpen := false } }) :=
    if_pos (.inr hbusy)
  exact hostImageEnd_of hhash

/-- IMAGE_COMMIT of an image whose LENGTH is in range starts its hash, and the answer waits for it. -/
theorem hostImageEnd_hashes (hidle : s.store.imgBusy = false) (hlen : imageLengthOk s (1 - s.store.ledger.imageBank) = true) :
    hostImageEnd r s = { s with
      store := { s.store with imgOpen := false, imgBusy := true, imgDone := false }, span := { s.span with jobs := s.span.jobs ++ [⟨16, .imageVerify r, none⟩] } } := by
  have hhash : imgHashWrite { s with store := { s.store with imgOpen := false } } =
      (0x00, { s with store := { s.store with imgOpen := false, imgBusy := true, imgDone := false } }) :=
    (if_neg (by rintro (h | h); exacts [Bool.false_ne_true h, Bool.false_ne_true (hidle.symm.trans h)])).trans (if_pos hlen)
  exact hostImageEnd_of hhash

/-- IMAGE_COMMIT of an image whose LENGTH is out of range is answered with the hash's status. -/
theorem hostImageEnd_badLength (hidle : s.store.imgBusy = false) (hlen : imageLengthOk s (1 - s.store.ledger.imageBank) = false)
    (hnone : ∀ j ∈ s.span.jobs, j.tag ≠ 16) :
    hostImageEnd r s = answerReq r 0x02 15 [] { s with store := { s.store with imgOpen := false, imgDone := true, imgStatus := 0x02 } } := by
  have hhash : imgHashWrite { s with store := { s.store with imgOpen := false } } =
      (0x00, { s with store := { s.store with imgOpen := false, imgDone := true, imgStatus := 0x02 } }) :=
    (if_neg (by rintro (h | h); exacts [Bool.false_ne_true h, Bool.false_ne_true (hidle.symm.trans h)])).trans
      (if_neg (fun h => Bool.false_ne_true (hlen.symm.trans h)))
  have hfind := find_lastJob ⟨16, .imageVerify r, none⟩ hnone
  have hkeep := filter_dropLast (j := ⟨16, .imageVerify r, none⟩) (keep := fun x => x.tag != 16) (by simpa using hnone) rfl
  refine (hostImageEnd_of hhash).trans ((if_neg (by rintro h; exact h rfl)).trans ((if_neg (fun h => Bool.false_ne_true (hidle.symm.trans h))).trans ?_))
  unfold imageHashed
  dsimp only [modSpan]
  rw [hfind]
  dsimp only
  rw [hkeep]
  rfl

/-- ATTEST takes the signer where it is free. -/
theorem attestNext_free {n : List Byte} (hact : canAct s 2 = true) (hfree : s.signer.job = none) (hnone : ∀ j ∈ s.span.jobs, j.tag ≠ 18)
    (hnew : ∀ j ∈ s.span.jobs, j.kind ≠ .attest r n) : attestNext (modSpan (fun p => { p with jobs := p.jobs ++ [⟨18, .attest r n, none⟩] }) s) =
    signerStart ⟨4, 1, 0, none, 0, .attest r n⟩ s := by
  have hfind := find_lastJob ⟨18, .attest r n, none⟩ hnone
  have hkeep := filter_dropLast (j := ⟨18, .attest r n, none⟩) (keep := fun x => x.kind != .attest r n) (by simpa using hnew) (by simp)
  unfold attestNext
  dsimp only [modSpan]
  rw [hfree, hfind]
  dsimp only
  rw [hkeep]
  exact if_pos hact

/-- Where the signer works, ATTEST waits. -/
theorem attestNext_waits {j : SignJob} (hj : s.signer.job = some j) : attestNext s = s := by
  unfold attestNext
  rw [hj]

/-- TAGWRITE of an unlisted UID with a full caution list. -/
theorem hostTagWrite_full {uid : Nat} {d : List Byte} (hnone : cautionFind s uid = none) (hfull : cautionFree s = none) :
    hostTagWrite r uid d s = hostAnswer r 0x59 [] s := by
  unfold hostTagWrite
  rw [hnone]
  exact if_pos ⟨rfl, hfull⟩

/-- Any other TAGWRITE asks the toll gate. -/
theorem hostTagWrite_asks {uid : Nat} {d : List Byte} (h : cautionFind s uid ≠ none ∨ cautionFree s ≠ none) :
    hostTagWrite r uid d s = hostAsk r (.tagWrite r uid d (cautionFind s uid).isSome) r.bay s :=
  if_neg (fun hfull => h.elim (fun hsome => by simpa [hsome] using hfull.1) (fun hfree => hfree hfull.2))

/-! ## The requests by their bodies -/

section
variable {h : HostHdr} {u : State} {hook : Status × List Byte}

/-- RANGE: the cone and the use of its body, and the fob. -/
theorem hostAct_range (x y z : Byte) {f : Nat} (hf : f < 2 ^ 64) (hb : h.bay.toNat < 64) : hostAct (hostReqOf h 0x10 s) ([x, y, z, 0] ++ leBytes 8 f) hook u =
    hostAsk (hostReqOf h 0x10 s) (.range (hostReqOf h 0x10 s) y.toNat z.toNat f) h.bay.toNat u := by
  have hprimary : leAt ([x, y, z, 0] ++ leBytes 8 f) 1 1 = y.toNat := by simp [leAt, sliceZ, ofLe]
  have huse : leAt ([x, y, z, 0] ++ leBytes 8 f) 2 1 = z.toNat := by simp [leAt, sliceZ, ofLe]
  have hfob : leAt ([x, y, z, 0] ++ leBytes 8 f) 4 8 = f := (leAt_of (b := []) (List.append_nil _).symm rfl).trans (Nat.mod_eq_of_lt hf)
  refine (hostBay_some _ hb).trans ?_
  rw [hprimary, huse, hfob]
  rfl

/-- TAGWRITE: the UID and the data. -/
theorem hostAct_tagWrite (d : List Byte) {f : Nat} (hf : f < 2 ^ 64) (hb : h.bay.toNat < 64) :
    hostAct (hostReqOf h 0x11 s) (leBytes 8 f ++ padTo 32 d) hook u = hostTagWrite (hostReqOf h 0x11 s) f (padTo 32 d) u := by
  have hdata : sliceZ (leBytes 8 f ++ padTo 32 d) 8 32 = padTo 32 d := (sliceZ_append_right (by simp)).trans (by simpa using sliceZ_padTo 32 d)
  refine (hostBay_some _ hb).trans ?_
  rw [leAt_first 8 f _ hf, hdata]

/-- REG_READ: the address and the count. -/
theorem hostAct_regRead (a : Word) (n : Nat) : hostAct (hostReqOf h 0x04 s) (leBytes 4 a.toNat ++ leBytes 2 (satTo 0xFFFF n)) hook u =
    if n = 0 ∨ 256 < n then answerReq (hostReqOf h 0x04 s) 0x02 (hostClass 0x04) [] u
    else let x := hostReadWords a.toNat n u; answerReq (hostReqOf h 0x04 s) x.2.1 (hostClass 0x04) x.1 x.2.2 := by
  have haddr : leAt (leBytes 4 a.toNat ++ leBytes 2 (satTo 0xFFFF n)) 0 4 = a.toNat := leAt_first 4 _ _ a.isLt
  have hcount : leAt (leBytes 4 a.toNat ++ leBytes 2 (satTo 0xFFFF n)) 4 2 = satTo 0xFFFF n :=
    (leAt_of (b := []) (List.append_nil _).symm rfl).trans (Nat.mod_eq_of_lt (Nat.lt_succ_of_le (satTo_le 0xFFFF n)))
  unfold hostAct
  show (if leAt _ 4 2 = 0 ∨ 256 < leAt _ 4 2 then _ else _) = _
  rw [hcount]
  by_cases hn : n = 0 ∨ 256 < n
  · rw [if_pos hn]
    exact if_pos ((satTo_outside (by decide)).2 hn)
  · have hsat : satTo 0xFFFF n = n := if_pos (by omega)
    rw [hsat] at haddr ⊢
    rw [if_neg hn, if_neg hn, haddr]
    rfl

/-- REG_WRITE: the address, the count and the words. -/
theorem hostAct_regWrite (a : Word) (ws : List Word) :
    hostAct (hostReqOf h 0x05 s) (leBytes 4 a.toNat ++ leBytes 2 (satTo 0xFFFF ws.length) ++ ws.flatMap (fun w => leBytes 4 w.toNat)) hook u =
    if ws.length = 0 ∨ 256 < ws.length then answerReq (hostReqOf h 0x05 s) 0x02 (hostClass 0x05) [0, 0] u
    else let x := hostWriteWords a.toNat 0 (ws.map (·.toNat)) u; answerReq (hostReqOf h 0x05 s) x.2.1 (hostClass 0x05) (leBytes 2 x.1) x.2.2 := by
  generalize hbody : leBytes 4 a.toNat ++ leBytes 2 (satTo 0xFFFF ws.length) ++ ws.flatMap (fun w => leBytes 4 w.toNat) = body
  have haddr : leAt body 0 4 = a.toNat := by
    rw [← hbody, List.append_assoc]
    exact leAt_first 4 _ _ a.isLt
  have hcount : leAt body 4 2 = satTo 0xFFFF ws.length := by
    rw [← hbody]
    exact leAt_second 2 _ _ rfl (Nat.lt_succ_of_le (satTo_le 0xFFFF _))
  have hwords : (List.range ws.length).map (fun i => leAt body (6 + 4 * i) 4) = ws.map (·.toNat) := by
    rw [← hbody]
    exact words_read ws _
  unfold hostAct
  show (if leAt _ 4 2 = 0 ∨ 256 < leAt _ 4 2 then _ else _) = _
  rw [hcount]
  by_cases hn : ws.length = 0 ∨ 256 < ws.length
  · rw [if_pos hn]
    exact if_pos ((satTo_outside (by decide)).2 hn)
  · have hsat : satTo 0xFFFF ws.length = ws.length := if_pos (by omega)
    rw [hsat, if_neg hn, if_neg hn, haddr, hwords]
    rfl

/-- JRN_READ: the first record and the count. -/
theorem hostAct_jrnRead {q : Nat} (n : Nat) (hq : q < 2 ^ 64) : hostAct (hostReqOf h 0x06 s) (leBytes 8 q ++ leBytes 1 (satTo 0xFF n)) hook u =
    if n = 0 ∨ 32 < n then answerReq (hostReqOf h 0x06 s) 0x02 (hostClass 0x06) [] u
    else hostStore (hostReqOf h 0x06 s) (fun s' => let x := hostRecords s' q n; answerReq (hostReqOf h 0x06 s) x.2 (hostClass 0x06) x.1 s') u := by
  have hfirst : leAt (leBytes 8 q ++ leBytes 1 (satTo 0xFF n)) 0 8 = q := leAt_first 8 _ _ hq
  have hcount : leAt (leBytes 8 q ++ leBytes 1 (satTo 0xFF n)) 8 1 = satTo 0xFF n :=
    (leAt_of (b := []) (List.append_nil _).symm rfl).trans (Nat.mod_eq_of_lt (Nat.lt_succ_of_le (satTo_le 0xFF n)))
  unfold hostAct
  show (if leAt _ 8 1 = 0 ∨ 32 < leAt _ 8 1 then _ else _) = _
  rw [hcount]
  by_cases hn : n = 0 ∨ 32 < n
  · rw [if_pos hn]
    exact if_pos ((satTo_outside (by decide)).2 hn)
  · have hsat : satTo 0xFF n = n := if_pos (by omega)
    rw [hsat] at hfirst ⊢
    rw [if_neg hn, if_neg hn, hfirst]
    rfl

/-- JRN_ACK: the record. -/
theorem hostAct_jrnAck {q : Nat} (hq : q < 2 ^ 64) : hostAct (hostReqOf h 0x07 s) (leBytes 8 q) hook u =
    hostStore (hostReqOf h 0x07 s) (fun s' => let x := jrnAckCommit q s'; answerReq (hostReqOf h 0x07 s) x.1 (hostClass 0x07) [] x.2) u := by
  show hostStore _ (fun s' => let x := jrnAckCommit (leAt (leBytes 8 q) 0 8) s'; hostAnswer (hostReqOf h 0x07 s) x.1 [] x.2) u = _
  rw [leAt_only 8 q hq]
  rfl

/-- TIME_SET: the UTC. -/
theorem hostAct_timeSet {utc : Nat} (hutc : utc < 2 ^ 64) : hostAct (hostReqOf h 0x08 s) (leBytes 8 utc) hook u =
    hostAsk (hostReqOf h 0x08 s) (.timeSet (some (hostReqOf h 0x08 s)) utc u.time.us) 0 u := by
  show hostAsk _ (.timeSet _ (leAt _ 0 8) _) _ _ = _
  rw [leAt_only 8 utc hutc]

/-- CERT: the certificate, whose length stands in its first two bytes. -/
theorem hostAct_cert : hostAct (hostReqOf h 0x0F s) [] hook u = hostStore (hostReqOf h 0x0F s) (fun s' => answerReq (hostReqOf h 0x0F s) 0x00 (hostClass 0x0F)
    (memReadBytes s' 0x1CF400 (2 + min (leAt (memReadBytes s' 0x1CF400 2) 0 2) 0xBFE)) s') u := rfl

/-- ATTEST: the nonce. -/
theorem hostAct_attest (d : List Byte) : hostAct (hostReqOf h 0x0E s) (padTo 16 d) hook u =
    if canAct u 2 then attestNext (modSpan (fun p => { p with jobs := p.jobs ++ [⟨18, .attest (hostReqOf h 0x0E s) (padTo 16 d), none⟩] }) u)
    else answerReq (hostReqOf h 0x0E s) 0x03 (hostClass 0x0E) [] u := by
  show (if canAct u 2 then attestNext (modSpan (fun p => { p with jobs := p.jobs ++ [⟨18, .attest _ (sliceZ (padTo 16 d) 0 16), none⟩] }) u) else _) = _
  rw [sliceZ_padTo]
  rfl

/-- IMAGE_DATA: the offset and the data. -/
theorem hostAct_imageData {o : Nat} (d : List Byte) (ho : o < 2 ^ 32) : hostAct (hostReqOf h 0x0C s) (leBytes 4 o ++ d) hook u =
    hostStore (hostReqOf h 0x0C s) (hostImage (hostReqOf h 0x0C s) o d) u := by
  have hdrop : (leBytes 4 o ++ d).drop 4 = d := List.drop_left' (leBytes_length 4 o)
  show hostStore _ (hostImage _ (leAt _ 0 4) _) _ = _
  rw [leAt_first 4 o d ho, hdrop]

/-- DB_COMMIT: the VERSION. -/
theorem hostAct_dbCommit {v : Nat} (hv : v < 2 ^ 64) : hostAct (hostReqOf h 0x0A s) (leBytes 8 v) hook u =
    hostStore (hostReqOf h 0x0A s) (hostCommit (hostReqOf h 0x0A s) v) u := by
  show hostStore _ (hostCommit _ (leAt _ 0 8)) _ = _
  rw [leAt_only 8 v hv]

end

/-! ## What an accepted row leaves, request by request -/

/-- Once the device acts on its request, the row leaves t. -/
def HostDoes (h : HostHdr) (typ : Nat) (c : Instr) (s t : State) : Prop := HostAccepts h typ s → exec c s = .next t

/-- The answer to a row's request, sent from u. -/
def hostReply (h : HostHdr) (typ : Nat) (s : State) (a : Status) (body : List Byte) (u : State) : State := answerReq (hostReqOf h typ s) a (hostClass typ) body u

section
variable (s : State) (h : HostHdr)

/-- START of an idle bay (R50). -/
theorem hostStart_queued (d : List Byte) (hb : h.bay.toNat < 64) (hidle : (getSpan s h.bay.toNat).live = false) (hon : spanEnabled s = true)
    (hroom : s.span.queue.length < 256) (hnew : ∀ e ∈ s.span.queue, ¬(e.bay = h.bay.toNat ∧ e.source = 3)) :
    HostDoes h 0x01 (.hostStart h d) s { hostAccepted h 0x01 s with span := { s.span with
      queue := s.span.queue ++ [⟨3, h.bay.toNat, s.time.us, padTo 16 d, some (hostReqOf h 0x01 s)⟩] } } := by
  refine hostDoes_work (fun u => { u with span := { s.span with queue := _ } }) rfl fun l f q => ?_
  exact (hostAct_start d hb).trans ((senseArrive_new { s with link := l, free := f, perf := q } _ _ hon (.inl hidle) (fun h => by simp at h)
    (find_entry_none _ hnew)).trans (if_neg (Nat.not_le.2 hroom)))

/-- STOP and CANCEL of a span that is not the bay's live one (R50). -/
theorem hostStop_other (i : Word) (hb : h.bay.toNat < 64) (hother : (getSpan s h.bay.toNat).id ≠ i.toNat ∨ (getSpan s h.bay.toNat).live = false) :
    HostDoes h 0x02 (.hostStop h i) s (hostReply h 0x02 s 0x02 [] (hostAccepted h 0x02 s)) ∧
    HostDoes h 0x03 (.hostCancel h i) s (hostReply h 0x03 s 0x02 [] (hostAccepted h 0x03 s)) :=
  ⟨hostDoes_work (hostReply h 0x02 s 0x02 []) rfl fun _ _ _ => hostAct_stop i hb (.inl rfl) (hostStopAct_other false hother),
    hostDoes_work (hostReply h 0x03 s 0x02 []) rfl fun _ _ _ => hostAct_stop i hb (.inr rfl) (hostStopAct_other true hother)⟩

section
variable {h} (i : Word) (hb : h.bay.toNat < 64) (hid : (getSpan s h.bay.toNat).id = i.toNat) (hlive : (getSpan s h.bay.toNat).live = true)
include hb hid hlive

/-- STOP and CANCEL before release (R50). -/
theorem hostStop_early (h6 : (getSpan s h.bay.toNat).state < 6) :
    (∃ v, EndedAs h.bay.toNat 10 0x2C (hostAccepted h 0x02 s) v ∧ HostDoes h 0x02 (.hostStop h i) s (hostReply h 0x02 s 0x00 [] v)) ∧
    (∃ v, EndedAs h.bay.toNat 10 0x2C (hostAccepted h 0x03 s) v ∧ HostDoes h 0x03 (.hostCancel h i) s (hostReply h 0x03 s 0x00 [] v)) :=
  ⟨⟨_, spanRefuse_eq hb 0x2C _, hostDoes_work (fun u => hostReply h 0x02 s 0x00 [] (spanRefuse h.bay.toNat 0x2C u)) rfl fun _ _ _ =>
      hostAct_stop i hb (.inl rfl) (hostStopAct_early false hid hlive h6)⟩,
    ⟨_, spanRefuse_eq hb 0x2C _, hostDoes_work (fun u => hostReply h 0x03 s 0x00 [] (spanRefuse h.bay.toNat 0x2C u)) rfl fun _ _ _ =>
      hostAct_stop i hb (.inr rfl) (hostStopAct_early true hid hlive h6)⟩⟩

/-- STOP of a METERING span (R50). -/
theorem hostStop_metering (h7 : (getSpan s h.bay.toNat).state = 7) : ∃ v, BayStep h.bay.toNat (hostAccepted h 0x02 s) v ∧
    Recorded h.bay.toNat 8 0x00 (hostAccepted h 0x02 s) v ∧ (getSpan v h.bay.toNat).state = 8 ∧ (getSpan v h.bay.toNat).closeReason = 1 ∧
    (getSpan v h.bay.toNat).caps = (getSpan s h.bay.toNat).caps ++ [⟨2, s.time.us, none, false⟩] ∧
    (vget none v.span.stops h.bay.toNat).map (·.counter) = some (getSpan s h.bay.toNat).counter ∧
    HostDoes h 0x02 (.hostStop h i) s (hostReply h 0x02 s 0x00 [] v) := by
  obtain ⟨hspan, htime⟩ := hostAccepted_keeps s h 0x02
  obtain ⟨hstep, hrec⟩ := spanClosing_step (hostAccepted h 0x02 s) hb 1 0x00 true
  obtain ⟨hstate, hreason, hcaps, hstop⟩ := spanClosing_stop hb (hostAccepted h 0x02 s)
  rw [hspan, htime] at hcaps
  rw [hspan] at hstop
  exact ⟨_, hstep, hrec, hstate, hreason, hcaps, hstop,
    hostDoes_work (fun u => hostReply h 0x02 s 0x00 [] (spanClosing h.bay.toNat 1 0x00 true u)) rfl fun _ _ _ =>
      hostAct_stop i hb (.inl rfl) (hostStopAct_metering hid hlive h7)⟩

/-- STOP of a RELEASED or CLOSING one. -/
theorem hostStop_granted (h68 : (getSpan s h.bay.toNat).state = 6 ∨ (getSpan s h.bay.toNat).state = 8) :
    HostDoes h 0x02 (.hostStop h i) s (hostReply h 0x02 s 0x00 [] (hostAccepted h 0x02 s)) :=
  hostDoes_work (hostReply h 0x02 s 0x00 []) rfl fun _ _ _ => hostAct_stop i hb (.inl rfl) (hostStopAct_granted hid hlive h68)

/-- CANCEL after release (R50). -/
theorem hostCancel_late (h6 : 6 ≤ (getSpan s h.bay.toNat).state) :
    HostDoes h 0x03 (.hostCancel h i) s (hostReply h 0x03 s 0x02 [] (hostAccepted h 0x03 s)) :=
  hostDoes_work (hostReply h 0x03 s 0x02 []) rfl fun _ _ _ => hostAct_stop i hb (.inr rfl) (hostStopAct_lateCancel hid hlive h6)

end

/-- TAGWRITE (R154). -/
theorem hostTagwrite_refused (d : List Byte) {f : Nat} (hf : f < 2 ^ 64) (hb : h.bay.toNat < 64) (hnone : cautionFind s f = none) (hfull : cautionFree s = none) :
    HostDoes h 0x11 (.hostTagwrite h f d) s (hostReply h 0x11 s 0x59 [] (hostAccepted h 0x11 s)) :=
  hostDoes_work (hostReply h 0x11 s 0x59 []) rfl fun _ _ _ => (hostAct_tagWrite d hf hb).trans (hostTagWrite_full hnone hfull)

theorem hostTagwrite_asked (d : List Byte) {f : Nat} (hf : f < 2 ^ 64) (hb : h.bay.toNat < 64) (hasks : cautionFind s f ≠ none ∨ cautionFree s ≠ none) :
    HostDoes h 0x11 (.hostTagwrite h f d) s (hostAsk (hostReqOf h 0x11 s) (.tagWrite (hostReqOf h 0x11 s) f (padTo 32 d) (cautionFind s f).isSome) h.bay.toNat
      (hostAccepted h 0x11 s)) :=
  hostDoes_work (hostAsk (hostReqOf h 0x11 s) (.tagWrite (hostReqOf h 0x11 s) f (padTo 32 d) (cautionFind s f).isSome) h.bay.toNat) rfl fun _ _ _ =>
    (hostAct_tagWrite d hf hb).trans (hostTagWrite_asks hasks)

/-- JRN_READ (R299). -/
theorem hostJrnRead_off {q n : Nat} (hq : q < 2 ^ 64) (h1 : 1 ≤ n) (h32 : n ≤ 32) (hoff : canAct s 4 = false) :
    HostDoes h 0x06 (.hostJrnRead h q n) s (hostReply h 0x06 s 0x03 [] (hostAccepted h 0x06 s)) :=
  hostDoes_work (hostReply h 0x06 s 0x03 []) rfl fun _ _ _ => (hostAct_jrnRead n hq).trans ((if_neg (by omega)).trans (hostStore_off _ (by exact hoff)))

theorem hostJrnRead_records {q n : Nat} {bs : List Byte} {st : Status} (hq : q < 2 ^ 64) (h1 : 1 ≤ n) (h32 : n ≤ 32) (hon : ¬canAct s 4 = false)
    (hx : hostRecords s q n = (bs, st)) : HostDoes h 0x06 (.hostJrnRead h q n) s (hostReply h 0x06 s st bs (hostAccepted h 0x06 s)) := by
  refine hostDoes_work (hostReply h 0x06 s st bs) rfl fun l f m => ?_
  refine (hostAct_jrnRead n hq).trans ((if_neg (by omega)).trans ((hostStore_on _ (by exact hon)).trans ?_))
  rw [hostRecords_keeps, hx]
  rfl

/-- JRN_ACK (R297). -/
theorem hostJrnAck_acks {q : Nat} (hq : q < 2 ^ 64) : HostDoes h 0x07 (.hostJrnAck h q) s (
    if canAct s 4 = false then hostReply h 0x07 s 0x03 [] (hostAccepted h 0x07 s)
    else if s.store.head < q then hostReply h 0x07 s 0xAB [] (hostAccepted h 0x07 s)
    else if q ≤ s.store.ledger.ackSeq then hostReply h 0x07 s 0x00 [] (hostAccepted h 0x07 s)
    else hostReply h 0x07 s 0x00 [] { hostAccepted h 0x07 s with store := { s.store with changes := s.store.changes ++ [.ack q] } }) := by
  refine hostDoes_work (fun u => if canAct s 4 = false then hostReply h 0x07 s 0x03 [] u else if s.store.head < q then hostReply h 0x07 s 0xAB [] u
    else if q ≤ s.store.ledger.ackSeq then hostReply h 0x07 s 0x00 [] u
    else hostReply h 0x07 s 0x00 [] { u with store := { s.store with changes := s.store.changes ++ [.ack q] } }) rfl fun l f p => ?_
  refine (hostAct_jrnAck hq).trans ?_
  dsimp only
  split
  next hoff => exact hostStore_off _ (by exact hoff)
  next hon =>
    refine (hostStore_on _ (by exact hon)).trans ?_
    unfold jrnAckCommit
    dsimp only
    split
    · rfl
    · split <;> rfl

/-- DB_COMMIT (R289). -/
theorem hostDbCommit_refused {v : Nat} (hv : v < 2 ^ 64) (hon : ¬canAct s 4 = false)
    (hno : ∀ x, s.store.update = some x → x.version ≠ v ∨ chunksWritten s ≠ 1040) :
    HostDoes h 0x0A (.hostDbCommit h v) s (hostReply h 0x0A s 0xA9 [] (hostAccepted h 0x0A s)) :=
  hostDoes_work (hostReply h 0x0A s 0xA9 []) rfl fun l f p =>
    (hostAct_dbCommit hv).trans ((hostStore_on _ (by exact hon)).trans (hostCommit_refused (s := { s with link := l, free := f, perf := p }) hno))

theorem hostDbCommit_granted {v : Nat} {x : CredUpdate} (hv : v < 2 ^ 64) (hon : ¬canAct s 4 = false) (hx : s.store.update = some x) (hver : x.version = v)
    (hall : chunksWritten s = 1040) : HostDoes h 0x0A (.hostDbCommit h v) s { hostAccepted h 0x0A s with
      store := { s.store with changes := s.store.changes ++ [.cred (1 - s.store.ledger.credArea) v x.seed x.entries] }
      span := { s.span with jobs := s.span.jobs ++ [⟨17, .dbCommit (hostReqOf h 0x0A s), none⟩] } } :=
  hostDoes_work (fun u => { u with store := { s.store with changes := _ }, span := { s.span with jobs := _ } }) rfl fun l f p =>
    (hostAct_dbCommit hv).trans ((hostStore_on _ (by exact hon)).trans
      (hostCommit_granted (s := { s with link := l, free := f, perf := p }) hx hver hall))

/-- IMAGE_DATA (R339, R415). -/
theorem hostImageData_off {o : Nat} (d : List Byte) (ho : o < 2 ^ 32) (hoff : canAct s 4 = false) :
    HostDoes h 0x0C (.hostImageData h o d) s (hostReply h 0x0C s 0x03 [] (hostAccepted h 0x0C s)) :=
  hostDoes_work (hostReply h 0x0C s 0x03 []) rfl fun _ _ _ => (hostAct_imageData d ho).trans (hostStore_off _ (by exact hoff))

theorem hostImageData_refused {o : Nat} (d : List Byte) (ho : o < 2 ^ 32) (hon : ¬canAct s 4 = false)
    (hbad : (d.length < 64 ∨ 16384 < d.length ∨ d.length % 64 ≠ 0 ∨ 0xA0000 < o + d.length) ∨ s.store.imgBusy = true) :
    HostDoes h 0x0C (.hostImageData h o d) s (hostReply h 0x0C s 0x02 [] (hostAccepted h 0x0C s)) :=
  hostDoes_work (hostReply h 0x0C s 0x02 []) rfl fun l f p =>
    (hostAct_imageData d ho).trans ((hostStore_on _ (by exact hon)).trans (hostImage_refused (s := { s with link := l, free := f, perf := p }) hbad))

theorem hostImageData_taken {o : Nat} (d : List Byte) (ho : o < 2 ^ 32) (hon : ¬canAct s 4 = false)
    (hgood : ¬(d.length < 64 ∨ 16384 < d.length ∨ d.length % 64 ≠ 0 ∨ 0xA0000 < o + d.length)) (hidle : s.store.imgBusy = false) :
    HostDoes h 0x0C (.hostImageData h o d) s (hostReply h 0x0C s 0x00 [] { hostAccepted h 0x0C s with
      mem := Memory.writeBytes s.mem (0xA0000 * (1 - s.store.ledger.imageBank) + o) d, store := { s.store with imgOpen := true, imgDone := false } }) :=
  hostDoes_work (fun u => hostReply h 0x0C s 0x00 [] { u with mem := _, store := { s.store with imgOpen := true, imgDone := false } }) rfl fun l f p =>
    (hostAct_imageData d ho).trans ((hostStore_on _ (by exact hon)).trans (hostImage_taken (s := { s with link := l, free := f, perf := p }) hgood hidle))

section
variable (hon : ¬canAct s 4 = false)
include hon

/-- IMAGE_COMMIT (R339). -/
theorem hostImageCommit_busy (hbusy : s.store.imgBusy = true) : HostDoes h 0x0D (.hostImageCommit h) s
    (hostReply h 0x0D s 0x02 [] { hostAccepted h 0x0D s with store := { s.store with imgOpen := false } }) :=
  hostDoes_work (fun u => hostReply h 0x0D s 0x02 [] { u with store := { s.store with imgOpen := false } }) rfl fun l f p =>
    (hostStore_on _ (by exact hon)).trans (hostImageEnd_busy (s := { s with link := l, free := f, perf := p }) hbusy)

theorem hostImageCommit_hashes (hidle : s.store.imgBusy = false) (hlen : imageLengthOk s (1 - s.store.ledger.imageBank) = true) :
    HostDoes h 0x0D (.hostImageCommit h) s { hostAccepted h 0x0D s with
      store := { s.store with imgOpen := false, imgBusy := true, imgDone := false }
      span := { s.span with jobs := s.span.jobs ++ [⟨16, .imageVerify (hostReqOf h 0x0D s), none⟩] } } :=
  hostDoes_work (fun u => { u with store := { s.store with imgOpen := false, imgBusy := true, imgDone := false }, span := { s.span with jobs := _ } }) rfl
    fun l f p => (hostStore_on _ (by exact hon)).trans (hostImageEnd_hashes (s := { s with link := l, free := f, perf := p }) hidle hlen)

theorem hostImageCommit_badLength (hidle : s.store.imgBusy = false) (hlen : imageLengthOk s (1 - s.store.ledger.imageBank) = false)
    (hnone : ∀ j ∈ s.span.jobs, j.tag ≠ 16) : HostDoes h 0x0D (.hostImageCommit h) s
    (hostReply h 0x0D s 0x02 [] { hostAccepted h 0x0D s with store := { s.store with imgOpen := false, imgDone := true, imgStatus := 0x02 } }) :=
  hostDoes_work (fun u => hostReply h 0x0D s 0x02 [] { u with store := { s.store with imgOpen := false, imgDone := true, imgStatus := 0x02 } }) rfl
    fun l f p => (hostStore_on _ (by exact hon)).trans (hostImageEnd_badLength (s := { s with link := l, free := f, perf := p }) hidle hlen hnone)

end

/-- ATTEST (R260). -/
theorem hostAttest_off (d : List Byte) (hoff : canAct s 2 = false) :
    HostDoes h 0x0E (.hostAttest h d) s (hostReply h 0x0E s 0x03 [] (hostAccepted h 0x0E s)) :=
  hostDoes_work (hostReply h 0x0E s 0x03 []) rfl fun _ _ _ => if_neg (fun hon => Bool.false_ne_true (hoff.symm.trans hon))

theorem hostAttest_waits (d : List Byte) {j : SignJob} (hact : canAct s 2 = true) (hj : s.signer.job = some j) :
    HostDoes h 0x0E (.hostAttest h d) s { hostAccepted h 0x0E s with
      span := { s.span with jobs := s.span.jobs ++ [⟨18, .attest (hostReqOf h 0x0E s) (padTo 16 d), none⟩] } } :=
  hostDoes_work (fun u => { u with span := { s.span with jobs := _ } }) rfl fun _ _ _ =>
    (hostAct_attest d).trans ((if_pos (by exact hact)).trans (attestNext_waits (by exact hj)))

theorem hostAttest_free (d : List Byte) (hact : canAct s 2 = true) (hfree : s.signer.job = none) (hnone : ∀ j ∈ s.span.jobs, j.tag ≠ 18)
    (hnew : ∀ j ∈ s.span.jobs, j.kind ≠ .attest (hostReqOf h 0x0E s) (padTo 16 d)) : HostDoes h 0x0E (.hostAttest h d) s
    (signerStart ⟨4, 1, 0, none, 0, .attest (hostReqOf h 0x0E s) (padTo 16 d)⟩ (hostAccepted h 0x0E s)) :=
  hostDoes_work (signerStart ⟨4, 1, 0, none, 0, .attest (hostReqOf h 0x0E s) (padTo 16 d)⟩) rfl fun l f p =>
    (hostAct_attest d).trans ((if_pos (by exact hact)).trans (attestNext_free (s := { s with link := l, free := f, perf := p }) hact hfree hnone hnew))

/-- CERT (R261). -/
theorem hostCert_answered : HostDoes h 0x0F (.hostCert h) s (if canAct s 4 = false then hostReply h 0x0F s 0x03 [] (hostAccepted h 0x0F s)
    else hostReply h 0x0F s 0x00 (memReadBytes s 0x1CF400 (2 + min (leAt (memReadBytes s 0x1CF400 2) 0 2) 0xBFE)) (hostAccepted h 0x0F s)) := by
  refine hostDoes_work (fun u => if canAct s 4 = false then hostReply h 0x0F s 0x03 [] u
    else hostReply h 0x0F s 0x00 (memReadBytes s 0x1CF400 (2 + min (leAt (memReadBytes s 0x1CF400 2) 0 2) 0xBFE)) u) rfl fun l f p => ?_
  have hread : ∀ a n, memReadBytes { s with link := l, free := f, perf := p } a n = memReadBytes s a n := fun _ _ => rfl
  refine hostAct_cert.trans ?_
  split
  next hoff => exact hostStore_off _ (by exact hoff)
  next hon =>
    refine (hostStore_on _ (by exact hon)).trans ?_
    rw [hread, hread]
    rfl

end

end Sys2Proof.Machine
end

section
/-! The statement about the effects of the host's requests (02_span_service.md). -/

namespace Sys2Proof.Proofs

open Sys2Proof Sys2Proof.Machine

/-- Settles O50: each row's body gives its fields back, and each request's work is that of its lemma. -/
theorem hostRequestEffects : Obligations.HostRequestEffects := by
  intro s h _ at_ r ans does asks b p off
  refine ⟨fun hb => ⟨fun d => ?_, fun i => ?_, fun i => ?_, fun x y z f => ?_, fun f d => ?_, ?_⟩, fun hb => ⟨fun d hidle hon hroom hnew => ?_, fun i => ⟨?_, ?_, ?_, ?_, ?_⟩,
    fun x y z f hf => ?_, fun f d hf => ⟨fun hnone hfull => ?_, fun hasks => ?_⟩, ?_⟩, fun a n => ?_, fun a ws => ?_,
    fun q n hq => ⟨?_, fun h1 h32 => ⟨fun hoff => ?_, fun hon k hk hgood hlt hbad => ?_, fun hon hgood => ?_⟩⟩, fun q hq => ?_, fun utc hutc => ?_, fun d => ⟨?_, ?_⟩,
    fun v hv => ⟨fun hoff => ?_, fun hon hno => ?_, fun x hon hx hver hall => ?_⟩, ?_, ?_, fun d => ⟨?_, ?_, ?_⟩, ?_, fun x d a reply => ?_⟩
  · exact hostDoes rfl (hostAct_noBay hb (by decide))
  · exact hostDoes rfl (hostAct_noBay hb (by decide))
  · exact hostDoes rfl (hostAct_noBay hb (by decide))
  · exact hostDoes rfl (hostAct_noBay hb (by decide))
  · exact hostDoes rfl (hostAct_noBay hb (by decide))
  · exact hostDoes rfl (hostAct_noBay hb (by decide))
  · exact hostStart_queued s h d hb hidle hon hroom hnew
  · exact hostStop_other s h i hb
  · exact hostStop_early s i hb
  · exact hostStop_metering s i hb
  · exact hostStop_granted s i hb
  · exact hostCancel_late s i hb
  · exact hostDoes rfl (hostAct_range x y z hf hb)
  · exact hostTagwrite_refused s h d hf hb hnone hfull
  · exact hostTagwrite_asked s h d hf hb hasks
  · exact hostDoes rfl (hostBay_some _ hb)
  · exact hostDoes rfl (hostAct_regRead a n)
  · exact hostDoes rfl (hostAct_regWrite a ws)
  · exact fun hn => hostDoes rfl ((hostAct_jrnRead n hq).trans (if_pos hn))
  · exact hostJrnRead_off s h hq h1 h32 hoff
  · exact hostJrnRead_records s h hq h1 h32 hon (hostRecords_absent k hlt hgood hbad)
  · exact hostJrnRead_records s h hq h1 h32 hon (hostRecords_all hgood)
  · exact hostJrnAck_acks s h hq
  · exact hostDoes_work (fun u => hostAsk (r 0x08) (.timeSet (some (r 0x08)) utc s.time.us) 0 u) rfl fun _ _ _ => hostAct_timeSet hutc
  · exact hostDoes rfl rfl
  · exact hostDoes rfl rfl
  · exact hostDoes_work (ans 0x0A 0x03 []) rfl fun _ _ _ => (hostAct_dbCommit hv).trans (hostStore_off _ (by exact hoff))
  · exact hostDbCommit_refused s h hv hon hno
  · exact hostDbCommit_granted s h hv hon hx hver hall
  · exact fun o d ho => ⟨hostImageData_off s h d ho, hostImageData_refused s h d ho, hostImageData_taken s h d ho⟩
  · exact ⟨fun hoff => hostDoes_work (ans 0x0D 0x03 []) rfl fun _ _ _ => hostStore_off _ (by exact hoff), hostImageCommit_busy s h,
      hostImageCommit_hashes s h, hostImageCommit_badLength s h⟩
  · exact hostAttest_off s h d
  · exact fun hact j hj => hostAttest_waits s h d hact hj
  · exact hostAttest_free s h d
  · exact hostCert_answered s h
  · exact hostDoes rfl (hostAct_hook (show 0x12 < 0x60 + x.toNat by omega))

end Sys2Proof.Proofs
end

section
/-! SUPPORT. The toll gate: what has latched, placements, requests answered and handles cancelled (R77 to R99). -/

namespace Sys2Proof.Machine

variable (s : State)

/-! ## What latches (R13, R81, R99) -/

/-- A state without what has latched. -/
def unlatched (s : State) : State := { s with latched := [] }

theorem unlatched_latched (l : SMap Nat) : unlatched { s with latched := l } = unlatched s := rfl

/-- States that differ in what has latched only. -/
theorem eq_of_unlatched {t : State} (h : unlatched t = unlatched s) : ∃ l, t = { s with latched := l } :=
  ⟨t.latched, congrArg (fun u : State => { u with latched := t.latched }) h⟩

@[simp] theorem unlatched_latchFields (i : Nat) (r : Reg) (k mask : Nat) : unlatched (latchFields i r k mask s) = unlatched s := rfl

@[simp] theorem unlatched_latchReg (i : Nat) (r : Reg) (k : Nat) : unlatched (latchReg s i r k) = unlatched s := rfl

@[simp] theorem unlatched_latchClass (k : Nat) : unlatched (latchClass k s) = unlatched s := by
  unfold latchClass
  exact foldl_keeps unlatched (fun s _ => unlatched_latchReg s _ _ _) _ s

/-- The entries of a request latch registers only. -/
theorem latchClasses_eq (ks : List Nat) : ∃ l, ks.foldl (fun s k => latchClass k s) s = { s with latched := l } :=
  eq_of_unlatched s (foldl_keeps unlatched unlatched_latchClass ks s)

/-- A frame boundary's latching, each field held or not. -/
theorem latchFrame_eq : ∃ l, latchFrame s = { s with latched := l } := by
  have hone : ∀ (held : Bool) (i : Nat) (r : Reg) (k mask : Nat) (u : State),
      unlatched (if held = true then u else latchFields i r k mask u) = unlatched u := fun _ i r k mask u =>
    ite_keeps unlatched rfl (unlatched_latchFields u i r k mask)
  refine eq_of_unlatched s ?_
  unfold latchFrame
  extract_lets one deck keys store link piers rf meter disp lfi held turn coex
  have hlink : unlatched link = unlatched s := (hone _ _ _ _ _ _).trans ((hone _ _ _ _ _ _).trans ((hone _ _ _ _ _ _).trans (hone _ _ _ _ _ _)))
  have hpiers : unlatched piers = unlatched link := by
    refine foldl_keeps unlatched (fun u n => ?_) _ _
    split <;> rfl
  have hdisp : unlatched disp = unlatched piers := (hone _ _ _ _ _ _).trans ((hone _ _ _ _ _ _).trans (hone _ _ _ _ _ _))
  have hlfi : unlatched lfi = unlatched disp := foldl_keeps unlatched (fun _ _ => hone _ _ _ _ _ _) _ _
  have hturn : unlatched turn = unlatched lfi := hone _ _ _ _ _ _
  have hcoex : unlatched coex = unlatched turn := foldl_keeps unlatched (fun _ _ => hone _ _ _ _ _ _) _ _
  rw [unlatched_latched, hcoex, hturn, hlfi, hdisp, hpiers, hlink]

/-! ## Placements keep what is placed (R84, R88, R407) -/

section
variable {s} {bay h now : Nat}

/-- The stages of a placed class come after what is placed. -/
theorem placeStages_keeps {k e : Nat} {u : Trial} {is : List Nat} : ∀ {start : Nat} {t : Trial},
    placeStages s k bay h now is start t = some (e, u) → t.resvs.Sublist u.resvs := by
  induction is with
  | nil => rintro start t ⟨⟩; exact List.Sublist.refl _
  | cons i is ih =>
    intro start t hplace
    unfold placeStages at hplace
    dsimp only at hplace
    split at hplace
    · cases hplace
    · exact (List.sublist_append_left _ _).trans (ih hplace)

/-- So do those of one try on a zoned device. -/
theorem zonedTry_keeps {k e : Nat} {u : Trial} {is : List Nat} : ∀ {start : Nat} {first : Option Nat} {t : Trial},
    zonedTry s k bay h now is start first t = .inl (some (e, u)) → t.resvs.Sublist u.resvs := by
  induction is with
  | nil => rintro start first t ⟨⟩; exact List.Sublist.refl _
  | cons i is ih =>
    intro start first t htry
    unfold zonedTry at htry
    dsimp only at htry
    split at htry
    · cases htry
    · cases htry
    · exact (List.sublist_append_left _ _).trans (ih htry)
    · split at htry
      · cases htry
      · exact (List.sublist_append_left _ _).trans (ih htry)

/-- A try that fails starts again from the same trial. -/
theorem placeZoned_keeps {k e : Nat} {t u : Trial} {fuel : Nat} : ∀ {start : Nat},
    placeZoned s k bay h now fuel start t = some (e, u) → t.resvs.Sublist u.resvs := by
  induction fuel with
  | zero => rintro start ⟨⟩
  | succ fuel ih =>
    intro start hplace
    have hagain : ∀ {o : Option Nat}, (match o with | some f => placeZoned s k bay h now fuel f t | none => none) = some (e, u) →
        t.resvs.Sublist u.resvs := by
      rintro (_ | f) ho
      · cases ho
      · exact ih ho
    unfold placeZoned at hplace
    dsimp only at hplace
    split at hplace
    · cases hplace
    next htry =>
      split at hplace
      · cases hplace
        exact zonedTry_keeps htry
      · exact hagain hplace
    · exact hagain hplace

/-- A group's placement keeps every reservation before it. -/
theorem placeGroup_keeps {time : Nat} {u : Trial} {ks : List Nat} : ∀ {start : Nat} {t : Trial},
    placeGroup s bay h now time ks start t = some u → t.resvs.Sublist u.resvs := by
  induction ks with
  | nil => rintro start t ⟨⟩; exact List.Sublist.refl _
  | cons k ks ih =>
    intro start t hgroup
    unfold placeGroup at hgroup
    split at hgroup
    · extract_lets add v at hgroup
      split at hgroup
      · exact ih (t := v) hgroup
      · cases hgroup
    · split at hgroup
      · cases hgroup
      next e v hplace =>
        split at hgroup
        · cases hgroup
        · refine List.Sublist.trans ?_ (ih hgroup)
          split at hplace
          · exact placeStages_keeps hplace
          · exact placeZoned_keeps hplace

end

/-! ## Requests answered (R74, R88 to R90, R97, R99) -/

/-- The handle given is a free one. -/
theorem freeHandle_notMem {h : Nat} (hfree : freeHandle s = some h) : h ∉ s.toll.handles := by
  have := List.find?_some hfree
  simpa using this

/-- The gate with one more answer; a refused one is counted. -/
def TollState.answered (a : TollAnswer) (g : TollState) : TollState :=
  { g with answers := g.answers ++ [a], refused := if a.status = 0x01 then satTo 0xFFFF (g.refused + 1) else g.refused }

/-- The gate with a trial committed under handle h; k is its PARK admission. -/
def TollState.admitted (u : Trial) (h : Nat) (k : Option Nat) (g : TollState) : TollState :=
  { g with resvs := u.resvs, bearings := u.bearings, handles := h :: g.handles, parking := k }

/-- An answer changes the gate and the counters. -/
theorem tollAnswer_eq (w : Nat) (st : Status) (h first last : Nat) : ∃ p, tollAnswer w st h first last s =
    { s with perf := p, toll := s.toll.answered ⟨st, bitsOf w 28 4, h, first, last, s.time.us⟩ } := by
  obtain ⟨p, hp⟩ := countEvent_eq s 1 0x041 (b2n (st == 0x00))
  obtain ⟨q, hq⟩ := countEvent_eq { s with perf := p } 1 0x042 (b2n (st == 0x01))
  unfold tollAnswer
  rw [hp, hq]
  exact ⟨q, rfl⟩

/-- An admission takes the trial's reservations and the handle, and is answered with 0x00. -/
theorem tollAdmit_eq (w h : Nat) (u : Trial) : ∃ k first last p f, tollAdmit w h u s =
    { s with perf := p, free := f, toll := (s.toll.admitted u h k).answered ⟨0x00, bitsOf w 28 4, h, first, last, s.time.us⟩ } := by
  unfold tollAdmit
  dsimp only
  generalize hv : modToll _ s = v
  split
  next a b _ =>
    obtain ⟨p, hp⟩ := tollAnswer_eq v w 0x00 h (slotOf a) (slotOf b)
    rw [hp, ← hv]
    exact ⟨_, _, _, p, s.free, rfl⟩
  · obtain ⟨p, hp⟩ := tollAnswer_eq (useFree (useFree v)) w 0x00 h (freeValue v % 2048) (freeValue (useFree v) % 2048)
    rw [hp, ← hv]
    exact ⟨_, _, _, p, _, rfl⟩

/-- From s to t a request's entries have latched, and the gate has become g. -/
def Processed (s t : State) (g : TollState) : Prop := ∃ l p f, t = { s with latched := l, perf := p, free := f, toll := g }

/-- The request w, before `rest` in the gate's queue, is refused. -/
def Refuses (w : Nat) (rest : List Nat) (st : Status) (s t : State) : Prop :=
  Processed s t ({ s.toll with reqs := rest }.answered ⟨st, bitsOf w 28 4, 0, 0, 0, s.time.us⟩)

/-- It is admitted under a handle that was free, with nothing taken from the calendar. -/
def Admits (w : Nat) (rest : List Nat) (s t : State) : Prop := ∃ h u k first last, h ∉ s.toll.handles ∧ s.toll.resvs.Sublist (Trial.resvs u) ∧
  Processed s t (({ s.toll with reqs := rest }.admitted u h k).answered ⟨0x00, bitsOf w 28 4, h, first, last, s.time.us⟩)

/-- The oldest request is refused, with 0x02 where ENABLE is 0, or admitted. -/
theorem tollProcess_cases {w : Nat} {rest : List Nat} (hact : canAct s 1 = true) (hreqs : s.toll.reqs = w :: rest) :
    (∃ st : Status, (st = 0x01 ∨ st = 0x02) ∧ (bitOf (regValue s 1 .tollCtrl 0) 0 = false → st = 0x02) ∧ Refuses w rest st s (tollProcess s)) ∨
    (bitOf (regValue s 1 .tollCtrl 0) 0 = true ∧ Admits w rest s (tollProcess s)) := by
  obtain ⟨l, hl⟩ := latchClasses_eq (modToll (fun t => { t with reqs := rest }) s) (latchedClasses (reqClasses w))
  unfold tollProcess
  rw [hreqs]
  dsimp only
  rw [if_neg (by simp [hact]), hl]
  generalize hv : ({ modToll (fun t => { t with reqs := rest }) s with latched := l } : State) = v
  have hctrl : regValue v 1 .tollCtrl 0 = regValue s 1 .tollCtrl 0 := by rw [← hv]; rfl
  have hrefuse : ∀ st, Refuses w rest st s (tollAnswer w st 0 0 0 v) := by
    intro st
    obtain ⟨p, hp⟩ := tollAnswer_eq v w st 0 0 0
    rw [hp, ← hv]
    exact ⟨l, p, s.free, rfl⟩
  have hadmit : ∀ h u, freeHandle v = some h → v.toll.resvs.Sublist (Trial.resvs u) → Admits w rest s (tollAdmit w h u v) := by
    intro h u hfree hkept
    have hnew := freeHandle_notMem v hfree
    obtain ⟨k, first, last, p, f, hp⟩ := tollAdmit_eq v w h u
    rw [hp]
    subst hv
    exact ⟨h, u, k, first, last, hnew, hkept, l, p, f, rfl⟩
  rw [hctrl]
  split
  · exact .inl ⟨0x02, .inr rfl, fun _ => rfl, hrefuse _⟩
  next hon =>
  split
  · exact .inl ⟨0x02, .inr rfl, fun _ => rfl, hrefuse _⟩
  split
  · exact .inl ⟨0x02, .inr rfl, fun _ => rfl, hrefuse _⟩
  split
  · exact .inl ⟨0x01, .inl rfl, fun h => absurd h hon, hrefuse _⟩
  next hsome =>
  obtain ⟨h, hh⟩ := Option.ne_none_iff_exists'.1 hsome
  rw [hh]
  split
  · exact .inr ⟨by simpa using hon, hadmit h _ hh (List.Sublist.refl _)⟩
  split
  next u hu => exact .inr ⟨by simpa using hon, hadmit h u hh (placeGroup_keeps hu)⟩
  · exact .inl ⟨0x01, .inl rfl, fun h => absurd h hon, hrefuse _⟩

/-! ## TOLL_REQ and TOLL_CANCEL (R89, R90) -/

/-- With room and no PARK admission to withdraw, a request waits. -/
theorem tollReqWrite_room (w : Nat) (hpark : s.toll.parking = none) (hroom : inFlight s < 4) (hfree : freeHandle s ≠ none) :
    ∃ p, tollReqWrite w s = (0x00, { s with perf := p, toll := { s.toll with reqs := s.toll.reqs ++ [w] } }) := by
  obtain ⟨p, hp⟩ := countEvent_eq (modToll (fun t => { t with reqs := t.reqs ++ [w] }) s) 1 0x040 1
  refine ⟨p, ?_⟩
  unfold tollReqWrite
  rw [hpark]
  dsimp only
  rw [if_neg (not_or.2 ⟨Nat.not_le.2 hroom, hfree⟩), hp]
  rfl

/-- Without room it is refused, and nothing changes. -/
theorem tollReqWrite_full (w : Nat) (hpark : s.toll.parking = none) (hfull : 4 ≤ inFlight s ∨ freeHandle s = none) :
    tollReqWrite w s = (0x01, s) := by
  unfold tollReqWrite
  rw [hpark]
  exact if_pos hfull

/-- A register command that its writer may give runs its action. -/
theorem cmdWrite_next {ini i : Nat} {r : Reg} {act : State → Status × State} {st : Status} {t : State} (ha : Accepts s ini i r)
    (h : ∀ p, ∃ q, act { s with perf := p } = (st, { t with perf := q })) : ∃ p, cmdWrite ini i r act s = setResp ini [] st { t with perf := p } := by
  obtain ⟨hreach, hact, hmay⟩ := ha
  exact islandWrite_next s r hreach hact fun p => (h p).imp fun _ hq => (if_pos hmay).trans hq

/-- A reservation as the cancel of handle h in frame `now` leaves it (R90). -/
def Resv.cancelled (h now : Nat) (x : Resv) : Option Resv :=
  if x.handle ≠ h then some x else if now < x.first then none else some { x with frames := min x.frames (now + 1 - x.first) }

theorem tollCancelHandle_resvs (h : Nat) : (tollCancelHandle h s).toll.resvs = s.toll.resvs.filterMap (Resv.cancelled h (s.time.us / 1000)) := rfl

theorem Resv.cancelled_other {h now : Nat} {x : Resv} (hx : x.handle ≠ h) : x.cancelled h now = some x := if_pos hx

/-- A cancelled reservation keeps nothing after the present frame. -/
theorem Resv.cancelled_own {h now : Nat} {x y : Resv} (hx : x.handle = h) (hy : x.cancelled h now = some y) :
    y.handle = h ∧ y.first ≤ now ∧ y.first + y.frames ≤ now + 1 := by
  unfold Resv.cancelled at hy
  rw [if_neg (not_not.2 hx)] at hy
  split at hy
  · cases hy
  next hnow =>
    cases hy
    exact ⟨hx, Nat.not_lt.1 hnow, by dsimp only; omega⟩

/-- Of the handle's own reservations nothing after the present frame stays. -/
theorem filterMap_cancelled_own {h now : Nat} {rs : List Resv} {y : Resv} (hy : y ∈ rs.filterMap (Resv.cancelled h now)) (hh : y.handle = h) :
    y.first ≤ now ∧ y.first + y.frames ≤ now + 1 := by
  obtain ⟨x, -, hxy⟩ := List.mem_filterMap.1 hy
  by_cases hx : x.handle = h
  · exact (Resv.cancelled_own hx hxy).2
  · rw [Resv.cancelled_other hx] at hxy
    cases hxy
    exact absurd hh hx

/-- The reservations of other handles stay whole. -/
theorem filterMap_cancelled_others (h now : Nat) (rs : List Resv) :
    (rs.filterMap (Resv.cancelled h now)).filter (fun x => x.handle != h) = rs.filter (fun x => x.handle != h) := by
  induction rs with
  | nil => rfl
  | cons x rs ih =>
    by_cases hx : x.handle = h
    · have hdrop : (x :: rs).filter (fun x => x.handle != h) = rs.filter (fun x => x.handle != h) := List.filter_cons_of_neg (by simp [hx])
      rw [hdrop, ← ih]
      cases hc : x.cancelled h now with
      | none => rw [List.filterMap_cons_none hc]
      | some y => rw [List.filterMap_cons_some hc, List.filter_cons_of_neg (by simp [(Resv.cancelled_own hx hc).1])]
    · rw [List.filterMap_cons_some (Resv.cancelled_other hx), List.filter_cons_of_pos (by simpa using hx),
        List.filter_cons_of_pos (by simpa using hx), ih]

/-! ## Misses and abandoned hooks (R93, R344, R379) -/

/-- The parapet and the gate's count of misses. -/
def missView (s : State) : ParapetState × Nat := (s.par, s.toll.missed)

@[simp] theorem missView_submitRecord (r : JRecord) : missView (submitRecord r s) = missView s := by
  obtain ⟨q, c, o, m, p, h, -⟩ := submitRecord_eq r s
  rw [h]; rfl

@[simp] theorem missView_deckFault (code : Status) (island unit time : Nat) (detail : List Byte) :
    missView (deckFault code island unit time detail s) = missView s := missView_submitRecord s _

@[simp] theorem missView_answerReq (r : HostReq) (st : Status) (cls : Nat) (body : List Byte) : missView (answerReq r st cls body s) = missView s := by
  obtain ⟨l, z, o, p, h⟩ := answerReq_eq r st cls body s
  rw [h]; rfl

@[simp] theorem missView_answerIf (r : Option HostReq) (st : Status) (cls : Nat) : missView (answerIf r st cls s) = missView s := by
  obtain ⟨l, z, o, p, h⟩ := answerIf_eq r st cls s
  rw [h]; rfl

@[simp] theorem missView_sigAppend (j : SignJob) : missView (sigAppend j s) = missView s := by
  unfold sigAppend
  split
  · rfl
  · split
    · rfl
    · split
      · split <;> exact missView_submitRecord s _
      · exact missView_submitRecord s _

theorem missView_dropHandle (b : Nat) : missView (dropHandle b s) = missView s := by
  unfold dropHandle
  split <;> rfl

theorem missView_spanEnd (b nxt : Nat) (st : Option Status) (seq : Nat) : missView (spanEnd b nxt st seq s) = missView s := by
  obtain ⟨q, c, o, m, p, h, -⟩ := spanMove_eq b nxt st seq s
  refine (missView_dropHandle _ b).trans ?_
  rw [h]; rfl

@[simp] theorem missView_spanRefuse (b : Nat) (st : Status) : missView (spanRefuse b st s) = missView s :=
  (missView_spanEnd _ _ _ _ _).trans (ite_keeps missView rfl rfl)

@[simp] theorem missView_endJobs (f : Job → Bool) : missView (endJobs f s) = missView s :=
  foldl_keeps missView (fun _ j => by cases j.handle <;> rfl) _ _

@[simp] theorem missView_jobRefused (k : JobKind) (st : Status) : missView (jobRefused k st s) = missView s := by
  cases k with
  | entry b => exact ite_keeps missView (missView_spanRefuse s b st) rfl
  | timeSet => exact missView_answerIf s _ _ _
  | lookup => exact missView_answerIf s _ _ _
  | dbChunk => exact missView_answerReq s _ _ _ _
  | policy => exact missView_answerReq s _ _ _ _
  | imageVerify => exact missView_answerReq s _ _ _ _
  | range => exact missView_answerReq s _ _ _ _
  | tagWrite => exact missView_answerReq s _ _ _ _
  | tune => exact missView_answerReq s _ _ _ _
  | _ => rfl

@[simp] theorem missView_missAnswer (h : Nat) : missView (missAnswer h s) = missView s := by
  unfold missAnswer
  split
  · exact (missView_jobRefused _ _ _).trans (missView_endJobs s _)
  · rfl

/-- A miss is counted, and raised as 0xD5; what follows it leaves both as they are. -/
theorem missView_missed (h cls r deadline : Nat) : missView (missed h cls r deadline s) =
    ({ s.par with pend := s.par.pend ||| 2 ^ 5
                  log := logPush ⟨0xD5, 1, cls, s.time.us, false, leBytes 1 h ++ leBytes 1 r ++ leBytes 8 deadline⟩ s.par.log },
      satTo 0xFFFF (s.toll.missed + 1)) := by
  unfold missed
  dsimp only
  rw [missView_missAnswer]
  refine (ite_keeps missView (missView_sigAppend _ _) rfl).trans ?_
  refine (ite_keeps missView (missView_deckFault _ _ _ _ _ _) rfl).trans ?_
  simp [missView, parapetEvent]

/-- A fault that the deck journals stands in the queue under its code, island and unit. -/
theorem deckFault_record (code : Status) (island unit time : Nat) (detail : List Byte) : ∃ st m p,
    deckFault code island unit time detail s = { s with store := st, mem := m, perf := p } ∧ KeepsMemory s m ∧
    ∃ r ∈ st.queue, r.typ = 0x0D ∧ r.time = time ∧ r.body.take 3 = [code, BitVec.ofNat 8 island, BitVec.ofNat 8 unit] := by
  obtain ⟨q, c, o, m, p, h, hr, -, hm⟩ := submitRecord_eq { faultRecord s code.toNat island unit time detail with
    after := .fault code island unit time (padTo 16 detail) } s
  exact ⟨_, m, p, h, hm, _, hr, rfl, rfl, by simp [faultRecord, deviceRecord, leBytes]⟩

end Sys2Proof.Machine
end

section
/-! The statement about the toll gate (03_toll_gate.md). -/

namespace Sys2Proof.Proofs

open Sys2Proof Sys2Proof.Machine

/-- Settles O24: each command by the lemma that says what it leaves of the gate. -/
theorem tollGate : Obligations.TollGate := by
  refine ⟨fun ini word s ha hpark => ⟨fun hroom hfree => ?_, fun hfull => ?_⟩, fun w rest s hact hreqs => ?_, fun ini h s ha => ?_,
    fun s hact hframe => ?_, fun h cls r deadline s hact hheld hpast => ?_, fun hook bay s hruns hhook => ?_⟩
  · obtain ⟨p, hp⟩ := cmdWrite_next s (act := tollReqWrite word.toNat) (t := { s with toll := { s.toll with reqs := s.toll.reqs ++ [word.toNat] } }) ha
      fun p => tollReqWrite_room { s with perf := p } word.toNat hpark hroom hfree
    exact ⟨p, congrArg Host.Outcome.next hp⟩
  · obtain ⟨p, hp⟩ := cmdWrite_next s (act := tollReqWrite word.toNat) ha fun p => ⟨p, tollReqWrite_full { s with perf := p } word.toNat hpark hfull⟩
    exact ⟨p, congrArg Host.Outcome.next hp⟩
  · rcases tollProcess_cases s hact hreqs with ⟨st, hst, hoff, l, p, f, ht⟩ | ⟨hon, h, u, k, first, last, hnew, hkept, l, p, f, ht⟩
    · have hne : st ≠ 0x00 := by rcases hst with rfl | rfl <;> decide
      exact ⟨_, _, congrArg Host.Outcome.next ht, rfl, rfl, rfl, rfl, .inr hst, hoff, fun _ => ⟨rfl, rfl, rfl⟩, fun h => absurd h hne, rfl, rfl⟩
    · exact ⟨_, _, congrArg Host.Outcome.next ht, rfl, rfl, rfl, rfl, .inl rfl, fun h => by simp [hon] at h, fun h => absurd rfl h,
        fun _ => ⟨fun x hx => hkept.subset hx, rfl, hnew⟩, rfl, rfl⟩
  · obtain ⟨p, hp⟩ := cmdWrite_next s (act := fun s => (0x00, tollCancelHandle h.toNat s)) (t := tollCancelHandle h.toNat s) ha fun p => ⟨p, rfl⟩
    exact ⟨tollCancelHandle h.toNat s, p, congrArg Host.Outcome.next hp, rfl, rfl, rfl, fun x hx hh => filterMap_cancelled_own hx hh,
      filterMap_cancelled_others _ _ _, rfl, rfl⟩
  · obtain ⟨l, hl⟩ := latchFrame_eq (modToll (fun t => { t with
      frame := s.time.us / 1000, resvs := t.resvs.filter (fun x => decide (s.time.us / 1000 < x.first + x.frames)) }) s)
    exact ⟨l, congrArg Host.Outcome.next ((if_pos ⟨hframe, hact⟩).trans hl)⟩
  · have hmiss := missView_missed s h.toNat cls r deadline
    exact ⟨_, congrArg Host.Outcome.next (if_pos ⟨hact, by simpa using hheld, hpast⟩), congrArg Prod.snd hmiss,
      congrArg (·.1.pend) hmiss, congrArg (·.1.log) hmiss⟩
  · obtain ⟨st, m, p, hfault, hm, hr⟩ := deckFault_record s 0xDE 1 hook s.time.us []
    exact ⟨st, m, p, congrArg Host.Outcome.next ((if_pos ⟨hruns, hhook⟩).trans hfault), hm, hr⟩

end Sys2Proof.Proofs
end

section
/-! SUPPORT. Commands to a pier: a START refused, begun or armed, STOP, the downlink FIFO and the aerials cleared (R108 to R113, R123,
R124). -/

namespace Sys2Proof.Machine

variable (s : State)

/-- A register command that its writer may give: its action runs on a state that differs in the counters, and its status is the answer. -/
theorem cmdWrite_runs {ini i : Nat} {r : Reg} (act : State → Status × State) (ha : Accepts s ini i r) :
    ∃ p q, cmdWrite ini i r act s = setResp ini [] (act { s with perf := p }).1 { (act { s with perf := p }).2 with perf := q } := by
  obtain ⟨hreach, hact, hmay⟩ := ha
  obtain ⟨p, q, h⟩ := islandWrite_runs s r (fun s => if mayWrite ini i r then act s else (0x02, s)) hreach hact
  refine ⟨p, q, h.trans ?_⟩
  simp only [hmay, if_true]

/-- The same of a command whose effect has no status of its own. -/
theorem cmdDo_runs {ini i : Nat} {r : Reg} (act : State → State) (ha : Accepts s ini i r) :
    ∃ p q, cmdDo ini i r act s = setResp ini [] 0x00 { act { s with perf := p } with perf := q } :=
  cmdWrite_runs s (fun s => (0x00, act s)) ha

/-- A pier updated reads as updated. -/
theorem getPier_modPier_self {p : Nat} (hp : p < 8) (f : Pier → Pier) : getPier (modPier p f s) p = f (getPier s p) :=
  (getPier_modPier hp f s p).trans (if_pos rfl)

/-- An update of a pier that keeps its burst. -/
theorem burst_modPier (p : Nat) (f : Pier → Pier) (hf : ∀ q, (f q).burst = q.burst) :
    (getPier (modPier p f s) p).burst = (getPier s p).burst := by
  by_cases hp : p < 8
  · rw [getPier_modPier_self s hp, hf]
  · simp [getPier, modPier, modLf, vget, vset, hp]

/-! ## START (R108, R111, R112) -/

section
variable {p k mode : Nat}

theorem lfStartStatus_of_mode (hm : mode < 4) : lfStartStatus s p k mode =
    if (getPier s p).burst ≠ none then 0x45
    else if lfEnabled s p = false ∨ s.par.thermalStop ∨ s.par.clockStop then 0x02
    else if aerialFault s (8 * p + k) then 0x0D
    else if s.par.uvVinlf then 0x44
    else if mode = 3 ∧ chordT0 s p < s.time.us + 300 then 0x49 else 0x00 := by
  simp only [lfStartStatus, bayOf, Nat.not_le.mpr hm, false_or]
  rfl

/-- A START that is refused does nothing. -/
theorem lfStart_refused (n : Nat) (h : lfStartStatus s p k mode ≠ 0x00) : lfStart p k mode n s = (lfStartStatus s p k mode, s) :=
  if_pos h

/-- A START of a drive, ping or tune that is taken begins its burst. -/
theorem lfStart_begins (n : Nat) (h : lfStartStatus s p k mode = 0x00) (hm : mode ≠ 3) :
    lfStart p k mode n s = (0x00, beginBurst p (Burst.fresh k mode n none) s) :=
  (if_neg (not_not.mpr h)).trans (if_neg hm)

/-- A chord that is taken is armed with T0. -/
theorem lfStart_arms (n : Nat) (h : lfStartStatus s p k 3 = 0x00) : ∃ a, lfStart p k 3 n s =
    (0x00, { s with lf := (withBurst p (Burst.fresh k 3 0 (some (chordT0 s p))) s).lf, latched := a }) :=
  ⟨_, (if_neg (not_not.mpr h)).trans (if_pos rfl)⟩

end

/-- The start of any burst: its pier runs it, a ping under way is aborted, registers latch and the burst is counted. -/
theorem beginBurst_runs (p : Nat) (b : Burst) : ∃ a c q, beginBurst p b s =
    { s with lf := (withBurst p { b with armed := none, start := s.time.us, clamped := c } (abortPing p s)).lf, latched := a, perf := q } := by
  obtain ⟨a, ha⟩ := latchBurst_eq (abortPing p s) p b.mode
  have hbegin : ∀ u : State, latchBurst p b.mode (abortPing p s) = u → beginBurst p b s = countEvent (6 + p) 0x040 1
      (withBurst p { b with armed := none, start := u.time.us, clamped := (b.mode == 0 || b.mode == 3) && overLimit u p } u) := by
    rintro u rfl
    rfl
  obtain ⟨q, hq⟩ := countEvent_eq (withBurst p { b with
    armed := none, start := s.time.us, clamped := (b.mode == 0 || b.mode == 3) && overLimit { abortPing p s with latched := a } p }
    { abortPing p s with latched := a }) (6 + p) 0x040 1
  exact ⟨a, _, q, (hbegin _ ha).trans hq⟩

section
variable {s} {p : Nat} {b : Burst}

/-- A burst put on a pier after a ping was aborted there. -/
theorem getPier_withBurst_abortPing (hp : p < 8) : getPier (withBurst p b (abortPing p s)) p = { getPier s p with
    burst := some b, aerial := b.aerial, mode := b.mode,
    ping := { (getPier s p).ping with slots := (getPier s p).ping.slots.drop 1, left := (getPier s p).ping.left - 1 } } := by
  unfold withBurst abortPing
  rw [getPier_modPier_self _ hp, getPier_modPier_self _ hp]

theorem getPier_withBurst_abortPing_ne {n : Nat} (h : n ≠ p) : getPier (withBurst p b (abortPing p s)) n = getPier s n :=
  (getPier_modPier_ne h _ (abortPing p s)).trans (getPier_modPier_ne h _ s)

end

/-- What a command to pier p that is answered 0x00 leaves: the other piers, and all but the viaduct, the LF array, what has latched and
the counters. -/
def TakenByPier (ini p : Nat) (t : State) : Prop :=
  (∀ n, n ≠ p → getPier t n = getPier s n) ∧ answerOf t ini = ⟨[], 0x00⟩ ∧
    { t with via := s.via, lf := s.lf, latched := s.latched, perf := s.perf } = s

/-- A command that changes pier p alone, its registers latched. -/
theorem takenByPier_of {ini p : Nat} (hi : ini < 14) {l : LfState} (hl : ∀ n, n ≠ p → vget Pier.reset l.piers n = getPier s n) (a q) :
    TakenByPier s ini p (setResp ini [] 0x00 { s with lf := l, latched := a, perf := q }) :=
  ⟨hl, vget_vset_self _ _ _ hi, rfl⟩

/-- A START command that is refused changes its answer and the counters only. -/
theorem startCommand_refused {ini p k mode : Nat} (n : Nat) (ha : Accepts s ini (6 + p) .lfCmd) (h : lfStartStatus s p k mode ≠ 0x00) :
    ∃ q, cmdWrite ini (6 + p) .lfCmd (lfStart p k mode n) s = setResp ini [] (lfStartStatus s p k mode) { s with perf := q } :=
  cmdWrite_next s ha fun f => ⟨f, lfStart_refused { s with perf := f } n h⟩

/-- A START command that is taken begins its burst, or arms its chord. -/
theorem startCommand_taken {ini p k mode : Nat} (n : Nat) (hi : ini < 14) (hp : p < 8) (ha : Accepts s ini (6 + p) .lfCmd)
    (h : lfStartStatus s p k mode = 0x00) : ∃ t, cmdWrite ini (6 + p) .lfCmd (lfStart p k mode n) s = t ∧ TakenByPier s ini p t ∧
      (getPier t p).mode = mode ∧ (getPier t p).aerial = k ∧
      (mode = 3 → (getPier t p).burst = some (Burst.fresh k 3 0 (some (chordT0 s p)))) ∧
      (mode ≠ 3 →
        (getPier t p).ping = { (getPier s p).ping with slots := (getPier s p).ping.slots.drop 1, left := (getPier s p).ping.left - 1 } ∧
        ∃ c, (getPier t p).burst = some { Burst.fresh k mode n none with start := s.time.us, clamped := c }) := by
  obtain ⟨f, q, hrun⟩ := cmdWrite_runs s (lfStart p k mode n) ha
  by_cases hm : mode = 3
  · subst hm
    obtain ⟨a, harm⟩ := lfStart_arms { s with perf := f } n h
    rw [harm] at hrun
    have hpier : getPier (withBurst p (Burst.fresh k 3 0 (some (chordT0 s p))) s) p = _ := getPier_modPier_self s hp _
    refine ⟨_, hrun, takenByPier_of s hi (l := (withBurst p (Burst.fresh k 3 0 (some (chordT0 s p))) s).lf)
      (fun n hn => getPier_modPier_ne hn _ s) a q, ?_⟩
    exact ⟨congrArg Pier.mode hpier, congrArg Pier.aerial hpier, fun _ => congrArg Pier.burst hpier, fun hne => absurd rfl hne⟩
  · obtain ⟨a, c, q', hbegin⟩ := beginBurst_runs { s with perf := f } p (Burst.fresh k mode n none)
    rw [lfStart_begins { s with perf := f } n h hm, hbegin] at hrun
    have hpier := getPier_withBurst_abortPing (s := s) (b := { Burst.fresh k mode n none with start := s.time.us, clamped := c }) hp
    refine ⟨_, hrun, takenByPier_of s hi (l := (withBurst p { Burst.fresh k mode n none with start := s.time.us, clamped := c } (abortPing p s)).lf)
      (fun n hn => getPier_withBurst_abortPing_ne hn) a q, ?_⟩
    exact ⟨congrArg Pier.mode hpier, congrArg Pier.aerial hpier, fun h3 => absurd h3 hm,
      fun _ => ⟨congrArg Pier.ping hpier, c, congrArg Pier.burst hpier⟩⟩

/-! ## STOP (R113) -/

section
variable {s} {p : Nat} {b : Burst}

/-- STOP marks a running burst. -/
theorem lfStop_marks (hb : (getPier s p).burst = some b) (hn : b.armed = none) :
    lfStop p s = modPier p (fun q => { q with burst := some { b with stopped := true } }) s := by
  simp only [lfStop, hb, hn, ne_eq, not_true_eq_false, if_false]

/-- STOP disarms a chord with 0x48. -/
theorem lfStop_disarms (hp : p < 8) (hb : (getPier s p).burst = some b) (hn : b.armed ≠ none) : ∃ v,
    lfStop p s = { s with lf := { s.lf with piers := v } } ∧
    (∀ n, n ≠ p → vget Pier.reset v n = getPier s n) ∧
    ∃ j, vget Pier.reset v p = { getPier s p with burst := none, last := 0x48, event := (getPier s p).event ||| 1, job := j } := by
  have hstop : lfStop p s = tagBurstEnded p 0x48 (modPier p (fun q => { q with burst := none, last := 0x48, event := q.event ||| 1 }) s) := by
    simp only [lfStop, burstEnded, hb, hn, ne_eq, not_false_eq_true, if_true, if_false]
  obtain ⟨v, hv, hothers, j, hj⟩ := tagBurstEnded_eq hp 0x48
    (modPier p (fun q => { q with burst := none, last := 0x48, event := q.event ||| 1 }) s)
  rw [getPier_modPier_self s hp] at hj
  exact ⟨v, hstop.trans hv, fun n hn => (hothers n hn).trans (getPier_modPier_ne hn _ s), j, hj⟩

end

/-- LF_CTRL.ENABLE = 0 with no burst ends the pings. -/
theorem lfEnableWrite_off {p : Nat} (hb : (getPier s p).burst = none) : lfEnableWrite p false s =
    putReg (modPier p (fun x => { x with ping := { x.ping with slots := [], left := 0 } }) s) (6 + p) .lfCtrl 0 0 := by
  have hidle : ∀ u : State, (getPier u p).burst = none → lfStop p u = u := fun u h => by simp only [lfStop, h]
  refine hidle (putReg (modPier p (fun x => { x with ping := { x.ping with slots := [], left := 0 } }) s) (6 + p) .lfCtrl 0 0) ?_
  exact (burst_modPier s p (fun x => { x with ping := { x.ping with slots := [], left := 0 } }) fun _ => rfl).trans hb

/-! ## The downlink FIFO (R124) -/

section
variable {s} {p : Nat}

/-- A FIFO that no running DRIVE burst empties stays as it is. -/
theorem settleTx_idle (h : ∀ b, (getPier s p).burst = some b → b.armed ≠ none ∨ b.mode ≠ 0 ∨ b.stopped = true) : settleTx p s = s := by
  unfold settleTx
  cases hb : (getPier s p).burst with
  | none => rfl
  | some b => exact if_pos (h b hb)

theorem lfTxdPush_room (w : Nat) (h : settleTx p s = s) (hroom : (getPier s p).tx.length < 32) :
    lfTxdPush p w s = (0x00, modPier p (fun q => { q with tx := q.tx ++ [w] }) s) := by
  simp only [lfTxdPush, h, Nat.not_le.mpr hroom, if_false]

theorem lfTxdPush_full (w : Nat) (h : settleTx p s = s) (hfull : 32 ≤ (getPier s p).tx.length) : lfTxdPush p w s = (0x45, s) := by
  simp only [lfTxdPush, h, hfull, if_true]

end

/-! ## LF_AER_CLR (R123) -/

/-- The bays of pier p whose aerials a mask names. -/
def namedBays (p mask : Nat) : List Nat := ((List.range 8).filter (bitOf mask)).map (bayOf p)

theorem mem_namedBays {p mask b : Nat} : b ∈ namedBays p mask ↔ b / 8 = p ∧ bitOf mask (b % 8) = true := by
  simp only [namedBays, bayOf, List.mem_map, List.mem_filter, List.mem_range]
  constructor
  · rintro ⟨k, ⟨hk, hm⟩, rfl⟩
    rw [show (8 * p + k) / 8 = p by omega, show (8 * p + k) % 8 = k by omega]
    exact ⟨rfl, hm⟩
  · rintro ⟨rfl, hm⟩
    exact ⟨b % 8, ⟨by omega, hm⟩, by omega⟩

theorem namedBays_nodup (p mask : Nat) : (namedBays p mask).Nodup :=
  (List.nodup_range.filter _).map fun i j h => by unfold bayOf at h; omega

/-- The named aerials are cleared one after another. -/
theorem lfAerClear_eq (p mask : Nat) : lfAerClear p mask s =
    { s with lf := { s.lf with aerials := (namedBays p mask).foldl (fun v b => vset v b ⟨3, 0⟩) s.lf.aerials } } := by
  have key : ∀ (l : List Nat) (s : State), l.foldl (fun s b => setAerial b ⟨3, 0⟩ s) s =
      { s with lf := { s.lf with aerials := l.foldl (fun v b => vset v b ⟨3, 0⟩) s.lf.aerials } } := by
    intro l
    induction l with
    | nil => exact fun _ => rfl
    | cons b l ih => exact fun s => ih (setAerial b ⟨3, 0⟩ s)
  rw [← key, namedBays, List.foldl_map, List.foldl_filter]
  rfl

/-- The aerials that are named are UNTESTED with no strikes; the others stay. -/
theorem vget_namedCleared {p : Nat} (hp : p < 8) (mask b : Nat) (v : Vector Aerial 64) :
    vget ⟨3, 0⟩ ((namedBays p mask).foldl (fun v b => vset v b ⟨3, 0⟩) v) b =
      if b / 8 = p ∧ bitOf mask (b % 8) = true then ⟨3, 0⟩ else vget ⟨3, 0⟩ v b := by
  have hlt : ∀ i ∈ namedBays p mask, i < 64 := fun i hi => by have := (mem_namedBays.mp hi).1; omega
  have h := vget_foldl_vset ⟨3, 0⟩ (fun _ _ => (⟨3, 0⟩ : Aerial)) (namedBays p mask) hlt (namedBays_nodup p mask) v b
  simpa only [mem_namedBays] using h

end Sys2Proof.Machine
end

section
/-! The statement about the commands to a pier (04_lf_bay_array.md). -/

namespace Sys2Proof.Proofs

open Sys2Proof Sys2Proof.Machine

/-- Settles O27: each command by the lemma that says what it leaves of its pier. -/
theorem pierCommands : Obligations.PierCommands := by
  intro ini pier k txb s p only
  have hp : (pier : Nat) < 8 := pier.isLt
  refine ⟨fun ha => ⟨fun i mode n hi => ?_, fun b hb hn => ?_, fun b hb hn => ?_⟩, fun b d hact hb hd hdue => ?_, fun ha hb => ?_,
    fun data ha hidle => ⟨fun hroom => ?_, fun hfull => ?_⟩, fun mask ha => ?_⟩
  · intro st
    have hst : mode < 4 → lfStartStatus s pier k mode = st := lfStartStatus_of_mode s
    have hexec : exec i s = .next (cmdWrite ini (6 + pier) .lfCmd (lfStart pier k mode n) s) ∧ mode < 4 := by
      simp only [List.mem_cons, Prod.mk.injEq, List.not_mem_nil, or_false] at hi
      rcases hi with ⟨rfl, rfl, rfl⟩ | ⟨rfl, rfl, rfl⟩ | ⟨rfl, rfl, rfl⟩ | ⟨rfl, rfl, rfl⟩ <;> exact ⟨rfl, by decide⟩
    obtain ⟨hexec, hmode⟩ := hexec
    rw [hexec, ← hst hmode]
    refine ⟨fun hne => ?_, fun h0 => ?_⟩
    · exact (startCommand_refused s n ha hne).imp fun q h => congrArg Host.Outcome.next h
    · obtain ⟨t, ht, htaken⟩ := startCommand_taken s n ini.isLt hp ha h0
      exact ⟨t, congrArg Host.Outcome.next ht, htaken⟩
  · obtain ⟨f, q, h⟩ := cmdDo_runs s (lfStop pier) ha
    rw [lfStop_marks (s := { s with perf := f }) hb hn] at h
    exact ⟨q, congrArg Host.Outcome.next h⟩
  · obtain ⟨f, q, h⟩ := cmdDo_runs s (lfStop pier) ha
    obtain ⟨v, hv, hothers, j, hj⟩ := lfStop_disarms (s := { s with perf := f }) hp hb hn
    rw [hv] at h
    exact ⟨_, congrArg Host.Outcome.next h, takenByPier_of s ini.isLt (l := { s.lf with piers := v }) hothers s.latched q,
      congrArg Pier.burst hj, congrArg Pier.last hj, congrArg Pier.event hj⟩
  · obtain ⟨a, c, q, h⟩ := beginBurst_runs s pier b
    have hstart : chordStart pier s = beginBurst pier b s := by
      have hb' : (getPier s pier).burst = some b := hb
      simp only [chordStart, hb', hd, hdue, if_true]
    exact ⟨_, c, congrArg Host.Outcome.next ((if_pos hact).trans (hstart.trans h)), fun n hn => getPier_withBurst_abortPing_ne hn,
      congrArg Pier.burst (getPier_withBurst_abortPing hp)⟩
  · obtain ⟨f, q, h⟩ := cmdDo_runs s (lfEnableWrite pier false) ha
    rw [lfEnableWrite_off { s with perf := f } hb] at h
    exact ⟨q, congrArg Host.Outcome.next h⟩
  · obtain ⟨f, q, h⟩ := cmdWrite_runs s (lfTxdPush pier data.toNat) ha
    rw [lfTxdPush_room (s := { s with perf := f }) data.toNat (settleTx_idle hidle) hroom] at h
    exact ⟨q, congrArg Host.Outcome.next h⟩
  · obtain ⟨f, q, h⟩ := cmdWrite_runs s (lfTxdPush pier data.toNat) ha
    rw [lfTxdPush_full (s := { s with perf := f }) data.toNat (settleTx_idle hidle) hfull] at h
    exact ⟨q, congrArg Host.Outcome.next h⟩
  · obtain ⟨f, q, h⟩ := cmdDo_runs s (lfAerClear pier mask.toNat) ha
    rw [lfAerClear_eq] at h
    exact ⟨_, q, congrArg Host.Outcome.next h, fun b _ => vget_namedCleared hp mask.toNat b s.lf.aerials⟩

end Sys2Proof.Proofs
end

section
/-! SUPPORT. How a burst ends and what a ping leaves: the pier, the aerial's strikes and the baseline (R114, R115, R118 to R123). -/

namespace Sys2Proof.Machine

variable (s : State)

/-! ## The aerial's strikes (R123) -/

theorem getAerial_deckFault (code : Status) (island unit time : Nat) (detail : List Byte) (n : Nat) :
    getAerial (deckFault code island unit time detail s) n = getAerial s n := by
  obtain ⟨q, c, o, m, p, h, -⟩ := deckFault_eq code island unit time detail s
  rw [h]
  rfl

/-- An aerial's state moves by `Aerial.after`; every other stays. -/
theorem getAerial_aerialAfter {bay : Nat} (hb : bay < 64) (failed : Bool) (n : Nat) :
    getAerial (aerialAfter bay failed s) n = if n = bay then (getAerial s bay).after failed else getAerial s n := by
  have hset : getAerial (setAerial bay ((getAerial s bay).after failed) s) n = _ := vget_vset _ _ _ hb n
  unfold aerialAfter
  dsimp only
  split
  · split
    · exact (getAerial_deckFault _ _ _ _ _ _ n).trans hset
    · exact hset
  · exact hset

/-- A burst or ping that has not failed only moves its aerial's state. -/
theorem aerialAfter_passed (bay : Nat) : aerialAfter bay false s = setAerial bay ((getAerial s bay).after false) s := by
  refine if_neg ?_
  rintro ⟨hne, h2⟩
  rw [Aerial.after, if_neg hne] at h2
  cases h2

theorem getAerial_tagBurstEnded (p : Nat) (st : Status) (n : Nat) : getAerial (tagBurstEnded p st s) n = getAerial s n := by
  unfold tagBurstEnded
  split
  · rfl
  · split <;> rfl

/-! ## The end of a burst (R114) -/

/-- The status that a burst other than TUNE ends with, the first of R114 that applies. -/
def untunedStatus (b : Burst) (limit : Bool) : Status :=
  if b.overcurrent then 0x41 else if b.opened then 0x40 else if b.stopped then 0x48
  else if limit = true ∧ b.mode ≠ 1 ∧ b.mode < 4 then 0x46 else if b.clamped then 0x47 else 0x00

theorem endStatus_untuned {b : Burst} (hm : b.mode ≠ 2) (limit : Bool) :
    endStatus b (limit && (b.mode == 0 || b.mode == 3)) false false false false = untunedStatus b limit := by
  have hlimit : (limit && (b.mode == 0 || b.mode == 3)) = true ↔ limit = true ∧ b.mode ≠ 1 ∧ b.mode < 4 := by
    simp only [Bool.and_eq_true, Bool.or_eq_true, beq_iff_eq]
    exact and_congr_right fun _ => by omega
  simp only [endStatus, untunedStatus, Bool.or_false, Bool.false_eq_true, if_false, hlimit]

/-- Only a TUNE burst ends with 0x42. -/
theorem untunedStatus_beq_noResonance (b : Burst) (limit : Bool) : (untunedStatus b limit == 0x42) = false := by
  unfold untunedStatus
  split_ifs <;> rfl

section
variable {s} {p : Nat} {b : Burst}

/-- A burst that ends: its pier reads its status and DONE, and the other piers stay. -/
theorem burstEnded_reads (hp : p < 8) (st : Status) (hb : (getPier s p).burst = some b) (h8 : b.aerial < 8) :
    (∀ n, n ≠ p → getPier (burstEnded p st s) n = getPier s n) ∧ (getPier (burstEnded p st s) p).burst = none ∧
    (getPier (burstEnded p st s) p).last = st ∧ bitOf (getPier (burstEnded p st s) p).event 0 = true := by
  obtain ⟨v, a, q, c, o, m, f, h, -, hothers, hgone, -, hwritten⟩ := burstEnded_eq hp st s
  obtain ⟨hlast, hdone⟩ := hwritten (by rw [hb]; exact Option.some_ne_none b)
  have haerial : ∀ b', (getPier s p).burst = some b' → b'.aerial < 8 := fun b' hb' => by rw [hb] at hb'; cases hb'; exact h8
  have hpiers : ∀ n, getPier (burstEnded p st s) n = vget Pier.reset v n := fun n => by rw [h]; rfl
  rw [hpiers p]
  exact ⟨fun n hn => (hpiers n).trans ((hothers n hn).2 haerial), hgone, hlast, by simpa [bitOf, Nat.and_one_is_mod] using hdone⟩

/-- A running burst that ends: its pier's registers, a tag exchange with it, then its aerial. -/
theorem burstEnded_running (st : Status) (hb : (getPier s p).burst = some b) (hn : b.armed = none) : burstEnded p st s =
    aerialAfter (bayOf p b.aerial) (st == 0x40 || st == 0x41 || st == 0x42)
      (tagBurstEnded p st (modPier p (fun q => { q with burst := none, last := st, event := q.event ||| 1 }) s)) := by
  simp only [burstEnded, hb, hn, if_true]

/-- A running burst that ends strikes its aerial with 0x40, 0x41 or 0x42, and clears its strikes with any other status. -/
theorem getAerial_burstEnded (hp : p < 8) (st : Status) (hb : (getPier s p).burst = some b) (hn : b.armed = none) (h8 : b.aerial < 8) (n : Nat) :
    getAerial (burstEnded p st s) n = if n = 8 * p + b.aerial
      then (getAerial s (8 * p + b.aerial)).after (st == 0x40 || st == 0x41 || st == 0x42) else getAerial s n := by
  rw [burstEnded_running st hb hn, getAerial_aerialAfter _ (show bayOf p b.aerial < 64 by unfold bayOf; omega)]
  simp only [getAerial_tagBurstEnded]
  rfl

/-- A running DRIVE or CHORD burst stores the sample, and is open where the check fails. -/
theorem driveCheck_running (hb : (getPier s p).burst = some b) (hn : b.armed = none) (hm : b.mode = 0 ∨ b.mode = 3) (i q : BitVec 16) :
    driveCheck p i q s = modPier p (fun x => { x with
      iqI := i, iqQ := q, burst := some { b with opened := b.opened || driveFails i.toInt q.toInt } }) s := by
  simp only [driveCheck, hb, hn, hm, and_self, if_true]

/-- A word of a running DRIVE burst enters LF_RXD, or is lost where that is full. -/
theorem uplinkWord_running (hb : (getPier s p).burst = some b) (hn : b.armed = none) (hm : b.mode = 0) (bits n : Nat) (v : Bool) :
    ∃ c, uplinkWord p bits n v s = { modPier p (fun q =>
      if q.rx.length < 32 then { q with rx := q.rx ++ [⟨bits / 2 ^ (16 - n) * 2 ^ (16 - n), n, v, q.overrun⟩], overrun := false }
      else { q with overrun := true }) s with perf := c } := by
  obtain ⟨c, hcount⟩ := countEvent_eq s (6 + p) 0x044 n
  obtain ⟨c', hviolation⟩ := countEvent_eq { s with perf := c } (6 + p) 0x045 (b2n v)
  simp only [uplinkWord, hb, hn, hm, and_self, if_true, hcount, hviolation]
  exact ⟨c', rfl⟩

/-- The downlink FIFO has settled of a burst that is no DRIVE burst or has been stopped. -/
theorem settleTx_drained (hb : (getPier s p).burst = some b) (h : b.mode ≠ 0 ∨ b.stopped = true) : settleTx p s = s :=
  settleTx_idle fun b' hb' => by
    rw [hb] at hb'
    cases hb'
    exact .inr h

/-- A burst other than TUNE ends with the first status of R114 that applies. -/
theorem lfBurstEnd_untuned (hsettled : settleTx p s = s) (hb : (getPier s p).burst = some b) (hn : b.armed = none) (hm : b.mode ≠ 2)
    (limit : Bool) (mv : Nat) (steps : List SweepStep) : lfBurstEnd p limit mv steps s = burstEnded p (untunedStatus b limit) s := by
  rw [← endStatus_untuned hm limit]
  simp only [lfBurstEnd, hsettled, hb, hn, hm, ne_eq, not_true_eq_false, if_false]

/-- A TUNE burst writes its results and ends. -/
theorem lfBurstEnd_tune (hsettled : settleTx p s = s) (hb : (getPier s p).burst = some b) (hn : b.armed = none) (hm : b.mode = 2)
    (limit : Bool) (mv : Nat) (steps : List SweepStep) : ∃ st f, lfBurstEnd p limit mv steps s = burstEnded p st (modPier p f s) ∧
      ∀ q : Pier, (f q).burst = q.burst := by
  simp only [lfBurstEnd, hsettled, hb, hn, hm, ne_eq, not_true_eq_false, if_false, if_true]
  exact ⟨_, _, rfl, fun _ => rfl⟩

end

/-- The cycles a burst has driven are counted: an open value is used, and the counters change. -/
theorem countDriven_eq (p : Nat) : ∃ f q, countDriven p s = { s with free := f, perf := q } := by
  unfold countDriven
  split
  · rename_i b _
    split
    · obtain ⟨q, hq⟩ := countEvent_eq s (6 + p) 0x041 (freeValue s % (carrierCycles s p b.start + 1))
      exact ⟨s.free + 1, q, congrArg useFree hq⟩
    · exact ⟨s.free, s.perf, rfl⟩
  · exact ⟨s.free, s.perf, rfl⟩

/-! ## A ping measured (R119, R120, R123) -/

/-- What leaves every other pier and this pier's burst. -/
def KeepsBursts (p : Nat) (s t : State) : Prop := (∀ n, n ≠ p → getPier t n = getPier s n) ∧ (getPier t p).burst = (getPier s p).burst

section
variable {s} {p : Nat} {t u : State}

theorem KeepsBursts.trans (h : KeepsBursts p s t) (h' : KeepsBursts p t u) : KeepsBursts p s u :=
  ⟨fun n hn => (h'.1 n hn).trans (h.1 n hn), h'.2.trans h.2⟩

/-- An update that keeps the piers. -/
theorem KeepsBursts.of_piers (h : t.lf.piers = s.lf.piers) : KeepsBursts p s t := by
  have hpier : ∀ n, getPier t n = getPier s n := fun n => congrArg (fun v => vget Pier.reset v n) h
  exact ⟨fun n _ => hpier n, congrArg Pier.burst (hpier p)⟩

end

theorem modPier_keepsBursts (p : Nat) (f : Pier → Pier) (hf : ∀ q, (f q).burst = q.burst) : KeepsBursts p s (modPier p f s) :=
  ⟨fun _ hn => getPier_modPier_ne hn f s, burst_modPier s p f hf⟩

theorem countEvent_keepsBursts (p i ev n : Nat) : KeepsBursts p s (countEvent i ev n s) := by
  obtain ⟨q, hq⟩ := countEvent_eq s i ev n
  rw [hq]
  exact .of_piers rfl

theorem aerialAfter_keepsBursts (bay : Nat) (failed : Bool) : KeepsBursts (bay / 8) s (aerialAfter bay failed s) := by
  obtain ⟨v, a, q, c, o, m, f, h, -, hothers, hevent⟩ := aerialAfter_eq bay failed s
  obtain ⟨k, hk⟩ := hevent (bay / 8)
  rw [h]
  exact ⟨hothers, (congrArg Pier.burst hk :)⟩

/-- The baseline is a register of the AON island. -/
theorem pingBaseline_keepsBursts (p : Nat) (engine : Bool) (bay amp phase : Nat) : KeepsBursts p s (pingBaseline engine bay amp phase s) := by
  unfold pingBaseline
  dsimp only
  split_ifs <;> exact .of_piers rfl

theorem pingConfirmed_keepsBursts (bay : Nat) : KeepsBursts (bay / 8) s (pingConfirmed false bay s) :=
  modPier_keepsBursts (modLf (fun l => { l with detuned := vset l.detuned bay (some s.time.us) }) s) (bay / 8)
    (fun q => { q with event := q.event ||| 2 ^ (8 + bay % 8) }) fun _ => rfl

/-- A measurement that is confirmed or not leaves the bursts. -/
theorem pingMeasured_keepsBursts (confirmed : Bool) (bay amp phase : Nat) : KeepsBursts (bay / 8) s
    ((if confirmed then pingConfirmed false bay else id) (pingBaseline false bay amp phase (aerialAfter bay false s))) := by
  have h := (aerialAfter_keepsBursts s bay false).trans (pingBaseline_keepsBursts _ (bay / 8) false bay amp phase)
  cases confirmed
  · exact h
  · exact h.trans (pingConfirmed_keepsBursts _ bay)

/-- A commanded PING whose measurement is done ends its burst: 0x40 below 4 mA, else 0x48 where it was stopped, else 0x00. -/
theorem pingDone_commanded {bay : Nat} {b : Burst} (amp phase : Nat) (he : engineOwns s = false) (hact : canAct s (6 + bay / 8) = true)
    (hb : (getPier s (bay / 8)).burst = some b) (hn : b.armed = none) (hm : b.mode = 1) (hk : b.aerial = bay % 8) :
    ∃ u, KeepsBursts (bay / 8) s u ∧
      pingDone bay amp phase s = burstEnded (bay / 8) (if amp < 4 then 0x40 else if b.stopped then 0x48 else 0x00) u := by
  have hcond : canAct s (6 + bay / 8) = true ∧ b.mode = 1 ∧ b.armed = none ∧ b.aerial = bay % 8 := ⟨hact, hm, hn, hk⟩
  have hdriven := countEvent_keepsBursts s (bay / 8) (6 + bay / 8) 0x041 24
  unfold pingDone
  simp only [he, Bool.false_eq_true, if_false, hb, hcond, and_self, if_true, decide_eq_true_eq]
  by_cases hdead : amp < 4
  · simp only [hdead, if_true]
    exact ⟨_, hdriven, rfl⟩
  · simp only [hdead, if_false]
    exact ⟨_, hdriven.trans (pingMeasured_keepsBursts _ _ bay amp phase), rfl⟩

/-- Without a valid baseline nothing is tested, and the measurement is the baseline. -/
theorem pingTest_noBaseline {bay : Nat} (h : bitOf (regValue s 0 .pingRbase bay) 31 = false) (amp phase : Nat) :
    pingTest s false bay amp phase = (false, false, 0) := by
  simp only [pingTest, Bool.false_eq_true, if_false, h, Bool.false_and]

theorem pingBaseline_noBaseline {bay : Nat} (h : bitOf (regValue s 0 .pingRbase bay) 31 = false) (amp phase : Nat) :
    pingBaseline false bay amp phase s = putReg s 0 .pingRbase bay (baseWord amp phase) :=
  if_pos (.inr h)

/-- The state with a passed ping's measurement as the baseline of its bay. -/
def baselined (bay amp phase : Nat) (s : State) : State :=
  putReg (setAerial bay ((getAerial s bay).after false) s) 0 .pingRbase bay (baseWord amp phase)

/-- A round's ping of a bay with no valid baseline: the measurement is the baseline, the slot is used, and the aerial's strikes are
cleared. -/
theorem pingDone_baseline {bay amp : Nat} {rest : List Nat} {n : Nat} (phase : Nat) (he : engineOwns s = false)
    (hact : canAct s (6 + bay / 8) = true) (hb : (getPier s (bay / 8)).burst = none)
    (hpass : PingGroup.pass (fun k => pingSkips s false (bayOf (bay / 8) k)) (getPier s (bay / 8)).ping.slots (getPier s (bay / 8)).ping.left =
      (bay % 8 :: rest, n))
    (hbase : bitOf (regValue s 0 .pingRbase bay) 31 = false) (hamp : 4 ≤ amp) : ∃ h q, pingDone bay amp phase s =
      { modPier (bay / 8) (fun x => { x with ping := { (getPier s (bay / 8)).ping with slots := rest, left := n - 1, hits := h } })
          (baselined bay amp phase s) with perf := q } := by
  obtain ⟨q, hdriven⟩ := countEvent_eq s (6 + bay / 8) 0x041 24
  obtain ⟨q', hcounted⟩ := countEvent_eq { baselined bay amp phase s with perf := q } (6 + bay / 8) 0x042 0
  have hmeasured : pingBaseline false bay amp phase (aerialAfter bay false { s with perf := q }) =
      { baselined bay amp phase s with perf := q } := by
    rw [aerialAfter_passed]
    exact pingBaseline_noBaseline (setAerial bay ((getAerial s bay).after false) { s with perf := q }) hbase amp phase
  unfold pingDone
  simp only [he, Bool.false_eq_true, if_false, hb, pingGroup, hpass, Nat.not_lt.mpr hamp, decide_false, pingTest_noBaseline s hbase, hact, hdriven,
    hmeasured, hcounted, and_self, or_true, if_true, id, b2n, Bool.false_and]
  exact ⟨_, q', rfl⟩

end Sys2Proof.Machine
end

section
/-! The statement about bursts and pings (04_lf_bay_array.md). -/

namespace Sys2Proof.Proofs

open Sys2Proof Sys2Proof.Machine

/-- Settles O28: each event by the lemma that says what it leaves of the pier, its aerials and its ping group. -/
theorem burstsAndPings : Obligations.BurstsAndPings := by
  intro pier s p others struck
  have hp : (pier : Nat) < 8 := pier.isLt
  have hbay : ∀ {b k : Nat}, b = 8 * pier + k → k < 8 → b / 8 = pier ∧ b % 8 = k := fun h hk => by omega
  refine ⟨fun hact b (hb : (getPier s pier).burst = some b) hn h8 => ⟨fun hm i q => ?_, fun hm bits n v => ?_, fun hm hstop limit mv steps => ?_,
    fun hm limit mv steps => ?_, fun hm he k amp ph hk bay hkbay => ?_⟩, fun hact => ?_, fun hact hen hping hth hck huv hz => ?_, fun he huv => ?_,
    fun he hact hb bay k rest n hpass hk hkbay hbase amp ph hamp => ?_⟩
  · exact congrArg Host.Outcome.next ((if_pos hact).trans (driveCheck_running hb hn hm i q))
  · obtain ⟨c, hword⟩ := uplinkWord_running hb hn hm bits.toNat n v
    exact ⟨c, congrArg Host.Outcome.next ((if_pos hact).trans hword)⟩
  · obtain ⟨f, q, hdriven⟩ := countDriven_eq s pier
    have hdrained : b.mode ≠ 0 ∨ b.stopped = true := or_iff_not_imp_left.mpr fun h => hstop (not_not.mp h)
    have hend := lfBurstEnd_untuned (s := { s with free := f, perf := q }) (settleTx_drained hb hdrained) hb hn hm limit mv steps
    obtain ⟨hothers, hgone, hlast, hdone⟩ := burstEnded_reads (s := { s with free := f, perf := q }) hp (untunedStatus b limit) hb h8
    have haerial := getAerial_burstEnded (s := { s with free := f, perf := q }) hp (untunedStatus b limit) hb hn h8
    simp only [untunedStatus_beq_noResonance, Bool.or_false] at haerial
    exact ⟨_, congrArg Host.Outcome.next ((if_pos hact).trans ((congrArg (lfBurstEnd pier limit mv steps) hdriven).trans hend)),
      hothers, hgone, hlast, hdone, (haerial _).trans (if_pos rfl), fun a ha => (haerial a).trans (if_neg ha)⟩
  · obtain ⟨f, q, hdriven⟩ := countDriven_eq s pier
    obtain ⟨st, g, hend, hkeeps⟩ := lfBurstEnd_tune (s := { s with free := f, perf := q })
      (settleTx_drained hb (.inl (by rw [hm]; decide))) hb hn hm limit mv steps
    have htuned := (burst_modPier { s with free := f, perf := q } pier g hkeeps).trans hb
    obtain ⟨hothers, hgone, -, hdone⟩ := burstEnded_reads hp st htuned h8
    exact ⟨_, congrArg Host.Outcome.next ((if_pos hact).trans ((congrArg (lfBurstEnd pier limit mv steps) hdriven).trans hend)),
      fun n hn => (hothers n hn).trans (getPier_modPier_ne hn g { s with free := f, perf := q }), hgone, hdone⟩
  · obtain ⟨h8', hk8⟩ := hbay hkbay k.isLt
    obtain ⟨u, ⟨hothers, hburst⟩, hdone⟩ := pingDone_commanded s (bay := bay) amp.toNat ph.toNat he (by rw [h8']; exact hact)
      (by rw [h8']; exact hb) hn hm (hk.trans hk8.symm)
    rw [h8'] at hothers hburst hdone
    obtain ⟨hrest, hgone, hlast, -⟩ := burstEnded_reads hp (if amp.toNat < 4 then 0x40 else if b.stopped then 0x48 else 0x00) (hburst.trans hb) h8
    exact ⟨_, congrArg Host.Outcome.next hdone, fun n hn => (hrest n hn).trans (hothers n hn), hgone, hlast⟩
  · exact congrArg Host.Outcome.next (if_neg (by rw [hact]; decide))
  · have hround : pingRound (some pier.val) s = _ := if_pos ⟨hact, hen, hping, hth, hck, huv⟩
    exact ⟨_, congrArg Host.Outcome.next ((if_neg fun h => h.2.1 hz).trans hround)⟩
  · have hround : pingRound none s = _ := if_pos ⟨he, huv⟩
    exact ⟨_, congrArg Host.Outcome.next ((if_neg fun h => absurd h.1 Bool.false_ne_true).trans hround)⟩
  · obtain ⟨h8', hk8⟩ := hbay hkbay hk
    obtain ⟨h, q, hdone⟩ := pingDone_baseline s (bay := bay) (rest := rest) (n := n) ph.toNat he (by rw [h8']; exact hact) (by rw [h8']; exact hb)
      (by rw [h8', hk8]; exact hpass) hbase hamp
    rw [h8'] at hdone
    have hpier := getPier_modPier (p := pier) hp (fun x => { x with ping := { (getPier s pier).ping with slots := rest, left := n - 1, hits := h } })
      (baselined bay amp.toNat ph.toNat s)
    have hself := (hpier pier).trans (if_pos rfl)
    exact ⟨_, congrArg Host.Outcome.next hdone, fun n hn => (hpier n).trans (if_neg hn),
      congrArg (·.ping.slots) hself, congrArg (·.ping.left) hself, rfl, vget_vset_self _ _ _ bay.isLt⟩

end Sys2Proof.Proofs
end

section
/-! SUPPORT. Tag exchanges at the pier: what a reply makes of a job, and what the pier's events make of its state (R141 to R151). -/

namespace Sys2Proof.Machine

/-! ## Replies (R142 to R148) -/

/-- A job after a reply: the reply's time is kept, unless the job has gone on to write. -/
def TagJob.heard (now : Nat) (j : TagJob) : TagJob := { j with since := if j.phase = .writing then j.since else now }

section
variable {j : TagJob} {bits : List UpBit}

theorem TagJob.heard_eq (now : Nat) (h : j.phase ≠ .writing) : j.heard now = { j with since := now } := by
  simp only [TagJob.heard, h, if_false]

theorem TagJob.heard_ended (j : TagJob) (st : Status) (now : Nat) : (j.ended st).heard now = { j.ended st with since := now } :=
  TagJob.heard_eq now (by simp [TagJob.ended])

/-- An inventory with nothing deferred ends. -/
theorem TagJob.resume_ends (h : j.stack = []) (st : Status) : j.resume st = j.ended st := by
  simp only [TagJob.resume, h]

/-- A corrupt reply, heard: the second one ends the read with 0x51, the first one has the command repeated. -/
theorem TagJob.corrupt_heard (h : j.phase ≠ .writing) (now : Nat) : j.corrupt.heard now =
    if j.retried then { j.ended 0x51 with since := now } else { j with retried := true, since := now } := by
  unfold TagJob.corrupt
  split
  · exact j.heard_ended 0x51 now
  · exact TagJob.heard_eq now h

/-- A clean reply to KT_REQ gives the UID, the data and 0x00. -/
theorem TagJob.ktReply_clean (hbits : ((bits.drop 4).take 96).any upBad = false) (hframe : replyFramed bits 96 = true)
    (hcrc : replyCrcOk bits 96 [] = true) :
    let uid := bitsNat (((bits.drop 4).take 64).map upValue)
    j.ktReply bits = { j with
      kind := 1, uid := uid, found := [uid], data := beBytes 4 (bitsNat ((((bits.drop 4).drop 64).take 32).map upValue)) }.ended 0x00 := by
  simp only [TagJob.ktReply, hbits, hframe, hcrc, and_self, Bool.false_eq_true, if_false, if_true, List.map_take, List.map_drop]

/-- A violated bit: the branches that agree up to it are deferred, and SPLIT asks for the tags with 0 there (R143). -/
theorem TagJob.inventoryReply_collision (hpre : j.pre = []) (hbits : ((bits.drop 4).take 64).any upBad = true) :
    let known := (((bits.drop 4).take 64).take (((bits.drop 4).take 64).findIdx upBad)).map upValue
    j.inventoryReply bits = { j with
      stack := (known.length, known) :: j.stack, pre := known ++ [false], phase := .inventory (.split known.length), retried := false } := by
  simp only [TagJob.inventoryReply, hpre, List.length_nil, Nat.sub_zero, List.nil_append, hbits, if_true]

/-- A clean reply adds its identifier, and the inventory goes on. -/
theorem TagJob.inventoryReply_clean (hpre : j.pre = []) (hbits : ((bits.drop 4).take 64).any upBad = false)
    (hframe : replyFramed bits 64 = true) (hcrc : replyCrcOk bits 64 [] = true) :
    j.inventoryReply bits = { j with found := j.found ++ [bitsNat (((bits.drop 4).take 64).map upValue)] }.resume 0x00 := by
  simp only [TagJob.inventoryReply, hpre, List.length_nil, Nat.sub_zero, List.nil_append, hbits, hframe, hcrc, and_self,
    Bool.false_eq_true, if_false, if_true]

/-- A reply without a violation whose frame or CRC is wrong is corrupt (R145). -/
theorem TagJob.inventoryReply_corrupt (hpre : j.pre = []) (hbits : ((bits.drop 4).take 64).any upBad = false)
    (hwrong : (replyFramed bits 64 && replyCrcOk bits 64 []) = false) : j.inventoryReply bits = j.corrupt := by
  simp only [TagJob.inventoryReply, hpre, List.length_nil, Nat.sub_zero, hbits, ← Bool.and_eq_true, hwrong, Bool.false_eq_true, if_false]

end

/-! ## The pier's events (R141 to R151) -/

/-- Two updates of a pier are one. -/
theorem modPier_modPier {p : Nat} (hp : p < 8) (f g : Pier → Pier) (s : State) :
    modPier p g (modPier p f s) = modPier p (fun q => g (f q)) s := by
  have houter : modPier p g (modPier p f s) =
      modLf (fun l => { l with piers := vset l.piers p (g (getPier (modPier p f s) p)) }) (modPier p f s) := rfl
  rw [houter, getPier_modPier_self s hp]
  simp only [modPier, modLf, vset, Vector.setIfInBounds_setIfInBounds]

section
variable {s : State} {pier : PierId} (hburst : tagBurst s pier = true)
include hburst

theorem canAct_of_tagBurst : canAct s (6 + pier) = true :=
  ((Bool.and_eq_true _ _).mp hburst).1

theorem exec_tagReply (bits : List UpBit) : exec (.tagReply pier bits) s = .next (tagReplied pier bits s) :=
  congrArg Host.Outcome.next (if_pos (canAct_of_tagBurst hburst))

theorem exec_tagReplyTimeout : exec (.tagReplyTimeout pier) s = .next (tagSilent pier s) :=
  congrArg Host.Outcome.next (if_pos (canAct_of_tagBurst hburst))

end

section
variable {s : State} {p : Nat} {j : TagJob} (hj : (getPier s p).job = some j)
include hj

section
variable (hburst : tagBurst s p = true)
include hburst

theorem tagReplied_ktReq (bits : List UpBit) (h : j.phase = .ktReq) :
    tagReplied p bits s = setJob p ((j.ktReply bits).heard s.time.us) s := by
  simp only [tagReplied, hj, hburst, h, Bool.true_eq_false, if_false, TagJob.heard]

theorem tagReplied_inventory (bits : List UpBit) {cmd : TagCmd} (h : j.phase = .inventory cmd) :
    tagReplied p bits s = setJob p ((j.inventoryReply bits).heard s.time.us) s := by
  simp only [tagReplied, hj, hburst, h, Bool.true_eq_false, if_false, TagJob.heard]

/-- Silence after KT_REQ: the policy's OPEN goes on to the inventory, else 0x50 (R149). -/
theorem tagSilent_ktReq (h : j.phase = .ktReq) : tagSilent p s = setJob p (if j.openId then j.inventory else j.ended 0x50) s := by
  simp only [tagSilent, hj, hburst, h, Bool.true_eq_false, if_false]

theorem tagSilent_inventory {cmd : TagCmd} (h : j.phase = .inventory cmd) :
    tagSilent p s = setJob p (j.resume (if j.found = [] then 0x50 else 0x00)) s := by
  simp only [tagSilent, hj, hburst, h, Bool.true_eq_false, if_false]

theorem tagSilent_open {x : Bool} (h : j.phase = .open_ x) : tagSilent p s = setJob p (j.ended 0x58) s := by
  simp only [tagSilent, hj, hburst, h, Bool.true_eq_false, if_false]

end

variable (hact : canAct s (6 + p) = true)
include hact

theorem inventoryOver_inventory {cmd : TagCmd} (h : j.phase = .inventory cmd) : inventoryOver p s = setJob p (j.ended 0x53) s := by
  simp only [inventoryOver, hj, h, hact, if_true]

/-- A MAC that is late ends the write with 0x05 and has the burst's ending sequence begin. -/
theorem ktMacLate_running (hp : p < 8) {x : Nat} {b : Burst} (h : j.phase = .waitMac x) (hb : (getPier s p).burst = some b)
    (hn : b.armed = none) :
    ktMacLate p s = modPier p (fun q => { q with job := some (j.ended 0x05), burst := some { b with stopped := true } }) s := by
  have hlate : ktMacLate p s = lfStop p (setJob p (j.ended 0x05) s) := by
    simp only [ktMacLate, hj, h, hact, if_true]
  have hkept : (getPier (setJob p (j.ended 0x05) s) p).burst = some b :=
    (burst_modPier s p (fun q => { q with job := some (j.ended 0x05) }) fun _ => rfl).trans hb
  rw [hlate, lfStop_marks hkept hn]
  exact modPier_modPier hp _ _ s

end

end Sys2Proof.Machine
end

section
/-! The statement about tag exchanges at the pier (05_lf_air_protocols.md). -/

namespace Sys2Proof.Proofs

open Sys2Proof Sys2Proof.Machine

/-- Settles O29: each event sets the pier's job, and the job's own lemmas say to what. -/
theorem tagExchanges : Obligations.TagExchanges := by
  intro pier j s hj ended is_ num
  refine ⟨fun hburst bits => ⟨fun hph hbits hframe hcrc => ?_, fun cmd hph hpre => ⟨fun hbits hframe hcrc hstack => ?_, fun hbits => ?_,
    fun hbits hwrong => ?_⟩⟩, fun hburst => ⟨fun hph => ?_, fun cmd hph hstack => ?_, fun x hph => ?_⟩,
    fun hact => ⟨fun cmd hph => ?_, fun x b hph hb hn => ?_⟩⟩
  · refine (exec_tagReply hburst bits).trans (congrArg Host.Outcome.next ?_)
    rw [tagReplied_ktReq hj hburst bits hph, TagJob.ktReply_clean hbits hframe hcrc, TagJob.heard_ended]
    rfl
  · refine (exec_tagReply hburst bits).trans (congrArg Host.Outcome.next ?_)
    rw [tagReplied_inventory hj hburst bits hph, TagJob.inventoryReply_clean hpre hbits hframe hcrc, TagJob.resume_ends,
      TagJob.heard_ended]
    · rfl
    · exact hstack
  · refine (exec_tagReply hburst bits).trans (congrArg Host.Outcome.next ?_)
    rw [tagReplied_inventory hj hburst bits hph, TagJob.inventoryReply_collision hpre hbits, TagJob.heard_eq]
    · rfl
    · exact nofun
  · refine (exec_tagReply hburst bits).trans (congrArg Host.Outcome.next ?_)
    rw [tagReplied_inventory hj hburst bits hph, TagJob.inventoryReply_corrupt hpre hbits hwrong, TagJob.corrupt_heard (by simp [hph])]
    rfl
  · exact (exec_tagReplyTimeout hburst).trans (congrArg Host.Outcome.next (tagSilent_ktReq hj hburst hph))
  · refine (exec_tagReplyTimeout hburst).trans (congrArg Host.Outcome.next ?_)
    rw [tagSilent_inventory hj hburst hph, TagJob.resume_ends hstack]
    rfl
  · exact (exec_tagReplyTimeout hburst).trans (congrArg Host.Outcome.next (tagSilent_open hj hburst hph))
  · exact congrArg Host.Outcome.next (inventoryOver_inventory hj hact hph)
  · exact congrArg Host.Outcome.next (ktMacLate_running hj hact pier.isLt hph hb hn)

end Sys2Proof.Proofs
end

section
/-! SUPPORT. The radio's commands: checked and refused, held, acting on a radio made ready, and those that act at once (R156 to R165,
R177, R181, R183, R185). -/

namespace Sys2Proof.Machine

variable {s t : State}

/-! ## What the radio reports (R185) -/

/-- From s to t the radio's LAST, EVENT and RX_INFO.STATUS may differ. -/
def ReportsOnly (s t : State) : Prop :=
  ∃ st ev rx, t = { s with rf := { s.rf with last := st, event := ev, rxStatus := rx } }

theorem ReportsOnly.refl (s : State) : ReportsOnly s s := ⟨_, _, _, rfl⟩

theorem rfEnded_reportsOnly (st : Status) (s : State) : ReportsOnly s (rfEnded st s) := ⟨_, _, _, rfl⟩

/-- The end of a command that comes about or not. -/
theorem ReportsOnly.choice {P : Prop} [Decidable P] (h : ReportsOnly s t) : ReportsOnly s (if P then t else s) := by
  split
  · exact h
  · exact .refl s

/-- A bit of two numbers joined. -/
theorem bitOf_or (x y k : Nat) : bitOf (x ||| y) k = (bitOf x k || bitOf y k) := by
  simp only [bitOf_testBit, Nat.testBit_or]

/-- Every command that ends sets EVENT.DONE. -/
theorem bitOf_or_one (e : Nat) : bitOf (e ||| 1) 0 = true :=
  (bitOf_or e 1 0).trans (Bool.or_true _)

/-- With nothing held nothing more happens. -/
theorem actHeld_none (h : s.rf.held = none) : actHeld s = s := by
  simp only [actHeld, h]

/-! ## A command checked (R156, R164) -/

theorem chValid_eq_false {ch : Nat} : chValid ch = false ↔ ch < 2 ∨ 81 < ch := by
  simp only [chValid, Bool.and_eq_false_iff, decide_eq_false_iff_not, Nat.not_le]

theorem txBuffer_length (s : State) :
    (txBuffer s).length = 1 + (Memory.read s.mem (rfSram + bitsOf (regValue s 3 .txPtr 0) 2 13 * 4)).toNat := by
  simp only [txBuffer, memReadBytes, List.length_map, List.length_range]

/-- The checks of R164, in the statements' words. -/
theorem rfCmdStatus_eq (s : State) (c : RfCmd) :
    let txLen := (Memory.read s.mem (rfSram + bitsOf (regValue s 3 .txPtr 0) 2 13 * 4)).toNat
    rfCmdStatus s c = if bitOf (regValue s 3 .rfCtrl 0) 0 = false then 0x02
      else if c.op ≠ 7 ∧ (c.ch < 2 ∨ 81 < c.ch) then 0x69
      else if (c.op = 3 ∨ c.op = 4 ∨ c.op = 6) ∧ (vget ⟨3, 0⟩ s.rf.ants c.aerial).state = 2 then 0x0D
      else if c.op = 3 ∧ (txLen = 0 ∨ 128 < txLen) then 0x67 else 0x00 := by
  intro txLen
  have hlen : ((txBuffer s).length = 1 ∨ 129 < (txBuffer s).length) ↔ (txLen = 0 ∨ 128 < txLen) := by
    rw [txBuffer_length]
    omega
  simp only [rfCmdStatus, rfEnabled, chValid_eq_false, hlen]

theorem rfCommand_refused {c : RfCmd} (h : rfCmdStatus s c ≠ 0x00) : rfCommand c s = (rfCmdStatus s c, s) := if_pos h

theorem rfCommand_holds {c : RfCmd} (h : rfCmdStatus s c = 0x00) (hbusy : rfMoving s = true ∨ onAir s = true ∨ s.psr.busy = true) :
    rfCommand c s = (0x00, holdCmd c s) :=
  (if_neg (not_not.mpr h)).trans (if_pos hbusy)

theorem rfCommand_taken {c : RfCmd} (h : rfCmdStatus s c = 0x00) : (rfCommand c s).1 = 0x00 := by
  unfold rfCommand
  dsimp only
  split
  · exact h
  · split <;> rfl

/-- A command that is refused changes its answer and the counters only. -/
theorem radioCommand_refused (s : State) {ini : Nat} {c : RfCmd} (ha : Accepts s ini 3 .rfCmd) (h : rfCmdStatus s c ≠ 0x00) :
    ∃ q, cmdWrite ini 3 .rfCmd (rfCommand c) s = setResp ini [] (rfCmdStatus s c) { s with perf := q } :=
  cmdWrite_next s ha fun f => ⟨f, rfCommand_refused (s := { s with perf := f }) h⟩

/-- A channel outside 2 to 81 is refused where the radio is enabled, whatever else holds of the command (R156, R164). -/
theorem rfCmdStatus_badChannel {c : RfCmd} (hon : bitOf (regValue s 3 .rfCtrl 0) 0 = true) (hop : c.op ≠ 7) (hch : c.ch < 2 ∨ 81 < c.ch) :
    rfCmdStatus s c = 0x69 := by
  rw [rfCmdStatus_eq, if_neg (by rw [hon]; decide), if_pos ⟨hop, hch⟩]

/-- RF.CMD stores no bit: a whole word written there is its command alone. -/
theorem regWrite_rfCmd {ini : Nat} (hmay : mayWrite ini 3 .rfCmd = true) {w : Nat} (hw : w < 2 ^ 32) (a : Nat) (s : State) :
    regWrite ini 3 (rowFor 3 .rfCmd) 0 a w 0xF s = rfCmdWord w s := by
  have hrow : rowFor 3 .rfCmd = ⟨.rfCmd, .only 3, 0x104, 4, 1, 0, 0, 0, 0⟩ := by decide
  have hstore : storeFields 3 a (rowFor 3 .rfCmd) 0 w (2 ^ 32 - 1) s = (0x00, s) := by
    rw [hrow]
    rfl
  have hmask : w &&& (2 ^ 32 - 1) = w := Nat.and_two_pow_sub_one_of_lt_two_pow hw
  unfold regWrite
  rw [hrow, if_neg (by simp [hmay]), if_neg (by decide), if_neg (by decide), if_neg (by decide), ← hrow]
  simp only [show strobeMask 0xF = 2 ^ 32 - 1 from rfl, hstore, hmask]
  rw [hrow]
  rfl

/-- The words of SYNTH, TX, RX and TEST (R185). -/
theorem rfCmdWord_channel {w : Nat} (hop : bitsOf w 0 3 ∈ [2, 3, 4, 6]) :
    rfCmdWord w s = rfCommand ⟨bitsOf w 0 3, bitsOf w 3 7, bitsOf w 10 2, bitsOf w 12 6, bitOf w 18⟩ s := by
  unfold rfCmdWord
  dsimp only
  split
  case h_4 => rfl
  all_goals
    rename_i h
    rw [h] at hop
    exact absurd hop (by decide)

/-! ## A command held (R161, R162) -/

/-- A held command gives way, and COEX_REQ is raised for one that takes the air. -/
def displaced (c : RfCmd) (s : State) : State :=
  let s := if s.rf.held ≠ none then rfEnded 0x60 s else s
  if c.op = 3 ∨ c.op = 4 ∨ c.op = 6 then raiseReq s else s

theorem displaced_leaves (c : RfCmd) (s : State) :
    (displaced c s).rf.phase = s.rf.phase ∧ (displaced c s).rf.cur = s.rf.cur ∧
      (s.rf.held ≠ none → (displaced c s).rf.last = 0x60 ∧ bitOf (displaced c s).rf.event 0 = true) := by
  have hraise : ∀ u : State, ∃ req pri, (if c.op = 3 ∨ c.op = 4 ∨ c.op = 6 then raiseReq u else u) =
      { u with rf := { u.rf with req := req, pri := pri } } := by
    intro u
    split
    · exact ⟨_, _, rfl⟩
    · exact ⟨u.rf.req, u.rf.pri, rfl⟩
  unfold displaced
  dsimp only
  obtain ⟨req, pri, hraised⟩ := hraise (if s.rf.held ≠ none then rfEnded 0x60 s else s)
  rw [hraised]
  split
  · exact ⟨rfl, rfl, fun _ => ⟨rfl, bitOf_or_one _⟩⟩
  · rename_i hnone
    exact ⟨rfl, rfl, fun h => absurd h hnone⟩

/-- A command for another channel abandons the calibration under way. -/
theorem holdCmd_abandons {c : RfCmd} {k : Nat} (hk : s.rf.phase = .calibrating k) (hc : c.op ≠ 7 ∧ c.ch ≠ k) :
    holdCmd c s = modRf (fun r => { r with held := none }) (startCal c (displaced c s)) := by
  have hph := (displaced_leaves c s).1.trans hk
  unfold displaced at hph ⊢
  simp only [holdCmd, hph]
  exact if_pos hc

/-- Any other waits. -/
theorem holdCmd_waits {c : RfCmd} (h : ∀ k, s.rf.phase = .calibrating k → c.op = 7 ∨ c.ch = k) :
    holdCmd c s = modRf (fun r => { r with held := some c }) (displaced c s) := by
  have hph := (displaced_leaves c s).1
  unfold displaced at hph ⊢
  simp only [holdCmd, hph]
  split
  · rename_i k hk
    rw [if_neg]
    rintro ⟨h7, hne⟩
    exact (h k hk).elim h7 hne
  · rfl

theorem holdCmd_leaves (c : RfCmd) (s : State) :
    (s.rf.held ≠ none → (holdCmd c s).rf.last = 0x60 ∧ bitOf (holdCmd c s).rf.event 0 = true) ∧
    ((∃ k, s.rf.phase = .calibrating k ∧ c.op ≠ 7 ∧ c.ch ≠ k) →
      (holdCmd c s).rf.phase = .calibrating c.ch ∧ (holdCmd c s).rf.cur = some c ∧ (holdCmd c s).rf.held = none) ∧
    ((∀ k, s.rf.phase = .calibrating k → c.op = 7 ∨ c.ch = k) →
      (holdCmd c s).rf.held = some c ∧ (holdCmd c s).rf.phase = s.rf.phase ∧ (holdCmd c s).rf.cur = s.rf.cur) := by
  obtain ⟨hphase, hcur, hended⟩ := displaced_leaves c s
  by_cases h : ∃ k, s.rf.phase = .calibrating k ∧ c.op ≠ 7 ∧ c.ch ≠ k
  · have ⟨k, hk, hc⟩ := h
    rw [holdCmd_abandons hk hc]
    exact ⟨hended, fun _ => ⟨rfl, rfl, rfl⟩, fun hwait => ((hwait k hk).elim hc.1 hc.2).elim⟩
  · have hwait : ∀ k, s.rf.phase = .calibrating k → c.op = 7 ∨ c.ch = k := fun k hk =>
      or_iff_not_imp_left.mpr fun h7 => not_not.mp fun hne => h ⟨k, hk, h7, hne⟩
    rw [holdCmd_waits hwait]
    exact ⟨hended, fun habandon => absurd habandon h, fun _ => ⟨rfl, hphase, hcur⟩⟩

/-! ## A command acts (R159, R161, R165, R177) -/

/-- The radio leaves a search, and COEX_REQ follows whether the command takes the air. -/
def readied (c : RfCmd) (s : State) : State :=
  let s := if s.rf.mode = .rx ∧ s.rf.phase = .active then rfEnded 0x63 s else s
  if c.op = 3 ∨ c.op = 4 ∨ c.op = 6 then raiseReq s else dropReq s

theorem rfCommand_acts {c : RfCmd} (h : rfCmdStatus s c = 0x00) (hstill : rfMoving s = false) (hair : onAir s = false)
    (hpsr : s.psr.busy = false) : rfCommand c s = (0x00, actCmd c (readied c s)) := by
  refine (if_neg (not_not.mpr h)).trans (if_neg ?_)
  simp only [hstill, hair, hpsr, Bool.false_eq_true, or_self, not_false_eq_true]

theorem readied_leaves (c : RfCmd) (s : State) :
    (readied c s).rf.req = decide (c.op = 3 ∨ c.op = 4 ∨ c.op = 6) ∧ (readied c s).rf.locked = s.rf.locked ∧
      (readied c s).rf.ch = s.rf.ch ∧ (readied c s).rf.gnt = s.rf.gnt ∧ (readied c s).cfg = s.cfg := by
  obtain ⟨st, ev, rx, hsearch⟩ := (rfEnded_reportsOnly 0x63 s).choice (P := s.rf.mode = .rx ∧ s.rf.phase = .active)
  unfold readied
  dsimp only
  rw [hsearch]
  by_cases hair : c.op = 3 ∨ c.op = 4 ∨ c.op = 6
  · rw [if_pos hair, decide_eq_true hair]
    exact ⟨rfl, rfl, rfl, rfl, rfl⟩
  · rw [if_neg hair, decide_eq_false hair]
    exact ⟨rfl, rfl, rfl, rfl, rfl⟩

/-- The S fields that latch as a command takes the air. -/
theorem latchedForAir (s : State) : ∃ l,
    [Reg.autoReturn, .rxWin, .txPtr, .rxPtr].foldl (fun s r => latchReg s 3 r 0) s = { s with latched := l } := ⟨_, rfl⟩

/-- A command with its power limited by PWR_MAX (R167). -/
def RfCmd.limited (c : RfCmd) (s : State) : RfCmd := { c with pwr := min c.pwr (regField s 3 .pwrMax 0 0 6) }

/-- What takes the air leaves its aerial selected and COEX_REQ raised. -/
theorem takeAir_leaves (c : RfCmd) (s : State) :
    (takeAir c s).rf.rfsel = c.aerial ∧ (takeAir c s).rf.locked = true ∧ (takeAir c s).rf.req = true ∧
    (takeAir c s).rf.cur = some (c.limited s) := by
  obtain ⟨l, hlatched⟩ := latchedForAir s
  unfold takeAir
  rw [hlatched]
  exact ⟨rfl, rfl, rfl, rfl⟩

/-- Whether a contract is in force is said by the registers and what has latched of them. -/
theorem coexMode_congr (hcfg : t.cfg = s.cfg) (hlatched : t.latched = s.latched) : coexMode t = coexMode s := by
  simp only [coexMode, regInForce, regValue, hcfg, hlatched]

/-- The answer and the counters decide nothing of it. -/
theorem coexMode_answered (ini : Nat) (d : List Nat) (st : Status) (q : Vector PerfState 14) (s : State) :
    coexMode (setResp ini d st { s with perf := q }) = coexMode s := coexMode_congr rfl rfl

/-- It waits for a grant under a contract that gives none, else its transition begins. -/
theorem takeAir_phase (c : RfCmd) {g : Bool} (hgnt : s.rf.gnt = g) :
    (takeAir c s).rf.phase = if coexMode (takeAir c s) = true ∧ g = false then .waitGrant else .moving (if c.op = 4 then .rx else .tx) := by
  rw [← hgnt]
  obtain ⟨l, hlatched⟩ := latchedForAir s
  have hawaits : (coexMode { s with latched := l } && !s.rf.gnt) = true ↔ coexMode { s with latched := l } = true ∧ s.rf.gnt = false := by
    rw [Bool.and_eq_true, Bool.not_eq_true']
  unfold takeAir
  rw [hlatched]
  exact if_congr hawaits rfl rfl

theorem actCmd_calAll {c : RfCmd} (h : c.op = 7) (s : State) : actCmd c s = startCal { c with ch := 2 } s := if_pos h

theorem actCmd_unlocked {c : RfCmd} (h : c.op ≠ 7) (hch : ¬(s.rf.locked = true ∧ s.rf.ch = c.ch)) : actCmd c s = startCal c s :=
  (if_neg h).trans (if_neg hch)

theorem actCmd_synth {c : RfCmd} (h : c.op = 2) (hch : s.rf.locked = true ∧ s.rf.ch = c.ch) :
    actCmd c s = rfRest .synth (rfEnded 0x00 s) :=
  (if_neg (by rw [h]; decide)).trans ((if_pos hch).trans (if_pos h))

theorem actCmd_air {c : RfCmd} (h : c.op = 3 ∨ c.op = 4 ∨ c.op = 6) (hch : s.rf.locked = true ∧ s.rf.ch = c.ch) :
    actCmd c s = takeAir c s :=
  (if_neg (by omega)).trans ((if_pos hch).trans (if_neg (by omega)))

/-- COEX_REQ stays as the command needs it. -/
theorem actCmd_req {c : RfCmd} (hreq : s.rf.req = decide (c.op = 3 ∨ c.op = 4 ∨ c.op = 6))
    (hop : c.op = 2 ∨ c.op = 7 ∨ c.op = 3 ∨ c.op = 4 ∨ c.op = 6) :
    (actCmd c s).rf.req = decide (c.op = 3 ∨ c.op = 4 ∨ c.op = 6) := by
  by_cases hch : c.op ≠ 7 ∧ s.rf.locked = true ∧ s.rf.ch = c.ch
  · rcases hop with h2 | h7 | hair
    · rw [actCmd_synth h2 hch.2]
      exact hreq
    · exact absurd h7 hch.1
    · obtain ⟨-, -, hraised, -⟩ := takeAir_leaves c s
      rw [actCmd_air hair hch.2, decide_eq_true hair]
      exact hraised
  · by_cases h7 : c.op = 7
    · rw [actCmd_calAll h7]
      exact hreq
    · rw [actCmd_unlocked h7 fun h => hch ⟨h7, h⟩]
      exact hreq

/-! ## OFF, STANDBY and WAKE (R162, R181, R197) -/

/-- A running exchange ends with a status. -/
theorem psr_ended (st : Status) (s : State) : ∃ x,
    (if s.psr.busy then modPsr (fun p => { p with busy := false, last := st, owed := true }) s else s) = { s with psr := x } ∧
    (s.psr.busy = true → x = { s.psr with busy := false, last := st, owed := true }) := by
  split
  · exact ⟨_, rfl, fun _ => rfl⟩
  · rename_i hidle
    exact ⟨s.psr, rfl, fun h => absurd h hidle⟩

/-- The radio and the exchange once a command that acts at once has acted. -/
def AtOnce (m : RfMode) (s t : State) : Prop :=
  t.rf.mode = m ∧ t.rf.held = none ∧ t.rf.req = false ∧ t.rf.locked = false ∧
    t.rf.rfsel = (if m = .off ∨ m = .wake then 0 else s.rf.rfsel) ∧ t.rf.phase = (if s.rf.mode = m then .idle else .moving m) ∧
    (s.psr.busy = true → t.psr = { s.psr with busy := false, last := 0x63, owed := true })

theorem rfAtOnce_leaves (m : RfMode) (s : State) : ∃ r x, rfAtOnce m s = { s with rf := r, psr := x } ∧ AtOnce m s (rfAtOnce m s) := by
  obtain ⟨st, ev, rx, hheld⟩ := (rfEnded_reportsOnly 0x60 s).choice (P := s.rf.held ≠ none)
  unfold rfAtOnce
  dsimp only
  rw [hheld]
  generalize hu : ({ s with rf := { s.rf with last := st, event := ev, rxStatus := rx } } : State) = u
  obtain ⟨st', ev', rx', hair⟩ := ReportsOnly.choice (P := u.rf.phase = .active) (s := u)
    (t := modRf (fun r => { r with rxStatus := if r.mode = .rx then 0x63 else r.rxStatus }) (rfEnded 0x63 u)) ⟨_, _, _, rfl⟩
  rw [hair]
  obtain ⟨x, hpsr, hended⟩ := psr_ended 0x63 { u with rf := { u.rf with last := st', event := ev', rxStatus := rx' } }
  rw [hpsr]
  subst hu
  exact ⟨_, x, rfl, rfl, rfl, rfl, rfl, rfl, rfl, hended⟩

theorem rfRestAct_leaves (op : Nat) (m : RfMode) (s : State) :
    ∃ r x, rfRestAct op m s = { s with rf := r, psr := x } ∧ AtOnce m s (rfRestAct op m s) := by
  obtain ⟨r, x, hact, hleaves⟩ := rfAtOnce_leaves m s
  unfold rfRestAct
  dsimp only
  rw [hact] at hleaves ⊢
  split
  · exact ⟨_, x, rfl, hleaves⟩
  · exact ⟨_, x, rfl, hleaves⟩

/-! ## ANT_CLR (R183) -/

/-- The aerials that a mask names are UNTESTED with no strikes; the others stay. -/
theorem antClear_eq (mask : Nat) (s : State) : ∃ a, antClear mask s = { s with rf := { s.rf with ants := a } } ∧
    ∀ k, k < 4 → vget ⟨3, 0⟩ a k = if bitOf mask k = true then ⟨3, 0⟩ else vget ⟨3, 0⟩ s.rf.ants k := by
  refine ⟨_, rfl, fun k hk => ?_⟩
  have hvals := vget_foldl_vset (n := 4) ⟨3, 0⟩ (fun _ _ => (⟨3, 0⟩ : Aerial)) ((List.range 4).filter (bitOf mask))
    (fun i hi => List.mem_range.mp (List.mem_of_mem_filter hi)) (List.nodup_range.filter _) s.rf.ants k
  rw [List.foldl_filter] at hvals
  simpa only [List.mem_filter, List.mem_range, hk, true_and] using hvals

end Sys2Proof.Machine
end

section
/-! The statements about the radio's commands (06_rf_island.md). -/

namespace Sys2Proof.Proofs

open Sys2Proof Sys2Proof.Machine

/-- Settles O55: the row and the word give the same command, which the channel's check refuses. -/
theorem badChannelRefused : Obligations.BadChannelRefused := by
  intro ini ch aerial pwr rate w s ha hon
  refine ⟨fun hch i hi => ?_, fun hop hch => ?_⟩
  · obtain ⟨c, hexec, hop, hc⟩ : ∃ c, exec i s = .next (cmdWrite ini 3 .rfCmd (rfCommand c) s) ∧ c.op ≠ 7 ∧ c.ch = ch.toNat := by
      simp only [List.mem_cons, List.not_mem_nil, or_false] at hi
      rcases hi with rfl | rfl | rfl | rfl <;> exact ⟨_, rfl, by simp, rfl⟩
    have hst := rfCmdStatus_badChannel hon hop (by rwa [hc])
    obtain ⟨q, h⟩ := radioCommand_refused s ha (by rw [hst]; decide)
    rw [hst] at h
    exact ⟨q, hexec.trans (congrArg Host.Outcome.next h)⟩
  · have hop7 : bitsOf w.toNat 0 3 ≠ 7 := by
      intro h7
      rw [h7] at hop
      exact absurd hop (by decide)
    obtain ⟨hreach, hact, hmay⟩ := ha
    have hplace : placeOf ((BitVec.ofNat 32 (regAddr 3 .rfCmd 0)).toNat / 4 * 4) = .reg 3 := by decide
    obtain ⟨q, h⟩ := viaRegWrite_reg s (ini := ini) (addr := (BitVec.ofNat 32 (regAddr 3 .rfCmd 0)).toNat) (w := w.toNat) (strb := 0xF) (row := rowFor 3 .rfCmd)
      (k := 0) (st := 0x69) (t := s) hreach hplace hact (by decide) fun p => ⟨p, by
        have hst := rfCmdStatus_badChannel (s := { s with perf := p })
          (c := ⟨bitsOf w.toNat 0 3, bitsOf w.toNat 3 7, bitsOf w.toNat 10 2, bitsOf w.toNat 12 6, bitOf w.toNat 18⟩) hon hop7 hch
        rw [regWrite_rfCmd hmay w.isLt, rfCmdWord_channel hop, rfCommand_refused (by rw [hst]; decide), hst]⟩
    exact ⟨q, congrArg Host.Outcome.next h⟩

/-- Settles O30: a command is refused by its checks, held, or acts on the radio made ready for it. -/
theorem radioCommands : Obligations.RadioCommands := by
  intro ini ch aerial pwr rate s rest txLen
  refine ⟨fun ha => ⟨fun i c hi => ?_, fun i m hi => ?_⟩, fun ha => ?_, fun mask ha => ?_⟩
  · intro air st
    have hst : rfCmdStatus s c = st := rfCmdStatus_eq s c
    obtain ⟨hexec, hop⟩ : exec i s = .next (cmdWrite ini 3 .rfCmd (rfCommand c) s) ∧ (c.op = 2 ∨ c.op = 7 ∨ air) := by
      simp only [List.mem_cons, Prod.mk.injEq, List.not_mem_nil, or_false] at hi
      rcases hi with ⟨rfl, rfl⟩ | ⟨rfl, rfl⟩ | ⟨rfl, rfl⟩ | ⟨rfl, rfl⟩ | ⟨rfl, rfl⟩ <;> exact ⟨rfl, by simp [air]⟩
    rw [hexec, ← hst]
    refine ⟨fun hne => (radioCommand_refused s ha hne).imp fun q h => congrArg Host.Outcome.next h, fun h0 => ?_⟩
    obtain ⟨f, q, h⟩ := cmdWrite_runs s (rfCommand c) ha
    rw [rfCommand_taken (s := { s with perf := f }) h0] at h
    have hrest : rest (cmdWrite ini 3 .rfCmd (rfCommand c) s) := by
      obtain ⟨r, l, hradio⟩ := rfCommand_radioOnly c { s with perf := f }
      rw [h, hradio]
      exact ⟨answerOf_setResp ini.isLt _ _ _, rfl⟩
    refine ⟨_, rfl, hrest, fun hbusy => ?_, fun hstill hair hpsr => ?_⟩
    · rw [h, rfCommand_holds (s := { s with perf := f }) h0 hbusy]
      exact holdCmd_leaves c { s with perf := f }
    · rw [h, rfCommand_acts (s := { s with perf := f }) h0 hstill hair hpsr]
      simp only [setResp_rf, coexMode_answered]
      obtain ⟨hreq, hlocked, hch, hgnt, hcfg⟩ := readied_leaves c { s with perf := f }
      generalize readied c { s with perf := f } = u at hreq hlocked hch hgnt hcfg
      have hat : u.rf.locked = true ∧ u.rf.ch = c.ch ↔ s.rf.locked = true ∧ s.rf.ch = c.ch := by rw [hlocked, hch]
      refine ⟨actCmd_req hreq hop, fun h7 => ?_, fun h7 hother => ?_, fun h2 hl hc => ?_, fun hair hl hc => ?_⟩
      · rw [actCmd_calAll h7]
        exact ⟨rfl, rfl, rfl⟩
      · rw [actCmd_unlocked h7 (mt hat.mp hother)]
        exact ⟨rfl, rfl, rfl⟩
      · rw [actCmd_synth h2 (hat.mpr ⟨hl, hc⟩)]
        exact ⟨rfl, rfl, rfl, rfl⟩
      · rw [actCmd_air hair (hat.mpr ⟨hl, hc⟩)]
        obtain ⟨hrfsel, -, -, hcur⟩ := takeAir_leaves c u
        simp only [RfCmd.limited, regField, regValue, hcfg] at hcur
        exact ⟨hrfsel, hcur, takeAir_phase c hgnt⟩
  · obtain ⟨op, hexec, hm⟩ : ∃ op, exec i s = .next (cmdWrite ini 3 .rfCmd (rfRestCommand op m) s) ∧ (m = .standby ↔ ¬(m = .off ∨ m = .wake)) := by
      simp only [List.mem_cons, Prod.mk.injEq, List.not_mem_nil, or_false] at hi
      rcases hi with ⟨rfl, rfl⟩ | ⟨rfl, rfl⟩ | ⟨rfl, rfl⟩ <;> exact ⟨_, rfl, by decide⟩
    rw [hexec]
    refine ⟨fun hoff => ?_, fun hon => ?_⟩
    · exact (cmdWrite_next s ha fun f => ⟨f, if_neg (by rw [show rfEnabled { s with perf := f } = false from hoff]; decide)⟩).imp
        fun q h => congrArg Host.Outcome.next h
    · obtain ⟨f, q, h⟩ := cmdWrite_runs s (rfRestCommand op m) ha
      have hact : rfRestCommand op m { s with perf := f } = (0x00, rfRestAct op m { s with perf := f }) := if_pos hon
      obtain ⟨r, x, hleft, hmode, hheld, hreq, hlocked, hrfsel, hphase, hpsr⟩ := rfRestAct_leaves op m { s with perf := f }
      rw [hact] at h
      rw [h]
      refine ⟨_, rfl, ?_, hmode, hheld, hreq, hlocked, ?_, hphase, hpsr⟩
      · rw [hleft]
        exact ⟨answerOf_setResp ini.isLt _ _ _, rfl⟩
      · simp only [hm, ite_not]
        exact hrfsel
  · obtain ⟨f, q, h⟩ := cmdDo_runs s (fun s => rfRestAct 0 .off (putReg s 3 .rfCtrl 0 0)) ha
    obtain ⟨r, x, hleft, hmode, hheld, hreq, -⟩ := rfRestAct_leaves 0 .off (putReg { s with perf := f } 3 .rfCtrl 0 0)
    refine ⟨_, congrArg Host.Outcome.next h, ?_⟩
    dsimp only
    rw [hleft] at hmode hheld hreq ⊢
    exact ⟨rfl, hmode, hheld, hreq, answerOf_setResp ini.isLt _ _ _, rfl⟩
  · obtain ⟨f, q, h⟩ := cmdDo_runs s (antClear mask.toNat) ha
    obtain ⟨a, hclear, hants⟩ := antClear_eq mask.toNat { s with perf := f }
    rw [hclear] at h
    exact ⟨a, q, congrArg Host.Outcome.next h, hants⟩

end Sys2Proof.Proofs
end

section
/-! SUPPORT. The radio's events: transitions and calibrations that end, packets sent and received, the automatic return, and a
reflection measured (R158 to R173, R182, R183). -/

namespace Sys2Proof.Machine

variable {s : State}

/-! ## Transitions (R158) -/

/-- The radio at the end of a transition, before its command goes on. -/
def arrived (m : RfMode) (s : State) : State :=
  modRf (fun r => { r with mode := m, phase := if (m = .tx ∨ m = .rx) ∧ r.cur ≠ none then .active else .idle
                           locked := r.locked && (m == .synth || m == .tx || m == .rx) }) s

theorem arrived_commanded {m : RfMode} {c : RfCmd} (hcur : s.rf.cur = some c) : ∃ lk, arrived m s =
    { s with rf := { s.rf with mode := m, phase := if m = .tx ∨ m = .rx then .active else .idle, locked := lk } } := by
  refine ⟨s.rf.locked && (m == .synth || m == .tx || m == .rx), ?_⟩
  simp only [arrived, modRf, hcur, ne_eq, reduceCtorEq, not_false_eq_true, and_true]

section
variable {m : RfMode} (hphase : s.rf.phase = .moving m) (hheld : s.rf.held = none)
include hphase hheld

/-- A transition with no command ends in its mode. -/
theorem rfTransitionDone_uncommanded (hcur : s.rf.cur = none) :
    rfTransitionDone s = modRf (fun r => { r with
      mode := m, phase := .idle, locked := r.locked && (m == .synth || m == .tx || m == .rx) }) s := by
  simp [rfTransitionDone, modRf, hphase, hcur, hheld]

variable {c : RfCmd} (hcur : s.rf.cur = some c)
include hcur

/-- The transition of an OFF, STANDBY or WAKE ends that command. -/
theorem rfTransitionDone_rests (hop : c.op = 0 ∨ c.op = 1 ∨ c.op = 5) : ∃ lk, rfTransitionDone s =
    rfEnded 0x00 { s with rf := { s.rf with mode := m, phase := .idle, cur := none, locked := lk } } := by
  have hrests : (c.op == 0 || c.op == 1 || c.op == 5) = true := by simpa [or_assoc] using hop
  obtain ⟨lk, harrived⟩ := arrived_commanded (m := m) hcur
  unfold arrived at harrived
  simp only [rfTransitionDone, hphase, harrived, hcur, Option.map_some, Option.getD_some, hrests, if_true]
  exact ⟨lk, actHeld_none hheld⟩

/-- The transition of any other begins what it asked for, and a packet leaves. -/
theorem rfTransitionDone_goes (hop : ¬(c.op = 0 ∨ c.op = 1 ∨ c.op = 5)) : ∃ lk p, rfTransitionDone s = { s with
    perf := p
    sent := if m = .tx ∧ c.op = 3 then s.sent ++ [.packet c.ch c.aerial s.rf.air] else s.sent
    rf := { s.rf with mode := m, phase := if m = .tx ∨ m = .rx then .active else .idle, locked := lk } } := by
  have hgoes : (c.op == 0 || c.op == 1 || c.op == 5) = false := by simpa [and_assoc] using hop
  obtain ⟨lk, harrived⟩ := arrived_commanded (m := m) hcur
  unfold arrived at harrived
  simp only [rfTransitionDone, hphase, harrived, hcur, Option.map_some, Option.getD_some, hgoes, Bool.false_eq_true, if_false]
  by_cases htx : m = .tx
  · by_cases h3 : c.op = 3
    · obtain ⟨p, hcount⟩ := countEvent_eq { s with rf := { s.rf with mode := m, phase := .active, locked := lk } } 3 0x040 1
      simp only [htx, h3, hcur, true_or, and_self, if_true] at hcount ⊢
      rw [hcount]
      exact ⟨lk, p, rfl⟩
    · simp only [htx, h3, true_or, and_self, if_true, and_false, if_false]
      exact ⟨lk, s.perf, rfl⟩
  · simp only [htx, hheld, and_false, false_and, if_false, ne_eq, not_true_eq_false]
    exact ⟨lk, s.perf, rfl⟩

end

/-! ## Calibrations (R159, R160, R161) -/

/-- The calibration of channel k ends: a full one stores its code, as CAL_ALL's always does, and its command goes on. -/
theorem synthLock_leaves {k : Nat} {c : RfCmd} (hphase : s.rf.phase = .calibrating k) (hcur : s.rf.cur = some c) (hheld : s.rf.held = none) :
    ∃ u cal p, u = { s with perf := p, rf := { s.rf with cal := cal } } ∧ (c.op = 7 → (k, s.therm.tj) ∈ cal) ∧ synthLock s =
      if c.op = 7 then
        if k < 81 then modRf (fun r => { r with phase := .calibrating (k + 1), cur := some { c with ch := k + 1 }, ch := k + 1 }) u
        else rfEnded 0x00 (rfRest .standby u)
      else if c.op = 2 then rfRest .synth (rfEnded 0x00 (modRf (fun r => { r with locked := true, phase := .idle, mode := .synth }) u))
      else takeAir c (modRf (fun r => { r with locked := true, phase := .idle, mode := .synth }) u) := by
  obtain ⟨cal, p, hstored, hended⟩ : ∃ cal p, (c.op = 7 → (k, s.therm.tj) ∈ cal) ∧
      (if (!trackCal s k || (some c).map (·.op) == some 7) = true then countEvent 3 0x043 1 (storeCode k s) else countEvent 3 0x044 1 s) =
        { s with perf := p, rf := { s.rf with cal := cal } } := by
    split
    · obtain ⟨p, hcount⟩ := countEvent_eq (storeCode k s) 3 0x043 1
      refine ⟨_, p, fun _ => ?_, hcount⟩
      exact List.mem_append_right _ List.mem_cons_self
    · rename_i htrack
      obtain ⟨p, hcount⟩ := countEvent_eq s 3 0x044 1
      exact ⟨s.rf.cal, p, fun h7 => absurd (by simp [h7]) htrack, hcount⟩
  refine ⟨_, cal, p, rfl, hstored, ?_⟩
  simp only [synthLock, hphase, hcur, hended, modRf_rf, hheld, ne_eq, not_true_eq_false, if_false]
  rw [actHeld_none (s := rfEnded 0x00 (rfRest .standby _)) rfl]

theorem synthLockTimeout_calibrating {k : Nat} (hphase : s.rf.phase = .calibrating k) : ∃ x,
    (s.psr.busy = true → x = { s.psr with busy := false, last := 0x0B, owed := true }) ∧
    synthLockTimeout s = { s with psr := x, rf := { s.rf with
      mode := .standby, phase := .moving .standby, cur := none, held := none, locked := false, last := 0x0B, req := false
      cal := s.rf.cal.filter (fun e => e.1 != k), event := s.rf.event ||| 8 ||| 1 } } := by
  obtain ⟨x, hpsr, hended⟩ := psr_ended 0x0B s
  refine ⟨x, hended, ?_⟩
  simp only [synthLockTimeout, hphase, hpsr]
  rfl

/-! ## Automatic return (R165) -/

/-- The state that a code of AUTO_RETURN returns to. -/
def returnMode (code : Nat) : RfMode :=
  match code with
  | 0 => .standby
  | 1 => .synth
  | 2 => .rx
  | _ => .wake

/-- With no command held the radio returns as the code says, and COEX_REQ drops but for another search. -/
theorem autoReturn_leaves (code : Nat) (hheld : s.rf.held = none) : ∃ m cur lk sel rq, autoReturn code s = { s with rf := { s.rf with
    mode := m, phase := .moving (returnMode code), cur := cur, locked := lk, rfsel := sel, req := rq } } ∧ (code = 2 ∨ rq = false) := by
  unfold autoReturn
  rw [if_neg (not_not.mpr hheld)]
  match code with
  | 0 => exact ⟨_, _, _, _, _, rfl, .inr rfl⟩
  | 1 => exact ⟨_, _, _, _, _, rfl, .inr rfl⟩
  | 2 => exact ⟨_, _, _, _, _, rfl, .inl rfl⟩
  | n + 3 => exact ⟨_, _, _, _, _, rfl, .inr rfl⟩

/-! ## Packets (R163 to R173, R183) -/

theorem txPacketEnd_packet {c : RfCmd} (hair : onAir s = true) (hcur : s.rf.cur = some c) (hop : c.op = 3) :
    txPacketEnd s = autoReturn (liveField s 3 .autoReturn 0 0 2) (rfEnded s.rf.earned s) := by
  simp only [txPacketEnd, hcur, hair, hop, and_self, if_true]

theorem testCarrierEnd_test {c : RfCmd} (hair : onAir s = true) (hcur : s.rf.cur = some c) (hop : c.op = 6) (hheld : s.rf.held = none) :
    testCarrierEnd s = dropReq (rfRest .synth (rfEnded s.rf.earned s)) := by
  simp only [testCarrierEnd, hcur, hair, hop, and_self, if_true]
  exact actHeld_none hheld

theorem leAt_padTo_first {n : Nat} (hn : n ≠ 0) (l : List Byte) : leAt (padTo n l) 0 1 = leAt l 0 1 := by
  obtain ⟨m, rfl⟩ := Nat.exists_eq_succ_of_ne_zero hn
  cases l <;> simp [leAt, padTo, sliceZ, List.replicate_succ]

/-- The checks of R169 and R170, in the statement's words. -/
theorem rxCheck_eq (len : Byte) (payload : List Byte) (crc : Nat) : rxCheck len.toNat payload crc =
    if len = 0 ∨ 128 < len.toNat then 0x67 else if crc24 (len :: padTo len.toNat payload) ≠ crc then 0x62
    else if leAt (padTo len.toNat payload) 0 1 ∈ [0x43, 0x48, 0x51, 0x52, 0x54, 0x55, 0x56, 0x57] then 0x00 else 0x68 := by
  have hzero : len.toNat = 0 ↔ len = 0 := by
    rw [← BitVec.toNat_inj]
    rfl
  simp only [rxCheck, BitVec.ofNat_toNat, BitVec.setWidth_eq, hzero]
  by_cases hlen : len = 0 ∨ 128 < len.toNat
  · rw [if_pos hlen, if_pos hlen]
  · have hne : len.toNat ≠ 0 := fun h => hlen (.inl (hzero.mp h))
    have hknown : knownType (leAt payload 0 1) = false ↔
        ¬leAt (padTo len.toNat payload) 0 1 ∈ [0x43, 0x48, 0x51, 0x52, 0x54, 0x55, 0x56, 0x57] := by
      rw [leAt_padTo_first hne]
      simp only [knownType, Bool.or_eq_false_iff, Bool.and_eq_false_iff, beq_eq_false_iff_ne, decide_eq_false_iff_not, List.mem_cons,
        List.not_mem_nil, or_false]
      omega
    simp only [hlen, hknown, if_false, ite_not]

/-- Outside a chord's windows no report is kept. -/
theorem keepReport_deaf (h : s.rf.listen = none) (x : List Byte) (time : Nat) : keepReport x time s = s := by
  have hsame : ∀ f, s.rf.listen.map f = s.rf.listen := fun f => by rw [h]; rfl
  simp only [keepReport, modRf, hsame]

/-- Fields in force are said by the registers and what has latched of them. -/
theorem liveField_congr {t : State} (hcfg : t.cfg = s.cfg) (hlatched : t.latched = s.latched) (i : Nat) (r : Reg) (k lo len : Nat) :
    liveField t i r k lo len = liveField s i r k lo len := by
  simp only [liveField, regInForce, regValue, hcfg, hlatched]

/-- A packet with status st is counted, and a good one is written to the buffer at `a`. -/
theorem packetStored_eq (st : Status) (a : Nat) (bs : List Byte) (s : State) : ∃ q,
    (if st = 0x00 then countEvent 3 0x041 1 (memWriteBytes a bs s) else if st = 0x62 then countEvent 3 0x042 1 s else s) =
      { s with perf := q, mem := if st = 0x00 then Memory.writeBytes s.mem a bs else s.mem } := by
  split
  · exact countEvent_eq (memWriteBytes a bs s) 3 0x041 1
  · split
    · exact countEvent_eq s 3 0x042 1
    · exact ⟨s.perf, rfl⟩

/-- A packet in the buffer and in RX_INFO and RX_TIME. -/
def received (len rssi time : Nat) (st : Status) (ev : Nat) (m : Memory) (q : Vector PerfState 14) (s : State) : State :=
  { s with
    perf := q
    mem := m
    rf := { s.rf with rxLen := len, rxRssi := rssi, rxStatus := st, rxAerial := s.rf.rfsel, rxTime := time, event := ev } }

/-- What is received is noted, its command ends with the checks' status, and RX_RET applies. -/
theorem rxPacket_eq {len : Nat} {payload : List Byte} {crc : Nat} {st : Status} (hst : rxCheck len payload crc = st) (rssi time : Nat) (s : State) :
    ∃ ev q, rxPacket len payload crc rssi time s = autoReturn (liveField s 3 .autoReturn 0 2 2) (rfEnded st (received len rssi time st ev
      (if st = 0x00 then Memory.writeBytes s.mem (rfSram + liveField s 3 .rxPtr 0 2 13 * 4) (BitVec.ofNat 8 len :: padTo len payload) else s.mem) q s)) := by
  generalize hev : s.rf.event ||| (if st = 0x62 ∨ st = 0x67 then 0 else 2) ||| 4 * b2n (st == 0x00 && leAt (padTo len payload) 0 1 == 0x48) = ev
  generalize hu : received len rssi time st ev s.mem s.perf s = u
  have hlive : ∀ {t : State}, t.cfg = u.cfg → t.latched = u.latched → ∀ r lo len, liveField t 3 r 0 lo len = liveField s 3 r 0 lo len := by
    intro t hcfg hlatched r lo len
    rw [liveField_congr hcfg hlatched, ← hu]
    rfl
  obtain ⟨q, hstored⟩ := packetStored_eq st (rfSram + liveField s 3 .rxPtr 0 2 13 * 4) (BitVec.ofNat 8 len :: padTo len payload) u
  refine ⟨ev, q, ?_⟩
  unfold received at hu
  simp only [rxPacket, hst, modRf, hev, hu, hlive rfl rfl, hstored]
  subst hu
  exact congrArg (autoReturn · _) (hlive rfl rfl _ _ _)

/-- A packet received in a search that no chord set up. -/
theorem rxPacketAct_leaves {len : Nat} {payload : List Byte} {crc : Nat} {st : Status} (hst : rxCheck len payload crc = st) (rssi time : Nat)
    (hmode : s.rf.mode = .rx) (hphase : s.rf.phase = .active) (hheld : s.rf.held = none) (hlisten : s.rf.listen = none) :
    ∃ q ev m cur lk sel rq, rxPacketAct len payload crc rssi time s = { s with
      perf := q
      mem := if st = 0x00 then Memory.writeBytes s.mem (rfSram + liveField s 3 .rxPtr 0 2 13 * 4) (BitVec.ofNat 8 len :: padTo len payload) else s.mem
      rf := { s.rf with
        rxLen := len, rxRssi := rssi, rxStatus := st, rxAerial := s.rf.rfsel, rxTime := time, last := st, event := ev, mode := m
        phase := .moving (returnMode (liveField s 3 .autoReturn 0 2 2)), cur := cur, locked := lk, rfsel := sel, req := rq } } ∧
      (liveField s 3 .autoReturn 0 2 2 = 2 ∨ rq = false) := by
  obtain ⟨ev, q, hpacket⟩ := rxPacket_eq hst rssi time s
  generalize (if st = 0x00 then Memory.writeBytes s.mem (rfSram + liveField s 3 .rxPtr 0 2 13 * 4) (BitVec.ofNat 8 len :: padTo len payload)
    else s.mem) = mem at hpacket ⊢
  obtain ⟨m, cur, lk, sel, rq, hreturned, hreq⟩ :=
    autoReturn_leaves (s := rfEnded st (received len rssi time st ev mem q s)) (liveField s 3 .autoReturn 0 2 2) hheld
  rw [hreturned] at hpacket
  have hact : rxPacketAct len payload crc rssi time s = _ := if_pos ⟨hmode, hphase⟩
  rw [hact]
  dsimp only
  rw [keepReport_deaf (by rw [hpacket]; exact hlisten), ite_self, hpacket]
  exact ⟨q, _, m, cur, lk, sel, rq, rfl, hreq⟩

/-! ## Reflection (R182, R183) -/

/-- Only a third strike puts an aerial in FAULT. -/
theorem Aerial.after_unfaulted {a : Aerial} {failed : Bool} (h2 : a.state ≠ 2) (h : ¬(failed = true ∧ 2 ≤ a.strikes)) :
    (a.after failed).state ≠ 2 := by
  unfold Aerial.after
  rw [if_neg h2]
  split
  · rename_i hfailed
    rw [if_neg fun hs => h ⟨hfailed, hs⟩]
    exact nofun
  · exact nofun

/-- The radio with a reflection measured on its aerial, which is `bad` or not. -/
def reflected (mag : Nat) (short bad : Bool) (s : State) : State :=
  let k := s.rf.rfsel
  let a := vget ⟨3, 0⟩ s.rf.ants k
  modRf (fun r => { r with
    reflMag := mag, reflShort := short, reflAerial := k, reflValid := true, ants := vset r.ants k (a.after bad)
    earned := if bad then 0x64 else r.earned
    cur := if 51 ≤ mag then r.cur.map (fun c => { c with pwr := 0 }) else r.cur
    event := if a.state ≠ 2 ∧ (a.after bad).state = 2 then r.event ||| 2 ^ (8 + k) else r.event }) s

/-- A reflection is noted; of an aerial that enters FAULT the journal hears too, and the radio stays as noted. -/
theorem reflectionMeasure_onAir {mag : Nat} {bad : Bool} (hbad : (decide (regField s 3 .reflThr 0 0 6 < mag) || decide (51 ≤ mag)) = bad)
    (short : Bool) (hair : onAir s = true) :
    (reflectionMeasure mag short s).rf = (reflected mag short bad s).rf ∧
      ((vget ⟨3, 0⟩ s.rf.ants s.rf.rfsel).state = 2 ∨ ((vget ⟨3, 0⟩ s.rf.ants s.rf.rfsel).after bad).state ≠ 2 →
        { reflectionMeasure mag short s with rf := s.rf } = s) := by
  generalize hu : reflected mag short bad s = u
  have hmeasured : reflectionMeasure mag short s = if (vget ⟨3, 0⟩ s.rf.ants s.rf.rfsel).state ≠ 2 ∧
      ((vget ⟨3, 0⟩ s.rf.ants s.rf.rfsel).after bad).state = 2 ∧ canAct u 1 = true
      then deckFault 0x0D 3 (0x80 + s.rf.rfsel) u.time.us [] u else u := by
    subst hbad hu
    exact if_pos hair
  rw [hmeasured]
  split
  · rename_i hfault
    obtain ⟨hnew, hthird, -⟩ := hfault
    obtain ⟨q, c, o, m, p, h, -⟩ := deckFault_eq 0x0D 3 (0x80 + s.rf.rfsel) u.time.us [] u
    rw [h]
    exact ⟨rfl, fun hno => (hno.elim hnew fun hgood => hgood hthird).elim⟩
  · subst hu
    exact ⟨rfl, fun _ => rfl⟩

end Sys2Proof.Machine
end

section
/-! The statement about the radio's events (06_rf_island.md). -/

namespace Sys2Proof.Proofs

open Sys2Proof Sys2Proof.Machine

/-- Settles O31: each event by the lemma that says what it leaves of the radio. -/
theorem radioEvents : Obligations.RadioEvents := by
  intro s hact r ret frame
  have hevent : ∀ act, when_ 3 s act = act s := fun act => if_pos hact
  refine ⟨fun hheld => ⟨fun m hphase hcur => ?_, fun m c hphase hcur => ?_, fun k c hphase hcur => ?_, fun c hair hcur => ⟨fun h3 => ?_, fun h6 => ?_⟩,
    fun hmode hphase hlisten => ⟨?_, fun len payload crc rssi time => ?_⟩⟩, fun k hphase => ?_, fun mag short hair hsel => ?_⟩
  · exact congrArg Host.Outcome.next ((hevent _).trans (rfTransitionDone_uncommanded hphase hheld hcur))
  · by_cases hop : c.op = 0 ∨ c.op = 1 ∨ c.op = 5
    · obtain ⟨lk, h⟩ := rfTransitionDone_rests hphase hheld hcur hop
      exact ⟨_, congrArg Host.Outcome.next ((hevent _).trans h), rfl, rfl, fun _ => ⟨rfl, rfl, rfl, rfl⟩, fun hno => absurd hop hno⟩
    · obtain ⟨lk, p, h⟩ := rfTransitionDone_goes hphase hheld hcur hop
      exact ⟨_, congrArg Host.Outcome.next ((hevent _).trans h), rfl, rfl, fun hno => absurd hno hop, fun _ hair => ⟨if_pos hair, rfl⟩⟩
  · obtain ⟨u, cal, p, hu, hstored, hlock⟩ := synthLock_leaves hphase hcur hheld
    have hexec : exec .synthLock s = .next (synthLock s) := congrArg Host.Outcome.next (hevent _)
    rw [hexec, hlock]
    refine ⟨fun h2 => ?_, fun hair => ?_, fun h7 => ?_⟩
    · rw [if_neg (by omega), if_pos h2]
      subst hu
      exact ⟨_, rfl, rfl, rfl, rfl, rfl, rfl⟩
    · rw [if_neg (by omega), if_neg (by omega)]
      obtain ⟨hrfsel, hlocked, hreq, -⟩ := takeAir_leaves c (modRf (fun r => { r with locked := true, phase := .idle, mode := .synth }) u)
      obtain ⟨r', l, hradio⟩ := takeAir_radioOnly c (modRf (fun r => { r with locked := true, phase := .idle, mode := .synth }) u)
      refine ⟨_, rfl, ?_, hlocked, hrfsel, hreq, takeAir_phase c (by rw [hu]; rfl)⟩
      rw [hradio, hu]
      rfl
    · rw [if_pos h7]
      split
      · rename_i hk
        subst hu
        exact ⟨_, rfl, rfl, hstored h7, fun _ => ⟨rfl, rfl⟩, fun hno => absurd hk (Nat.not_lt.mpr hno)⟩
      · rename_i hk
        subst hu
        exact ⟨_, rfl, rfl, hstored h7, fun hlt => absurd hlt hk, fun _ => ⟨rfl, rfl, rfl, rfl⟩⟩
  · obtain ⟨m, cur, lk, sel, rq, hreturned, hreq⟩ := autoReturn_leaves (s := rfEnded s.rf.earned s) (liveField s 3 .autoReturn 0 0 2) hheld
    exact ⟨_, congrArg Host.Outcome.next ((hevent _).trans ((txPacketEnd_packet hair hcur h3).trans hreturned)), rfl, rfl, bitOf_or_one _, rfl, hreq⟩
  · exact ⟨_, congrArg Host.Outcome.next ((hevent _).trans (testCarrierEnd_test hair hcur h6 hheld)), rfl, rfl, rfl, rfl, rfl⟩
  · obtain ⟨m, cur, lk, sel, rq, hreturned, hreq⟩ := autoReturn_leaves (s := rfEnded 0x61 s) (liveField s 3 .autoReturn 0 2 2) hheld
    have hclose : rxWindowClose s = autoReturn (liveField s 3 .autoReturn 0 2 2) (rfEnded 0x61 s) := if_pos ⟨hmode, hphase⟩
    exact ⟨_, congrArg Host.Outcome.next ((hevent _).trans (hclose.trans hreturned)), rfl, rfl, rfl, hreq⟩
  · intro p st
    obtain ⟨q, ev, m, cur, lk, sel, rq, h, hreq⟩ := rxPacketAct_leaves (rxCheck_eq len payload crc.toNat) rssi.toNat (time % 2 ^ 64) hmode hphase hheld hlisten
    rw [BitVec.ofNat_toNat, BitVec.setWidth_eq] at h
    exact ⟨_, congrArg Host.Outcome.next ((hevent _).trans h), rfl, rfl, rfl, rfl, rfl, rfl, rfl, ⟨rfl, hreq⟩, rfl⟩
  · obtain ⟨x, hended, h⟩ := synthLockTimeout_calibrating hphase
    refine ⟨_, congrArg Host.Outcome.next ((hevent _).trans h), rfl, rfl, rfl, rfl, rfl, rfl, rfl, ?_, hended⟩
    rw [bitOf_or, bitOf_or, show bitOf 8 3 = true from rfl, Bool.or_true, Bool.true_or]
  · intro a bad
    have hbad : (decide (regField s 3 .reflThr 0 0 6 < mag.toNat) || decide (51 ≤ mag.toNat)) = decide bad := (Bool.decide_or _ _).symm
    obtain ⟨hrf, hframe⟩ := reflectionMeasure_onAir hbad short hair
    have hafter : a.after (decide bad) = if a.state = 2 then a else if bad then (if 2 ≤ a.strikes then ⟨2, 3⟩ else ⟨1, a.strikes + 1⟩) else ⟨0, 0⟩ := by
      simp only [Aerial.after, decide_eq_true_eq]
    refine ⟨_, congrArg Host.Outcome.next (hevent _), ?_⟩
    rw [hrf]
    exact ⟨rfl, rfl, rfl, rfl, fun h => if_pos (decide_eq_true h), fun h => if_neg (mt of_decide_eq_true h),
      (vget_vset_self _ _ _ hsel).trans hafter, fun h => hframe (or_iff_not_imp_left.mpr fun h2 =>
        Aerial.after_unfaulted h2 fun hthird => h.resolve_left h2 ⟨of_decide_eq_true hthird.1, hthird.2⟩)⟩

end Sys2Proof.Proofs
end

section
/-! SUPPORT. Coexistence, the wake receiver and the ranging exchange (R175 to R180, R194 to R198, R207). -/

namespace Sys2Proof.Machine

variable {s t : State}

/-! ## Coexistence (R177 to R180) -/

/-- Whether a guaranteed window is open is said by device time and the contract's fields in force. -/
theorem inCoexWindow_congr (htime : t.time = s.time) (hcfg : t.cfg = s.cfg) (hlatched : t.latched = s.latched) :
    inCoexWindow t = inCoexWindow s := by
  simp only [inCoexWindow, coexMode_congr hcfg hlatched, liveField_congr hcfg hlatched, htime]

/-- A grant is seen, and a command that waited for it goes on. -/
theorem coexGrant_waited {c : RfCmd} (hphase : s.rf.phase = .waitGrant) (hcur : s.rf.cur = some c) :
    coexGrant s = modRf (fun r => { r with gnt := true, phase := .moving (if c.op = 4 then .rx else .tx) }) s := by
  simp only [coexGrant, modRf, hphase, hcur]

/-- With no command that waits it is seen only. -/
theorem coexGrant_unwaited (h : ∀ c, s.rf.phase = .waitGrant → s.rf.cur = some c → False) :
    coexGrant s = modRf (fun r => { r with gnt := true }) s := by
  unfold coexGrant
  dsimp only
  split
  · rename_i c hphase hcur
    exact (h c hphase hcur).elim
  · rfl

/-- A command that ends for want of grant: what is counted, the exchange's end in a window, and LAST. -/
theorem coexEnd_eq (outside : Status) (preempt : Bool) (s : State) : ∃ x,
    (s.psr.busy = true ∧ inCoexWindow s = true → x = { s.psr with busy := false, last := 0x0C, owed := true }) ∧
    coexEnd outside preempt s = { s with psr := x, rf := { s.rf with
      denied := if inCoexWindow s then satTo 0xFFFF (s.rf.denied + 1) else s.rf.denied
      preempted := if !inCoexWindow s && preempt then satTo 0xFFFF (s.rf.preempted + 1) else s.rf.preempted
      event := (if inCoexWindow s || preempt then s.rf.event ||| 16 else s.rf.event) ||| 1
      last := if inCoexWindow s then 0x0C else outside } } := by
  by_cases hbreach : s.psr.busy = true ∧ inCoexWindow s = true
  · exact ⟨_, fun _ => rfl, congrArg (rfEnded (if inCoexWindow s then 0x0C else outside)) (if_pos hbreach)⟩
  · exact ⟨s.psr, fun h => absurd h hbreach, congrArg (rfEnded (if inCoexWindow s then 0x0C else outside)) (if_neg hbreach)⟩

theorem coexEnd_gnt (outside : Status) (preempt : Bool) (s : State) : (coexEnd outside preempt s).rf.gnt = s.rf.gnt := by
  obtain ⟨x, -, hend⟩ := coexEnd_eq outside preempt s
  rw [hend]

/-- With no command held the radio rests in SYNTH with COEX_REQ dropped after it. -/
theorem coexEnd_rests (outside : Status) (preempt : Bool) (hheld : s.rf.held = none) :
    actHeld (dropReq (rfRest .synth (coexEnd outside preempt s))) = dropReq (rfRest .synth (coexEnd outside preempt s)) := by
  refine actHeld_none ?_
  obtain ⟨x, -, hend⟩ := coexEnd_eq outside preempt s
  rw [hend]
  exact hheld

/-! ## The wake receiver (R175, R176) -/

theorem wakeAccepted_iff {site crc : Nat} {typ : Byte} : wakeAccepted s site typ.toNat crc = true ↔
    wakeCrc site typ.toNat = crc ∧ typ = 0x48 ∧ (bitOf (regValue s 0 .wurxCfg 0) 8 = true ∨ site = regField s 0 .wurxSite 0 0 24) := by
  have htyp : typ.toNat = 0x48 ↔ typ = 0x48 := by
    rw [← BitVec.toNat_inj]
    rfl
  simp only [wakeAccepted, Bool.and_eq_true, Bool.or_eq_true, beq_iff_eq, htyp, and_assoc]

/-- A packet that is not accepted is counted in BAD; its fields are kept where its CRC is good. -/
theorem wakePacket_refused {site typ crc : Nat} (hlistens : wurxListens s = true) (h : wakeAccepted s site typ crc = false) :
    wakePacket site typ crc s = modRf (fun r => { r with
      wurxBad := satTo 0xFFFF (r.wurxBad + 1)
      wurxSite := if wakeCrc site typ = crc then site else r.wurxSite
      wurxTyp := if wakeCrc site typ = crc then typ else r.wurxTyp }) s := by
  simp only [wakePacket, hlistens, wakeCounted, h, if_true, Bool.false_eq_true, if_false]

/-- The deck's requests to the gate leave the radio. -/
theorem deckRequest_rf (k : JobKind) (cl : List Nat) (b : Nat) (s : State) : (deckRequest k cl b s).2.rf = s.rf := by
  have hwrite : ∀ w, (tollReqWrite w s).2.rf = s.rf := by
    intro w
    unfold tollReqWrite
    cases s.toll.parking <;> dsimp only <;> split <;> simp
  unfold deckRequest
  dsimp only
  exact (apply_ite (fun x : Status × State => x.2.rf) _ _ _).trans ((ite_self _).trans (hwrite _))

theorem fobHello_rf (s : State) : (fobHello s).rf = s.rf := by
  have hnext : ∀ u : State, (sweepNext u).rf = u.rf := by
    intro u
    unfold sweepNext
    cases u.span.sweep with
    | none => rfl
    | some w => exact ite_keeps State.rf (deckRequest_rf _ _ _ u) (deckRequest_rf _ _ _ u)
  exact ite_keeps State.rf rfl (hnext _)

/-- A message whose work leaves the radio leaves it too. -/
theorem sendMsg_rf {work : State → State} (hwork : ∀ u, (work u).rf = u.rf) (src dst : Nat) (s : State) :
    (sendMsg src dst work id s).rf = s.rf := by
  obtain ⟨v, p, hoff, -⟩ := noteOff_eq (countEvent src 0x005 1 s) src (islandBase dst) true false true
  refine ite_keeps State.rf (ite_keeps State.rf ?_ ?_) rfl
  · rw [hwork]
    simp
  · rw [hoff]
    simp

/-- An accepted packet is counted in HELLO and leaves its fields. -/
theorem wakePacket_accepted {site typ crc : Nat} (hlistens : wurxListens s = true) (h : wakeAccepted s site typ crc = true)
    (hcrc : wakeCrc site typ = crc) : (wakePacket site typ crc s).rf =
      { s.rf with wurxHello := satTo 0xFFFF (s.rf.wurxHello + 1), wurxSite := site, wurxTyp := typ } := by
  have hcounted : (wakeCounted site typ crc s).rf =
      { s.rf with wurxHello := satTo 0xFFFF (s.rf.wurxHello + 1), wurxSite := site, wurxTyp := typ } := by
    simp only [wakeCounted, modRf_rf, h, hcrc, if_true]
  unfold wakePacket
  simp only [hlistens, h, if_true]
  exact ite_keeps State.rf hcounted ((sendMsg_rf fobHello_rf _ _ _).trans hcounted)

/-! ## The exchange (R194 to R198, R207) -/

/-- A START stores its fields, latches them and begins at leg 0 with nothing measured. -/
theorem psrStart_idle (word : Nat) (hidle : s.psr.busy = false) : ∃ l, psrStart word s =
    { putReg s 3 .psrCtrl 0 (word &&& (rowFor 3 .psrCtrl).rw) with latched := l, psr :=
      ⟨true, 0, s.psr.last, false, s.psr.bay, s.psr.tag, Vector.replicate 4 0, Vector.replicate 4 0, Vector.replicate 4 0, 0, 0, none, none⟩ } :=
  ⟨_, if_neg (by rw [show (putReg s 3 .psrCtrl 0 (word &&& (rowFor 3 .psrCtrl).rw)).psr.busy = false from hidle]; decide)⟩

/-- An ABORT ends the exchange; with no command held the radio stays. -/
theorem psrAbort_busy (word : Nat) (hbusy : s.psr.busy = true) (hheld : s.rf.held = none) : psrAbort word s =
    modPsr (fun p => { p with busy := false, last := 0x63, owed := true }) (putReg s 3 .psrCtrl 0 (word &&& (rowFor 3 .psrCtrl).rw)) :=
  (if_pos hbusy).trans (actHeld_none hheld)

/-- What an exchange measured on the aerials in USE. -/
theorem vget_mapRange {n : Nat} (f : Nat → Nat) {a : Nat} (ha : a < n) : vget 0 ((Vector.range n).map f) a = f a := by
  simp [vget, ha]

end Sys2Proof.Machine
end

section
/-! The statement about coexistence, the wake receiver and the ranging exchange (06_rf_island.md). -/

namespace Sys2Proof.Proofs

open Sys2Proof Sys2Proof.Machine

/-- Settles O32. That the coexistence pins are followed while the radio is off, that ABORT takes precedence over START in one word, and
that an accepted wake packet always sets its source, is the choice of log entry 35. -/
theorem coexistenceWakeAndRanging : Obligations.CoexistenceWakeAndRanging := by
  intro s r w lost
  have hlost : ∀ (outside : Status) (pre gnt : Bool) (u : State), u = { s with rf := { s.rf with gnt := gnt } } →
      lost outside pre (dropReq (rfRest .synth (coexEnd outside pre u))) := by
    intro outside pre gnt u hu
    have hw : inCoexWindow u = w := inCoexWindow_congr (by rw [hu]) (by rw [hu]) (by rw [hu])
    obtain ⟨x, hx, hend⟩ := coexEnd_eq outside pre u
    rw [hend, hw]
    rw [hw] at hx
    subst hu
    refine ⟨rfl, rfl, rfl, rfl, bitOf_or_one _, rfl, rfl, ?_, fun h => ?_, rfl, hx⟩
    · exact if_congr (by rw [Bool.and_eq_true, Bool.not_eq_true']) rfl rfl
    · change bitOf ((if (w || pre) = true then s.rf.event ||| 16 else s.rf.event) ||| 1) 4 = true
      rw [if_pos (Bool.or_eq_true _ _ ▸ h), bitOf_or, bitOf_or, show bitOf 16 4 = true from rfl, Bool.or_true, Bool.true_or]
  refine ⟨?_, fun h => ?_, fun hact hheld => ⟨fun hmode hreq hcur hon => ?_, fun hphase => ⟨fun hw => ?_, fun hw => ?_⟩⟩,
    fun hact hmode => ?_, fun site typ crc => ⟨fun hdeaf => ?_, fun hlistens => ?_⟩, fun ini word ha hheld => ?_,
    fun hact hbusy => ⟨fun leg hleg => ?_, fun hheld st m => ?_⟩⟩
  · refine congrArg Host.Outcome.next ?_
    split
    · rename_i hact
      split
      · rename_i c hphase hcur
        exact coexGrant_waited hphase hcur
      · rename_i hno
        exact coexGrant_unwaited hno
    · split
      · rename_i hphase hcur
        exact congrArg (fun ph => { s with rf := { s.rf with gnt := true, phase := ph } }) hphase
      · rfl
  · refine congrArg Host.Outcome.next ?_
    by_cases hact : canAct s 3 = true
    · refine (if_pos hact).trans (if_neg ?_)
      rintro ⟨hmode, hreq, hon, hcur⟩
      have hmode : coexMode s = true := (coexMode_congr rfl rfl).symm.trans hmode
      obtain hoff | hoff | hoff | hoff | ⟨hnotx, hnorx⟩ := h
      · exact absurd hact (Bool.eq_false_iff.mp hoff)
      · exact absurd hmode (Bool.eq_false_iff.mp hoff)
      · exact absurd hreq (Bool.eq_false_iff.mp hoff)
      · exact hcur hoff
      · exact hon.elim hnotx hnorx
    · exact if_neg hact
  · have hends : coexWithdraw s = _ := if_pos ⟨hmode, hreq, hon, hcur⟩
    exact ⟨_, congrArg Host.Outcome.next ((if_pos hact).trans (hends.trans (coexEnd_rests 0x65 true hheld))),
      hlost 0x65 true false _ rfl, coexEnd_gnt 0x65 true (modRf (fun r => { r with gnt := false }) s)⟩
  · have hends : coexGrantTimeout s = _ := if_pos ⟨hphase, hw⟩
    exact ⟨_, congrArg Host.Outcome.next ((if_pos hact).trans (hends.trans (coexEnd_rests 0x0C false hheld))),
      hlost 0x0C false s.rf.gnt s rfl⟩
  · have hends : coexWaitTimeout s = _ := if_pos ⟨hphase, hw⟩
    exact ⟨_, congrArg Host.Outcome.next ((if_pos hact).trans (hends.trans (coexEnd_rests 0x66 false hheld))),
      hlost 0x66 false s.rf.gnt s rfl⟩
  · exact congrArg Host.Outcome.next ((if_pos hact).trans (if_pos hmode))
  · exact congrArg Host.Outcome.next (if_neg (by rw [hdeaf]; decide))
  · intro good ok
    refine ⟨fun hno => ?_, fun hok => ?_⟩
    · exact congrArg Host.Outcome.next (wakePacket_refused hlistens (Bool.eq_false_iff.mpr fun h => hno (wakeAccepted_iff.mp h)))
    · have hrf := wakePacket_accepted hlistens (wakeAccepted_iff.mpr hok) hok.1
      refine ⟨_, rfl, ?_⟩
      rw [hrf]
      exact ⟨rfl, rfl, rfl, congrArg BitVec.toNat hok.2.1⟩
  · refine ⟨fun hnoabort hidle => ?_, fun hbusy => ?_⟩
    · obtain ⟨p, q, hruns⟩ := cmdDo_runs s (psrStart word.toNat) ha
      obtain ⟨l, hstart⟩ := psrStart_idle (s := { s with perf := p }) word.toNat hidle
      rw [hstart] at hruns
      have hstarts : exec (.psrStart ini word) s = .next (cmdDo ini 3 .psrCtrl (psrStart word.toNat) s) :=
        congrArg (fun act => Host.Outcome.next (cmdDo ini 3 .psrCtrl act s)) (if_neg (by rw [hnoabort]; decide))
      exact ⟨l, q, hstarts.trans (congrArg Host.Outcome.next hruns)⟩
    · have habort : ∀ v : Word, (cmdDo ini 3 .psrCtrl (psrAbort v.toNat) s).psr =
          { s.psr with busy := false, last := 0x63, owed := true } ∧ (cmdDo ini 3 .psrCtrl (psrAbort v.toNat) s).rf = r := by
        intro v
        obtain ⟨p, q, hruns⟩ := cmdDo_runs s (psrAbort v.toNat) ha
        rw [hruns, psrAbort_busy (s := { s with perf := p }) v.toNat hbusy hheld]
        exact ⟨rfl, rfl⟩
      have hbit : bitOf (word ||| 2).toNat 1 = true := by
        rw [BitVec.toNat_or, bitOf_or, show bitOf (2 : Word).toNat 1 = true from rfl, Bool.or_true]
      simp only [List.forall_mem_cons, List.not_mem_nil, false_imp_iff, implies_true, and_true]
      exact ⟨⟨_, rfl, habort word⟩,
        _, congrArg (fun act => Host.Outcome.next (cmdDo ini 3 .psrCtrl act s)) (if_pos hbit), habort (word ||| 2)⟩
  · exact congrArg Host.Outcome.next ((if_pos hact).trans (if_pos ⟨hbusy, hleg⟩))
  · refine ⟨_, congrArg Host.Outcome.next ((if_pos hact).trans ((if_pos hbusy).trans (actHeld_none hheld))),
      rfl, rfl, rfl, rfl, rfl, rfl, rfl, ?_⟩
    intro a ha g hg hbit
    refine ⟨(vget_mapRange _ ha).trans ?_, (vget_mapRange _ ha).trans ?_, (vget_mapRange _ ha).trans ?_⟩ <;> simp only [hbit, hg, if_true]

end Sys2Proof.Proofs
end

section
/-! SUPPORT. The cipher engine's contexts, slots and caissons; its checks; how a message begins and consumes its counter value, and how it
ends (R209 to R240). -/

namespace Sys2Proof.Machine

variable {s t u : State}

/-! ## Contexts and caissons read back -/

theorem getCtx_modCtx_self {c : Nat} (hc : c < 2) (f : Ctx → Ctx) (s : State) : getCtx (modCtx c f s) c = f (getCtx s c) := vget_vset_self _ _ _ hc

theorem getCtx_modCtx_ne {c n : Nat} (h : n ≠ c) (f : Ctx → Ctx) (s : State) : getCtx (modCtx c f s) n = getCtx s n := vget_vset_ne _ _ _ h

theorem getCaisson_setCaisson_self {k : Nat} (hk : k < 4) (x : Caisson) (s : State) : getCaisson (setCaisson k x s) k = x := vget_vset_self _ _ _ hk

/-- A context with a status in its result reads as before but for that. -/
theorem getCtx_ctxResult {c : Nat} (hc : c < 2) (st : Status) (s : State) (n : Nat) :
    getCtx (ctxResult c st s) n = if n = c then { getCtx s c with status := st } else getCtx s n := vget_vset _ _ _ hc n

/-- What a context reads as hangs on the contexts only. -/
theorem getCtx_congr (h : t.cipher.ctx = s.cipher.ctx) (n : Nat) : getCtx t n = getCtx s n := congrArg (fun v => vget Ctx.reset v n) h

/-! ## The ACTIVE context -/

theorem activeCtx_isSome : (activeCtx s).isSome = true ↔ (getCtx s 0).st = .active ∨ (getCtx s 1).st = .active := by
  unfold activeCtx
  split
  · simp [*]
  · split <;> simp [*]

theorem activeCtx_isNone : (activeCtx s).isNone = true ↔ ¬((getCtx s 0).st = .active ∨ (getCtx s 1).st = .active) := by
  rw [← activeCtx_isSome, Bool.not_eq_true, Option.isSome_eq_false_iff]

theorem activeCtx_lt {c : Nat} (h : activeCtx s = some c) : c < 2 := by
  unfold activeCtx at h
  split at h
  · cases h; decide
  · split at h
    · cases h; decide
    · cases h

/-! ## The checks (R237) -/

theorem consumes_iff {op : Nat} : consumes op = true ↔ op = 0x01 ∨ op = 0x03 := by
  simp only [consumes, Bool.or_eq_true, beq_iff_eq]

/-- The checks of a descriptor, in their order. -/
theorem descStatus_eq (s : State) (d : Desc) : descStatus s d =
    if descOk s d = false then 0x84
    else if (d.op ≠ 0x0A ∧ d.op ≠ 0x0B) ∧ (96 ≤ d.slot ∨ (getSlot s d.slot).st = .empty) then 0x82
    else if policyAllows s d = false then 0x80
    else if (d.op = 0x07 ∧ slotInUse s d.dest = true) ∨ (d.op = 0x0A ∧ slotInUse s (bitsOf (blobPolicy s d) 16 7) = true) then 0x83
    else if (d.op = 0x01 ∨ d.op = 0x03) ∧ (getSlot s d.slot).st = .spent then 0x08
    else if (d.op = 0x01 ∨ d.op = 0x03) ∧ bitOf (getSlot s d.slot).policy 11 = true ∧ (getSlot s d.slot).ready = false then 0x10
    else if d.op = 0x02 ∧ 4096 < d.dataLen ∧ longCaisson s d = none then 0x85 else 0x00 := by
  simp only [descStatus, Bool.and_eq_true, bne_iff_ne, consumes_iff]

/-- A descriptor that passes the checks and consumes a counter value names a slot. -/
theorem slot_lt_of_descStatus {d : Desc} (hd : descStatus s d = 0x00) (hop : d.op = 0x01 ∨ d.op = 0x03) : d.slot < 96 := by
  rw [descStatus_eq] at hd
  by_contra hslot
  have hnamed : (d.op ≠ 0x0A ∧ d.op ≠ 0x0B) ∧ (96 ≤ d.slot ∨ (getSlot s d.slot).st = .empty) :=
    ⟨by omega, .inl (Nat.le_of_not_lt hslot)⟩
  rw [if_pos hnamed] at hd
  split at hd <;> cases hd

theorem longCaisson_lt {d : Desc} {m : Nat} (h : longCaisson s d = some m) : m < 4 := by
  unfold longCaisson at h
  split at h
  · exact List.mem_range.mp (List.mem_of_find?_eq_some h)
  · cases h

/-! ## Counter values and reservations (R224 to R227) -/

/-- From s to t only slot i, the engine's events and the requested ledger changes differ. -/
def SlotOnly (i : Nat) (s t : State) : Prop :=
  (∃ sl ev ch, t = { s with cipher := { s.cipher with slots := sl, event := ev }, store := { s.store with changes := ch } }) ∧
    ∀ n, n ≠ i → getSlot t n = getSlot s n

theorem SlotOnly.refl (i : Nat) (s : State) : SlotOnly i s s := ⟨⟨s.cipher.slots, s.cipher.event, s.store.changes, rfl⟩, fun _ _ => rfl⟩

theorem SlotOnly.trans {i : Nat} (h : SlotOnly i s t) (h' : SlotOnly i t u) : SlotOnly i s u := by
  obtain ⟨⟨sl, ev, ch, rfl⟩, hslots⟩ := h
  obtain ⟨⟨sl', ev', ch', rfl⟩, hslots'⟩ := h'
  exact ⟨⟨sl', ev', ch', rfl⟩, fun n hn => (hslots' n hn).trans (hslots n hn)⟩

theorem modSlot_slotOnly (i : Nat) (f : Slot → Slot) (s : State) : SlotOnly i s (modSlot i f s) :=
  ⟨⟨_, s.cipher.event, s.store.changes, rfl⟩, fun _ hn => vget_vset_ne _ _ _ hn⟩

theorem event_slotOnly (i bits : Nat) (s : State) : SlotOnly i s (modCipher (fun c => { c with event := c.event ||| bits }) s) :=
  ⟨⟨s.cipher.slots, _, s.store.changes, rfl⟩, fun _ _ => rfl⟩

theorem requestChange_slotOnly (i : Nat) (x : LedgerChange) (s : State) : SlotOnly i s (requestChange x s) :=
  ⟨⟨s.cipher.slots, s.cipher.event, _, rfl⟩, fun _ _ => rfl⟩

theorem reserveCounter_slotOnly (i : Nat) (s : State) : SlotOnly i s (reserveCounter i s) := by
  unfold reserveCounter
  split
  · split
    · exact .refl i s
    · split
      · exact (modSlot_slotOnly i _ s).trans (requestChange_slotOnly i _ _)
      · exact event_slotOnly i _ s
  · exact .refl i s

/-- The counter value at which a slot is SPENT (R224, R227). -/
def Slot.lastCtr (k : Slot) : Nat := if k.st = .derived then k.limit else ctrEnd

/-- The state of a slot whose counter has reached `k.ctr`. -/
def Slot.worn (k : Slot) : SlotSt := if k.ctr = k.lastCtr then .spent else k.st

/-- The state after a slot's counter has moved: at its last value the slot becomes SPENT. -/
def wearSlot (i : Nat) (s : State) : State :=
  if (getSlot s i).ctr = (getSlot s i).lastCtr then
    modCipher (fun c => { c with event := c.event ||| 8 }) (modSlot i (fun k => { k with st := .spent }) s)
  else s

/-- After a value has been consumed the slot is worn, and may ask for a reservation. -/
theorem afterConsume_cases (i : Nat) (s : State) : afterConsume i s = reserveCounter i (wearSlot i s) ∨ afterConsume i s = wearSlot i s := by
  unfold afterConsume wearSlot Slot.lastCtr
  by_cases hst : (getSlot s i).st = .derived
  · simp only [if_pos hst, beq_iff_eq]
    exact (Classical.em _).imp (fun h => if_pos h) fun h => if_neg h
  · simp only [if_neg hst, beq_iff_eq]
    exact (Classical.em _).imp (fun h => if_pos h) fun h => if_neg h

theorem wearSlot_slotOnly (i : Nat) (s : State) : SlotOnly i s (wearSlot i s) := by
  unfold wearSlot
  split
  · exact (modSlot_slotOnly i _ s).trans (event_slotOnly i _ _)
  · exact .refl i s

theorem afterConsume_slotOnly (i : Nat) (s : State) : SlotOnly i s (afterConsume i s) := by
  rcases afterConsume_cases i s with h | h <;> rw [h]
  · exact (wearSlot_slotOnly i s).trans (reserveCounter_slotOnly i _)
  · exact wearSlot_slotOnly i s

/-- A request for a reservation leaves the slot but for its wait. -/
theorem getSlot_reserveCounter {i : Nat} (hi : i < 96) (s : State) : ∃ r, getSlot (reserveCounter i s) i = { getSlot s i with resv := r } := by
  unfold reserveCounter
  split
  · split
    · exact ⟨(getSlot s i).resv, rfl⟩
    · split
      · exact ⟨true, (getSlot_modSlot hi (fun k => { k with resv := true }) s i).trans (if_pos rfl)⟩
      · exact ⟨(getSlot s i).resv, rfl⟩
  · exact ⟨(getSlot s i).resv, rfl⟩

theorem getSlot_wearSlot {i : Nat} (hi : i < 96) (s : State) : getSlot (wearSlot i s) i = { getSlot s i with st := (getSlot s i).worn } := by
  unfold wearSlot Slot.worn
  split
  · exact (getSlot_modSlot hi (fun k => { k with st := .spent }) s i).trans (if_pos rfl)
  · rfl

theorem getSlot_afterConsume {i : Nat} (hi : i < 96) (s : State) :
    ∃ r, getSlot (afterConsume i s) i = { getSlot s i with st := (getSlot s i).worn, resv := r } := by
  rcases afterConsume_cases i s with h | h <;> rw [h]
  · obtain ⟨r, hr⟩ := getSlot_reserveCounter hi (wearSlot i s)
    exact ⟨r, by rw [hr, getSlot_wearSlot hi]⟩
  · exact ⟨(getSlot s i).resv, getSlot_wearSlot hi s⟩

theorem SlotOnly.modCtx {i : Nat} (h : SlotOnly i s t) (c : Nat) (f : Ctx → Ctx) : SlotOnly i (modCtx c f s) (modCtx c f t) := by
  obtain ⟨⟨sl, ev, ch, rfl⟩, hslots⟩ := h
  exact ⟨⟨sl, ev, ch, rfl⟩, hslots⟩

/-- The contexts are those of before. -/
theorem SlotOnly.getCtx {i : Nat} (h : SlotOnly i s t) (n : Nat) : getCtx t n = getCtx s n := by
  obtain ⟨⟨sl, ev, ch, rfl⟩, -⟩ := h
  rfl

section
variable {c i : Nat} {k : Slot} (hi : (getCtx s c).desc.slot = i) (hk : getSlot s i = k)
include hi hk

/-- Where the slot's next value is not below its mark the message consumes none: it waits for a reservation, or fails (R226). -/
theorem consumeFor_short (hshort : bitOf k.policy 11 = true ∧ k.hwm ≤ k.ctr) : ∃ f : Ctx → Ctx,
    (∀ x, ∃ w e, f x = { x with waits := w, fail := e } ∧ (w = true ∨ e = 0x10)) ∧ SlotOnly i (modCtx c f s) (consumeFor c s) ∧
      (i < 96 → (getSlot (consumeFor c s) i).ctr = k.ctr) := by
  have hres : SlotOnly i s (reserveCounter i s) := reserveCounter_slotOnly i s
  have hctr : i < 96 → (getSlot (reserveCounter i s) i).ctr = k.ctr := by
    intro h96
    obtain ⟨r, hr⟩ := getSlot_reserveCounter h96 s
    rw [hr, ← hk]
  have hshort' : bitOf (getSlot s (getCtx s c).desc.slot).policy 11 = true ∧
      (getSlot s (getCtx s c).desc.slot).hwm ≤ (getSlot s (getCtx s c).desc.slot).ctr := by rwa [hi, hk]
  unfold consumeFor
  dsimp only
  rw [if_pos hshort', hi]
  split
  · exact ⟨_, fun x => ⟨true, x.fail, rfl, .inl rfl⟩, hres.modCtx c _, hctr⟩
  · exact ⟨_, fun x => ⟨false, 0x10, rfl, .inr rfl⟩, hres.modCtx c _, hctr⟩

/-- Else it consumes the slot's value, and the slot moves on to the next (R224). -/
theorem consumeFor_counts (hcovered : ¬(bitOf k.policy 11 = true ∧ k.hwm ≤ k.ctr)) :
    SlotOnly i (modCtx c (fun x => { x with value := some k.ctr, waits := false }) s) (consumeFor c s) ∧
      (i < 96 → ∃ r, getSlot (consumeFor c s) i = { k with ctr := k.ctr + 1, st := { k with ctr := k.ctr + 1 }.worn, resv := r }) := by
  have hcovered' : ¬(bitOf (getSlot s (getCtx s c).desc.slot).policy 11 = true ∧
      (getSlot s (getCtx s c).desc.slot).hwm ≤ (getSlot s (getCtx s c).desc.slot).ctr) := by rwa [hi, hk]
  unfold consumeFor
  dsimp only
  rw [if_neg hcovered', hi, hk]
  have hmoved : i < 96 → getSlot (modSlot i (fun k => { k with ctr := k.ctr + 1 }) (modCtx c (fun x => { x with value := some k.ctr, waits := false }) s)) i =
      { k with ctr := k.ctr + 1 } := fun h96 =>
    (getSlot_modSlot h96 _ _ i).trans ((if_pos rfl).trans (congrArg (fun k => { k with ctr := k.ctr + 1 }) hk))
  refine ⟨(modSlot_slotOnly i _ _).trans (afterConsume_slotOnly i _), fun h96 => ?_⟩
  obtain ⟨r, hr⟩ := getSlot_afterConsume h96 (modSlot i (fun k => { k with ctr := k.ctr + 1 }) _)
  exact ⟨r, by rw [hr, hmoved h96]⟩

end

/-- Beside its slot, a message that asks for a value changes its value, its wait and its failure. -/
theorem consumeFor_slotOnly (c : Nat) (s : State) : ∃ f : Ctx → Ctx,
    (∀ x, ∃ v w e, f x = { x with value := v, waits := w, fail := e }) ∧ SlotOnly (getCtx s c).desc.slot (modCtx c f s) (consumeFor c s) := by
  by_cases hshort : bitOf (getSlot s (getCtx s c).desc.slot).policy 11 = true ∧
      (getSlot s (getCtx s c).desc.slot).hwm ≤ (getSlot s (getCtx s c).desc.slot).ctr
  · obtain ⟨f, hf, h, -⟩ := consumeFor_short rfl rfl hshort
    refine ⟨f, fun x => ?_, h⟩
    obtain ⟨w, e, hx, -⟩ := hf x
    exact ⟨x.value, w, e, hx⟩
  · exact ⟨_, fun x => ⟨_, false, x.fail, rfl⟩, (consumeFor_counts rfl rfl hshort).1⟩

/-! ## A message begins (R224, R225, R233) -/

/-- The context of a message that begins. -/
def openedCtx (c : Nat) (d : Desc) (s : State) : Ctx :=
  { Ctx.reset with
    st := .active, caisson := longCaisson s d, status := (getCtx s c).status
    desc := if d.op = 0x0A then { d with dest := bitsOf (blobPolicy s d) 16 7 } else d }

theorem openedCtx_op (c : Nat) (d : Desc) (s : State) : (openedCtx c d s).desc.op = d.op := by
  unfold openedCtx
  dsimp only
  split <;> rfl

theorem openedCtx_slot (c : Nat) (d : Desc) (s : State) : (openedCtx c d s).desc.slot = d.slot := by
  unfold openedCtx
  dsimp only
  split <;> rfl

/-- Whether a message of this descriptor consumes a counter value of its slot (R222, R224). -/
def Counts (s : State) (d : Desc) : Prop :=
  (d.op = 0x01 ∨ d.op = 0x03) ∧ (bitOf (getSlot s d.slot).policy 10 = true ∨ (getSlot s d.slot).st = .derived)

/-- The caisson of a long message is taken (R233). -/
def takeCaisson (cs : Option Nat) (s : State) : State :=
  match cs with
  | some k => setCaisson k { getCaisson s k with busy := true } s
  | none => s

theorem takeCaisson_eq (cs : Option Nat) (s : State) : ∃ v, takeCaisson cs s = { s with cipher := { s.cipher with caissons := v } } := by
  cases cs with
  | none => exact ⟨s.cipher.caissons, rfl⟩
  | some k => exact ⟨_, rfl⟩

theorem takeCaisson_busy {m : Nat} (hm : m < 4) (s : State) : (getCaisson (takeCaisson (some m) s) m).busy = true :=
  congrArg Caisson.busy (getCaisson_setCaisson_self hm _ s)

/-- A message in its context with its caisson, before it consumes a counter value: a WRAP has asked the DRBG for its IV. -/
def openedMessage (c : Nat) (d : Desc) (s : State) : State :=
  let u := takeCaisson (longCaisson s d) (modCtx c (fun _ => openedCtx c d s) s)
  if (openedCtx c d s).desc.op = 0x0B then rngRequest 2 12 u else u

theorem openedMessage_eq (c : Nat) (d : Desc) (s : State) : ∃ r l, openedMessage c d s =
    { takeCaisson (longCaisson s d) (modCtx c (fun _ => openedCtx c d s) s) with rng := r, latched := l } := by
  unfold openedMessage
  dsimp only
  split
  · exact rngRequest_eq 2 12 _
  · exact ⟨s.rng, s.latched, by obtain ⟨v, hv⟩ := takeCaisson_eq (longCaisson s d) (modCtx c (fun _ => openedCtx c d s) s); rw [hv]; rfl⟩

/-- What a message that has begun leaves: its context, its caisson, and what a WRAP asks of the DRBG. -/
theorem openedMessage_leaves (c : Nat) (d : Desc) (s : State) : ∃ v r l, openedMessage c d s =
    { s with cipher := { s.cipher with ctx := vset s.cipher.ctx c (openedCtx c d s), caissons := v }, rng := r, latched := l } := by
  obtain ⟨r, l, h⟩ := openedMessage_eq c d s
  obtain ⟨v, hv⟩ := takeCaisson_eq (longCaisson s d) (modCtx c (fun _ => openedCtx c d s) s)
  exact ⟨v, r, l, by rw [h, hv]; rfl⟩

theorem openedMessage_busy (c : Nat) {d : Desc} {m : Nat} (hm : longCaisson s d = some m) : (getCaisson (openedMessage c d s) m).busy = true := by
  obtain ⟨r, l, h⟩ := openedMessage_eq c d s
  rw [h, hm]
  exact takeCaisson_busy (longCaisson_lt hm) _

theorem getCtx_openedMessage {c : Nat} (hc : c < 2) (d : Desc) (s : State) (n : Nat) :
    getCtx (openedMessage c d s) n = if n = c then openedCtx c d s else getCtx s n := by
  obtain ⟨v, r, l, h⟩ := openedMessage_leaves c d s
  rw [h]
  exact vget_vset _ _ _ hc n

theorem getSlot_openedMessage (c : Nat) (d : Desc) (s : State) (n : Nat) : getSlot (openedMessage c d s) n = getSlot s n := by
  obtain ⟨v, r, l, h⟩ := openedMessage_leaves c d s
  rw [h]
  rfl

/-- A message that begins consumes a value where its slot counts. -/
theorem beginMessage_eq (c : Nat) (d : Desc) (s : State) [Decidable (Counts s d)] :
    beginMessage c d s = if Counts s d then consumeFor c (openedMessage c d s) else openedMessage c d s := by
  have hbegin : beginMessage c d s = if consumes (openedCtx c d s).desc.op = true ∧
      (bitOf (getSlot (openedMessage c d s) (openedCtx c d s).desc.slot).policy 10 = true ∨
        (getSlot (openedMessage c d s) (openedCtx c d s).desc.slot).st = .derived)
      then consumeFor c (openedMessage c d s) else openedMessage c d s := rfl
  rw [hbegin, openedCtx_op, openedCtx_slot, getSlot_openedMessage]
  exact if_congr (and_congr_left' consumes_iff) rfl rfl

/-- What every message that begins in context c leaves: it is ACTIVE under its descriptor and holds its caisson; the other context and
every slot but its own stay, and beside the engine only the DRBG's requests, the ledger changes asked for and what has latched differ. -/
structure Begun (c : Nat) (d : Desc) (s t : State) : Prop where
  frame : { t with cipher := s.cipher, rng := s.rng, store := s.store, latched := s.latched } = s
  pending : t.cipher.pendingStart = s.cipher.pendingStart
  active : (getCtx t c).st = .active
  owner : (getCtx t c).owner = .keys
  op : (getCtx t c).desc.op = d.op
  slot : (getCtx t c).desc.slot = d.slot
  caisson : (getCtx t c).caisson = longCaisson s d
  others : ∀ n, n ≠ c → getCtx t n = getCtx s n
  slots : ∀ n, n ≠ d.slot → getSlot t n = getSlot s n
  busy : ∀ m, longCaisson s d = some m → (getCaisson t m).busy = true

section
variable {c : Nat} {d : Desc} (hc : c < 2)
include hc

theorem openedMessage_begun (d : Desc) (s : State) : Begun c d s (openedMessage c d s) := by
  have hown : getCtx (openedMessage c d s) c = openedCtx c d s := (getCtx_openedMessage hc d s c).trans (if_pos rfl)
  obtain ⟨v, r, l, h⟩ := openedMessage_leaves c d s
  exact {
    frame := by rw [h]
    pending := by rw [h]
    active := by rw [hown]; rfl
    owner := by rw [hown]; rfl
    op := by rw [hown, openedCtx_op]
    slot := by rw [hown, openedCtx_slot]
    caisson := by rw [hown]; rfl
    others := fun n hn => (getCtx_openedMessage hc d s n).trans (if_neg hn)
    slots := fun n _ => getSlot_openedMessage c d s n
    busy := fun m hm => openedMessage_busy c hm }

/-- A message that has asked for a counter value has begun all the same. -/
theorem Begun.slotOnly {f : Ctx → Ctx} (h : Begun c d s t) (hf : ∀ x, ∃ v w e, f x = { x with value := v, waits := w, fail := e })
    (hu : SlotOnly d.slot (modCtx c f t) u) : Begun c d s u := by
  obtain ⟨v, w, e, hx⟩ := hf (getCtx t c)
  have hown : getCtx u c = { getCtx t c with value := v, waits := w, fail := e } := (hu.getCtx c).trans ((getCtx_modCtx_self hc f t).trans hx)
  obtain ⟨⟨sl, ev, ch, rfl⟩, hslots⟩ := hu
  exact {
    frame := h.frame
    pending := h.pending
    active := by rw [hown]; exact h.active
    owner := by rw [hown]; exact h.owner
    op := by rw [hown]; exact h.op
    slot := by rw [hown]; exact h.slot
    caisson := by rw [hown]; exact h.caisson
    others := fun n hn => (getCtx_modCtx_ne hn f t).trans (h.others n hn)
    slots := fun n hn => (hslots n hn).trans (h.slots n hn)
    busy := h.busy }

theorem openedMessage_slot (d : Desc) (s : State) : (getCtx (openedMessage c d s) c).desc.slot = d.slot := (openedMessage_begun hc d s).slot

theorem beginMessage_begun (d : Desc) (s : State) : Begun c d s (beginMessage c d s) := by
  classical
  rw [beginMessage_eq]
  split
  · obtain ⟨f, hf, hslot⟩ := consumeFor_slotOnly c (openedMessage c d s)
    rw [openedMessage_slot hc] at hslot
    exact (openedMessage_begun hc d s).slotOnly hc hf hslot
  · exact openedMessage_begun hc d s

/-- A message whose slot does not count leaves every slot. -/
theorem beginMessage_uncounted (h : ¬Counts s d) :
    (getCtx (beginMessage c d s) c).value = none ∧ (beginMessage c d s).cipher.slots = s.cipher.slots := by
  classical
  rw [beginMessage_eq, if_neg h, getCtx_openedMessage hc, if_pos rfl]
  obtain ⟨v, r, l, ho⟩ := openedMessage_leaves c d s
  exact ⟨rfl, by rw [ho]⟩

/-- Where the next value is not below the mark the message has none yet. -/
theorem beginMessage_short (h : Counts s d) (hslot : d.slot < 96)
    (hshort : bitOf (getSlot s d.slot).policy 11 = true ∧ (getSlot s d.slot).hwm ≤ (getSlot s d.slot).ctr) :
    (getCtx (beginMessage c d s) c).value = none ∧
      ((getCtx (beginMessage c d s) c).waits = true ∨ (getCtx (beginMessage c d s) c).fail = 0x10) ∧
      (getSlot (beginMessage c d s) d.slot).ctr = (getSlot s d.slot).ctr := by
  classical
  obtain ⟨f, hf, hu, hctr⟩ := consumeFor_short (openedMessage_slot hc d s) (getSlot_openedMessage c d s d.slot) hshort
  rw [beginMessage_eq, if_pos h, hu.getCtx, getCtx_modCtx_self hc, getCtx_openedMessage hc, if_pos rfl]
  obtain ⟨w, e, hx, hwaits⟩ := hf (openedCtx c d s)
  rw [hx]
  exact ⟨rfl, hwaits, hctr hslot⟩

/-- Else it has its slot's value, and the slot has moved on. -/
theorem beginMessage_counted (h : Counts s d) (hslot : d.slot < 96)
    (hcovered : ¬(bitOf (getSlot s d.slot).policy 11 = true ∧ (getSlot s d.slot).hwm ≤ (getSlot s d.slot).ctr)) :
    (getCtx (beginMessage c d s) c).value = some (getSlot s d.slot).ctr ∧
      (getSlot (beginMessage c d s) d.slot).ctr = (getSlot s d.slot).ctr + 1 ∧
      (getSlot (beginMessage c d s) d.slot).st = { getSlot s d.slot with ctr := (getSlot s d.slot).ctr + 1 }.worn := by
  classical
  obtain ⟨hu, hctr⟩ := consumeFor_counts (openedMessage_slot hc d s) (getSlot_openedMessage c d s d.slot) hcovered
  obtain ⟨r, hr⟩ := hctr hslot
  rw [beginMessage_eq, if_pos h, hu.getCtx, getCtx_modCtx_self hc, hr]
  exact ⟨rfl, rfl, rfl⟩

end

/-! ## A message ends (R229, R231, R238, R240) -/

/-- A message that ended in context c with a status: the context is FREE, shows it with DONE and its event, and the other context stays. -/
def MessageEnded (c : Nat) (st : Status) (s t : State) : Prop :=
  (getCtx t c).st = .free ∧ (getCtx t c).status = st ∧ (getCtx t c).done = true ∧ bitOf t.cipher.event c = true ∧
    ∀ n, n ≠ c → getCtx t n = getCtx s n

/-- A message over changes its context and event, and the counters. -/
theorem messageOver_eq (c : Nat) (st : Status) (s : State) : ∃ n p, messageOver c st s = { s with
    perf := p
    cipher := { s.cipher with ctx := vset s.cipher.ctx c { Ctx.reset with status := st, done := true, units := n }, event := s.cipher.event ||| 2 ^ c } } := by
  obtain ⟨p, hp⟩ := countEvent_eq s 2 0x044 (b2n (st == 0x07))
  obtain ⟨q, hq⟩ := countEvent_eq { s with perf := p } 2 0x041 (opUnits s (getCtx s c))
  refine ⟨satTo 0xFFFF (opUnits s (getCtx s c)), q, ?_⟩
  unfold messageOver
  dsimp only
  rw [hp, hq]
  rfl

theorem messageOver_ended {c : Nat} (hc : c < 2) (st : Status) (s : State) : MessageEnded c st s (messageOver c st s) := by
  obtain ⟨n, p, h⟩ := messageOver_eq c st s
  have hctx : ∀ m, getCtx (messageOver c st s) m = if m = c then { Ctx.reset with status := st, done := true, units := n } else getCtx s m := by
    rw [h]
    exact vget_vset _ _ _ hc
  have hown := (hctx c).trans (if_pos rfl)
  refine ⟨by rw [hown]; rfl, by rw [hown], by rw [hown], ?_, fun m hm => (hctx m).trans (if_neg hm)⟩
  rw [h]
  exact (bitOf_or _ _ _).trans (by simp [bitOf])

/-- An early end zeroes what the message wrote into a caisson and ends it. -/
theorem endEarly_eq (c : Nat) (st : Status) (s : State) :
    ∃ v f, endEarly c st s = messageOver c st { s with cipher := { s.cipher with caissons := v }, free := f } := by
  unfold endEarly
  dsimp only
  split
  · exact ⟨_, _, rfl⟩
  · exact ⟨s.cipher.caissons, s.free, rfl⟩

theorem endEarly_ended {c : Nat} (hc : c < 2) (st : Status) (s : State) : MessageEnded c st s (endEarly c st s) := by
  obtain ⟨v, f, h⟩ := endEarly_eq c st s
  have hended := messageOver_ended hc st { s with cipher := { s.cipher with caissons := v }, free := f }
  rw [h]
  exact hended

/-! ## The commands (R229, R237) -/

/-- A register command by what its action does on a state that differs in the counters. -/
theorem exec_cmdWrite {i : Instr} {ini : Island} {j : Nat} {r : Reg} {act : State → Status × State} {st : Status}
    (hexec : exec i s = .next (cmdWrite ini j r act s)) (ha : Accepts s ini j r)
    (h : ∀ p, act { s with perf := p } = (st, { t with perf := p })) :
    ∃ q, exec i s = .next (setResp ini [] st { t with perf := q }) :=
  (cmdWrite_next s ha fun p => ⟨p, h p⟩).imp fun _ hq => hexec.trans (congrArg Host.Outcome.next hq)

/-- Each command answers the first status that applies, and acts where it is 0x00; the counters play no part. -/
theorem cipherStartAct_eq {c idx : Nat} {d : Desc} (hd : readDesc s idx = d) (p) {st : Status}
    (hst : st = if (getCtx s c).st ≠ .free ∨ ((getCtx s 0).st = .active ∨ (getCtx s 1).st = .active) then 0x86
      else if s.cipher.lock ≠ some .keys then 0x12 else descStatus s d) :
    cipherStartAct c idx { s with perf := p } = if st ≠ 0 then (st, ctxResult c st { s with perf := p })
      else (0x00, beginMessage c d { s with perf := p }) := by
  have hstatus : (if (getCtx s c).st ≠ .free ∨ (activeCtx s).isSome = true then 0x86
      else if s.cipher.lock ≠ some .keys then 0x12 else descStatus s d) = st :=
    (if_congr (or_congr_right activeCtx_isSome) rfl rfl).trans hst.symm
  have hread : readDesc { s with perf := p } idx = d := hd
  unfold cipherStartAct
  rw [← hstatus, hread]
  rfl

theorem cipherSuspendAct_eq {c idx : Nat} {d : Desc} (hd : readDesc s idx = d) (p) {st : Status}
    (hst : st = if (getCtx s c).st ≠ .free ∨ ¬((getCtx s 0).st = .active ∨ (getCtx s 1).st = .active) ∨ s.cipher.pendingStart ≠ none then 0x86
      else if s.cipher.lock ≠ some .keys then 0x12 else descStatus s d) :
    cipherSuspendAct c idx { s with perf := p } = if st ≠ 0 then (st, ctxResult c st { s with perf := p })
      else (0x00, { s with perf := p, cipher := { s.cipher with pendingStart := some (c, d) } }) := by
  have hstatus : (if (getCtx s c).st ≠ .free ∨ (activeCtx s).isNone = true ∨ s.cipher.pendingStart ≠ none then 0x86
      else if s.cipher.lock ≠ some .keys then 0x12 else descStatus s d) = st :=
    (if_congr (or_congr_right (or_congr_left activeCtx_isNone)) rfl rfl).trans hst.symm
  have hread : readDesc { s with perf := p } idx = d := hd
  unfold cipherSuspendAct
  rw [← hstatus, hread]
  rfl

theorem cipherResumeAct_eq (c : Nat) (s : State) (p) {st : Status}
    (hst : st = if (getCtx s c).st ≠ .suspended ∨ (getCtx s c).owner ≠ .keys ∨ ((getCtx s 0).st = .active ∨ (getCtx s 1).st = .active) then 0x86
      else if s.cipher.lock ≠ some .keys then 0x12 else 0x00) :
    cipherResumeAct c { s with perf := p } = if st ≠ 0 then (st, ctxResult c st { s with perf := p })
      else (0x00, modCtx c (fun x => { x with st := .active, switches := x.switches + 1 }) { s with perf := p }) := by
  have hstatus : (if (getCtx s c).st ≠ .suspended ∨ (getCtx s c).owner ≠ .keys ∨ (activeCtx s).isSome = true then 0x86
      else if s.cipher.lock ≠ some .keys then 0x12 else 0x00) = st :=
    (if_congr (or_congr_right (or_congr_right activeCtx_isSome)) rfl rfl).trans hst.symm
  rw [← hstatus]
  rfl

theorem cipherAbortAct_eq (c : Nat) (s : State) (p) {st : Status}
    (hst : st = if (getCtx s c).st = .free ∨ (getCtx s c).owner ≠ .keys then 0x86 else if s.cipher.lock ≠ some .keys then 0x12 else 0x00) :
    cipherAbortAct c { s with perf := p } = if st ≠ 0 then (st, ctxResult c st { s with perf := p })
      else if (getCtx s c).st = .suspended then (0x00, endEarly c 0x87 { s with perf := p })
      else (0x00, modCtx c (fun x => { x with abort := true }) { s with perf := p }) := by
  rw [hst]
  rfl

/-- A message that begins on a state that differs in the counters has begun all the same. -/
theorem Begun.perf {c : Nat} {d : Desc} {p} (h : Begun c d { s with perf := p } t) :
    { t with via := s.via, cipher := s.cipher, rng := s.rng, store := s.store, latched := s.latched, perf := s.perf } = s :=
  congrArg (fun u : State => { u with via := s.via, perf := s.perf }) h.frame

end Sys2Proof.Machine
end

section
/-! The statement about commands to the cipher engine (08_cipher_engine.md). -/

namespace Sys2Proof.Proofs

open Sys2Proof Sys2Proof.Machine

/-- Settles O33: each command by what its action answers on a state that differs in the counters. That CLEAR of a slot of 96 or above has
no effect, that ABORT of a SUSPENDED message acts at once, and that a reservation STORE cannot take fails with 0x10, is the choice of log
entry 36. -/
theorem cipherCommands : Obligations.CipherCommands := by
  intro ini ctx desc s x d k busy named locked descSt
  have hd : readDesc s desc.toNat = d := rfl
  clear_value d
  have hdescSt : descSt = descStatus s d := (descStatus_eq s d).symm
  have hlocked : locked descSt = if s.cipher.lock ≠ some .keys then 0x12 else descStatus s d := by rw [hdescSt]
  refine ⟨fun ha => ⟨fun i st hi hst => ?_, fun hfree hidle hlock hok => ?_, fun hfree hbusy hpend hlock hok => ?_, fun hsusp hown hidle hlock => ?_,
    fun hact hown hlock => ?_, fun hsusp hown hlock => ?_⟩, fun slot ha => ⟨fun h96 => ?_, fun h96 huse => ?_, fun h96 huse => ?_⟩,
    fun m ha => ⟨?_, fun hbusy => ?_, fun hbusy hzero => ?_⟩⟩
  · simp only [List.mem_cons, Prod.mk.injEq, List.not_mem_nil, or_false] at hi
    rcases hi with ⟨rfl, h⟩ | ⟨rfl, h⟩ | ⟨rfl, h⟩ | ⟨rfl, h⟩
    · rw [hlocked] at h
      exact exec_cmdWrite rfl ha fun p => (cipherStartAct_eq hd p h).trans (if_pos hst)
    · rw [hlocked] at h
      exact exec_cmdWrite rfl ha fun p => (cipherSuspendAct_eq hd p h).trans (if_pos hst)
    · exact exec_cmdWrite rfl ha fun p => (cipherResumeAct_eq ctx s p h).trans (if_pos hst)
    · exact exec_cmdWrite rfl ha fun p => (cipherAbortAct_eq ctx s p h).trans (if_pos hst)
  · have hst : (0x00 : Status) = if x.st ≠ .free ∨ busy then 0x86 else if s.cipher.lock ≠ some .keys then 0x12 else descStatus s d := by
      rw [if_neg (not_or.mpr ⟨not_not.mpr hfree, hidle⟩), if_neg (not_not.mpr hlock), ← hdescSt, hok]
    obtain ⟨p, q, hruns⟩ := cmdWrite_runs s (cipherStartAct ctx desc.toNat) ha
    rw [cipherStartAct_eq hd p hst] at hruns
    have hbegun := beginMessage_begun ctx.isLt d { s with perf := p }
    have huncounted := beginMessage_uncounted (s := { s with perf := p }) (d := d) ctx.isLt
    have hshort := beginMessage_short (s := { s with perf := p }) (d := d) ctx.isLt
    have hcounted := beginMessage_counted (s := { s with perf := p }) (d := d) ctx.isLt
    have hslot := slot_lt_of_descStatus (hdescSt.symm.trans hok)
    generalize beginMessage ctx d { s with perf := p } = t at *
    refine ⟨_, congrArg Host.Outcome.next hruns, answerOf_setResp ini.isLt _ _ _, hbegun.perf, hbegun.active, hbegun.owner, hbegun.op, hbegun.slot,
      hbegun.caisson, hbegun.others, hbegun.slots, hbegun.busy, huncounted, fun hcounts => hshort hcounts (hslot hcounts.1),
      fun hcounts => hcounted hcounts (hslot hcounts.1)⟩
  · have hst : (0x00 : Status) = if x.st ≠ .free ∨ ¬busy ∨ s.cipher.pendingStart ≠ none then 0x86
        else if s.cipher.lock ≠ some .keys then 0x12 else descStatus s d := by
      rw [if_neg (not_or.mpr ⟨not_not.mpr hfree, not_or.mpr ⟨not_not.mpr hbusy, not_not.mpr hpend⟩⟩), if_neg (not_not.mpr hlock), ← hdescSt, hok]
    exact exec_cmdWrite (t := { s with cipher := { s.cipher with pendingStart := some (ctx.val, d) } }) rfl ha
      fun p => cipherSuspendAct_eq hd p hst
  · have hst : (0x00 : Status) = if x.st ≠ .suspended ∨ x.owner ≠ .keys ∨ busy then 0x86 else if s.cipher.lock ≠ some .keys then 0x12 else 0x00 := by
      rw [if_neg (not_or.mpr ⟨not_not.mpr hsusp, not_or.mpr ⟨not_not.mpr hown, hidle⟩⟩), if_neg (not_not.mpr hlock)]
    exact exec_cmdWrite rfl ha fun p => cipherResumeAct_eq ctx s p hst
  · have hst : (0x00 : Status) = if x.st = .free ∨ x.owner ≠ .keys then 0x86 else if s.cipher.lock ≠ some .keys then 0x12 else 0x00 := by
      rw [if_neg (not_or.mpr ⟨by rw [hact]; decide, not_not.mpr hown⟩), if_neg (not_not.mpr hlock)]
    have hrun : x.st ≠ .suspended := by rw [hact]; decide
    exact exec_cmdWrite rfl ha fun p => (cipherAbortAct_eq ctx s p hst).trans (if_neg hrun)
  · have hst : (0x00 : Status) = if x.st = .free ∨ x.owner ≠ .keys then 0x86 else if s.cipher.lock ≠ some .keys then 0x12 else 0x00 := by
      rw [if_neg (not_or.mpr ⟨by rw [hsusp]; decide, not_not.mpr hown⟩), if_neg (not_not.mpr hlock)]
    obtain ⟨p, q, hruns⟩ := cmdWrite_runs s (cipherAbortAct ctx) ha
    rw [(cipherAbortAct_eq ctx s p hst).trans (if_pos hsusp)] at hruns
    obtain ⟨hfree, hstatus, hdone, hevent, -⟩ := endEarly_ended ctx.isLt 0x87 { s with perf := p }
    generalize endEarly ctx 0x87 { s with perf := p } = t at *
    exact ⟨_, congrArg Host.Outcome.next hruns, answerOf_setResp ini.isLt _ _ _, hfree, hstatus, hdone, hevent⟩
  · exact exec_cmdWrite (act := slotClearWrite slot.toNat) rfl ha fun p => if_pos h96
  · exact exec_cmdWrite (act := slotClearWrite slot.toNat) rfl ha fun p => (if_neg (Nat.not_le.mpr h96)).trans (if_pos huse)
  · exact exec_cmdWrite (act := slotClearWrite slot.toNat) rfl ha fun p => (if_neg (Nat.not_le.mpr h96)).trans (if_neg (Bool.eq_false_iff.mp huse))
  · exact exec_cmdWrite (act := sealWrite m true) rfl ha fun p => rfl
  · exact exec_cmdWrite (act := sealWrite m false) rfl ha fun p => if_pos hbusy
  · have hopens : ¬((getCaisson s m).busy = true ∨ (getCaisson s m).zeroing = true) := by rw [hbusy, hzero]; decide
    exact exec_cmdWrite (act := sealWrite m false) rfl ha fun p => if_neg hopens

end Sys2Proof.Proofs
end

section
/-! SUPPORT. The cipher lock, block boundaries, the ends of messages and the zeroing of caissons (R212, R228 to R233, R238). -/

namespace Sys2Proof.Machine

variable {s t u : State}

/-! ## The lock (R228) -/

theorem grantable_room (o : Owner) (hfree : s.cipher.lock = none) (hroom : (getCtx s 0).st = .free ∨ (getCtx s 1).st = .free) : grantable s o = true := by
  simp only [grantable, hfree, Option.isNone_none, Bool.true_and, List.any_eq_true, List.mem_range]
  rcases hroom with h | h
  · exact ⟨0, by decide, by rw [h]; rfl⟩
  · exact ⟨1, by decide, by rw [h]; rfl⟩

theorem grantable_held (o : Owner) (hheld : s.cipher.lock ≠ none) : grantable s o = false := by
  simp only [grantable, Option.isNone_eq_false_iff.mpr (Option.isSome_iff_ne_none.mpr hheld), Bool.false_and]

/-- A held lock is granted to nobody. -/
theorem lockServe_held (hheld : s.cipher.lock ≠ none) : lockServe s = s := by
  simp only [lockServe, grantable_held _ hheld, Bool.and_false, Bool.false_eq_true, if_false]

section
variable (hfree : s.cipher.lock = none) (hroom : (getCtx s 0).st = .free ∨ (getCtx s 1).st = .free)
include hfree hroom

/-- A free lock with room in the engine goes to the one request that waits; of two, to the owner not served last. -/
theorem lockServe_both (hkeys : s.cipher.waitKeys = true) (hstore : s.cipher.waitStore = true) :
    lockServe s = grantLock (if s.cipher.lastServed = .keys then .store else .keys) s := by
  simp only [lockServe, grantable_room _ hfree hroom, hkeys, hstore, Bool.and_true, if_true]

theorem lockServe_keys (hkeys : s.cipher.waitKeys = true) (hstore : s.cipher.waitStore = false) : lockServe s = grantLock .keys s := by
  simp only [lockServe, grantable_room _ hfree hroom, hkeys, hstore, Bool.and_true, Bool.and_false, Bool.false_eq_true, if_true, if_false]

theorem lockServe_store (hkeys : s.cipher.waitKeys = false) (hstore : s.cipher.waitStore = true) : lockServe s = grantLock .store s := by
  simp only [lockServe, grantable_room _ hfree hroom, hkeys, hstore, Bool.and_true, Bool.false_eq_true, if_true, if_false]

end

theorem grantLock_keys_waits (s : State) : (grantLock .keys s).cipher.waitKeys = false := Bool.and_false _

theorem grantLock_store_waits (s : State) : (grantLock .store s).cipher.waitStore = false := Bool.and_false _

/-- After a grant to the owner not served last the other's request still waits. -/
theorem grantLock_turn_waits (hkeys : s.cipher.waitKeys = true) (hstore : s.cipher.waitStore = true) :
    (grantLock (if s.cipher.lastServed = .keys then .store else .keys) s).cipher.waitKeys = decide (s.cipher.lastServed = .keys) ∧
      (grantLock (if s.cipher.lastServed = .keys then .store else .keys) s).cipher.waitStore = decide (s.cipher.lastServed ≠ .keys) := by
  simp only [grantLock, modCipher_cipher, latchReg_cipher, hkeys, hstore, Bool.true_and]
  cases s.cipher.lastServed with
  | keys => exact ⟨rfl, rfl⟩
  | store => exact ⟨rfl, rfl⟩

/-- A request waits, and is granted at once where it can be. -/
theorem lockRequest_keys (s : State) : lockRequest .keys s = lockServe { s with cipher := { s.cipher with waitKeys := true } } := by
  have hkeys : (s.cipher.waitKeys || Owner.keys == Owner.keys) = true := Bool.or_true _
  have hstore : (s.cipher.waitStore || Owner.keys == Owner.store) = s.cipher.waitStore := Bool.or_false _
  unfold lockRequest modCipher
  dsimp only
  rw [hkeys, hstore]

theorem lockRequest_store (s : State) : lockRequest .store s = lockServe { s with cipher := { s.cipher with waitStore := true } } := by
  have hkeys : (s.cipher.waitKeys || Owner.store == Owner.keys) = s.cipher.waitKeys := Bool.or_false _
  have hstore : (s.cipher.waitStore || Owner.store == Owner.store) = true := Bool.or_true _
  unfold lockRequest modCipher
  dsimp only
  rw [hkeys, hstore]

/-- ACQUIRE of a held lock waits (R228). -/
theorem lockAcquireWrite_held (hheld : s.cipher.lock ≠ none) : lockAcquireWrite s = (0x12, { s with cipher := { s.cipher with waitKeys := true } }) := by
  have hwaits : lockRequest .keys s = { s with cipher := { s.cipher with waitKeys := true } } := (lockRequest_keys s).trans (lockServe_held hheld)
  unfold lockAcquireWrite
  dsimp only
  rw [hwaits]
  rfl

/-- ACQUIRE of a free lock that nobody else waits for is granted. -/
theorem lockAcquireWrite_free (hfree : s.cipher.lock = none) (hroom : (getCtx s 0).st = .free ∨ (getCtx s 1).st = .free)
    (halone : s.cipher.waitStore = false) :
    lockAcquireWrite s = (0x00, grantLock .keys { s with cipher := { s.cipher with waitKeys := true } }) := by
  have hgranted : lockRequest .keys s = grantLock .keys { s with cipher := { s.cipher with waitKeys := true } } :=
    (lockRequest_keys s).trans (lockServe_keys hfree hroom rfl halone)
  unfold lockAcquireWrite
  dsimp only
  rw [hgranted, if_neg (by rw [grantLock_keys_waits]; decide)]

/-- RELEASE frees its owner's lock but where a message of that owner is ACTIVE (R228). -/
theorem lockReleaseWrite_active {o : Owner} {c : Nat} (hlock : s.cipher.lock = some o) (hactive : activeCtx s = some c) (howner : (getCtx s c).owner = o) :
    lockReleaseWrite o s = (0x86, s) := by
  simp only [lockReleaseWrite, hlock, hactive, howner, ne_eq, not_true_eq_false, if_false, if_true]

theorem lockReleaseWrite_idle {o : Owner} (hlock : s.cipher.lock = some o) (hnone : ∀ c, activeCtx s = some c → (getCtx s c).owner ≠ o) :
    lockReleaseWrite o s = (0x00, freeLock s) := by
  unfold lockReleaseWrite
  rw [if_neg (not_not.mpr hlock)]
  split
  · next c hc => exact if_neg (hnone c hc)
  · rfl

/-! ## Expiry (R230) -/

/-- The lock of an expired hold is free, with the event set and no start pending. -/
def lockExpired (s : State) : State := freeLock (modCipher (fun e => { e with pendingStart := none, event := e.event ||| 4 }) s)

theorem finishExpiry_idle (hpend : s.cipher.pendingStart = none) : finishExpiry s = lockExpired s := by
  simp only [finishExpiry, hpend, lockExpired]

/-- A start that was pending is not performed, and shows 0x13. -/
theorem finishExpiry_pending {c : Nat} {d : Desc} (hpend : s.cipher.pendingStart = some (c, d)) : finishExpiry s = lockExpired (ctxResult c 0x13 s) := by
  simp only [finishExpiry, hpend, lockExpired]

/-- An expiry changes the engine's contexts in their results only. -/
theorem finishExpiry_leaves (s : State) : ∃ v, finishExpiry s = lockExpired { s with cipher := { s.cipher with ctx := v } } ∧
    ∀ n, vget Ctx.reset v n = getCtx s n ∨ vget Ctx.reset v n = { getCtx s n with status := 0x13 } := by
  cases hpend : s.cipher.pendingStart with
  | none => exact ⟨s.cipher.ctx, finishExpiry_idle hpend, fun _ => .inl rfl⟩
  | some x =>
    obtain ⟨c, d⟩ := x
    refine ⟨_, finishExpiry_pending hpend, fun n => ?_⟩
    by_cases hn : n = c
    · subst hn
      by_cases hn : n < 2
      · exact .inr (vget_vset_self _ _ _ hn)
      · exact .inl (by simp [vget, vset, getCtx, hn])
    · exact .inl (vget_vset_ne _ _ _ hn)

theorem finishExpiry_status {c : Nat} {d : Desc} (hpend : s.cipher.pendingStart = some (c, d)) (hc : c < 2) :
    (getCtx (finishExpiry s) c).status = 0x13 := by
  rw [finishExpiry_pending hpend]
  exact congrArg Ctx.status (vget_vset_self _ _ _ hc)

theorem lockExpired_event (s : State) : bitOf (lockExpired s).cipher.event 2 = true := (bitOf_or _ _ _).trans (Bool.or_true _)

/-- A hold that expires while nothing is ACTIVE ends at once, else at the next boundary. -/
theorem holdExpiry_idle (hheld : s.cipher.lock ≠ none) (hact : canAct s 2 = true) (hidle : activeCtx s = none) : holdExpiry s = finishExpiry s := by
  simp only [holdExpiry, hheld, hact, hidle, Bool.true_eq_false, or_self, if_false]

theorem holdExpiry_active {c : Nat} (hheld : s.cipher.lock ≠ none) (hact : canAct s 2 = true) (hactive : activeCtx s = some c) :
    holdExpiry s = modCipher (fun e => { e with expiring := true }) s := by
  simp only [holdExpiry, hheld, hact, hactive, Bool.true_eq_false, or_self, if_false]

/-! ## Block boundaries (R229, R230, R238) -/

/-- With no expiry and no start waiting for it, an end changes nothing more. -/
theorem afterEnd_idle (hexp : s.cipher.expiring = false) (hpend : s.cipher.pendingStart = none) : afterEnd s = s := by
  simp only [afterEnd, startPending, hexp, hpend, Bool.false_eq_true, if_false]

/-- The state with the message of context c suspended, which counts a switch (R229). -/
def withSuspended (c : Nat) (p : Vector PerfState 14) (s : State) : State :=
  { s with perf := p, cipher := { s.cipher with ctx := vset s.cipher.ctx c { getCtx s c with st := .suspended, switches := (getCtx s c).switches + 1 } } }

theorem getCtx_withSuspended {c : Nat} (hc : c < 2) (p) (s : State) :
    getCtx (withSuspended c p s) c = { getCtx s c with st := .suspended, switches := (getCtx s c).switches + 1 } := vget_vset_self _ _ _ hc

theorem suspendCtx_eq (c : Nat) (p) (s : State) : ∃ q, suspendCtx c { s with perf := p } = withSuspended c q s :=
  countEvent_eq _ 2 0x043 1

/-- The start that waited is performed once the ACTIVE message is suspended. -/
theorem startPending_some {c : Nat} {d : Desc} (hpend : s.cipher.pendingStart = some (c, d)) :
    startPending s = beginMessage c d (modCipher (fun e => { e with pendingStart := none }) s) := by
  simp only [startPending, hpend]

/-- What ends the message at its boundary: an abort, its own failure or a failing access, in this order; 0x00 for none (R229, R238). -/
def boundaryFail (x : Ctx) (access : Status) : Status := if x.abort = true then 0x87 else if x.fail ≠ 0x00 then x.fail else access

section
variable {c : Nat} {access : Status} (hactive : activeCtx s = some c) (hact : canAct s 2 = true)
include hactive hact

/-- A boundary with a failure ends the message. -/
theorem blockBoundary_fails (hfail : boundaryFail (getCtx s c) access ≠ 0x00) :
    ∃ p, blockBoundary access s = afterEnd (endEarly c (boundaryFail (getCtx s c) access) { s with perf := p }) := by
  obtain ⟨p, hp⟩ := countEvent_eq s 2 0x040 1
  refine ⟨p, ?_⟩
  unfold blockBoundary
  rw [hactive]
  dsimp only
  rw [if_neg (by rw [hact]; decide), hp]
  exact if_pos hfail

/-- A boundary without one goes on, suspends the message to an expiry, or suspends it to the start that waits. -/
theorem blockBoundary_passes (hfail : boundaryFail (getCtx s c) access = 0x00) : ∃ p q, blockBoundary access s =
    if s.cipher.expiring = true then finishExpiry (ctxResult c 0x13 (withSuspended c q s))
    else if s.cipher.pendingStart ≠ none then startPending (withSuspended c q s) else { s with perf := p } := by
  obtain ⟨p, hp⟩ := countEvent_eq s 2 0x040 1
  obtain ⟨q, hq⟩ := suspendCtx_eq c p s
  refine ⟨p, q, ?_⟩
  unfold blockBoundary
  rw [hactive]
  dsimp only
  rw [if_neg (by rw [hact]; decide), hp, hq]
  exact if_neg (not_not.mpr hfail)

/-- At the boundary an expiry suspends the message, which shows 0x13, and the lock is free. -/
theorem blockBoundary_expires (hfail : boundaryFail (getCtx s c) access = 0x00) (hexp : s.cipher.expiring = true) : ∃ p v,
    blockBoundary access s = lockExpired { s with perf := p, cipher := { s.cipher with ctx := v } } ∧
    (vget Ctx.reset v c).st = .suspended ∧ (vget Ctx.reset v c).status = 0x13 := by
  have hc := activeCtx_lt hactive
  obtain ⟨p, q, h⟩ := blockBoundary_passes hactive hact hfail
  have hown : getCtx (ctxResult c 0x13 (withSuspended c q s)) c =
      { getCtx s c with st := .suspended, switches := (getCtx s c).switches + 1, status := 0x13 } := by
    rw [getCtx_ctxResult hc, if_pos rfl, getCtx_withSuspended hc]
  obtain ⟨v, hexpired, hctx⟩ := finishExpiry_leaves (ctxResult c 0x13 (withSuspended c q s))
  refine ⟨q, v, h.trans ((if_pos hexp).trans hexpired), ?_⟩
  rcases hctx c with hv | hv <;> (rw [hv, hown]; exact ⟨rfl, rfl⟩)

/-- At the boundary a start that waits begins, with the message suspended to it. -/
theorem blockBoundary_switches (hfail : boundaryFail (getCtx s c) access = 0x00) (hexp : s.cipher.expiring = false) {n : Nat} {d : Desc}
    (hpend : s.cipher.pendingStart = some (n, d)) (hn : n < 2) : ∃ u, Begun n d u (blockBoundary access s) ∧ u.cipher.pendingStart = none ∧
    u.mem = s.mem ∧ getCtx u c = { getCtx s c with st := .suspended, switches := (getCtx s c).switches + 1 } := by
  obtain ⟨p, q, h⟩ := blockBoundary_passes hactive hact hfail
  rw [if_neg (by rw [hexp]; decide), if_pos (by rw [hpend]; exact Option.some_ne_none _), startPending_some (s := withSuspended c q s) hpend] at h
  rw [h]
  exact ⟨_, beginMessage_begun hn d _, rfl, rfl, getCtx_withSuspended (activeCtx_lt hactive) q s⟩

end

/-! ## What the engine writes (R42, R236, R238) -/

/-- A write through the viaduct to memory changes the memory only. -/
theorem memWordWrite_mem (ini a w strb : Nat) (s : State) : ∃ m, (memWordWrite ini a w strb s).2 = { s with mem := m } := by
  unfold memWordWrite
  split
  · split
    · exact ⟨_, strobeBytes_eq _ _ _ s⟩
    · exact ⟨s.mem, rfl⟩
  · split
    · exact ⟨s.mem, rfl⟩
    · split
      · exact ⟨s.mem, rfl⟩
      · exact ⟨_, strobeBytes_eq _ _ _ s⟩
  · exact ⟨s.mem, rfl⟩

theorem memPutRun_mem (ini : Nat) (bs : List Byte) : ∀ (a : Nat) (s : State), ∃ m, (memPutRun ini a bs s).2 = { s with mem := m } := by
  induction bs with
  | nil => exact fun _ s => ⟨s.mem, rfl⟩
  | cons b bs ih =>
    intro a s
    obtain ⟨m, hm⟩ := memWordWrite_mem ini (a / 4 * 4) (b.toNat * 256 ^ (a % 4)) (2 ^ (a % 4)) s
    unfold memPutRun
    split
    · exact ⟨s.mem, rfl⟩
    · dsimp only
      split
      · obtain ⟨m', hm'⟩ := ih (a + 1) { s with mem := m }
        exact ⟨m', by rw [hm]; exact hm'⟩
      · exact ⟨m, hm⟩

theorem engineWrite_mem (bs : List Byte) : ∀ (a : Nat) (s : State), ∃ m, (engineWrite a bs s).2 = { s with mem := m } := by
  induction bs with
  | nil => exact fun _ s => ⟨s.mem, rfl⟩
  | cons b bs ih =>
    intro a s
    unfold engineWrite
    split
    · split
      · exact ⟨s.mem, rfl⟩
      · exact ih (a + 1) { s with mem := Memory.write s.mem a b }
    · obtain ⟨m, hm⟩ := memPutRun_mem 2 [b] a s
      dsimp only
      split
      · obtain ⟨m', hm'⟩ := ih (a + 1) { s with mem := m }
        exact ⟨m', by rw [hm]; exact hm'⟩
      · exact ⟨m, hm⟩

/-- What an end writes changes the memory only. -/
theorem engineWrites_mem (ws : List (Nat × List Byte)) : ∀ s : State, ∃ m, (engineWrites ws s).2 = { s with mem := m } := by
  induction ws with
  | nil => exact fun s => ⟨s.mem, rfl⟩
  | cons x ws ih =>
    intro s
    obtain ⟨m, hm⟩ := engineWrite_mem x.2 x.1 s
    unfold engineWrites
    dsimp only
    split
    · obtain ⟨m', hm'⟩ := ih { s with mem := m }
      exact ⟨m', by rw [hm]; exact hm'⟩
    · exact ⟨m, hm⟩

/-! ## The end of a message (R212, R240) -/

/-- The end of a message hangs on the contexts before it only. -/
theorem MessageEnded.congr {c : Nat} {st : Status} (h : MessageEnded c st s t) (hctx : s.cipher.ctx = u.cipher.ctx) : MessageEnded c st u t := by
  obtain ⟨hfree, hstatus, hdone, hevent, hothers⟩ := h
  exact ⟨hfree, hstatus, hdone, hevent, fun n hn => (hothers n hn).trans (getCtx_congr hctx n)⟩

section
variable {c : Nat} (hvalue : (getCtx s c).value = none) (hcaisson : (getCtx s c).caisson = none)
include hvalue hcaisson

/-- A message with no counter value and no caisson ends with the status of its operation, and writes nothing where that is not 0x00. -/
theorem completeMessage_fails (hst : (opEnd s (getCtx s c)).status ≠ 0x00) :
    completeMessage c s = messageOver c (opEnd s (getCtx s c)).status s := by
  have hput : putCounter (getCtx s c) s = (0x00, s) := by simp only [putCounter, hvalue]
  unfold completeMessage
  dsimp only
  rw [hput, if_neg (not_not.mpr rfl), hcaisson]
  dsimp only
  rw [if_neg hst, if_neg hst, if_neg hst]

/-- Else it writes its results, and a DERIVE or an UNWRAP whose writes went well loads its slot. -/
theorem completeMessage_writes (hst : (opEnd s (getCtx s c)).status = 0x00) : ∃ sl,
    completeMessage c s = messageOver c (engineWrites (opEnd s (getCtx s c)).writes s).1
      { (engineWrites (opEnd s (getCtx s c)).writes s).2 with cipher := { s.cipher with slots := sl } } ∧
    ((engineWrites (opEnd s (getCtx s c)).writes s).1 = 0x00 → ∀ i k, (opEnd s (getCtx s c)).slot = some (i, k) → i < 96 → vget Slot.reset sl i = k) := by
  have hput : putCounter (getCtx s c) s = (0x00, s) := by simp only [putCounter, hvalue]
  obtain ⟨m, hm⟩ := engineWrites_mem (opEnd s (getCtx s c)).writes s
  unfold completeMessage
  dsimp only
  rw [hput, if_neg (not_not.mpr rfl), hcaisson]
  dsimp only
  rw [if_pos hst, if_pos hst, hm]
  split
  · split
    · next i k hslot =>
      refine ⟨_, rfl, fun _ i' k' hload hi => ?_⟩
      rw [hslot] at hload
      cases hload
      exact vget_vset_self _ _ _ hi
    · next hslot => exact ⟨s.cipher.slots, rfl, fun _ i k hload => by rw [hslot] at hload; cases hload⟩
  · next hbad => exact ⟨s.cipher.slots, rfl, fun hgood => absurd hgood hbad⟩

end

theorem messageOver_mem (c : Nat) (st : Status) (s : State) : (messageOver c st s).mem = s.mem := by
  obtain ⟨n, p, h⟩ := messageOver_eq c st s
  rw [h]

theorem getSlot_messageOver (c : Nat) (st : Status) (s : State) (n : Nat) : getSlot (messageOver c st s) n = getSlot s n := by
  obtain ⟨u, p, h⟩ := messageOver_eq c st s
  rw [h]
  rfl

theorem getCaisson_messageOver (c : Nat) (st : Status) (s : State) (n : Nat) : getCaisson (messageOver c st s) n = getCaisson s n := by
  obtain ⟨u, p, h⟩ := messageOver_eq c st s
  rw [h]
  rfl

theorem messageOver_slots (c : Nat) (st : Status) (s : State) : (messageOver c st s).cipher.slots = s.cipher.slots := by
  obtain ⟨n, p, h⟩ := messageOver_eq c st s
  rw [h]

theorem endEarly_mem (c : Nat) (st : Status) (s : State) : (endEarly c st s).mem = s.mem := by
  obtain ⟨v, f, h⟩ := endEarly_eq c st s
  rw [h]
  exact messageOver_mem c st _

section
variable (hexp : s.cipher.expiring = false) (hpend : s.cipher.pendingStart = none)
include hexp hpend

/-- A message over with nothing waiting for its end. -/
theorem afterEnd_messageOver (c : Nat) (st : Status) : afterEnd (messageOver c st s) = messageOver c st s := by
  obtain ⟨n, p, h⟩ := messageOver_eq c st s
  rw [h]
  exact afterEnd_idle hexp hpend

theorem afterEnd_endEarly (c : Nat) (st : Status) : afterEnd (endEarly c st s) = endEarly c st s := by
  obtain ⟨v, f, h⟩ := endEarly_eq c st s
  rw [h]
  exact afterEnd_messageOver (s := { s with cipher := { s.cipher with caissons := v }, free := f }) hexp hpend c st

section
variable {c : Nat} (hactive : activeCtx s = some c) (hact : canAct s 2 = true) (hwaits : (getCtx s c).waits = false)
  (hcaisson : (getCtx s c).caisson = none) (hwrap : (getCtx s c).desc.op ≠ 0x0B) (habort : (getCtx s c).abort = false)
  (hfail : (getCtx s c).fail = 0x00) (hvalue : (getCtx s c).value = none)
include hactive hact hwaits hcaisson hwrap habort hfail

omit hexp hpend in
/-- The ACTIVE message that waits for nothing and has not failed completes. -/
theorem messageEnd_completes (hidle : afterEnd (completeMessage c s) = completeMessage c s) : messageEnd s = completeMessage c s := by
  have hready : ¬(canAct s 2 = false ∨ ((getCtx s c).waits = true ∧ (getCtx s c).abort = false) ∨
      ∃ k, (getCtx s c).caisson = some k ∧ (getCaisson s k).zeroing = true) := by
    simp [hact, hwaits, hcaisson]
  have hdrawn : ¬((getCtx s c).desc.op = 0x0B ∧ vget none s.rng.ends 2 = none ∧ (getCtx s c).abort = false) := fun h => hwrap h.1
  unfold messageEnd
  rw [hactive]
  dsimp only
  rw [if_neg hready, if_neg hdrawn]
  simp only [hwrap, habort, hfail, if_false, Bool.false_eq_true, ne_eq, not_true_eq_false, hidle, ite_self]

include hvalue

/-- A message whose operation fails ends with its status and writes nothing. -/
theorem messageEnd_fails (hst : (opEnd s (getCtx s c)).status ≠ 0x00) : messageEnd s = messageOver c (opEnd s (getCtx s c)).status s := by
  have hdone := completeMessage_fails hvalue hcaisson hst
  refine (messageEnd_completes hactive hact hwaits hcaisson hwrap habort hfail ?_).trans hdone
  rw [hdone]
  exact afterEnd_messageOver hexp hpend c _

/-- Else it writes its results, ends with what came of the writes, and loads its slot where they went well. -/
theorem messageEnd_writes (hst : (opEnd s (getCtx s c)).status = 0x00) :
    MessageEnded c (engineWrites (opEnd s (getCtx s c)).writes s).1 s (messageEnd s) ∧ (messageEnd s).mem = (engineWrites (opEnd s (getCtx s c)).writes s).2.mem ∧
    ((engineWrites (opEnd s (getCtx s c)).writes s).1 = 0x00 → ∀ i k, (opEnd s (getCtx s c)).slot = some (i, k) → i < 96 → getSlot (messageEnd s) i = k) := by
  obtain ⟨sl, hdone, hload⟩ := completeMessage_writes hvalue hcaisson hst
  obtain ⟨m, hm⟩ := engineWrites_mem (opEnd s (getCtx s c)).writes s
  generalize engineWrites (opEnd s (getCtx s c)).writes s = w at *
  rw [hm] at hdone
  have hend : messageEnd s = messageOver c w.1 { s with mem := m, cipher := { s.cipher with slots := sl } } := by
    refine (messageEnd_completes hactive hact hwaits hcaisson hwrap habort hfail ?_).trans hdone
    rw [hdone]
    exact afterEnd_messageOver (s := { s with mem := m, cipher := { s.cipher with slots := sl } }) hexp hpend c _
  rw [hend, messageOver_mem, hm]
  refine ⟨(messageOver_ended (activeCtx_lt hactive) w.1 _).congr rfl, rfl, fun hgood i k hslot hi => ?_⟩
  rw [getSlot_messageOver]
  exact hload hgood i k hslot hi

end

end

/-- A GCM_ENC with software's IV whose operands are read writes ciphertext and tag (R209, R210). -/
theorem opEnd_gcmEnc {x : Ctx} {iv aad inp : List Byte} (hop : x.desc.op = 0x01) (hvalue : x.value = none)
    (hiv : bitOf (getSlot s x.desc.slot).policy 10 = false) (hread : engineRead s x.desc.ivPtr 12 = (iv, 0x00))
    (haad : engineRead s x.desc.aadPtr x.desc.aadLen = (aad, 0x00)) (hinp : engineRead s x.desc.inPtr x.desc.dataLen = (inp, 0x00)) :
    opEnd s x = ⟨0x00, [(x.desc.outPtr, gcmCrypt (getSlot s x.desc.slot).key iv inp), (x.desc.tagPtr,
      gcmTag (getSlot s x.desc.slot).key iv aad (gcmCrypt (getSlot s x.desc.slot).key iv inp))], none⟩ := by
  have hgcm : opEnd s x = gcmEnd s x := if_pos (by rw [hop]; decide)
  have hsoft : gcmIv s x.desc none = (iv, 0x00) := (if_neg (by rw [hiv]; simp)).trans hread
  rw [hgcm]
  unfold gcmEnd
  simp only [hsoft, haad, hinp, hvalue, hop, ne_eq, not_true_eq_false, if_false, true_or, if_true]

/-! ## Zeroing (R233) -/

/-- The bytes written to a caisson are gone, and it is open. -/
def openCaisson (k : Nat) (s : State) : State :=
  setCaisson k ⟨false, false, false, 0, none⟩
    (memClear (deckSram + (caissonSpan s k).1) (deckSram + (caissonSpan s k).1 + (getCaisson s k).written) s)

section
variable {k : Nat} (hzero : (getCaisson s k).zeroing = true) (hact : canAct s 1 = true)
include hzero hact

/-- A zeroed caisson opens. -/
theorem zeroingDone_silent (hreport : (getCaisson s k).report = none) : zeroingDone k s = openCaisson k s := by
  simp only [zeroingDone, openCaisson, hzero, hact, hreport, and_self, if_true]

/-- The message whose report waited for it is over then. -/
theorem zeroingDone_reports {c : Nat} {st : Status} (hreport : (getCaisson s k).report = some (c, st)) (hexp : s.cipher.expiring = false)
    (hpend : s.cipher.pendingStart = none) : zeroingDone k s = messageOver c st (openCaisson k s) := by
  have hover : zeroingDone k s = afterEnd (messageOver c st (openCaisson k s)) := by
    simp only [zeroingDone, openCaisson, hzero, hact, hreport, and_self, if_true]
  rw [hover]
  exact afterEnd_messageOver (s := openCaisson k s) hexp hpend c st

end

end Sys2Proof.Machine
end

section
/-! The statement about the cipher lock and a message's progress (08_cipher_engine.md). -/

namespace Sys2Proof.Proofs

open Sys2Proof Sys2Proof.Machine

/-- Settles O34: each command by the lemma that says what it leaves of the engine. That an ACQUIRE by the holder waits with 0x12 is the
choice of log entry 36, and that island 4 releases through STORE's own port that of entry 42. -/
theorem cipherLockAndProgress : Obligations.CipherLockAndProgress := by
  intro ini s e room kept granted
  refine ⟨fun ha => ⟨fun hheld => ?_, fun hfree halone hroom => ?_, fun hini => ⟨fun hother => ?_, fun hown hmine => ?_, fun hown hnone => ?_⟩⟩,
    fun hact => ⟨fun hstore => ⟨fun hheld => ?_, fun hfree halone hroom => ?_, fun hini hown hidle => ?_⟩,
      fun hfree hroom => ⟨fun hk hs => ?_, fun hk hs => ?_, fun hk hs => ?_⟩,
      fun hheld => ⟨fun hidle => ?_, fun hbusy => ?_⟩,
      fun c hactive => ⟨fun access => ⟨fun hfail hexp hpend => ?_, fun hfail hexp hpend => ?_, fun hfail hexp => ?_,
          fun hfail hexp n d hpend hn hne => ?_⟩,
        fun hwaits hcaisson hwrap habort hfail hvalue hexp hpend => ⟨fun hst => ?_, fun hst => ?_, fun hop hiv iv aad inp hread haad hinp => ?_⟩⟩⟩,
    fun k hact hzero => ⟨fun hreport => ?_, fun c st hreport hc hexp hpend => ?_⟩⟩
  · exact exec_cmdWrite (i := .lockAcquire ini) (t := { s with cipher := { s.cipher with waitKeys := true } }) rfl ha
      fun p => lockAcquireWrite_held (s := { s with perf := p }) hheld
  · obtain ⟨q, h⟩ := exec_cmdWrite (i := .lockAcquire ini) (t := grantLock .keys { s with cipher := { s.cipher with waitKeys := true } }) rfl ha
      fun p => lockAcquireWrite_free (s := { s with perf := p }) hfree hroom halone
    exact ⟨_, h, answerOf_setResp ini.isLt _ _ _, ⟨rfl, rfl⟩, grantLock_keys_waits _⟩
  · exact exec_cmdWrite (act := lockReleaseWrite .keys) (congrArg Host.Outcome.next (if_neg hini)) ha fun p => if_pos hother
  · obtain ⟨c, hactive, howner⟩ := hmine
    exact exec_cmdWrite (congrArg Host.Outcome.next (if_neg hini)) ha fun p => lockReleaseWrite_active (s := { s with perf := p }) hown hactive howner
  · exact exec_cmdWrite (t := freeLock s) (congrArg Host.Outcome.next (if_neg hini)) ha fun p => lockReleaseWrite_idle (s := { s with perf := p }) hown hnone
  · exact congrArg Host.Outcome.next ((if_pos hstore).trans ((if_pos hact).trans ((lockRequest_store s).trans (lockServe_held hheld))))
  · exact ⟨_, congrArg Host.Outcome.next ((if_pos hstore).trans ((if_pos hact).trans ((lockRequest_store s).trans (lockServe_store hfree hroom halone rfl)))),
      ⟨rfl, rfl⟩, grantLock_store_waits _⟩
  · have hfreed := lockReleaseWrite_idle hown fun c hc => by rw [hidle] at hc; cases hc
    exact congrArg Host.Outcome.next ((if_pos hini).trans ((if_pos ⟨hstore, hact⟩).trans (congrArg Prod.snd hfreed)))
  · exact ⟨_, congrArg Host.Outcome.next ((if_pos hact).trans (lockServe_both hfree hroom hk hs)), ⟨rfl, rfl⟩, grantLock_turn_waits hk hs⟩
  · exact ⟨_, congrArg Host.Outcome.next ((if_pos hact).trans (lockServe_keys hfree hroom hk hs)), ⟨rfl, rfl⟩, grantLock_keys_waits _⟩
  · exact ⟨_, congrArg Host.Outcome.next ((if_pos hact).trans (lockServe_store hfree hroom hk hs)), ⟨rfl, rfl⟩, grantLock_store_waits _⟩
  · have hends : exec .holdExpired s = .next (finishExpiry s) := congrArg Host.Outcome.next (holdExpiry_idle hheld hact hidle)
    obtain ⟨v, hleaves, -⟩ := finishExpiry_leaves s
    refine ⟨_, hends, ?_, ?_, ?_, ?_, fun c d hpend hc => finishExpiry_status hpend hc⟩
    · rw [hleaves]; rfl
    · rw [hleaves]; rfl
    · rw [hleaves]; rfl
    · rw [hleaves]; exact lockExpired_event _
  · obtain ⟨c, hactive⟩ := Option.ne_none_iff_exists'.mp hbusy
    exact congrArg Host.Outcome.next (holdExpiry_active hheld hact hactive)
  · obtain ⟨p, h⟩ := blockBoundary_fails hactive hact hfail
    rw [afterEnd_endEarly (s := { s with perf := p }) hexp hpend] at h
    exact ⟨_, congrArg Host.Outcome.next h, (endEarly_ended (activeCtx_lt hactive) _ { s with perf := p }).congr rfl, endEarly_mem _ _ _⟩
  · obtain ⟨p, q, h⟩ := blockBoundary_passes hactive hact hfail
    exact ⟨p, congrArg Host.Outcome.next (h.trans ((if_neg (by rw [hexp]; decide)).trans (if_neg (not_not.mpr hpend))))⟩
  · obtain ⟨p, v, h, hst, hstatus⟩ := blockBoundary_expires hactive hact hfail hexp
    exact ⟨_, congrArg Host.Outcome.next h, hst, hstatus, rfl, lockExpired_event _, rfl⟩
  · obtain ⟨u, hbegun, hpending, hmem, hsusp⟩ := blockBoundary_switches hactive hact hfail hexp hpend hn
    have hown := (hbegun.others c hne.symm).trans hsusp
    exact ⟨_, rfl, by rw [hown], by rw [hown], hbegun.active, hbegun.pending.trans hpending, (congrArg State.mem hbegun.frame).trans hmem⟩
  · have h := messageEnd_fails hexp hpend hactive hact hwaits hcaisson hwrap habort hfail hvalue hst
    exact ⟨_, congrArg Host.Outcome.next h, messageOver_ended (activeCtx_lt hactive) _ s, messageOver_mem _ _ s, messageOver_slots _ _ s⟩
  · exact ⟨_, rfl, messageEnd_writes hexp hpend hactive hact hwaits hcaisson hwrap habort hfail hvalue hst⟩
  · have hen := opEnd_gcmEnc hop hvalue hiv hread haad hinp
    obtain ⟨hended, hmem, -⟩ := messageEnd_writes hexp hpend hactive hact hwaits hcaisson hwrap habort hfail hvalue (congrArg OpEnd.status hen)
    rw [hen] at hended hmem
    exact ⟨_, rfl, hended, hmem⟩
  · exact congrArg Host.Outcome.next (zeroingDone_silent hzero hact hreport)
  · have h := zeroingDone_reports hzero hact hreport hexp hpend
    obtain ⟨hfree, hstatus, hdone, -, -⟩ := messageOver_ended hc st (openCaisson k s)
    exact ⟨_, congrArg Host.Outcome.next h, messageOver_mem c st (openCaisson k s),
      (getCaisson_messageOver c st (openCaisson k s) k).trans (getCaisson_setCaisson_self k.isLt _ _), hfree, hstatus, hdone⟩

end Sys2Proof.Proofs
end

section
/-! SUPPORT. The signer: a command checked and started, bytes delivered by its wire, and what a command's end leaves (R255 to R260). -/

namespace Sys2Proof.Machine

variable {s : State}

/-! ## A command is written (R255, R264) -/

/-- The slots that an operation takes. -/
theorem signAgrees_iff (op : Nat) (key : BitVec 3) : signAgrees op key.toNat = true ↔
    op ≤ 1 ∨ (op = 2 ∧ key = 0) ∨ (op = 3 ∧ key ∈ [2, 3, 7]) ∨ (op = 4 ∧ key = 1) ∨ (op = 5 ∧ key = 0) := by
  match op with
  | 0 | 1 => simp [signAgrees]
  | 2 | 3 | 4 | 5 => simp [signAgrees, ← BitVec.toNat_inj, or_assoc]
  | n + 6 => simp [signAgrees]

/-- While a command runs, another is refused and leaves no trace. -/
theorem signCmdWrite_busy (hbusy : s.signer.job ≠ none) (op key idx : Nat) : signCmdWrite op key idx s = (0x95, s) := by
  have hst : signCmdStatus s op key idx = 0x95 := if_pos (Option.isSome_iff_ne_none.mpr hbusy)
  simp only [signCmdWrite, hst, if_true]

section
variable {op key idx : Nat} (hidle : s.signer.job = none)
include hidle

/-- An operation and slot that disagree, or reserved bytes that are set, come first. -/
theorem signCmdStatus_malformed (h : signAgrees op key = false ∨ signDesc s idx 6 ≠ 0 ∨ signDesc s idx 7 ≠ 0) :
    signCmdStatus s op key idx = 0x93 := by
  unfold signCmdStatus
  rw [hidle, if_neg (by decide), if_pos h]

/-- Then the conditions of GEN_ID, then the slot's key. -/
theorem signCmdStatus_wellFormed {key : BitVec 3} (hagree : signAgrees op key.toNat = true) (h6 : signDesc s idx 6 = 0) (h7 : signDesc s idx 7 = 0) :
    signCmdStatus s op key.toNat idx = if op = 5 ∧ s.boot.claiming = none then 0x97 else if op = 5 ∧ (getKey s 0).isSome then 0x96
      else if (op = 2 ∧ getKey s 0 = none) ∨ (op = 3 ∧ key ≠ 7 ∧ getKey s key.toNat = none) ∨ (op = 4 ∧ getKey s 1 = none) then 0x92
      else 0x00 := by
  have hkey : key.toNat ≠ 7 ↔ key ≠ 7 := not_congr (BitVec.toNat_inj (y := 7))
  unfold signCmdStatus
  rw [hidle, if_neg (by decide), if_neg (by simp [hagree, h6, h7])]
  simp only [hkey]

/-- A signer at rest is not busy. -/
theorem signCmdStatus_ne_busy : signCmdStatus s op key idx ≠ 0x95 := by
  unfold signCmdStatus
  rw [hidle, if_neg (by decide)]
  repeat' split
  all_goals decide

/-- A status of a signer at rest stands as its result. -/
theorem signCmdWrite_refused (hst : signCmdStatus s op key idx ≠ 0x00) : signCmdWrite op key idx s = (signCmdStatus s op key idx,
    { s with signer := { s.signer with status := signCmdStatus s op key idx, done := true } }) := by
  have hresult : ∀ st, signerResult st s = { s with signer := { s.signer with status := st, done := true } } := by
    intro st
    unfold signerResult modSigner
    rw [← hidle]
  exact (if_neg (signCmdStatus_ne_busy hidle)).trans ((if_pos hst).trans (congrArg _ (hresult _)))

/-- What passes the checks starts. -/
theorem signCmdWrite_starts (hst : signCmdStatus s op key idx = 0x00) :
    signCmdWrite op key idx s = (0x00, signerStart ⟨op, key, idx, none, 0x00, .command⟩ s) :=
  (if_neg (signCmdStatus_ne_busy hidle)).trans (if_neg (not_not.mpr hst))

end

/-- A command that asks no wire leaves the RNG as it is. -/
theorem signerStart_rng {j : SignJob} (hop : j.op = 0 ∨ j.op = 1 ∨ j.op = 3) (s : State) : (signerStart j s).rng = s.rng := by
  unfold signerStart
  dsimp only
  rw [if_neg (by omega)]
  rfl

/-- SIGN, ATTEST and GEN_ID ask their wire for as many bytes as the curve has (R257, R259). -/
theorem signerStart_waits {j : SignJob} (hop : j.op = 2 ∨ j.op = 4 ∨ j.op = 5) (hrun : s.rng.running = true)
    (hst : s.rng.st = .ready ∨ s.rng.st = .unseeded) (hfree : vget none s.rng.waits (signWire j.op) = none) :
    vget none (signerStart j s).rng.waits (signWire j.op) = some (signSize s j.op) := by
  have hwire : signWire j.op < 3 := by unfold signWire; split <;> decide
  unfold signerStart
  dsimp only
  rw [if_pos hop]
  exact rngRequest_waits hwire _ hrun hst hfree

/-! ## Bytes of a wire (R257, R259) -/

/-- The RNG once a wire's end has been taken. -/
def endTaken (w : Nat) (r : RngState) : RngState := { r with ends := vset r.ends w none }

section
variable {j : SignJob} {e : WireEnd} (hact : canAct s 2 = true) (hj : s.signer.job = some j) (hneeds : signNeeds s j = true)
  (hend : vget none s.rng.ends (signWire j.op) = some e)
include hact hj hneeds hend

/-- An end that the signer waits for is taken from its wire; then its status and the operation decide. -/
theorem nonceDelivered_taken {u : State} (hu : u = modRng (endTaken (signWire j.op)) s) : nonceDelivered s =
    if e.status ≠ 0 then modSigner (fun g => { g with job := some { j with fail := e.status, nonce := some [] } }) u
    else if j.op = 5 then
      if (j.nonce.getD [] ++ e.data).length = signSize u 5 ∧ candidateOk u (j.nonce.getD [] ++ e.data) = false then rngRequest 2 (signSize u 5) u
      else if (j.nonce.getD [] ++ e.data).length = signSize u 5 then
        rngRequest 2 12 (modSigner (fun g => { g with job := some { j with nonce := some (j.nonce.getD [] ++ e.data) } }) u)
      else modSigner (fun g => { g with job := some { j with nonce := some (j.nonce.getD [] ++ e.data) } }) u
    else modSigner (fun g => { g with job := some { j with nonce := some e.data } }) u := by
  subst hu
  unfold nonceDelivered
  simp only [hj, hend, hact, hneeds, or_self, Bool.true_eq_false, if_false]
  rfl

/-- A failing end ends the command. -/
theorem nonceDelivered_fails (hst : e.status ≠ 0x00) : nonceDelivered s =
    modSigner (fun g => { g with job := some { j with fail := e.status, nonce := some [] } }) (modRng (endTaken (signWire j.op)) s) :=
  (nonceDelivered_taken hact hj hneeds hend rfl).trans (if_pos hst)

/-- SIGN and ATTEST take the bytes. -/
theorem nonceDelivered_takes (hst : e.status = 0x00) (hop : j.op ≠ 5) : nonceDelivered s =
    modSigner (fun g => { g with job := some { j with nonce := some e.data } }) (modRng (endTaken (signWire j.op)) s) :=
  (nonceDelivered_taken hact hj hneeds hend rfl).trans ((if_neg (not_not.mpr hst)).trans (if_neg hop))

/-- GEN_ID takes a number that is a key of the curve and draws its blob's IV, and draws again for another number. -/
theorem nonceDelivered_candidate (hst : e.status = 0x00) (hop : j.op = 5) (hnone : j.nonce = none) (hlen : e.data.length = signSize s 5) :
    ∃ r l, nonceDelivered s = { s with rng := r, latched := l, signer := { s.signer with
      job := some (if candidateOk s e.data = true then { j with nonce := some e.data } else j) } } := by
  have hbytes : j.nonce.getD [] ++ e.data = e.data := by rw [hnone]; rfl
  have htaken := (nonceDelivered_taken hact hj hneeds hend rfl).trans ((if_neg (not_not.mpr hst)).trans (if_pos hop))
  rw [hbytes] at htaken
  by_cases hok : candidateOk s e.data = true
  · obtain ⟨r, l, h⟩ := rngRequest_eq 2 12 (modSigner (fun g => { g with job := some { j with nonce := some e.data } })
      (modRng (endTaken (signWire j.op)) s))
    rw [if_pos hok]
    exact ⟨r, l, htaken.trans ((if_neg fun hbad => Bool.false_ne_true (hbad.2.symm.trans hok)).trans ((if_pos hlen).trans h))⟩
  · obtain ⟨r, l, h⟩ := rngRequest_eq 2 (signSize s 5) (modRng (endTaken (signWire j.op)) s)
    rw [if_neg hok, ← hj]
    exact ⟨r, l, htaken.trans ((if_pos ⟨hlen, Bool.eq_false_iff.mpr hok⟩).trans h)⟩

end

/-! ## A command's end (R255 to R260) -/

/-- The status and the memory of a command's end: its writes' where it has no status of its own (R256). -/
def endWritten (e : OpEnd) (s : State) : Status × State := if e.status = 0 then engineWrites e.writes s else (e.status, s)

/-- What an end writes changes the memory only. -/
theorem endWritten_mem (e : OpEnd) (s : State) : ∃ m, (endWritten e s).2 = { s with mem := m } := by
  unfold endWritten
  split
  · exact engineWrites_mem e.writes s
  · exact ⟨s.mem, rfl⟩

/-- A command's end leaves its result, what it has written, and in slot 0 the key that a GEN_ID has written. -/
theorem signerCommandEnd_eq {j : SignJob} {e : OpEnd} {k : Option SignKey} (h : signEnd s j = (e, k)) : ∃ p,
    signerCommandEnd j s = { s with perf := p, mem := (endWritten e s).2.mem, signer := { s.signer with
      job := none, status := (endWritten e s).1, done := true
      keys := if k ≠ none ∧ (endWritten e s).1 = 0 then vset s.signer.keys 0 k else s.signer.keys } } := by
  obtain ⟨m, hm⟩ := endWritten_mem e s
  obtain ⟨p, hp⟩ := countEvent_eq (signerResult (endWritten e s).1 (endWritten e s).2) 2 0x045 1
  have hrun : ∀ u, countEvent 2 0x045 1 (signerResult (endWritten e s).1 (endWritten e s).2) = u →
      signerCommandEnd j s = if k ≠ none ∧ (endWritten e s).1 = 0 then setKey 0 k u else u := by
    rintro u rfl
    unfold signerCommandEnd
    rw [h]
    cases k with
    | none => exact (if_neg fun hc => hc.1 rfl).symm
    | some k => exact if_congr (and_iff_right (Option.some_ne_none k)).symm rfl rfl
  refine ⟨p, (hrun _ hp).trans ?_⟩
  rw [hm]
  split
  · rfl
  · rfl

/-- A boot that is over does nothing more. -/
theorem bootStep_settled (h : Settled s) : bootStep s = s := by
  obtain ⟨hwait, hstage, hrebuilt⟩ := h
  have hsign : bootSign s = s := if_neg fun ⟨_, hearly, _⟩ => hearly hstage
  have hdeck : deckStarts s = s := if_neg fun ⟨_, hnew, _⟩ => Bool.false_ne_true (hnew.symm.trans hrebuilt)
  unfold bootStep
  rw [hwait]
  exact (congrArg deckStarts hsign).trans hdeck

/-- Where no attestation waits, the signer stays free. -/
theorem attestNext_none (hnone : ∀ x ∈ s.span.jobs, x.tag ≠ 18) : attestNext s = s := by
  have hfind : s.span.jobs.find? (fun x => x.tag == 18) = none := List.find?_eq_none.mpr fun x hx => by simpa using hnone x hx
  unfold attestNext
  rw [hfind]
  split
  case h_1 h => cases h
  case h_2 => rfl

section
variable {j : SignJob} {e : OpEnd} {k : Option SignKey} (hact : canAct s 2 = true) (hset : Settled s) (hj : s.signer.job = some j)
  (huse : j.use = .command) (hneeds : signNeeds s j = false) (hnone : ∀ x ∈ s.span.jobs, x.tag ≠ 18) (h : signEnd s j = (e, k))
include hact hset hj huse hneeds hnone h

/-- After boot the end of SIGN_CMD's command is all that happens; a GEN_ID of a claim that went well has its blob stored (R459). -/
theorem signEnded_eq : ∃ p, signEnded s = { s with
    perf := p
    mem := if j.op = 5 ∧ (endWritten e s).1 = 0 ∧ s.boot.claiming ≠ none then
      Memory.writeBytes (endWritten e s).2.mem signerArea (padTo 128 (claimBlob s j)) else (endWritten e s).2.mem
    signer := { s.signer with
      job := none, status := (endWritten e s).1, done := true
      keys := if k ≠ none ∧ (endWritten e s).1 = 0 then vset s.signer.keys 0 k else s.signer.keys } } := by
  obtain ⟨p, hp⟩ := signerCommandEnd_eq h
  have hend : signCommandEnd s = signerCommandEnd j s := by
    unfold signCommandEnd
    simp only [hj, hact, hneeds, huse, Bool.true_eq_false, Bool.false_eq_true, or_self, if_false]
    exact attestNext_none (by rw [hp]; exact hnone)
  refine ⟨p, ?_⟩
  unfold signEnded
  rw [hend, hp, hj]
  dsimp only
  simp only [hact, true_and, and_true, Option.isSome_iff_ne_none]
  split
  · exact bootStep_settled hset
  · exact bootStep_settled hset

/-- A command that makes no key leaves its result and what it has written. -/
theorem signEnded_noKey (hop : j.op ≠ 5 ∨ e.status ≠ 0) :
    (signEnded s).signer.job = none ∧ (signEnded s).signer.done = true ∧
      (signEnded s).signer.status = (if e.status = 0 then (engineWrites e.writes s).1 else e.status) ∧
      (signEnded s).mem = if e.status = 0 then (engineWrites e.writes s).2.mem else s.mem := by
  obtain ⟨p, hp⟩ := signEnded_eq hact hset hj huse hneeds hnone h
  have hplain : ¬(j.op = 5 ∧ (endWritten e s).1 = 0 ∧ s.boot.claiming ≠ none) := by
    rintro ⟨h5, hgood, -⟩
    have hst := hop.resolve_left (not_not.mpr h5)
    exact hst ((congrArg Prod.fst (if_neg hst)).symm.trans hgood)
  rw [hp]
  exact ⟨rfl, rfl, apply_ite Prod.fst _ _ _, (if_neg hplain).trans (apply_ite (fun r : Status × State => r.2.mem) _ _ _)⟩

/-- A GEN_ID whose writes went well has loaded slot 0, and in a claim its blob stands in the signer area (R259, R459). -/
theorem signEnded_key {x : SignKey} {w : Status × State} (hkey : k = some x) (hop : j.op = 5) (hst : e.status = 0x00)
    (hw : engineWrites e.writes s = w) (hgood : w.1 = 0x00) :
    (signEnded s).signer.job = none ∧ (signEnded s).signer.status = 0x00 ∧ getKey (signEnded s) 0 = some x ∧
      (signEnded s).mem = if s.boot.claiming = none then w.2.mem
        else Memory.writeBytes w.2.mem signerArea (padTo 128 (claimBlob s j)) := by
  subst hkey
  obtain ⟨p, hp⟩ := signEnded_eq hact hset hj huse hneeds hnone h
  rw [hp, show endWritten e s = w from (if_pos hst).trans hw]
  refine ⟨rfl, hgood, ?_, ?_⟩
  · simp only [getKey, hgood, ne_eq, reduceCtorEq, not_false_eq_true, and_self, if_true]
    exact vget_vset_self _ _ _ (by decide)
  · by_cases hclaim : s.boot.claiming = none
    · exact (if_neg fun ⟨_, _, hc⟩ => hc hclaim).trans (if_pos hclaim).symm
    · exact (if_pos ⟨hop, hgood, hclaim⟩).trans (if_neg hclaim).symm

end

/-! ## What each command computes -/

section
variable {j : SignJob}

/-- A command whose wire failed ends with the wire's status. -/
theorem signEnd_fails (hfail : j.fail ≠ 0x00) : signEnd s j = (.only j.fail, none) := if_pos hfail

variable (hfail : j.fail = 0x00)
include hfail

/-- HASH256 and HASH384 write the digest. -/
theorem signEnd_hash {d : List Byte} (hop : j.op ≤ 1) (hread : engineRead s (signDesc s j.desc 0) (signDesc s j.desc 1) = (d, 0x00)) :
    signEnd s j = (⟨0x00, [(signDesc s j.desc 2, if j.op = 0 then sha256 d else sha384 d)], none⟩, none) := by
  unfold signEnd
  dsimp only
  rw [if_neg (not_not.mpr hfail), if_pos hop, hread]
  rfl

/-- SIGN writes the signature of the digest under slot 0 (R257). -/
theorem signEnd_sign {k : SignKey} {d : List Byte} (hop : j.op = 2) (hkey : getKey s 0 = some k)
    (hread : engineRead s (signDesc s j.desc 2) k.curve.size = (d, 0x00)) :
    signEnd s j = (⟨0x00, [(signDesc s j.desc 3, signWith k d (j.nonce.getD []))], none⟩, none) := by
  unfold signEnd
  dsimp only
  rw [if_neg (not_not.mpr hfail), if_neg (by omega), if_pos hop, hkey]
  dsimp only
  rw [hread]
  rfl

/-- VERIFY with a slot's key answers whether the signature holds. -/
theorem signEnd_verify {k : SignKey} {d g : List Byte} (hop : j.op = 3) (hslot : j.key ≠ 7) (hkey : getKey s j.key = some k)
    (hpoint : onCurve k.curve k.x k.y = true) (hdigest : engineRead s (signDesc s j.desc 2) k.curve.size = (d, 0x00))
    (hsig : engineRead s (signDesc s j.desc 3) (2 * k.curve.size) = (g, 0x00)) :
    signEnd s j = (.only (if verifyWith k d g then 0x00 else 0x06), none) := by
  have hk : verifyKey s j.key j.desc = (0x00, k) := by
    unfold verifyKey
    rw [if_neg hslot, hkey]
    exact if_pos hpoint
  unfold signEnd
  dsimp only
  rw [if_neg (not_not.mpr hfail), if_neg (by omega), if_neg (by omega), if_pos hop, hk]
  dsimp only
  rw [hdigest, hsig]
  rfl

/-- ATTEST writes the statement and its signature under slot 1 (R260). -/
theorem signEnd_attest {k : SignKey} {n : List Byte} (hop : j.op = 4) (hkey : getKey s 1 = some k)
    (hread : engineRead s (signDesc s j.desc 0) 16 = (n, 0x00)) : signEnd s j =
    (⟨0x00, [(signDesc s j.desc 5, attestation s n ++ signWith k (sha256 (attestation s n)) (j.nonce.getD []))], none⟩, none) := by
  unfold signEnd
  dsimp only
  rw [if_neg (not_not.mpr hfail), if_neg (by omega), if_neg (by omega), if_neg (by omega), if_pos hop, hkey]
  dsimp only
  rw [hread]
  rfl

/-- GEN_ID writes the blob of the key it has drawn and its public point, and loads slot 0 (R259). -/
theorem signEnd_genId {n : List Byte} (hop : j.op = 5) (hnonce : j.nonce = some n) : signEnd s j =
    (⟨0x00, [(signDesc s j.desc 5, claimBlob s j ++ pointBytes (privateKey (signSize s 5 == 48) (ofBe (n.take (signSize s 5)))))], none⟩,
      some (privateKey (signSize s 5 == 48) (ofBe (n.take (signSize s 5))))) := by
  unfold signEnd claimBlob
  dsimp only
  rw [if_neg (not_not.mpr hfail), if_neg (by omega), if_neg (by omega), if_neg (by omega), if_neg (by omega), hnonce]
  rfl

end

end Sys2Proof.Machine
end

section
/-! The statement about the signer (09_randomness_and_identity.md). -/

namespace Sys2Proof.Proofs

open Sys2Proof Sys2Proof.Machine

/-- Settles O36: a command by its checks, the wire's bytes by their status and operation, an end by what it computes and writes. That
GEN_ID's claim is the one that a boot has under way is the choice of log entry 21. -/
theorem signerCommands : Obligations.SignerCommands := by
  intro ini key desc s p agree empty
  refine ⟨fun ha i op hi => ?_, fun j e hact hj hneeds hend => ⟨fun hst => ?_, fun hst hop => ?_, fun hst hop hnone hlen => ?_⟩,
    fun j hact hset hj huse hdesc hneeds hnone => ?_⟩
  · have hexec : exec i s = .next (cmdWrite ini 2 .signCmd (signCmdWrite op key.toNat desc.toNat) s) := by
      simp only [List.mem_cons, Prod.mk.injEq, List.not_mem_nil, or_false] at hi
      rcases hi with ⟨rfl, rfl⟩ | ⟨rfl, rfl⟩ | ⟨rfl, rfl⟩ | ⟨rfl, rfl⟩ | ⟨rfl, rfl⟩ | ⟨rfl, rfl⟩ <;> rfl
    refine ⟨fun hbusy => exec_cmdWrite hexec ha fun q => signCmdWrite_busy (s := { s with perf := q }) hbusy _ _ _,
      fun hidle => ⟨signCmdStatus s op key.toNat desc.toNat, fun hbad => ?_, fun hagree h6 h7 => ?_, fun hst => ?_, fun hst => ?_⟩⟩
    · exact signCmdStatus_malformed hidle (hbad.imp_left fun hno => Bool.eq_false_iff.mpr fun h => hno ((signAgrees_iff op key).mp h))
    · rw [signCmdStatus_wellFormed hidle ((signAgrees_iff op key).mpr hagree) h6 h7]
      have hother : empty op → op ≠ 5 := by rintro (⟨rfl, -⟩ | ⟨rfl, -⟩ | ⟨rfl, -⟩) <;> decide
      exact ⟨fun hop hno => if_pos ⟨hop, hno⟩,
        fun hop hclaim hown => (if_neg fun hc => hclaim hc.2).trans (if_pos ⟨hop, Option.isSome_iff_ne_none.mpr hown⟩),
        fun he => (if_neg fun hc => hother he hc.1).trans ((if_neg fun hc => hother he hc.1).trans (if_pos he)),
        fun hop he => (if_neg fun hc => hop hc.1).trans ((if_neg fun hc => hop hc.1).trans (if_neg he)),
        fun hop hclaim hfree => (if_neg fun hc => hclaim hc.2).trans
          ((if_neg fun hc => Option.isSome_iff_ne_none.mp hc.2 hfree).trans (if_neg fun he => hother he hop))⟩
    · exact exec_cmdWrite (t := { s with signer := { s.signer with status := signCmdStatus s op key.toNat desc.toNat, done := true } })
        hexec ha fun q => signCmdWrite_refused (s := { s with perf := q }) hidle hst
    · obtain ⟨f, q, hrun⟩ := cmdWrite_runs s (signCmdWrite op key.toNat desc.toNat) ha
      obtain ⟨r, l, hstart⟩ := signerStart_eq ⟨op, key.toNat, desc.toNat, none, 0x00, .command⟩ { s with perf := f }
      rw [signCmdWrite_starts (s := { s with perf := f }) hidle hst] at hrun
      refine ⟨_, hexec.trans (congrArg Host.Outcome.next hrun), answerOf_setResp ini.isLt _ _ _, ?_, ?_,
        fun hop => signerStart_rng hop { s with perf := f }, fun hop hon hready hfree => signerStart_waits hop hon hready hfree⟩
      · rw [hstart]; rfl
      · rw [hstart]; rfl
  · exact congrArg Host.Outcome.next (nonceDelivered_fails hact hj hneeds hend hst)
  · exact congrArg Host.Outcome.next (nonceDelivered_takes hact hj hneeds hend hst hop)
  · obtain ⟨r, l, h⟩ := nonceDelivered_candidate hact hj hneeds hend hst hop hnone hlen
    exact ⟨_, congrArg Host.Outcome.next h, rfl, rfl⟩
  · intro ended
    have hp : p = signDesc s j.desc := by rw [hdesc]; rfl
    clear_value p
    subst hp
    have hends : ∀ st ws, signEnd s j = (⟨st, ws, none⟩, none) → j.op ≠ 5 ∨ st ≠ 0 → ∃ t, ended st ws t :=
      fun st ws h hop => ⟨_, rfl, signEnded_noKey hact hset hj huse hneeds hnone h hop⟩
    refine ⟨fun hfail => hends _ _ (signEnd_fails hfail) (.inr hfail), fun hfail => ⟨fun hop d hread => ?_, fun hop d hread => ?_,
      fun hop k d hkey hread => hends _ _ (signEnd_sign hfail hop hkey hread) (.inl (by omega)),
      fun hop hslot k d g hkey hpoint hdigest hsig =>
        hends _ _ (signEnd_verify hfail hop hslot hkey hpoint hdigest hsig) (.inl (by omega)),
      fun hop k n hkey hread => hends _ _ (signEnd_attest hfail hop hkey hread) (.inl (by omega)),
      fun hop n hnonce => ?_⟩⟩
    · have h := signEnd_hash hfail (by omega) hread
      rw [if_pos hop] at h
      exact hends _ _ h (.inl (by omega))
    · have h := signEnd_hash hfail (by omega) hread
      rw [if_neg (by omega)] at h
      exact hends _ _ h (.inl (by omega))
    · intro sz k blob m hgood
      have hblob : claimBlob s j = blob := by unfold claimBlob; rw [hnonce]; rfl
      have h := signEnd_genId (s := s) hfail hop hnonce
      rw [hblob] at h
      have hend := signEnded_key (w := m) hact hset hj huse hneeds hnone h rfl hop rfl rfl hgood
      rw [hblob] at hend
      exact ⟨_, rfl, hend⟩

end Sys2Proof.Proofs
end

section
/-! SUPPORT. The words of the Colot formats taken apart into their fields and put together again (R314). -/

namespace Sys2Proof

open Machine

/-! ## The fields of a word (R314) -/

/-- The bits of a word in format RI. -/
theorem wordRI_getLsbD (op : BitVec 6) (a b d : RegF) (imm : BitVec 14) (i : Nat) :
    (wordRI op a b d imm).getLsbD i = if i < 14 then imm.getLsbD i else if i < 18 then d.getLsbD (i - 14)
      else if i < 22 then b.getLsbD (i - 18) else if i < 26 then a.getLsbD (i - 22) else op.getLsbD (i - 26) := by
  have h : (wordRI op a b d imm).getLsbD i = (op ++ a ++ b ++ d ++ imm : BitVec (6 + 4 + 4 + 4 + 14)).getLsbD i := rfl
  rw [h]
  simp only [BitVec.getLsbD_append]
  grind

/-- The fields of format RI. -/
theorem wordRI_fields (op : BitVec 6) (a b d : RegF) (imm : BitVec 14) :
    (wordRI op a b d imm).extractLsb' 26 6 = op ∧ (wordRI op a b d imm).extractLsb' 22 4 = a ∧ (wordRI op a b d imm).extractLsb' 18 4 = b ∧
    (wordRI op a b d imm).extractLsb' 14 4 = d ∧ (wordRI op a b d imm).extractLsb' 0 14 = imm := by
  refine ⟨?_, ?_, ?_, ?_, ?_⟩ <;> (ext i hi; rw [BitVec.getElem_extractLsb', wordRI_getLsbD]; grind)

/-- The fields of the other formats in a word of format RI. -/
theorem wordRI_otherFields (op : BitVec 6) (a b d : RegF) (imm : BitVec 14) :
    (wordRI op a b d imm).extractLsb' 10 4 = imm.extractLsb' 10 4 ∧ (wordRI op a b d imm).extractLsb' 0 10 = imm.extractLsb' 0 10 ∧
    (wordRI op a b d imm).extractLsb' 0 18 = d ++ imm ∧ (wordRI op a b d imm).extractLsb' 0 26 = a ++ b ++ d ++ imm := by
  refine ⟨?_, ?_, ?_, ?_⟩ <;> apply BitVec.eq_of_getLsbD_eq <;> intro i hi <;>
    simp only [BitVec.getLsbD_extractLsb', wordRI_getLsbD, BitVec.getLsbD_append] <;> grind

/-- Every word is in format RI. -/
theorem wordRI_extract (w : Word) :
    wordRI (w.extractLsb' 26 6) (w.extractLsb' 22 4) (w.extractLsb' 18 4) (w.extractLsb' 14 4) (w.extractLsb' 0 14) = w := by
  apply BitVec.eq_of_getLsbD_eq; intro i hi; rw [wordRI_getLsbD]; simp only [BitVec.getLsbD_extractLsb']; grind

/-! ## The other formats as format RI -/

/-- Bits [13:0] of a word as the two low fields of formats T and V. -/
theorem append_low (imm : BitVec 14) : imm.extractLsb' 10 4 ++ imm.extractLsb' 0 10 = imm := by
  apply BitVec.eq_of_getLsbD_eq
  intro i _
  simp only [BitVec.getLsbD_append, BitVec.getLsbD_extractLsb']
  grind

/-- The two low fields of formats T and V, read back from bits [13:0]. -/
theorem low_append (x : RegF) (y : BitVec 10) : (x ++ y).extractLsb' 10 4 = x ∧ (x ++ y).extractLsb' 0 10 = y := by
  constructor <;> apply BitVec.eq_of_getLsbD_eq <;> intro i _ <;>
    simp only [BitVec.getLsbD_append, BitVec.getLsbD_extractLsb'] <;> grind

/-- The immediate of lhi in format RI's fields. -/
theorem exists_append18 (imm : BitVec 18) : ∃ (d : RegF) (i : BitVec 14), imm = d ++ i := by
  refine ⟨imm.extractLsb' 14 4, imm.extractLsb' 0 14, BitVec.eq_of_getLsbD_eq fun i _ => ?_⟩
  simp only [BitVec.getLsbD_append, BitVec.getLsbD_extractLsb']
  grind

/-- The immediate of a jump in format RI's fields. -/
theorem exists_append26 (imm : BitVec 26) : ∃ (a b d : RegF) (i : BitVec 14), imm = a ++ b ++ d ++ i := by
  refine ⟨imm.extractLsb' 22 4, imm.extractLsb' 18 4, imm.extractLsb' 14 4, imm.extractLsb' 0 14, BitVec.eq_of_getLsbD_eq fun i _ => ?_⟩
  simp only [BitVec.getLsbD_append, BitVec.getLsbD_extractLsb']
  grind

theorem wordRR_eq (op : BitVec 6) (a b d : RegF) (func : BitVec 14) : wordRR op a b d func = wordRI op a b d func := rfl

theorem wordLhi_eq (op : BitVec 6) (a b d : RegF) (imm : BitVec 14) : wordLhi op a b (d ++ imm) = wordRI op a b d imm :=
  (BitVec.append_assoc (x₁ := op ++ a ++ b) (x₂ := d) (x₃ := imm)).symm

theorem wordT_eq (sub tr ra rc : RegF) (off : BitVec 10) : wordT sub tr ra rc off = wordRI 0x28 sub tr ra (rc ++ off) :=
  BitVec.append_assoc (x₁ := (0x28 : BitVec 6) ++ sub ++ tr ++ ra) (x₂ := rc) (x₃ := off)

theorem wordV_eq (rd rq t sub : RegF) (z : BitVec 10) : wordV rd rq t sub z = wordRI 0x30 rd rq t (sub ++ z) :=
  BitVec.append_assoc (x₁ := (0x30 : BitVec 6) ++ rd ++ rq ++ t) (x₂ := sub) (x₃ := z)

theorem wordJ_eq (op : BitVec 6) (a b d : RegF) (imm : BitVec 14) : wordJ op (a ++ b ++ d ++ imm) = wordRI op a b d imm := by
  apply BitVec.eq_of_getLsbD_eq
  intro i _
  have h : (wordJ op (a ++ b ++ d ++ imm)).getLsbD i = (op ++ (a ++ b ++ d ++ imm) : BitVec (6 + (4 + 4 + 4 + 14))).getLsbD i := rfl
  rw [wordRI_getLsbD, h]
  simp only [BitVec.getLsbD_append]
  grind

/-! ## Words and the instructions they decode to -/

/-- The word of an instruction decodes to it, format by format. -/
theorem decodeColot_encodeColot {i : Instr} {c : Island} {w : Word} (h : encodeColot i = some (c, w)) :
    decodeColot c (colotEcc i) w = some i := by
  cases i
  all_goals simp only [encodeColot, reduceCtorEq, Option.some.injEq, Prod.mk.injEq] at h
  all_goals obtain ⟨rfl, rfl⟩ := h
  case lhi _ _ imm =>
    obtain ⟨_, _, rfl⟩ := exists_append18 imm
    simp [decodeColot, wordLhi_eq, wordRI_fields, wordRI_otherFields]
  case j _ imm | jal _ imm =>
    obtain ⟨_, _, _, _, rfl⟩ := exists_append26 imm
    simp [decodeColot, wordJ_eq, wordRI_fields, wordRI_otherFields]
  all_goals
    simp [decodeColot, decodeRR, decodeT, decodeV, colotEcc, wordRR_eq, wordT_eq, wordV_eq, wordRI_fields, wordRI_otherFields, low_append]

/-- The instruction i has the word w on core c, and is a load with this finding or carries none. -/
def Spells (i : Instr) (c : Island) (ecc : EccFinding) (w : Word) : Prop :=
  encodeColot i = some (c, w) ∧ (colotEcc i = ecc ∨ colotEcc i = .clean)

section
variable {i : Instr} {c : Island} {ecc : EccFinding}

/-- The word may be built with any field of the same number. -/
theorem Spells.of_toNat {n : Nat} {f : BitVec n → Word} {x y : BitVec n} (hi : Spells i c ecc (f x)) (h : y.toNat = x.toNat) :
    Spells i c ecc (f y) :=
  BitVec.eq_of_toNat_eq h ▸ hi

theorem Spells.of_opcode {op op' : BitVec 6} {a b d : RegF} {imm : BitVec 14} (hi : Spells i c ecc (wordRI op' a b d imm))
    (h : op.toNat = op'.toNat) : Spells i c ecc (wordRI op a b d imm) :=
  hi.of_toNat (f := fun x => wordRI x a b d imm) h

theorem spells_of_decodeRR {sys : Bool} {rd ra rb : RegF} {func : BitVec 14} (h : decodeRR sys c rd ra rb func = some i) :
    Spells i c ecc (wordRR (if sys then 1 else 0) rd ra rb func) := by
  unfold decodeRR at h
  split at h
  case h_29 => cases h
  all_goals
    next hf =>
      cases h
      exact .of_toNat (f := wordRR _ rd ra rb) ⟨rfl, .inr rfl⟩ hf

theorem spells_of_decodeT {sub tr ra rc : RegF} {off : BitVec 10} (h : decodeT c sub tr ra rc off = some i) :
    Spells i c ecc (wordT sub tr ra rc off) := by
  unfold decodeT at h
  split at h
  case h_6 => cases h
  all_goals
    next hf =>
      cases h
      exact .of_toNat (f := fun x => wordT x tr ra rc off) ⟨rfl, .inr rfl⟩ hf

theorem spells_of_decodeV {rd rq t sub : RegF} {z : BitVec 10} (h : decodeV c rd rq t sub z = some i) :
    Spells i c ecc (wordV rd rq t sub z) := by
  unfold decodeV at h
  split at h
  case h_7 => cases h
  all_goals
    next hf =>
      cases h
      exact .of_toNat (f := fun x => wordV rd rq t x z) ⟨rfl, .inr rfl⟩ hf

/-- What a word decodes to has that word, opcode by opcode. -/
theorem spells_of_decodeColot {w : Word} (h : decodeColot c ecc w = some i) : Spells i c ecc w := by
  obtain ⟨op, a, b, d, imm, rfl⟩ : ∃ op a b d imm, w = wordRI op a b d imm := ⟨_, _, _, _, _, (wordRI_extract w).symm⟩
  simp only [decodeColot, wordRI_fields, wordRI_otherFields] at h
  split at h
  case h_1 hop | h_2 hop => exact .of_opcode (spells_of_decodeRR h) hop
  case h_33 hop =>
    have hw := spells_of_decodeT (ecc := ecc) h
    rw [wordT_eq, append_low] at hw
    exact .of_opcode hw hop
  case h_34 hop =>
    have hw := spells_of_decodeV (ecc := ecc) h
    rw [wordV_eq, append_low] at hw
    exact .of_opcode hw hop
  case h_12 hop =>
    cases h
    exact .of_opcode ⟨congrArg (fun w => some (c, w)) (wordLhi_eq _ a b d imm), .inr rfl⟩ hop
  case h_29 hop | h_30 hop =>
    cases h
    exact .of_opcode ⟨congrArg (fun w => some (c, w)) (wordJ_eq _ a b d imm), .inr rfl⟩ hop
  case h_35 => cases h
  all_goals
    next hop =>
      cases h
      exact .of_opcode ⟨rfl, by simp [colotEcc]⟩ hop

end

end Sys2Proof

/-! The statement about the words of the Colot instructions (11_colot_isa.md). -/

namespace Sys2Proof.Proofs

open Sys2Proof Sys2Proof.Machine

/-- Settles O58: a word's fields are those it was built from, in each format of R314. -/
theorem colotWordsRoundTrip : Obligations.ColotWordsRoundTrip :=
  ⟨fun _ _ _ => decodeColot_encodeColot, fun _ _ _ _ => spells_of_decodeColot⟩

end Sys2Proof.Proofs
end

section
/-! SUPPORT. The results of the ALU group as R317's table has them. -/

namespace Sys2Proof.Machine

/-! ## Results (R317) -/

theorem boolWord_slt (a b : Word) : boolWord (a.slt b) = if a.toInt < b.toInt then 1 else 0 := by
  simp [boolWord, BitVec.slt]

theorem boolWord_ult (a b : Word) : boolWord (a.ult b) = if a.toNat < b.toNat then 1 else 0 := by
  simp [boolWord, BitVec.ult]

theorem minS_eq (a b : Word) : minS a b = if a.toInt < b.toInt then a else b := by simp [minS, BitVec.slt]

theorem maxS_eq (a b : Word) : maxS a b = if a.toInt < b.toInt then b else a := by simp [maxS, BitVec.slt]

theorem minU_eq (a b : Word) : minU a b = if a.toNat < b.toNat then a else b := by simp [minU, BitVec.ult]

theorem maxU_eq (a b : Word) : maxU a b = if a.toNat < b.toNat then b else a := by simp [maxU, BitVec.ult]

/-- The high half of a 64-bit value. -/
theorem high_half (x : BitVec 64) : (x >>> 32).setWidth 32 = x.extractLsb' 32 32 := by
  ext
  simp

/-- clz counts zero bits from bit n − 1 down to the highest one bit, or to the end. -/
theorem clzFrom_spec (a : Word) (n : Nat) : clzFrom a n ≤ n ∧ (∀ j, n - clzFrom a n ≤ j → j < n → a.getLsbD j = false) ∧
    (clzFrom a n < n → a.getLsbD (n - 1 - clzFrom a n) = true) := by
  induction n with
  | zero => simp [clzFrom]
  | succ n ih =>
    obtain ⟨hle, hzero, hone⟩ := ih
    unfold clzFrom
    split
    case isTrue hbit => exact ⟨by omega, fun j _ _ => by omega, fun _ => by simpa using hbit⟩
    case isFalse hbit =>
      refine ⟨by omega, fun j hj hjn => ?_, fun h => ?_⟩
      · rcases Nat.lt_succ_iff_lt_or_eq.mp hjn with hlt | rfl
        · exact hzero j (by omega) hlt
        · simpa using hbit
      · rw [← hone (by omega)]
        congr 1
        omega

end Sys2Proof.Machine

/-! The statement about the ALU group (11_colot_isa.md). -/

namespace Sys2Proof.Proofs

open Sys2Proof Sys2Proof.Machine

/-- Settles O12: each result is the one of R317's table. -/
theorem aluResults : Obligations.AluResults := by
  intro c rd ra rb s h
  have result {w : Word} {f : Core → Word} {v : Word} (hv : f (getCore s c) = v) :
      Ends (.next (runResult c w true rd f s)) s c { (getCore s c).setGpr rd v with pc := (getCore s c).pc + 4 } :=
    ends_result c.2 h w rfl rd f hv
  refine ⟨result rfl, result rfl, result rfl, result rfl, result rfl, result rfl, result rfl, result rfl,
    result (boolWord_slt _ _), result (boolWord_ult _ _), result rfl, result (high_half _), result (high_half _),
    result (minS_eq _ _), result (maxS_eq _ _), result (minU_eq _ _), result (maxU_eq _ _), ?_, ?_⟩
  · rintro rfl
    obtain ⟨hle, hzero, hone⟩ := clzFrom_spec ((getCore s c).gpr ra) 32
    exact ⟨_, hle, hzero, hone, result rfl⟩
  · rintro rfl
    exact result rfl

end Sys2Proof.Proofs
end
section
/-! SUPPORT. The division of Colot-D and Colot-K: what it gives and when it sets DZ (R317, R330). -/

namespace Sys2Proof.Machine

/-! ## Division (R317, R330) -/

theorem hasDivision_iff (c : Island) : hasDivision c = true ↔ c = 1 ∨ c = 2 := by
  simp [hasDivision, Fin.ext_iff]

theorem divS_zero (a : Word) : divS a 0 = 0 := rfl
theorem divU_zero (a : Word) : divU a 0 = 0 := rfl
theorem remS_zero (a : Word) : remS a 0 = a := rfl
theorem remU_zero (a : Word) : remU a 0 = a := rfl

theorem divFlag_zero (sg : Bool) (a : Word) (dz : Bool) : divFlag sg a 0 dz = (dz || true) := by simp [divFlag]

theorem divOverflow_eq_false {a b : Word} (h : ¬(a = 0x80000000 ∧ b = 0xFFFFFFFF)) : divOverflow a b = false := by
  simpa [divOverflow] using h

theorem divS_eq {a b : Word} (hb : b ≠ 0) (h : ¬(a = 0x80000000 ∧ b = 0xFFFFFFFF)) : divS a b = BitVec.ofInt 32 (a.toInt.tdiv b.toInt) := by
  rw [divS, if_neg hb, divOverflow_eq_false h]
  rfl

theorem remS_eq {a b : Word} (hb : b ≠ 0) (h : ¬(a = 0x80000000 ∧ b = 0xFFFFFFFF)) : remS a b = BitVec.ofInt 32 (a.toInt.tmod b.toInt) := by
  rw [remS, if_neg hb, divOverflow_eq_false h]
  rfl

theorem divU_eq {a b : Word} (hb : b ≠ 0) : divU a b = BitVec.ofNat 32 (a.toNat / b.toNat) := if_neg hb
theorem remU_eq {a b : Word} (hb : b ≠ 0) : remU a b = BitVec.ofNat 32 (a.toNat % b.toNat) := if_neg hb

theorem divFlag_signed {a b : Word} (hb : b ≠ 0) (h : ¬(a = 0x80000000 ∧ b = 0xFFFFFFFF)) (dz : Bool) : divFlag true a b dz = (dz || false) := by
  have hab : (a == 0x80000000 && b == 0xFFFFFFFF) = false := divOverflow_eq_false h
  rw [divFlag, Bool.true_and, Bool.or_assoc, hab, beq_false_of_ne hb]
  rfl

theorem divFlag_unsigned {a b : Word} (hb : b ≠ 0) (dz : Bool) : divFlag false a b dz = (dz || false) := by
  rw [divFlag, beq_false_of_ne hb]
  simp

/-- A word that is not legal takes ILLEGAL with the word as sval (R314, R325). -/
theorem ends_plain_illegal {c : Nat} {s : State} (h : Ready s c) (hit : (getCore s c).it = false) (w : Word) {legal : Bool} {eff : State → State}
    (hl : legal = false) : Ends (.next (runPlain c w legal eff s)) s c (trapped (getCore s c) 0x01 w) := by
  subst hl
  exact ends_illegal (pre := none) (note := id) h.1 h.2.1 hit w

/-- A division writes its result to rd, sets DZ and goes on. -/
theorem ends_division {c : Nat} {s : State} (hc : c < 14) (h : Ready s c) (hd : hasDivision c = true) (w : Word) (rd ra rb : RegF)
    (f : Word → Word → Word) (sg : Bool) {v : Word} {z : Bool} (hv : f ((getCore s c).gpr ra) ((getCore s c).gpr rb) = v)
    (hz : divFlag sg ((getCore s c).gpr ra) ((getCore s c).gpr rb) (getCore s c).dz = ((getCore s c).dz || z)) :
    Ends (.next (runPlain c w (hasDivision c) (fun s => advance c (modCore c (fun k =>
      { (k.setGpr rd (f (k.gpr ra) (k.gpr rb))) with dz := divFlag sg (k.gpr ra) (k.gpr rb) k.dz }) s)) s)) s c
      { (getCore s c).setGpr rd v with pc := (getCore s c).pc + 4, dz := (getCore s c).dz || z } := by
  subst hv
  rw [← hz]
  exact ends_mod hc h w hd _ (fun _ => setGpr_hold _ _ _) (fun _ => setGpr_wait _ _ _) (setGpr_pc _ _ _)

end Sys2Proof.Machine

/-! The statement about division (11_colot_isa.md). -/

namespace Sys2Proof.Proofs

open Sys2Proof Sys2Proof.Machine

/-- Settles O13: R317's results by the divisor and the overflow; a Colot-P does not know the instruction (R330). -/
theorem divisionNeverTraps : Obligations.DivisionNeverTraps := by
  intro c rd ra rb s h
  refine ⟨fun hc => ?_, fun h1 h2 hit => ?_⟩
  · have divides {w : Word} {f : Word → Word → Word} {sg : Bool} {v : Word} {z : Bool} (hv : f ((getCore s c).gpr ra) ((getCore s c).gpr rb) = v)
        (hz : divFlag sg ((getCore s c).gpr ra) ((getCore s c).gpr rb) (getCore s c).dz = ((getCore s c).dz || z)) :=
      ends_division c.2 h ((hasDivision_iff c).mpr hc) w rd ra rb f sg hv hz
    refine ⟨fun hb => ?_, fun ha hb => ?_, fun hb hab => ?_, fun hb => ?_⟩
    · rw [hb] at divides
      exact ⟨divides (divS_zero _) (divFlag_zero _ _ _), divides (divU_zero _) (divFlag_zero _ _ _),
        divides (remS_zero _) (divFlag_zero _ _ _), divides (remU_zero _) (divFlag_zero _ _ _)⟩
    · have hz : divFlag true ((getCore s c).gpr ra) ((getCore s c).gpr rb) (getCore s c).dz = ((getCore s c).dz || true) := by
        rw [ha, hb]
        simp [divFlag]
      exact ⟨divides (by rw [ha, hb]; rfl) hz, divides (by rw [ha, hb]; rfl) hz⟩
    · exact ⟨divides (divS_eq hb hab) (divFlag_signed hb hab _), divides (remS_eq hb hab) (divFlag_signed hb hab _)⟩
    · exact ⟨divides (divU_eq hb) (divFlag_unsigned hb _), divides (remU_eq hb) (divFlag_unsigned hb _)⟩
  · have hd : hasDivision c = false := by
      rw [← Bool.not_eq_true, hasDivision_iff]
      exact fun hc => hc.elim h1 h2
    have illegal (w : Word) (eff : State → State) := ends_plain_illegal (eff := eff) h hit w hd
    exact ⟨illegal _ _, illegal _ _, illegal _ _, illegal _ _⟩

end Sys2Proof.Proofs
end
section
/-! SUPPORT. The signed comparison with an immediate (R316). -/

namespace Sys2Proof.Machine

theorem boolWord_slt_sext14 (a : Word) (imm : BitVec 14) : boolWord (a.slt (sext14 imm)) = if a.toInt < imm.toInt then 1 else 0 := by
  simp [boolWord, BitVec.slt, sext14, BitVec.toInt_signExtend_of_le]

end Sys2Proof.Machine

/-! The statement about the immediate instructions (11_colot_isa.md). -/

namespace Sys2Proof.Proofs

open Sys2Proof Sys2Proof.Machine
/-- Settles O14: with the fields that must be zero at zero the result is the one of R316's table, otherwise ILLEGAL. -/
theorem immediateResults : Obligations.ImmediateResults := by
  intro c rd ra z imm imm18 s h
  refine ⟨fun hz => ?_, fun hit => ⟨fun hz => ?_, fun hz => ?_⟩⟩
  · subst hz
    have result {w : Word} {legal : Bool} {f : Core → Word} {v : Word} (hl : legal = true) (hv : f (getCore s c) = v) :
        Ends (.next (runResult c w legal rd f s)) s c { (getCore s c).setGpr rd v with pc := (getCore s c).pc + 4 } :=
      ends_result c.2 h w hl rd f hv
    refine ⟨result rfl rfl, result rfl rfl, result rfl rfl, result rfl rfl, result rfl (boolWord_slt_sext14 _ _),
      result rfl (boolWord_ult _ _), result rfl rfl, fun hi => ?_⟩
    have hl : ((0 : RegF) == 0 && decide (imm.toNat < 32)) = true := by simpa using hi
    exact ⟨result hl rfl, result hl rfl, result hl rfl⟩
  · have illegal (w : Word) (eff : State → State) := ends_plain_illegal (eff := eff) h hit w (beq_false_of_ne hz)
    exact ⟨illegal _ _, illegal _ _, illegal _ _, illegal _ _, illegal _ _, illegal _ _, illegal _ _⟩
  · have hl : (z == 0 && decide (imm.toNat < 32)) = false := by
      rcases hz with hz | hz
      · rw [beq_false_of_ne hz, Bool.false_and]
      · rw [decide_eq_false (by omega), Bool.and_false]
    have illegal (w : Word) (eff : State → State) := ends_plain_illegal (eff := eff) h hit w hl
    exact ⟨illegal _ _, illegal _ _, illegal _ _⟩

end Sys2Proof.Proofs
end

section
/-! SUPPORT. Branches, and the traps of a legal instruction (R316, R325, R328). -/

namespace Sys2Proof.Machine

/-! ## Branches, and a second trap -/

/-- A legal branch goes to its target where its condition holds, else to the next word (R316). -/
theorem ends_branch {c : Nat} {s : State} (hc : c < 14) (h : Ready s c) (w : Word) (off : BitVec 14) (taken : Core → Bool) {x : Bool}
    (hx : taken (getCore s c) = x) : Ends (.next (branch c w 0 off taken s)) s c
      { getCore s c with pc := if x then (getCore s c).pc + (off.signExtend 32 <<< 2) else (getCore s c).pc + 4 } := by
  subst hx
  refine ends_plain h w rfl ?_
  dsimp only
  cases taken (getCore s c)
  case true => exact to_id hc h _
  case false => exact to_id hc h _

/-- A synchronous trap while IT is 1 stops the core and asks for a warm restart (R328). -/
theorem syncTrap_double {c : Nat} {s : State} (hit : (getCore s c).it = true) (code : Nat) (imprecise : Bool) (spc sval : Word) :
    syncTrap c code imprecise spc sval s = requestRestart c 0xD4 (setCore c { getCore s c with halted := true, wait := .none } s) :=
  if_pos hit

/-- A legal instruction that meets a trap takes it. -/
theorem runInstr_pre {c : Nat} {s : State} (h : Ready s c) (w : Word) {legal : Bool} {pre note eff} (hl : legal = true) {code : Nat} {sval : Word}
    (hp : pre = some (code, sval)) : runInstr c w legal pre note eff s = syncTrap c code false (getCore s c).pc sval (note s) := by
  obtain ⟨hb, hf, _, _⟩ := h
  subst hl hp
  simp [runInstr, hb, hf]

end Sys2Proof.Machine

/-! The statement about branches and jumps (11_colot_isa.md). -/

namespace Sys2Proof.Proofs

open Sys2Proof Sys2Proof.Machine

/-- Settles O15: where each branch and jump goes, and what trap does by IT. -/
theorem branchesAndJumps : Obligations.BranchesAndJumps := by
  intro c rd ra rb off far s h
  have branches {w : Word} {taken : Core → Bool} {x : Bool} (hx : taken (getCore s c) = x) := ends_branch c.2 h w off taken hx
  refine ⟨branches rfl, branches rfl, branches rfl, branches rfl, branches rfl, branches rfl,
    ends_plain h _ rfl (to_id c.2 h _), ends_plain h _ rfl (to_ends c.2 h _ _ (setGpr_hold _ _ _) (setGpr_wait _ _ _)),
    fun ht => ?_, fun ht hit => ?_, fun hit => ?_, fun hit => ?_⟩
  · exact ends_instr h _ rfl (if_pos ht) (to_ends c.2 h _ _ (setGpr_hold _ _ _) (setGpr_wait _ _ _))
  · exact ends_pre h.1 h.2.1 hit _ rfl (by decide) (if_neg ht)
  · exact ends_pre h.1 h.2.1 hit _ rfl (by decide) rfl
  · exact congrArg Host.Outcome.next ((runInstr_pre h _ rfl rfl).trans (syncTrap_double hit _ _ _ _))

end Sys2Proof.Proofs
end

section
/-! SUPPORT. What the SYS group leaves of a core, and the return from a trap (R303, R318). -/

namespace Sys2Proof.Machine

/-! ## Special registers (R303, R304) -/

theorem afterReadSpecial_keeps (s : State) (c n : Nat) (k : Core) : (afterReadSpecial s c n k).pc = k.pc ∧
    (afterReadSpecial s c n k).hold = k.hold ∧ (afterReadSpecial s c n k).wait = k.wait := by
  unfold afterReadSpecial
  split <;> exact ⟨rfl, rfl, rfl⟩

theorem setOther_keeps (k : Core) (i : Nat) (w : Word) :
    (k.setOther i w).pc = k.pc ∧ (k.setOther i w).hold = k.hold ∧ (k.setOther i w).wait = k.wait := by
  unfold Core.setOther
  split <;> exact ⟨rfl, rfl, rfl⟩

theorem writeSpecial_keeps (k : Core) (n : Nat) (w : Word) :
    (k.writeSpecial n w).pc = k.pc ∧ (k.writeSpecial n w).hold = k.hold ∧ (k.writeSpecial n w).wait = k.wait := by
  unfold Core.writeSpecial
  split
  case h_8 | h_9 | h_10 | h_11 => exact setOther_keeps _ _ _
  all_goals exact ⟨rfl, rfl, rfl⟩

theorem readSpecial_other (s : State) (c : Nat) {n : Nat} (h : 12 ≤ n) : readSpecial s c n = (getCore s c).other (n - 12) := by
  obtain ⟨m, rfl⟩ := Nat.exists_eq_add_of_le' h
  rfl

theorem writeSpecial_other (k : Core) {n : Nat} (h : 12 ≤ n) (hn : n < 16) (w : Word) : k.writeSpecial n w = k.setOther (n - 12) w := by
  interval_cases n <;> rfl

section
variable {c : Nat} {s : State} (hc : c < 14) (h : Ready s c)
include hc h

/-- rds gives rd the special register (R318). -/
theorem ends_rds (w : Word) (rd : RegF) (n : Nat) : Ends (.next (runPlain c w true (fun s => advance c (modCore c (fun k =>
      (afterReadSpecial s c n k).setGpr rd (readSpecial s c n)) s)) s)) s c
      { (afterReadSpecial s c n (getCore s c)).setGpr rd (readSpecial s c n) with pc := (getCore s c).pc + 4 } := by
  refine ends_plain h w rfl ?_
  obtain ⟨p, hp⟩ := advance_mod hc h (fun k => (afterReadSpecial s c n k).setGpr rd (readSpecial s c n))
    (fun k => (setGpr_hold _ _ _).trans (afterReadSpecial_keeps s c n k).2.1)
    (fun k => (setGpr_wait _ _ _).trans (afterReadSpecial_keeps s c n k).2.2)
  rw [setGpr_pc, (afterReadSpecial_keeps s c n _).1] at hp
  exact ⟨p, hp⟩

/-- wrs writes a special register that takes it (R318). -/
theorem ends_wrs (w : Word) (ra : RegF) (n : Nat) {legal : Bool} (hl : legal = true) {k : Core}
    (hk : (getCore s c).writeSpecial n ((getCore s c).gpr ra) = k) :
    Ends (.next (runPlain c w legal (fun s => advance c (modCore c (fun k => k.writeSpecial n (k.gpr ra)) s)) s)) s c
      { k with pc := (getCore s c).pc + 4 } := by
  subst hk
  exact ends_mod hc h w hl (fun k => k.writeSpecial n (k.gpr ra)) (fun k => (writeSpecial_keeps k n _).2.1)
    (fun k => (writeSpecial_keeps k n _).2.2) (writeSpecial_keeps _ n _).1

/-- reti restores pc, IE and ACTIVE and clears IT (R318). -/
theorem ends_reti (w : Word) : Ends (.next (runPlain c w true (fun s => settleHold c (countEvent c 0x001 1 (modCore c Core.returnFrom s))) s)) s c
      (getCore s c).returnFrom := by
  refine ends_plain h w rfl ?_
  have hback : ({ (getCore s c).returnFrom with pc := (getCore s c).spc, wait := .none } : Core) = (getCore s c).returnFrom := by
    obtain ⟨_, hw, _⟩ := ready_facts h.1
    simp only [Core.returnFrom, ← hw]
  obtain ⟨p, hp⟩ := to_ends hc h (getCore s c).spc Core.returnFrom rfl rfl
  refine ⟨p, Eq.trans (congrArg (fun u => settleHold c (countEvent c 0x001 1 u)) ?_) hp⟩
  simp only [modCore, getCore_setCore hc, setCore_setCore]
  exact congrArg (fun k => setCore c k s) hback.symm

end

end Sys2Proof.Machine

/-! The statement about the SYS group (11_colot_isa.md). -/

namespace Sys2Proof.Proofs

open Sys2Proof Sys2Proof.Machine

/-- Settles O16: register by register, then the return and the two waits. -/
theorem systemInstructions : Obligations.SystemInstructions := by
  intro c rd ra rb s h
  have reads := ends_rds c.2 h (wordRR 0x01 rd 0 rb 0x000) rd rb.toNat
  have writes {w : Word} {legal : Bool} (hl : legal = true) {k : Core} (hk : (getCore s c).writeSpecial rb.toNat ((getCore s c).gpr ra) = k) :=
    ends_wrs c.2 h w ra rb.toNat hl hk
  refine ⟨?_, ?_, ?_, ?_, ?_, ?_, ?_, ?_, ?_, ?_, ?_, ?_, fun hrb => ?_, fun hro hit => ?_, ends_reti c.2 h _,
    fun hp => ends_plain h _ rfl ?_, fun hp => ends_plain h _ rfl ?_, fun ho => ends_plain h _ rfl ?_, fun ho => ends_plain h _ rfl ?_⟩
  · rintro rfl; exact ⟨reads, writes rfl rfl⟩
  · rintro rfl; exact ⟨reads, writes rfl rfl⟩
  · rintro rfl; exact reads
  · rintro rfl; exact reads
  · rintro rfl; exact ⟨reads, writes rfl rfl⟩
  · rintro rfl; exact ⟨reads, writes rfl rfl⟩
  · rintro rfl; exact ⟨reads, writes rfl rfl⟩
  · rintro rfl; exact reads
  · rintro rfl; exact ⟨reads, writes rfl rfl⟩
  · rintro rfl; exact ⟨reads, writes rfl rfl⟩
  · rintro rfl; exact reads
  · rintro rfl; exact reads
  · rw [readSpecial_other s c hrb] at reads
    have hn : ∀ k : Core, afterReadSpecial s c rb.toNat k = k := fun k => if_neg (by omega)
    rw [hn] at reads
    have hro : specialRO rb.toNat = false := by
      simp [specialRO]
      omega
    exact ⟨reads, writes (by rw [hro]; rfl) (writeSpecial_other _ hrb rb.isLt _)⟩
  · exact ends_plain_illegal h hit _ (by rw [hro]; rfl)
  · obtain ⟨p, hgo⟩ := to_id c.2 h ((getCore s c).pc + 4)
    exact ⟨p, (if_pos (by simpa using hp)).trans hgo⟩
  · exact ⟨s.perf, if_neg (by simpa using hp)⟩
  · obtain ⟨p, hgo⟩ := to_id c.2 h ((getCore s c).pc + 4)
    exact ⟨p, (if_pos ho).trans hgo⟩
  · exact ⟨s.perf, if_neg ho⟩

end Sys2Proof.Proofs
end

section
/-! SUPPORT. The entry of a trap, whichever core stands there (R325, R326). -/

namespace Sys2Proof.Machine

/-- A trap while IT is 0 enters its handler; beside the core only the event counters change (R325, R326). -/
theorem syncTrap_enter {c : Nat} {s : State} (hit : (getCore s c).it = false) (code : Nat) (imprecise : Bool) (spc sval : Word) :
    ∃ p, syncTrap c code imprecise spc sval s = setCore c ((getCore s c).enter (BitVec.ofNat 32 (code + 512 * b2n imprecise)) spc sval
      ((getCore s c).svec + BitVec.ofNat 32 (4 * code))) { s with perf := p } := by
  obtain ⟨p, hp⟩ := countEvent_eq (setCore c ((getCore s c).enter (BitVec.ofNat 32 (code + 512 * b2n imprecise)) spc sval
    ((getCore s c).svec + BitVec.ofNat 32 (4 * code))) s) c 0x003 1
  exact ⟨p, (if_neg (by simp [hit])).trans hp⟩

end Sys2Proof.Machine

/-! The statement about interrupts and the wake (11_colot_isa.md). -/

namespace Sys2Proof.Proofs

open Sys2Proof Sys2Proof.Machine

/-- Settles O17: each of the three is taken where its guard holds, and counts one event beside the core. -/
theorem interruptsAndWake : Obligations.InterruptsAndWake := by
  intro c s hact hhold
  refine ⟨fun hw hp => ?_, fun hcore hhalt hw hdue himp => ?_, fun a ha hb hit => ?_⟩
  · obtain ⟨p, hgo⟩ := advance_eq c.2 s hhold
    refine ⟨p, congrArg Host.Outcome.next ((if_pos ?_).trans hgo)⟩
    simpa [hact, hw] using hp
  · obtain ⟨p, hcount⟩ := countEvent_eq (setCore c ((getCore s c).enter (BitVec.ofNat 32 (256 + lowestLine (pendingMasked s c)))
      (if (getCore s c).wait = .wfi then (getCore s c).pc + 4 else (getCore s c).pc) (BitVec.ofNat 32 (freeValue s))
      ((getCore s c).svec + BitVec.ofNat 32 (64 + 4 * lowestLine (pendingMasked s c)))) (useFree s)) c 0x004 1
    refine ⟨p, congrArg Host.Outcome.next ((if_pos ?_).trans hcount)⟩
    rcases hw with hw | hw <;> simp [hact, hcore, hhalt, hhold, hw, hdue, himp]
  · have htaken : exec (.impreciseStatusTrap c) s =
        .next (syncTrap c 0x05 true (getCore s c).pc a (setCore c { getCore s c with imprecise := none } s)) := by
      show execImpreciseStatusTrap c s = _
      simp [execImpreciseStatusTrap, ha, hb, hit]
    obtain ⟨p, henter⟩ := syncTrap_enter (s := setCore c { getCore s c with imprecise := none } s) (c := c)
      (by rw [getCore_setCore c.2]; exact hit) 0x05 true (getCore s c).pc a
    rw [getCore_setCore c.2] at henter
    exact ⟨p, htaken.trans (congrArg Host.Outcome.next (henter.trans (setCore_setCore c _ _ { s with perf := p })))⟩

end Sys2Proof.Proofs
end

section
/-! SUPPORT. The traps and the two ways of an access: the core's own memory, or a transaction of the viaduct (R305 to R311). -/

namespace Sys2Proof.Machine

/-! ## Accesses of a core (R305 to R311) -/

section
variable {c : Nat} {s : State} (h : Ready s c) (w : Word) {legal : Bool} (hl : legal = true) {n : Nat} {a : Word} {note : State → State}
include h hl

/-- An aligned access outside the core's own memory is one of the viaduct. -/
theorem runInstr_viaduct {X Y : State → State} (hloc : isLocal c a.toNat = false) (ha : a.toNat % n = 0) :
    runInstr c w legal (accessTrap s c n a .clean) note (fun s => if isLocal c a.toNat then X s else Y s) s = Y s := by
  rw [runInstr_eff h w hl (accessTrap_none ha (by simp [hloc])), if_neg (by simp [hloc])]

/-- An aligned access to the core's own memory, where it exists. -/
theorem runInstr_own {X Y : State → State} (hloc : isLocal c a.toNat = true) (hbus : localBusErr s c a.toNat = false) (ha : a.toNat % n = 0) :
    runInstr c w legal (accessTrap s c n a .clean) note (fun s => if isLocal c a.toNat then X s else Y s) s = X s := by
  rw [runInstr_eff h w hl (accessTrap_none ha fun _ => hbus), if_pos hloc]

/-- A misaligned access takes ALIGN with its address as sval and has no effect (R306). -/
theorem ends_misaligned {eff : State → State} (hnote : note s = s) (hit : (getCore s c).it = false) (ha : a.toNat % n ≠ 0) :
    Ends (.next (runInstr c w legal (accessTrap s c n a .clean) note eff s)) s c (trapped (getCore s c) 0x02 a) := by
  obtain ⟨p, hp⟩ := trap_ends (s := s) hit 0x02 (by decide) a
  exact ⟨p, congrArg Host.Outcome.next ((runInstr_pre h w hl (if_pos ha)).trans (by rw [hnote, hp]))⟩

end

/-- An access that ended with 0x00 leaves its core at the next word with the status recorded and the destination written. -/
theorem complete_next {c : Nat} (hc : c < 14) (sval : Word) {f : Core → Core} {s : State} (hpc : ∀ k, (f k).pc = k.pc)
    (hhold : ∀ k, (f k).hold = k.hold) (hwait : ∀ k, (f k).wait = k.wait) (hh : (getCore s c).hold = false) (hw : (getCore s c).wait = .none) :
    ∃ p, completeAccess c sval 0x00 f s =
      setCore c { f ((getCore s c).recordStatus 0x00) with pc := (getCore s c).pc + 4 } { s with perf := p } := by
  obtain ⟨p, hp⟩ := complete_ok hc sval f s (by rw [hhold, rec_hold, hh])
  have hnone : (f ((getCore s c).recordStatus 0x00)).wait = .none := by rw [hwait, rec_wait, hw]
  rw [hpc, rec_pc, ← hnone] at hp
  exact ⟨p, hp⟩

/-! ## Loads (R316) -/

section
variable {c : Nat} {s : State} (h : Ready s c) (w : Word) (n : Nat) (sg : Bool) (rd ra : RegF) (imm : BitVec 14)
include h

/-- A load from the core's own SRAM writes rd (R305, R306). -/
theorem ends_load_own (hc : c < 14) {key : Nat} (hloc : isLocal c ((getCore s c).gpr ra + sext14 imm).toNat = true)
    (hbus : localBusErr s c ((getCore s c).gpr ra + sext14 imm).toNat = false) (ha : ((getCore s c).gpr ra + sext14 imm).toNat % n = 0)
    (hown : ownSram s c (((getCore s c).gpr ra + sext14 imm).toNat / 4 * 4) = some key) (hact : canAct s c = true) :
    Ends (.next (load c w n sg rd ra 0 imm .clean s)) s c { ((getCore s c).recordStatus 0x00).setGpr rd
      (loadLane n sg (((getCore s c).gpr ra + sext14 imm).toNat % 4) (BitVec.ofNat 32 (leAt (memReadBytes s key 4) 0 4))) with
        pc := (getCore s c).pc + 4 } := by
  obtain ⟨hhold, hwait, _⟩ := ready_facts h.1
  obtain ⟨p, hp⟩ := complete_next hc ((getCore s c).gpr ra + sext14 imm) (s := s) (f := fun k => k.setGpr rd
    (loadLane n sg (((getCore s c).gpr ra + sext14 imm).toNat % 4) (BitVec.ofNat 32 (leAt (memReadBytes s key 4) 0 4))))
    (fun k => setGpr_pc k _ _) (fun k => setGpr_hold k _ _) (fun k => setGpr_wait k _ _) hhold hwait
  unfold load
  dsimp only
  rw [runInstr_own h w (legal := (0 : RegF) == 0) rfl hloc hbus ha, noteLocal_clean, localRead_own hact hown]
  exact ⟨p, congrArg Host.Outcome.next hp⟩

/-- A load over the viaduct is issued and its core waits (R310). -/
theorem load_viaduct (hloc : isLocal c ((getCore s c).gpr ra + sext14 imm).toNat = false)
    (ha : ((getCore s c).gpr ra + sext14 imm).toNat % n = 0) : load c w n sg rd ra 0 imm .clean s =
      issueStalling c (.read 1) ((getCore s c).gpr ra + sext14 imm).toNat false
        (.load rd n sg (((getCore s c).gpr ra + sext14 imm).toNat % 4)) s := by
  unfold load
  dsimp only
  rw [runInstr_viaduct h w (legal := (0 : RegF) == 0) rfl hloc ha]

end

end Sys2Proof.Machine

/-! The statement about loads (11_colot_isa.md). -/

namespace Sys2Proof.Proofs

open Sys2Proof Sys2Proof.Machine

/-- Settles O18: one load in three sizes and two extensions, and the burst of ldq. -/
theorem loads : Obligations.Loads := by
  intro c rd ra imm s h
  refine ⟨fun i n sg hi => ?_, fun hquad => ⟨fun hloc ha hout => ?_, fun ha hit => ?_⟩⟩
  · obtain ⟨w, hw⟩ : ∃ w, exec i s = .next (load c w n sg rd ra 0 imm .clean s) := by
      simp only [List.mem_cons, Prod.mk.injEq, List.not_mem_nil, or_false] at hi
      rcases hi with ⟨rfl, rfl, rfl⟩ | ⟨rfl, rfl, rfl⟩ | ⟨rfl, rfl, rfl⟩ | ⟨rfl, rfl, rfl⟩ | ⟨rfl, rfl, rfl⟩ <;> exact ⟨_, rfl⟩
    rw [hw]
    refine ⟨fun key hloc hbus ha hown hact => ends_load_own h w n sg rd ra imm c.2 hloc hbus ha hown hact, fun hloc ha hout => ?_,
      fun ha hit => by unfold load; exact ends_misaligned h w rfl (noteLocal_clean c n _ s) hit ha⟩
    obtain ⟨p, hp⟩ := stall_eq (s := s) hout (.read 1) ((getCore s c).gpr ra + sext14 imm).toNat false
      (.load rd n sg (((getCore s c).gpr ra + sext14 imm).toNat % 4))
    exact ⟨p, congrArg Host.Outcome.next ((load_viaduct h w n sg rd ra imm hloc ha).trans hp)⟩
  · obtain ⟨p, hp⟩ := stall_eq (s := s) hout (.read 4) ((getCore s c).gpr ra + sext14 imm).toNat true (.quad rd)
    exact ⟨p, congrArg Host.Outcome.next ((runInstr_viaduct h _ hquad hloc ha).trans hp)⟩
  · exact ends_misaligned h _ hquad (noteLocal_clean c 16 _ s) hit ha

end Sys2Proof.Proofs
end

section
/-! SUPPORT. A store's strobes and lanes, and a word written to a core's own SRAM (R305, R306, R333). -/

namespace Sys2Proof.Machine

/-! ## Strobes and lanes (R306) -/

/-- The strobes of a store select its bytes. -/
theorem bitOf_storeStrobes (n lane j : Nat) : bitOf (storeStrobes n lane) j = decide (lane ≤ j ∧ j < lane + n) := by
  have hbit : bitOf (storeStrobes n lane) j = (storeStrobes n lane).testBit j := by
    simp [bitOf, Nat.testBit, Nat.shiftRight_eq_div_pow]
  rw [hbit, storeStrobes, Nat.testBit_mul_two_pow, Nat.testBit_two_pow_sub_one]
  by_cases h : lane ≤ j
  · simp [h]; omega
  · simp [h]

/-- A byte of a store's word on the bus is the byte of the register that its lane carries. -/
theorem storeLane_byte (w : Word) {lane j : Nat} (h : lane ≤ j) (hj : j < 4) :
    BitVec.ofNat 8 (storeLane lane w / 256 ^ j) = w.extractLsb' (8 * (j - lane)) 8 := by
  apply BitVec.eq_of_getLsbD_eq
  intro i hi
  have hpow : 256 ^ j = 2 ^ (8 * j) := by rw [Nat.pow_mul]
  have hle : 8 * lane ≤ i + 8 * j := by omega
  have hlt : i + 8 * j < 32 := by omega
  have hpos : i + 8 * j - 8 * lane = 8 * (j - lane) + i := by omega
  simp only [BitVec.getLsbD_ofNat, BitVec.getLsbD_extractLsb', hi, decide_true, Bool.true_and, storeLane, hpow, Nat.testBit_div_two_pow,
    Nat.testBit_mod_two_pow, hlt, Nat.testBit_mul_two_pow, hle, hpos]
  rfl

/-- Memory after a store within one word: the stored bytes change and no other. -/
theorem strobeMem_store {n lane key : Nat} {w : Word} {m : Memory} (hn : lane + n ≤ 4) (hm : Memory.wf m = true) (b : Nat) :
    Memory.read (strobeMem (storeStrobes n lane) (storeLane lane w) key m) b =
      if key + lane ≤ b ∧ b < key + lane + n then w.extractLsb' (8 * (b - (key + lane))) 8 else Memory.read m b := by
  rw [strobeMem_read _ _ _ _ hm, bitOf_storeStrobes]
  simp only [decide_eq_true_eq]
  by_cases hb : key + lane ≤ b ∧ b < key + lane + n
  · rw [if_pos hb, if_pos (by omega), storeLane_byte w (by omega) (by omega), Nat.sub_sub]
  · rw [if_neg hb, if_neg (by omega)]

/-- A word written to the core's own SRAM outside a locked code region changes the bytes under the strobes (R305, R333). -/
theorem localWrite_own {s : State} {c a key w strb : Nat} (ha : canAct s c = true) (h : ownSram s c (a / 4 * 4) = some key)
    (hl : codeLocked s c (if c = 2 then key - keysSram else keyOffset c key) = false) :
    localWrite c a [w] strb false s = ⟨[], 0x00, { s with mem := strobeMem strb w key s.mem }⟩ := by
  unfold ownSram at h
  unfold localWrite
  simp only [Bool.false_eq_true, if_false]
  split at h
  case isTrue hc =>
    subst hc
    split at h
    case isFalse => cases h
    case isTrue hin =>
      cases h
      simp only [Bool.and_eq_true, Bool.not_eq_true'] at hin
      rw [if_pos ⟨rfl, hin.1⟩]
      simp only [if_true] at hl
      simp only [keysPutWords, hl, Bool.false_eq_true, if_false, strobeBytes_eq]
  case isFalse hc =>
    rw [if_neg (fun hx => hc hx.1), if_neg (fun hx => hc hx.1)]
    split at h
    case h_2 => cases h
    case h_1 i key' hp =>
      split at h
      case isFalse => cases h
      case isTrue hi =>
        obtain ⟨rfl, hq⟩ := hi
        cases h
        rw [if_neg hc] at hl
        have hw := memWordWrite_sram s hp i w strb
        rw [if_neg (by rintro ⟨h1, h2⟩; rw [hq h1] at h2; cases h2), if_neg (by simp [hl])] at hw
        simp [serveWrite, placeAnswers, hp, Place.island, ha, countServe, writeAt_sram s hp, hw]

/-! ## Stores (R316) -/

section
variable {c : Nat} {s : State} (h : Ready s c) (w : Word) (n : Nat) (rd ra : RegF) (imm : BitVec 14)
include h

/-- A store to the core's own SRAM changes the stored bytes and no other (R305, R306). -/
theorem store_own (hc : c < 14) {key : Nat} (hloc : isLocal c ((getCore s c).gpr ra + sext14 imm).toNat = true)
    (hbus : localBusErr s c ((getCore s c).gpr ra + sext14 imm).toNat = false) (ha : ((getCore s c).gpr ra + sext14 imm).toNat % n = 0)
    (hown : ownSram s c (((getCore s c).gpr ra + sext14 imm).toNat / 4 * 4) = some key) (hact : canAct s c = true)
    (hl : codeLocked s c (if c = 2 then key - keysSram else keyOffset c key) = false) :
    ∃ p, store c w n rd ra 0 imm s = setCore c { (getCore s c).recordStatus 0x00 with pc := (getCore s c).pc + 4 } { s with
      mem := strobeMem (storeStrobes n (((getCore s c).gpr ra + sext14 imm).toNat % 4))
        (storeLane (((getCore s c).gpr ra + sext14 imm).toNat % 4) ((getCore s c).gpr rd)) key s.mem
      perf := p } := by
  obtain ⟨hhold, hwait, _⟩ := ready_facts h.1
  obtain ⟨p, hp⟩ := complete_next hc ((getCore s c).gpr ra + sext14 imm) (f := id) (s := { s with
      mem := strobeMem (storeStrobes n (((getCore s c).gpr ra + sext14 imm).toNat % 4))
        (storeLane (((getCore s c).gpr ra + sext14 imm).toNat % 4) ((getCore s c).gpr rd)) key s.mem })
    (fun _ => rfl) (fun _ => rfl) (fun _ => rfl) hhold hwait
  unfold store
  dsimp only
  rw [runInstr_own h w (legal := (0 : RegF) == 0) rfl hloc hbus ha, localWrite_own hact hown hl]
  exact ⟨p, hp⟩

/-- A store over the viaduct is posted and the core goes on (R310). -/
theorem store_viaduct (hloc : isLocal c ((getCore s c).gpr ra + sext14 imm).toNat = false)
    (ha : ((getCore s c).gpr ra + sext14 imm).toNat % n = 0) : store c w n rd ra 0 imm s =
      issuePosted c (.write [storeLane (((getCore s c).gpr ra + sext14 imm).toNat % 4) ((getCore s c).gpr rd)]
        (storeStrobes n (((getCore s c).gpr ra + sext14 imm).toNat % 4))) ((getCore s c).gpr ra + sext14 imm).toNat false s := by
  unfold store
  dsimp only
  rw [runInstr_viaduct h w (legal := (0 : RegF) == 0) rfl hloc ha]

end

/-- A posted access of a core that stands at a boundary is issued and the core goes on (R310). -/
theorem posted_next {c : Nat} (hc : c < 14) {s : State} (h : Ready s c) (hout : outstanding s c < 4) (op : TxnOp) (addr : Nat) (burst : Bool) :
    ∃ p, issuePosted c op addr burst s = setCore c { getCore s c with pc := (getCore s c).pc + 4 } { s with perf := p, via := { s.via with
      txns := vset s.via.txns c (vget [] s.via.txns c ++ [⟨op, addr, burst, .posted, s.time.us, false⟩]) } } := by
  obtain ⟨hhold, hwait, _⟩ := ready_facts h.1
  obtain ⟨p, hp⟩ := posted_eq hc hhold hout op addr burst
  rw [← hwait] at hp
  exact ⟨p, hp⟩

end Sys2Proof.Machine

/-! The statement about stores (11_colot_isa.md). -/

namespace Sys2Proof.Proofs

open Sys2Proof Sys2Proof.Machine

/-- Settles O19: one store in three sizes, and the burst of stq. -/
theorem stores : Obligations.Stores := by
  intro c rd ra imm s h
  refine ⟨fun i n hi => ?_, fun hquad => ⟨fun hloc ha hout => ?_, fun ha hit => ?_⟩⟩
  · obtain ⟨⟨w, hw⟩, hlane⟩ : (∃ w, exec i s = .next (store c w n rd ra 0 imm s)) ∧ ∀ a, a % n = 0 → a % 4 + n ≤ 4 := by
      simp only [List.mem_cons, Prod.mk.injEq, List.not_mem_nil, or_false] at hi
      rcases hi with ⟨rfl, rfl⟩ | ⟨rfl, rfl⟩ | ⟨rfl, rfl⟩ <;> exact ⟨⟨_, rfl⟩, fun a _ => by omega⟩
    rw [hw]
    refine ⟨fun key hloc hbus ha hown hact hl hm => ?_, fun hloc ha hout => ?_,
      fun ha hit => by unfold store; exact ends_misaligned h w rfl rfl hit ha⟩
    · obtain ⟨p, hp⟩ := store_own h w n rd ra imm c.2 hloc hbus ha hown hact (by simpa [Fin.ext_iff] using hl)
      refine ⟨_, p, congrArg Host.Outcome.next hp, fun b => ?_⟩
      exact strobeMem_store (hlane _ ha) hm b
    · obtain ⟨p, hp⟩ := posted_next c.2 h hout _ _ false
      exact ⟨p, congrArg Host.Outcome.next ((store_viaduct h w n rd ra imm hloc ha).trans hp)⟩
  · obtain ⟨p, hp⟩ := posted_next c.2 h hout _ _ true
    exact ⟨p, congrArg Host.Outcome.next ((runInstr_viaduct h _ hquad hloc ha).trans hp)⟩
  · exact ends_misaligned h _ hquad rfl hit ha

end Sys2Proof.Proofs
end

section
/-! SUPPORT. A quad sent to the core's own inbox or over the viaduct, and the oldest entry received (R319). -/

namespace Sys2Proof.Machine

/-! ## Messages of a core (R319) -/

theorem setQuad_keeps (k : Core) (r : RegF) (ws : List Nat) :
    (k.setQuad r ws).pc = k.pc ∧ (k.setQuad r ws).hold = k.hold ∧ (k.setQuad r ws).wait = k.wait := by
  simp only [Core.setQuad, setGpr_pc, setGpr_hold, setGpr_wait, and_self]

/-- A change of a core that is not held and waits for nothing, then the next word. -/
theorem advance_change {c : Nat} (hc : c < 14) {s : State} {f : Core → Core} (hpc : (f (getCore s c)).pc = (getCore s c).pc)
    (hhold : (f (getCore s c)).hold = false) (hwait : (f (getCore s c)).wait = .none) :
    ∃ p, advance c (modCore c f s) = setCore c { f (getCore s c) with pc := (getCore s c).pc + 4 } { s with perf := p } := by
  have hcore : getCore (modCore c f s) c = f (getCore s c) := getCore_setCore hc _ s
  obtain ⟨p, hp⟩ := advance_eq hc (modCore c f s) (by rw [hcore, hhold])
  rw [hcore, hpc, ← hwait] at hp
  exact ⟨p, hp.trans (setCore_setCore c _ _ { s with perf := p })⟩

section
variable {c : Nat} {s : State} (h : Ready s c) (w : Word) {legal : Bool} {rq : RegF} (hl : (legal && isQuad rq) = true) (rd : RegF)
include h hl

/-- A quad sent to the core's own inbox with room stands youngest there, and the core goes on with status 0x00. -/
theorem sendQuad_own (hc : c < 14) (posted : Bool) (hroom : (inboxOf s c).length < 16) :
    Ends (.next (sendQuad c w legal posted rd rq c s)) (setInbox c (inboxOf s c ++ [⟨(getCore s c).quadMsg rq, c⟩]) s) c
      { (if posted then (getCore s c).recordStatus 0x00 else ((getCore s c).recordStatus 0x00).setGpr rd 0) with pc := (getCore s c).pc + 4 } := by
  obtain ⟨hhold, hwait, _⟩ := ready_facts h.1
  obtain ⟨q, hq⟩ := enterInbox_eq s c ((getCore s c).quadMsg rq) c
  obtain ⟨p, hp⟩ := complete_next hc (BitVec.ofNat 32 c) (f := fun k => if posted then k else k.setGpr rd 0)
    (s := setInbox c (inboxOf s c ++ [⟨(getCore s c).quadMsg rq, c⟩]) { s with perf := q })
    (fun k => by cases posted; exacts [setGpr_pc k rd 0, rfl]) (fun k => by cases posted; exacts [setGpr_hold k rd 0, rfl])
    (fun k => by cases posted; exacts [setGpr_wait k rd 0, rfl]) hhold hwait
  unfold sendQuad
  dsimp only
  rw [runInstr_eff h w hl (if_neg fun hx => absurd hx.2 (by omega)), if_pos rfl, hq]
  exact ⟨p, congrArg Host.Outcome.next hp⟩

/-- A full own inbox takes MSG_SELF. -/
theorem sendQuad_full (posted : Bool) (hfull : 16 ≤ (inboxOf s c).length) (hit : (getCore s c).it = false) :
    Ends (.next (sendQuad c w legal posted rd rq c s)) s c (trapped (getCore s c) 0x07 0) := by
  unfold sendQuad
  exact ends_pre h.1 h.2.1 hit w hl (by decide) (if_pos ⟨rfl, hfull⟩)

/-- A quad sent to another island is a transaction: its sender waits for the status, or goes on if it posted it. -/
theorem sendQuad_viaduct (posted : Bool) {t : Nat} (ht : t ≠ c) : sendQuad c w legal posted rd rq t s =
    if posted then issuePosted c (.message t ((getCore s c).quadMsg rq)) (islandBase t) false s
    else issueStalling c (.message t ((getCore s c).quadMsg rq)) (islandBase t) false (.status rd) s := by
  unfold sendQuad
  rw [runInstr_eff h w hl (if_neg fun hx => ht hx.1), if_neg ht]

end

/-- What R319 says of a quad rq sent to island g: by `send`, whose status rd receives, and by `post`. -/
def SendsQuad (s : State) (c : Island) (rd rq : RegF) (send post : Instr) (g : Nat) : Prop :=
  let k := getCore s c
  let msg := k.quadMsg rq
  let out : TxnDst → State → State := fun d u => { u with via := { u.via with
    txns := vset u.via.txns c (vget [] u.via.txns c ++ [⟨.message g msg, islandBase g, false, d, s.time.us, false⟩]) } }
  (g = c.val → (inboxOf s c).length < 16 →
    Ends (exec send s) (setInbox c (inboxOf s c ++ [⟨msg, c⟩]) s) c { (k.recordStatus 0x00).setGpr rd 0 with pc := k.pc + 4 } ∧
    Ends (exec post s) (setInbox c (inboxOf s c ++ [⟨msg, c⟩]) s) c { k.recordStatus 0x00 with pc := k.pc + 4 }) ∧
  (g = c.val → 16 ≤ (inboxOf s c).length → k.it = false →
    Ends (exec send s) s c (trapped k 0x07 0) ∧ Ends (exec post s) s c (trapped k 0x07 0)) ∧
  (g ≠ c.val → outstanding s c < 4 →
    (∃ p, exec send s = .next (setCore c { k with wait := .resp } (out (.status rd) { s with perf := p }))) ∧
    (∃ p, exec post s = .next (setCore c { k with pc := k.pc + 4 } (out .posted { s with perf := p }))))

theorem sendsQuad {s : State} {c : Island} (h : Ready s c) {rd rq : RegF} {send post : Instr} {g : Nat} {w w' : Word} {legal legal' : Bool}
    (hq : isQuad rq = true) (hsend : exec send s = .next (sendQuad c w legal false rd rq g s))
    (hpost : exec post s = .next (sendQuad c w' legal' true 0 rq g s)) (hlegal : legal = true) (hlegal' : legal' = true) :
    SendsQuad s c rd rq send post g := by
  have hl : (legal && isQuad rq) = true := by rw [hlegal, hq, Bool.and_self]
  have hl' : (legal' && isQuad rq) = true := by rw [hlegal', hq, Bool.and_self]
  unfold SendsQuad
  rw [hsend, hpost]
  refine ⟨?_, ?_, fun hg hout => ⟨?_, ?_⟩⟩
  · rintro rfl hroom
    exact ⟨sendQuad_own h w hl rd c.2 false hroom, sendQuad_own h w' hl' 0 c.2 true hroom⟩
  · rintro rfl hfull hit
    exact ⟨sendQuad_full h w hl rd false hfull hit, sendQuad_full h w' hl' 0 true hfull hit⟩
  · obtain ⟨p, hp⟩ := stall_eq hout (.message g ((getCore s c).quadMsg rq)) (islandBase g) false (.status rd)
    exact ⟨p, congrArg Host.Outcome.next ((sendQuad_viaduct h w hl rd false hg).trans hp)⟩
  · obtain ⟨p, hp⟩ := posted_next c.2 h hout (.message g ((getCore s c).quadMsg rq)) (islandBase g) false
    exact ⟨p, congrArg Host.Outcome.next ((sendQuad_viaduct h w' hl' 0 true hg).trans hp)⟩

end Sys2Proof.Machine

/-! The statement about the messages of a core (11_colot_isa.md). -/

namespace Sys2Proof.Proofs

open Sys2Proof Sys2Proof.Machine

/-- Settles O20: the two ways of a quad, by its target, then the entry received and the count. -/
theorem messagesOfACore : Obligations.MessagesOfACore := by
  intro c rd rq t s h hq
  obtain ⟨hhold, hwait, _⟩ := ready_facts h.1
  refine ⟨sendsQuad h hq rfl rfl rfl rfl, sendsQuad h hq rfl rfl rfl rfl, fun e rest hin => ?_, fun hin => ?_, ends_result c.2 h _ rfl rd _ rfl⟩
  · obtain ⟨hpc, hh, hw⟩ := setQuad_keeps (getCore s c) rq (msgWords e.msg)
    obtain ⟨p, hp⟩ := advance_change c.2 (s := setInbox c rest s) (f := fun k => (k.setQuad rq (msgWords e.msg)).setGpr rd (BitVec.ofNat 32 e.src))
      ((setGpr_pc _ _ _).trans hpc) ((setGpr_hold _ _ _).trans (hh.trans hhold)) ((setGpr_wait _ _ _).trans (hw.trans hwait))
    refine ⟨p, congrArg Host.Outcome.next ((runPlain_eff h _ hq).trans ?_)⟩
    rw [hin]
    exact hp
  · obtain ⟨p, hp⟩ := advance_change c.2 (s := s) (f := fun k => k.setGpr rd 0xFFFFFFFF)
      (setGpr_pc _ _ _) ((setGpr_hold _ _ _).trans hhold) ((setGpr_wait _ _ _).trans hwait)
    refine ⟨p, congrArg Host.Outcome.next ((runPlain_eff h _ hq).trans ?_)⟩
    rw [hin]
    exact hp

end Sys2Proof.Proofs
end

section
/-! SUPPORT. A counter written through its HI register, and the dump engine switched on (R427, R431, R438). -/

namespace Sys2Proof.Machine

/-! ## What an event counts (R427 to R429) -/

/-- A counter record that differs from another in its event counters and their overflow bits only. -/
def PerfState.Counted (p q : PerfState) : Prop := { q with pmc := p.pmc, ovf := p.ovf } = p

theorem PerfState.Counted.refl (p : PerfState) : p.Counted p := rfl

theorem PerfState.Counted.trans {p q r : PerfState} (h : p.Counted q) (h' : q.Counted r) : p.Counted r := by
  unfold PerfState.Counted at *
  rw [← h, ← h']

/-- The cycle counter is as counted events leave it. -/
theorem PerfState.Counted.cyc_eq {p q : PerfState} (h : p.Counted q) : q.cyc = p.cyc := by
  rw [← h]

/-- So are the snapshots. -/
theorem PerfState.Counted.snaps_eq {p q : PerfState} (h : p.Counted q) :
    (q.snapCyc, q.snapPmc, q.snapOvf) = (p.snapCyc, p.snapPmc, p.snapOvf) := by
  rw [← h]

variable (s : State)

theorem getPerf_modPerf {i : Nat} (hi : i < 14) (f : PerfState → PerfState) (j : Nat) :
    getPerf (modPerf i f s) j = if j = i then f (getPerf s i) else getPerf s j :=
  vget_vset _ _ _ hi j

/-- An event changes event counters and their overflow bits only. -/
theorem countEvent_counted {i : Nat} (hi : i < 14) (ev n j : Nat) : (getPerf s j).Counted (getPerf (countEvent i ev n s) j) := by
  unfold countEvent
  generalize List.range 8 = l
  induction l generalizing s with
  | nil => exact .refl _
  | cons k l ih =>
    rw [List.foldl_cons]
    refine .trans ?_ (ih _)
    split
    · rw [getPerf_modPerf s hi]
      split
      case isTrue h => rw [h]; rfl
      case isFalse => exact .refl _
    · exact .refl _

theorem countIssue_counted {ini : Nat} (hini : ini < 14) (i j : Nat) : (getPerf s j).Counted (getPerf (countIssue ini i s) j) := by
  unfold countIssue
  split
  · exact .refl _
  · exact countEvent_counted s hini _ _ j

theorem countServe_counted (ini : Nat) {i : Nat} (hi : i < 14) (j : Nat) : (getPerf s j).Counted (getPerf (countServe ini i s) j) := by
  unfold countServe
  split
  · exact .refl _
  · exact countEvent_counted s hi _ _ j

/-- A word written to a register of a running island: the access is counted, the row takes it, and its status is answered. -/
theorem viaRegWrite_counted {ini i : Nat} (hr : canReach s ini i = true) (ha : canAct s i = true) {a w strb k : Nat} {row : RegRow}
    {st : Status} {t : State} (halign : a / 4 * 4 = a) (hplace : placeOf a = .reg i) (hdec : decodeReg a = some (i, row, k))
    (h : regWrite ini i row k a w strb (countServe ini i (countIssue ini i s)) = (st, t)) :
    viaRegWrite ini a w strb s = setResp ini [] st (countStatus ini st t) := by
  obtain ⟨p, hp⟩ := countIssue_eq s ini i
  have hans : placeAnswers (countIssue ini i s) a = true := by rw [hp, placeAnswers_perf, placeAnswers_reg s hplace ha]
  have hserve : serveWrite ini a [w] strb false (countIssue ini i s) = ⟨[], st, t⟩ := by
    simp only [serveWrite, Bool.false_eq_true, if_false, halign, hans, hplace, Place.island, List.headD_cons, Bool.true_eq_false]
    rw [writeAt_reg _ hplace hdec, h]
  simp only [viaRegWrite, viaServe, canReachAddr, hplace, Place.island, hr, if_true, countIssueAddr, hserve]

/-! ## The HI registers (R431) -/

/-- The registers whose write sets a counter. -/
def counterHiRegs : List (Reg × Nat) := (.cycHi, 0) :: (List.range 8).map (fun k => (.pmcHi, k))

/-- Where the HI registers lie: each in its island's window, by a row that stores nothing. -/
theorem counterHi_row (i : Island) {r : Reg} {k : Nat} (h : (r, k) ∈ counterHiRegs) :
    regAddr i r k / 4 * 4 = regAddr i r k ∧ regAddr i r k < 2 ^ 32 ∧ placeOf (regAddr i r k) = .reg i ∧
      decodeReg (regAddr i r k) = some (i.val, rowFor i r, k) ∧ (rowFor i r).reg = r ∧ (rowFor i r).rw = 0 ∧ isCommon i r = true := by
  have key : ∀ i : Island, ∀ x ∈ counterHiRegs, regAddr i x.1 x.2 / 4 * 4 = regAddr i x.1 x.2 ∧ regAddr i x.1 x.2 < 2 ^ 32 ∧
      placeOf (regAddr i x.1 x.2) = .reg i ∧ decodeReg (regAddr i x.1 x.2) = some (i.val, rowFor i x.1, x.2) ∧
      (rowFor i x.1).reg = x.1 ∧ (rowFor i x.1).rw = 0 ∧ isCommon i x.1 = true := by decide +kernel
  exact key i (r, k) h

theorem mem_counterHiRegs {r : Reg} {k : Nat} : (r, k) ∈ counterHiRegs ↔ r = .cycHi ∧ k = 0 ∨ r = .pmcHi ∧ k < 8 := by
  simp [counterHiRegs, eq_comm, and_comm]

theorem mayWrite_counterHi (ini i : Nat) {r : Reg} {k : Nat} (h : (r, k) ∈ counterHiRegs) : mayWrite ini i r = true := by
  have hcommon : isCommon 4 r = true := (counterHi_row 4 h).2.2.2.2.2.2
  rcases mem_counterHiRegs.mp h with ⟨rfl, -⟩ | ⟨rfl, -⟩ <;> simp [mayWrite, keystoneOnly, deckOnly, hcommon]

/-- A write of a HI register sets its counter. -/
theorem regWrite_counterHi (ini : Nat) (i : Island) {r : Reg} {k d : Nat} (h : (r, k) ∈ counterHiRegs) (hd : d < 2 ^ 32) (a : Nat) :
    regWrite ini i (rowFor i r) k a d 0xF s = (0x00, counterHi ini i r k d s) := by
  obtain ⟨-, -, -, -, hreg, hrw, hcommon⟩ := counterHi_row i h
  have hmay := mayWrite_counterHi ini i h
  have hmask : (d &&& strobeMask 0xF) = d := by
    rw [show strobeMask 0xF = 2 ^ 32 - 1 from rfl, Nat.and_two_pow_sub_one_of_lt_two_pow hd]
  have hstore : storeFields i a (rowFor i r) k d (strobeMask 0xF) s = (0x00, s) := by
    unfold storeFields
    rw [hreg]
    rcases mem_counterHiRegs.mp h with ⟨rfl, -⟩ | ⟨rfl, -⟩ <;> simp [hFields, changedH, writeMask, hrw]
  have hact : writeAct ini i r k d (bitOf 0xF 0) s = (0x00, counterHi ini i r k d s) := by
    unfold writeAct
    rw [if_pos hcommon]
    rcases mem_counterHiRegs.mp h with ⟨rfl, -⟩ | ⟨rfl, -⟩ <;> rfl
  have hcore : r ≠ .coreCtrl ∧ r ≠ .coreEntry := by
    rcases mem_counterHiRegs.mp h with ⟨rfl, -⟩ | ⟨rfl, -⟩ <;> exact ⟨nofun, nofun⟩
  unfold regWrite
  rw [hreg, hmay, if_neg (by decide), if_neg (by decide), if_neg hcore.1, if_neg hcore.2]
  simp only [hstore, hmask, hact, if_true]

/-- A HI register written through the viaduct: the access is counted, then the counter is set and the answer is 0x00. -/
theorem viaRegWrite_counterHi {ini i : Island} (hr : canReach s ini i = true) (ha : canAct s i = true) {r : Reg} {k d : Nat}
    (h : (r, k) ∈ counterHiRegs) (hd : d < 2 ^ 32) : viaRegWrite ini (regAddr i r k) d 0xF s =
      setResp ini [] 0x00 (counterHi ini i r k d (countServe ini i (countIssue ini i s))) := by
  obtain ⟨halign, -, hplace, hdec, -⟩ := counterHi_row i h
  exact viaRegWrite_counted s hr ha halign hplace hdec (regWrite_counterHi _ ini i h hd _)

/-- COUNTER_HI_WRITE of a HI register. -/
theorem execCounterHiWrite_eq {ini i : Island} (hr : canReach s ini i = true) (ha : canAct s i = true) {r : Reg} {k : Nat}
    (h : (r, k) ∈ counterHiRegs) (d : Word) : execCounterHiWrite ini (BitVec.ofNat 32 (regAddr i r k)) d s =
      .next (setResp ini [] 0x00 (counterHi ini i r k d.toNat (countServe ini i (countIssue ini i s)))) := by
  obtain ⟨-, hlt, -, hdec, hreg, -⟩ := counterHi_row i h
  have haddr : (BitVec.ofNat 32 (regAddr i r k)).toNat = regAddr i r k := by rw [BitVec.toNat_ofNat, Nat.mod_eq_of_lt hlt]
  have hhi : r = .cycHi ∨ r = .pmcHi := (mem_counterHiRegs.mp h).imp And.left And.left
  unfold execCounterHiWrite
  simp only [haddr, hdec, hreg, if_pos hhi]
  rw [viaRegWrite_counterHi s hr ha h d.isLt]

/-- The access to a HI register is counted, which leaves the cycle counter alone. -/
theorem counterHi_access (ini i : Island) : ∃ p, countServe ini i (countIssue ini i s) = { s with perf := p } ∧
    (getPerf s i).Counted (getPerf ({ s with perf := p } : State) i) := by
  obtain ⟨p, hp⟩ := countIssue_eq s ini i
  obtain ⟨q, hq⟩ := countServe_eq ({ s with perf := p } : State) ini i
  refine ⟨q, by rw [hp, hq], ?_⟩
  have h := (countIssue_counted s ini.2 i i).trans (countServe_counted (countIssue ini i s) ini i.2 i)
  rwa [hp, hq] at h

/-- The cycle counter set. -/
theorem getPerf_counterHi_cyc {i : Nat} (hi : i < 14) (ini k d : Nat) : getPerf (counterHi ini i .cycHi k d s) i =
    { getPerf s i with cyc := SMap.get 0 (shadowKey ini (regAddr i .cycLo k)) s.wshadow + 2 ^ 32 * d } := by
  unfold counterHi
  simp only [if_true]
  rw [getPerf_modPerf _ hi, if_pos rfl]
  rfl

/-- An event counter set. -/
theorem getPerf_counterHi_pmc {i : Nat} (hi : i < 14) (ini k d : Nat) : getPerf (counterHi ini i .pmcHi k d s) i =
    { getPerf s i with
      pmc := vset (getPerf s i).pmc k (SMap.get 0 (shadowKey ini (regAddr i .pmcLo k)) s.wshadow + 2 ^ 32 * (d % 2 ^ 16)) } := by
  unfold counterHi
  simp only [reduceCtorEq, if_false]
  rw [getPerf_modPerf _ hi, if_pos rfl]
  rfl

/-- Beside its counter a write of a HI register takes the initiator's LO write shadow. -/
theorem counterHi_eq (ini i : Nat) (r : Reg) (k d : Nat) : ∃ w p, counterHi ini i r k d s = { s with wshadow := w, perf := p } := by
  unfold counterHi
  dsimp only
  split
  · exact ⟨_, _, rfl⟩
  · exact ⟨_, _, rfl⟩

/-! ## The dump engine switched on (R438) -/

theorem or_one_eq (w : Nat) : w ||| 1 = w - w % 2 + 1 := by
  have hdiv : (w ||| 1) / 2 = w / 2 := by simp [Nat.or_div_two]
  have hmod : (w ||| 1) % 2 = 1 := by simp [Nat.or_mod_two_eq_one]
  omega

theorem clearBits_three (w : Nat) : clearBits w 3 = w - w % 4 := by
  rw [clearBits, show (3 : Nat) = 2 ^ 2 - 1 from rfl, Nat.and_two_pow_sub_one_eq_mod]

/-- DUMP_CFG.ENABLE written as 1, the other fields as they are: the bit is set and SEQ, WPTR and RPTR are reset. -/
theorem regWrite_dumpEnable (ini : Nat) (a : Nat) : regWrite ini 1 (rowFor 1 .dumpCfg) 0 a (regValue s 1 .dumpCfg 0 ||| 1) 0x1 s =
    (0x00, { putReg s 1 .dumpCfg 0 (regValue s 1 .dumpCfg 0 - regValue s 1 .dumpCfg 0 % 2 + 1) with
      dump := { s.dump with seq := 0, wptr := 0, rptr := 0 } }) := by
  generalize hw : regValue s 1 .dumpCfg 0 = w
  have hreg : (rowFor 1 .dumpCfg).reg = .dumpCfg := by decide
  have hmay : mayWrite ini 1 .dumpCfg = true := by simp [mayWrite, keystoneOnly, deckOnly]
  have hsame : changedH w 0xFF (w ||| 1) (hFields .dumpCfg) = [] := by
    have hbit : bitsOf (w ||| 1) 1 1 = bitsOf w 1 1 := by rw [or_one_eq]; unfold bitsOf; omega
    have h1 : covers 0xFF 1 1 = true := by decide
    have h16 : covers 0xFF 16 14 = false := by decide
    simp [changedH, hFields, hbit, h1, h16]
  have hkeep : (hFields .dumpCfg).foldl (fun m f => if covers 0xFF f.1 f.2 && !false then m else setField m f.1 f.2 0)
      (writeMask .dumpCfg (rowFor 1 .dumpCfg) 0 &&& 0xFF) = 3 := by decide
  have hlow : clearBits w 3 + ((w ||| 1) &&& 3) = w - w % 2 + 1 := by
    rw [clearBits_three, or_one_eq, show (3 : Nat) = 2 ^ 2 - 1 from rfl, Nat.and_two_pow_sub_one_eq_mod]
    omega
  have hstore : storeFields 1 a (rowFor 1 .dumpCfg) 0 (w ||| 1) 0xFF s = (0x00, putReg s 1 .dumpCfg 0 (w - w % 2 + 1)) := by
    unfold storeFields
    simp only [hreg, hw, hsame, List.isEmpty_nil, Bool.not_true, Bool.false_and, hkeep, hlow]
    rfl
  have hact (u : State) : writeAct ini 1 .dumpCfg 0 ((w ||| 1) &&& 0xFF) (bitOf 0x1 0) u = (0x00, dumpEnableReset u) := by
    have hbit : bitOf ((w ||| 1) &&& 0xFF) 0 = true := by
      rw [or_one_eq, show (0xFF : Nat) = 2 ^ 8 - 1 from rfl, Nat.and_two_pow_sub_one_eq_mod, bitOf, beq_iff_eq]
      omega
    have hcommon : isCommon 1 .dumpCfg = false := by decide
    unfold writeAct
    simp only [hcommon, Bool.false_eq_true, if_false, deckAct, hbit, if_true]
  unfold regWrite
  rw [hreg, hmay]
  simp only [show strobeMask 0x1 = 0xFF from rfl, hstore, hact]
  rfl
end Sys2Proof.Machine
end

section
/-! SUPPORT. A freeze that takes hold (R101, R362, R439, R440). -/

namespace Sys2Proof.Machine

variable (s : State)

/-! ## A freeze taken (R439, R440) -/

/-- From s to t only the viaduct and the counters have changed, and the messages held at the ports are as `f` leaves them. -/
def HeldBecome (f : Vector (List HeldMsg) 14 → Vector (List HeldMsg) 14) (s t : State) : Prop :=
  ∃ v p, t = { s with via := v, perf := p } ∧ v.held = f s.via.held

theorem HeldBecome.trans {f g : Vector (List HeldMsg) 14 → Vector (List HeldMsg) 14} {s t u : State} (h : HeldBecome f s t) (h' : HeldBecome g t u) :
    HeldBecome (fun x => g (f x)) s u := by
  obtain ⟨v, p, rfl, hv⟩ := h
  obtain ⟨w, q, rfl, hw⟩ := h'
  exact ⟨w, q, rfl, hw.trans (congrArg g hv)⟩

theorem HeldBecome.foldl {α : Type} {step : State → α → State} {g : Vector (List HeldMsg) 14 → α → Vector (List HeldMsg) 14}
    (h : ∀ s x, HeldBecome (fun v => g v x) s (step s x)) (l : List α) : ∀ s, HeldBecome (fun v => l.foldl g v) s (l.foldl step s) := by
  induction l with
  | nil => exact fun s => ⟨s.via, s.perf, rfl, rfl⟩
  | cons x l ih => exact fun s => (h s x).trans (ih (step s x))

/-- The messages held at a port that closes are answered and held no more. -/
theorem answerHeld_held (i : Nat) : HeldBecome (fun v => vset v i []) s (answerHeld i s) := by
  have hone : ∀ (u : State) (h : HeldMsg), HeldBecome id u
      (setResp h.src [] 0x03 (countEvent h.src 0x00A 1 (noteOff h.src (islandBase i) true false true u))) := by
    intro u h
    obtain ⟨v, p, hn, -, -, hheld, -⟩ := noteOff_eq u h.src (islandBase i) true false true
    obtain ⟨q, hq⟩ := countEvent_eq { u with via := v, perf := p } h.src 0x00A 1
    exact ⟨{ v with resp := vset v.resp h.src ⟨[], 0x03⟩ }, q, by rw [hn, hq]; rfl, hheld⟩
  obtain ⟨v, p, h, hv⟩ := HeldBecome.foldl (g := fun v _ => v) hone (vget [] s.via.held i) (modVia (fun v => { v with held := vset v.held i [] }) s)
  exact ⟨v, p, h, hv.trans (List.foldl_fixed _)⟩

/-- A freeze that takes hold: no message is held at a port but AON's, the packet on air is lost, every bridge opens. -/
theorem freezeNow_eq : ∃ v p, freezeNow s = { s with
      freeze := { s.freeze with frozen := true, start := s.time.us }
      rf := { s.rf with air := [] }
      lf := { s.lf with released := Vector.replicate 8 true }
      via := v
      perf := p } ∧ ∀ i : Island, i.val ≠ 0 → vget [] v.held i = [] := by
  obtain ⟨v, p, h, hv⟩ := HeldBecome.foldl (g := fun v i => vset v i []) (fun s i => answerHeld_held s i) (allIslands.filter (fun i => i != 0))
    { s with freeze := { s.freeze with frozen := true, start := s.time.us } }
  refine ⟨v, p, by rw [freezeNow, freezeOutputs, h]; rfl, fun i hi => ?_⟩
  obtain ⟨hlt, hnd⟩ := islands_filter (fun i => i != 0)
  rw [hv, vget_foldl_vset [] (fun _ _ => []) _ hlt hnd, if_pos (List.mem_filter.mpr ⟨mem_allIslands.mpr i.isLt, by simpa using hi⟩)]

/-- A freeze asked for by `src`. -/
def FreezeState.asked (f : FreezeState) (src : FreezeSource) : FreezeState :=
  match src with
  | .pin => { f with pin := true }
  | .monitor => { f with mon := true }

/-- What a freeze request does, by the lifecycle, the freeze and PARK (R362, R439). -/
theorem freezeRequest_eq (src : FreezeSource) : freezeRequest src s =
    let woken := { s.park with wakePend := s.park.wakePend ||| 0x80 }
    if lifecycle s ≠ 1 then { s with park := woken }
    else if s.freeze.frozen = true ∨ s.park.phase = .querying then { s with park := woken, freeze := s.freeze.asked src }
    else if s.park.phase = .idle then freezeNow { s with park := woken, freeze := s.freeze.asked src }
    else { s with park := { woken with freezeAtResume := true }, freeze := s.freeze.asked src } := by
  unfold freezeRequest
  dsimp only
  refine if_congr Iff.rfl rfl ?_
  have hfrozen : (s.freeze.asked src).frozen = s.freeze.frozen := by cases src <;> rfl
  by_cases hf : s.freeze.frozen = true
  · exact (if_pos (hfrozen.trans hf)).trans (if_pos (.inl hf)).symm
  · refine (if_neg fun h => hf (hfrozen.symm.trans h)).trans ?_
    cases hp : s.park.phase
    all_goals
      simp only [fireWake, modPark, hp, reduceCtorEq, or_false, or_true, if_true, if_false, if_neg hf]
      cases src <;> rfl

end Sys2Proof.Machine
end

section
/-! SUPPORT. The snapshots of a strobe and the dump record made of them (R434 to R436). -/

namespace Sys2Proof.Machine

variable (s : State)

theorem isRun_iff (i : Nat) : isRun s i = true ↔ pstate s i = .run := beq_iff_eq

theorem satTo_eq_min (limit x : Nat) : satTo limit x = min limit x := by
  unfold satTo
  split <;> omega

theorem leBytes_one (x : Nat) : leBytes 1 x = [BitVec.ofNat 8 x] := rfl

/-! ## The capture (R434) -/

/-- An island in RUN captures its counters, any other keeps its snapshots. -/
theorem getPerf_captureAll {i : Nat} (hi : i < 14) : getPerf (captureAll s) i =
    if pstate s i = .run then
      { getPerf s i with snapCyc := (getPerf s i).cyc, snapPmc := (getPerf s i).pmc, snapOvf := (getPerf s i).ovf }
    else getPerf s i := by
  simp only [← isRun_iff]
  simp [captureAll, getPerf, vget, hi]

/-! ## The record (R435) -/

/-- The block of island i in a record made as the strobe captures. -/
def capturedBlock (i : Nat) : List Byte :=
  let p := getPerf s i
  if pstate s i = .run then leBytes 8 p.cyc ++ p.pmc.toList.flatMap (leBytes 6) ++ leBytes 1 p.ovf ++ leBytes 1 i ++ [2, 0, 0, 0, 0, 0]
  else List.replicate 56 0 ++ [0] ++ leBytes 1 i ++ leBytes 1 (pstateCode (pstate s i)) ++ [0, 0, 0, 0, 0]

theorem dumpBlock_captureAll {i : Nat} (hi : i < 14) : dumpBlock (captureAll s) i = capturedBlock s i := by
  have hstate : pstate (captureAll s) i = pstate s i := rfl
  have hrun : isRun (captureAll s) i = isRun s i := rfl
  unfold dumpBlock capturedBlock
  simp only [hstate, hrun, isRun_iff, getPerf_captureAll s hi]
  by_cases h : pstate s i = .run
  · simp [h, leBytes_one, pstateCode, List.flatMap]
  · simp [h, leBytes_one]

/-- The islands that a record names, by the mask in force. -/
def dumpIds : List Nat := (List.range 14).filter (fun i => bitOf (dumpMask s) i)

/-- The islands left out of a sum count as 0 in it. -/
theorem foldl_absent (f : Nat → Bool) (g : Nat → Nat) (l : List Nat) (a : Nat) :
    (l.filter (fun i => !f i)).foldl (fun a i => a + g i) a = (l.map (fun i => if f i = true then 0 else g i)).foldl (· + ·) a := by
  induction l generalizing a with
  | nil => rfl
  | cons i l ih =>
    cases h : f i
    · simp [h, ih]
    · simp [h, ih]

/-- The record that a strobe writes. -/
def capturedRecord : List Byte :=
  leBytes 4 s.dump.seq ++ leBytes 2 (dumpMask s) ++
    leBytes 2 (((dumpIds s).map (fun i => if pstate s i = .run then 0 else 2 ^ i)).foldl (· + ·) 0) ++
    leBytes 8 s.time.us ++ (dumpIds s).flatMap (capturedBlock s)

theorem dumpRecord_captureAll : dumpRecord (captureAll s) = capturedRecord s := by
  have hids : allIslands.filter (fun i => bitOf (dumpMask (captureAll s)) i) = dumpIds s := rfl
  have hblocks : (dumpIds s).map (dumpBlock (captureAll s)) = (dumpIds s).map (capturedBlock s) :=
    List.map_congr_left fun i hi => dumpBlock_captureAll s (mem_allIslands.mp (List.mem_of_mem_filter hi))
  have habsent := foldl_absent (isRun (captureAll s)) (2 ^ ·) (dumpIds s) 0
  simp only [isRun_iff] at habsent
  unfold dumpRecord
  simp only [hids, hblocks, habsent]
  rfl

/-! ## The ring (R436) -/

/-- The bytes of a record, the records the ring holds, and where the next one goes. -/
def recordSize : Nat := 16 + 64 * (dumpIds s).length
def ringSlots : Nat := 64 * regValue s 1 .dumpLen 0 / recordSize s
def recordOff : Nat := regValue s 1 .dumpBase 0 + s.dump.wptr * recordSize s

/-- Whether the ring takes no record now. -/
def ringFull : Prop :=
  ringSlots s < 2 ∨ (s.dump.wptr + 1) % ringSlots s = s.dump.rptr ∨ 2 ^ 20 < recordOff s + recordSize s ∨
    sealedRange s (recordOff s) (recordSize s) = true

/-- Whether the records are streamed to the monitor. -/
abbrev dumpStreams : Prop :=
  bitOf (regValue s 1 .dumpCfg 0) 1 = true ∧ lifecycle s ≠ 3 ∧ (lifecycle s = 2 → s.mon.unlocked = true)

/-- The dump engine off, or the deck out of RUN: nothing is written. -/
theorem dumpStep_off (h : ¬ (bitOf (regValue s 1 .dumpCfg 0) 0 = true ∧ pstate s 1 = .run)) : dumpStep s = s :=
  if_neg fun hon => h (hon.imp id (isRun_iff s 1).mp)

/-- A full ring drops the record. -/
theorem dumpStep_full (hon : bitOf (regValue s 1 .dumpCfg 0) 0 = true) (hrun : pstate s 1 = .run) (h : ringFull s) :
    dumpStep s = { s with dump := { s.dump with dropped := min 0xFFFF (s.dump.dropped + 1) } } := by
  have hstep : dumpStep s = modDump (fun d => { d with dropped := satTo 0xFFFF (d.dropped + 1) }) s :=
    (if_pos ⟨hon, (isRun_iff s 1).mpr hrun⟩).trans (if_pos h)
  rw [hstep, modDump, satTo_eq_min]

/-- Otherwise the record is written at WPTR, and streamed where the monitor may have it. -/
theorem dumpStep_writes (hon : bitOf (regValue s 1 .dumpCfg 0) 0 = true) (hrun : pstate s 1 = .run) (h : ¬ ringFull s) :
    dumpStep s = { s with
      mem := Memory.writeBytes s.mem (deckSram + recordOff s) (dumpRecord s)
      dump := { s.dump with
        seq := (s.dump.seq + 1) % 2 ^ 32
        wptr := (s.dump.wptr + 1) % ringSlots s
        rptr := if dumpStreams s then (s.dump.wptr + 1) % ringSlots s else s.dump.rptr
        recPend := true
        records := min 0xFFFF (s.dump.records + 1) }
      mon := if dumpStreams s then { s.mon with sent := s.mon.sent ++ [⟨0x90, 0x00, dumpRecord s⟩] } else s.mon } := by
  have hmay : (lifecycle s ≠ 2 ∨ s.mon.unlocked = true) ↔ (lifecycle s = 2 → s.mon.unlocked = true) := by
    rw [imp_iff_not_or]
  have hstreams (m : Memory) (d : DumpState) : (bitOf (regValue { s with mem := m, dump := d } 1 .dumpCfg 0) 1 = true ∧
      lifecycle { s with mem := m, dump := d } ≠ 3 ∧
      (lifecycle { s with mem := m, dump := d } ≠ 2 ∨ s.mon.unlocked = true)) ↔ dumpStreams s :=
    and_congr_right fun _ => and_congr_right fun _ => hmay
  refine ((if_pos ⟨hon, (isRun_iff s 1).mpr hrun⟩).trans (if_neg h)).trans ?_
  simp only [modDump, modMon, memWriteBytes, satTo_eq_min, hstreams]
  simp only [ringSlots, recordOff, recordSize, dumpIds, allIslands]
  by_cases hs : dumpStreams s
  · simp only [if_pos hs]
  · simp only [if_neg hs]

/-! ## The strobe -/

/-- What the dump engine leaves as it was, whatever it does. -/
theorem dumpStep_eq : ∃ d m mo, dumpStep s = { s with dump := d, mem := m, mon := mo } := by
  by_cases hon : bitOf (regValue s 1 .dumpCfg 0) 0 = true ∧ pstate s 1 = .run
  · by_cases h : ringFull s
    · exact ⟨_, _, _, dumpStep_full s hon.1 hon.2 h⟩
    · exact ⟨_, _, _, dumpStep_writes s hon.1 hon.2 h⟩
  · exact ⟨_, _, _, dumpStep_off s hon⟩

/-- What a register latches depends on the registers alone. -/
theorem latchReg_dumped (i : Nat) (r : Reg) (k : Nat) (d : DumpState) (m : Memory) (mo : MonState) :
    latchReg { s with dump := d, mem := m, mon := mo } i r k =
      { s with dump := d, mem := m, mon := mo, latched := (latchReg s i r k).latched } := rfl

theorem latchReg_counted (i : Nat) (r : Reg) (k : Nat) (p : Vector PerfState 14) :
    (latchReg { s with perf := p } i r k).latched = (latchReg s i r k).latched := rfl

/-- The dump engine acts, then a register is latched and the strobe is counted: from s the counters, the latched words and
what the engine does have changed. -/
theorem strobe_eq (i : Nat) (r : Reg) (k ev : Nat) : ∃ p, countEvent 0 ev 1 (latchReg (dumpStep s) i r k) = { s with
      perf := p
      latched := (latchReg s i r k).latched
      dump := (dumpStep s).dump
      mem := (dumpStep s).mem
      mon := (dumpStep s).mon } ∧
    ∀ j : Island, (getPerf s j).Counted (vget PerfState.reset p j) := by
  obtain ⟨d, m, mo, h⟩ := dumpStep_eq s
  have hcounted := countEvent_counted (latchReg (dumpStep s) i r k) (i := 0) (by decide) ev 1
  obtain ⟨p, hp⟩ := countEvent_eq (latchReg (dumpStep s) i r k) 0 ev 1
  rw [hp] at hcounted
  rw [hp, h, latchReg_dumped]
  rw [h, latchReg_dumped] at hcounted
  exact ⟨p, rfl, fun j => hcounted j⟩

/-! ## The dump engine at a strobe -/

section
variable (p : Vector PerfState 14)

/-! The ring and the stream do not depend on the counters. -/

theorem recordOff_perf : recordOff { s with perf := p } = recordOff s := rfl
theorem ringSlots_perf : ringSlots { s with perf := p } = ringSlots s := rfl
theorem ringFull_perf : ringFull { s with perf := p } = ringFull s := rfl
theorem dumpStreams_perf : dumpStreams { s with perf := p } = dumpStreams s := rfl

end

theorem captureAll_eq : ∃ p, captureAll s = { s with perf := p } := ⟨_, rfl⟩

/-- The dump engine off, or the deck out of RUN. -/
theorem strobe_off (h : ¬ (bitOf (regValue s 1 .dumpCfg 0) 0 = true ∧ pstate s 1 = .run)) :
    (dumpStep (captureAll s)).dump = s.dump ∧ (dumpStep (captureAll s)).mem = s.mem ∧ (dumpStep (captureAll s)).mon = s.mon := by
  rw [dumpStep_off (captureAll s) h]
  exact ⟨rfl, rfl, rfl⟩

/-- A full ring. -/
theorem strobe_full (hon : bitOf (regValue s 1 .dumpCfg 0) 0 = true) (hrun : pstate s 1 = .run) (h : ringFull s) :
    (dumpStep (captureAll s)).dump = { s.dump with dropped := min 0xFFFF (s.dump.dropped + 1) } ∧
      (dumpStep (captureAll s)).mem = s.mem ∧ (dumpStep (captureAll s)).mon = s.mon := by
  obtain ⟨p, hp⟩ := captureAll_eq s
  have hstep := dumpStep_full { s with perf := p } hon hrun ((ringFull_perf s p).mpr h)
  rw [hp, hstep]
  exact ⟨rfl, rfl, rfl⟩

/-- A record written. -/
theorem strobe_writes (hon : bitOf (regValue s 1 .dumpCfg 0) 0 = true) (hrun : pstate s 1 = .run) (h : ¬ ringFull s) :
    (dumpStep (captureAll s)).mem = Memory.writeBytes s.mem (deckSram + recordOff s) (capturedRecord s) ∧
      (dumpStep (captureAll s)).dump = { s.dump with
        seq := (s.dump.seq + 1) % 2 ^ 32
        wptr := (s.dump.wptr + 1) % ringSlots s
        rptr := if dumpStreams s then (s.dump.wptr + 1) % ringSlots s else s.dump.rptr
        recPend := true
        records := min 0xFFFF (s.dump.records + 1) } ∧
      (dumpStep (captureAll s)).mon =
        if dumpStreams s then { s.mon with sent := s.mon.sent ++ [⟨0x90, 0x00, capturedRecord s⟩] } else s.mon := by
  have hrec := dumpRecord_captureAll s
  obtain ⟨p, hp⟩ := captureAll_eq s
  have hstep := dumpStep_writes { s with perf := p } hon hrun (fun hfull => h ((ringFull_perf s p).mp hfull))
  rw [hp] at hrec
  rw [hp, hstep, hrec]
  simp only [recordOff_perf, ringSlots_perf, dumpStreams_perf]
  exact ⟨trivial, rfl, rfl⟩

end Sys2Proof.Machine
end

section
/-! SUPPORT. A freeze that is released (R324, R440, R441). -/

namespace Sys2Proof.Machine

/-! ## Timed instructions that the freeze overtook (R324) -/

/-- A core once its timed instruction, if its time has come, is LATE. -/
def Core.overtaken (now : Nat) (k : Core) : Core :=
  match k.wait with
  | .timed t _ => if t ≤ now then { k with late := true } else k
  | _ => k

theorem Core.overtaken_timed {k : Core} {t : Nat} {act : TimedAct} (h : k.wait = .timed t act) (now : Nat) :
    k.overtaken now = if t ≤ now then { k with late := true } else k := by
  simp only [Core.overtaken, h]

theorem Core.overtaken_other {k : Core} (h : ∀ t act, k.wait ≠ .timed t act) (now : Nat) : k.overtaken now = k := by
  unfold Core.overtaken
  split
  next t act hw => exact absurd hw (h t act)
  next => rfl

/-- A core waiting for its time keeps LATE or has it set. -/
theorem Core.overtaken_late {k : Core} {t : Nat} {act : TimedAct} (h : k.wait = .timed t act) (now : Nat) :
    k.overtaken now = { k with late := k.late || decide (t ≤ now) } := by
  rw [overtaken_timed h]
  by_cases ht : t ≤ now
  · rw [if_pos ht, decide_eq_true ht, Bool.or_true]
  · rw [if_neg ht, decide_eq_false ht, Bool.or_false]

/-- A fold that updates one core after another is one update of the cores. -/
theorem foldl_cores {f : State → Nat → State} {g : Nat → Core → Core}
    (h : ∀ s i, ∃ p, f s i = { s with cores := vset s.cores i (g s.time.us (getCore s i)), perf := p }) (l : List Nat) (s : State) :
    ∃ p, l.foldl f s = { s with cores := l.foldl (fun v i => vset v i (g s.time.us (vget Core.reset v i))) s.cores, perf := p } := by
  induction l generalizing s with
  | nil => exact ⟨s.perf, rfl⟩
  | cons i l ih =>
    obtain ⟨p, hp⟩ := h s i
    obtain ⟨q, hq⟩ := ih (f s i)
    refine ⟨q, ?_⟩
    rw [List.foldl_cons, hq, hp]
    rfl

variable (s : State)

/-- Every waiting timed instruction whose time has passed is LATE; beside that, counters have changed. -/
theorem markLate_eq : ∃ v p, markLate s = { s with cores := v, perf := p } ∧
    ∀ i : Island, vget Core.reset v i = (getCore s i).overtaken s.time.us := by
  obtain ⟨p, hp⟩ : ∃ p, markLate s = { s with
      cores := allIslands.foldl (fun v i => vset v i ((vget Core.reset v i).overtaken s.time.us)) s.cores, perf := p } := by
    refine foldl_cores (g := Core.overtaken) (fun s i => ?_) allIslands s
    have hsame : vset s.cores i (getCore s i) = s.cores := vset_vget _ _ _
    split
    next t act hw =>
      rw [Core.overtaken_timed hw]
      by_cases ht : t ≤ s.time.us
      · rw [if_pos ht, if_pos ht]
        exact countEvent_eq (modCore i (fun k => { k with late := true }) s) i 0x00D 1
      · rw [if_neg ht, if_neg ht]
        exact ⟨s.perf, by rw [hsame]⟩
    next hw =>
      rw [Core.overtaken_other hw]
      exact ⟨s.perf, by rw [hsame]⟩
  refine ⟨_, p, hp, fun i => ?_⟩
  rw [vget_foldl_vset Core.reset (fun _ k => k.overtaken s.time.us) allIslands (fun _ => mem_allIslands.mp) List.nodup_range,
    if_pos (mem_allIslands.mpr i.2)]
  rfl

/-! ## What the deck's stocktaking keeps (R441) -/

/-- From s to t power, cores, bridges and freeze stand, and no journal record has left the queue. -/
def Thaws (s t : State) : Prop :=
  (t.power = s.power ∧ t.cores = s.cores ∧ t.lf = s.lf ∧ t.freeze = s.freeze) ∧ ∀ r ∈ s.store.queue, r ∈ t.store.queue

theorem Thaws.refl : Thaws s s := ⟨⟨rfl, rfl, rfl, rfl⟩, fun _ h => h⟩

theorem Thaws.trans {s t u : State} (h : Thaws s t) (h' : Thaws t u) : Thaws s u := by
  obtain ⟨⟨hp, hc, hl, hf⟩, hq⟩ := h
  obtain ⟨⟨hp', hc', hl', hf'⟩, hq'⟩ := h'
  exact ⟨⟨hp'.trans hp, hc'.trans hc, hl'.trans hl, hf'.trans hf⟩, fun r hr => hq' r (hq r hr)⟩

theorem Thaws.foldl {α : Type} {f : State → α → State} (h : ∀ s x, Thaws s (f s x)) (l : List α) (s : State) : Thaws s (l.foldl f s) := by
  induction l generalizing s with
  | nil => exact .refl s
  | cons x l ih => exact (h s x).trans (ih _)

theorem submitRecord_thaws (r : JRecord) : Thaws s (submitRecord r s) := by
  obtain ⟨q, c, o, m, p, h, -, hq, -⟩ := submitRecord_eq r s
  rw [h]
  exact ⟨⟨rfl, rfl, rfl, rfl⟩, hq⟩

theorem endJobs_thaws (f : Job → Bool) : Thaws s (endJobs f s) := by
  obtain ⟨g, j, h, -⟩ := endJobs_eq s f
  rw [h]
  exact .refl s

theorem lateCaptures_thaws (start b : Nat) : Thaws s (lateCaptures start b s) := by
  unfold lateCaptures
  exact .trans (.foldl (fun s _ => submitRecord_thaws s _) _ s) (.refl _)

theorem spanMove_thaws (b nxt : Nat) (st : Option Status) (seq : Nat) : Thaws s (spanMove b nxt st seq s) := by
  obtain ⟨q, c, o, m, p, h, -, hq, -⟩ := spanMove_eq b nxt st seq s
  rw [h]
  exact ⟨⟨rfl, rfl, rfl, rfl⟩, hq⟩

theorem dropHandle_thaws (b : Nat) : Thaws s (dropHandle b s) := by
  obtain ⟨g, h, -⟩ := dropHandle_eq b s
  rw [h]
  exact .refl s

theorem spanEnd_thaws (b nxt : Nat) (st : Option Status) (seq : Nat) : Thaws s (spanEnd b nxt st seq s) :=
  (spanMove_thaws s b nxt st seq).trans
    (.trans (t := dropHandle b (modBay b _ (spanMove b nxt st seq s))) (dropHandle_thaws (modBay b _ (spanMove b nxt st seq s)) b) (.refl _))

theorem spanAbort_thaws (b : Nat) (st : Status) : Thaws s (spanAbort b st s) := by
  unfold spanAbort
  dsimp only
  split
  · refine .trans ?_ (spanEnd_thaws _ _ _ _ _)
    split <;> exact .refl s
  · exact .refl s

theorem frameOpen_thaws : Thaws s (frameOpen s) := by
  unfold frameOpen
  dsimp only
  split
  · obtain ⟨l, h⟩ := latchFrame_eq (modToll (fun t => { t with frame := s.time.us / 1000, resvs := t.resvs.filter (fun x => decide (s.time.us / 1000 < x.first + x.frames)) }) s)
    rw [h]
    exact .refl s
  · exact .refl s

theorem answerReq_thaws (r : HostReq) (st : Status) (cls : Nat) (body : List Byte) : Thaws s (answerReq r st cls body s) := by
  obtain ⟨l, z, o, p, h⟩ := answerReq_eq r st cls body s
  rw [h]
  exact .refl s

theorem answerIf_thaws (r : Option HostReq) (st : Status) (cls : Nat) : Thaws s (answerIf r st cls s) := by
  obtain ⟨l, z, o, p, h⟩ := answerIf_eq r st cls s
  rw [h]
  exact .refl s

theorem spanRefuse_thaws (b : Nat) (st : Status) : Thaws s (spanRefuse b st s) := by
  unfold spanRefuse
  refine .trans ?_ (spanEnd_thaws _ _ _ _ _)
  split <;> exact .refl s

theorem jobRefused_thaws (k : JobKind) (st : Status) : Thaws s (jobRefused k st s) := by
  cases k with
  | entry b =>
    change Thaws s (if b < 64 then spanRefuse b st s else s)
    split
    · exact spanRefuse_thaws s b st
    · exact .refl s
  | timeSet => exact answerIf_thaws s _ _ _
  | lookup => exact answerIf_thaws s _ _ _
  | dbChunk => exact answerReq_thaws s _ _ _ _
  | policy => exact answerReq_thaws s _ _ _ _
  | imageVerify => exact answerReq_thaws s _ _ _ _
  | range => exact answerReq_thaws s _ _ _ _
  | tagWrite => exact answerReq_thaws s _ _ _ _
  | tune => exact answerReq_thaws s _ _ _ _
  | _ => exact .refl s

/-! ## The spans -/

/-- From s to t every bay's span is in the state it was in. -/
def SpansStand (s t : State) : Prop := ∀ b, (getSpan t b).state = (getSpan s b).state

theorem SpansStand.trans {s t u : State} (h : SpansStand s t) (h' : SpansStand t u) : SpansStand s u := fun b => (h' b).trans (h b)

theorem SpansStand.foldl {α : Type} {f : State → α → State} (l : List α) (h : ∀ s, ∀ x ∈ l, SpansStand s (f s x)) (s : State) :
    SpansStand s (l.foldl f s) := by
  induction l generalizing s with
  | nil => exact fun _ => rfl
  | cons x l ih => exact (h s x List.mem_cons_self).trans (ih (fun s y hy => h s y (List.mem_cons_of_mem _ hy)) _)

theorem submitRecord_stand (r : JRecord) : SpansStand s (submitRecord r s) := fun b => by
  rw [getSpan_eq, submitRecord_span, ← getSpan_eq]

theorem endJobs_stand (f : Job → Bool) : SpansStand s (endJobs f s) := fun b => by
  obtain ⟨g, j, h, -⟩ := endJobs_eq s f
  rw [h]
  rfl

theorem lateCaptures_stand (start : Nat) {b : Nat} (hb : b < 64) : SpansStand s (lateCaptures start b s) := by
  unfold lateCaptures
  extract_lets cs u
  have hrec : SpansStand s u := .foldl _ (fun s _ _ => submitRecord_stand s _) _
  intro b'
  rw [getSpan_modBay hb]
  split
  next h => exact h ▸ hrec b
  next => exact hrec b'

/-- A job other than a span's entry refused leaves every span. -/
theorem jobRefused_stand {k : JobKind} (hk : ∀ b, k ≠ .entry b) (st : Status) : SpansStand s (jobRefused k st s) := by
  intro b
  rw [getSpan_eq, getSpan_eq]
  cases k with
  | entry b => exact absurd rfl (hk b)
  | timeSet => exact congrArg (fun x => (SpanState.bay x b).state) (answerIf_span s _ _ _)
  | lookup => exact congrArg (fun x => (SpanState.bay x b).state) (answerIf_span s _ _ _)
  | dbChunk => exact congrArg (fun x => (SpanState.bay x b).state) (answerReq_span s _ _ _ _)
  | policy => exact congrArg (fun x => (SpanState.bay x b).state) (answerReq_span s _ _ _ _)
  | imageVerify => exact congrArg (fun x => (SpanState.bay x b).state) (answerReq_span s _ _ _ _)
  | range => exact congrArg (fun x => (SpanState.bay x b).state) (answerReq_span s _ _ _ _)
  | tagWrite => exact congrArg (fun x => (SpanState.bay x b).state) (answerReq_span s _ _ _ _)
  | tune => exact congrArg (fun x => (SpanState.bay x b).state) (answerReq_span s _ _ _ _)
  | _ => rfl

theorem frameOpen_span : (frameOpen s).span = s.span := by
  unfold frameOpen
  dsimp only
  split
  · obtain ⟨l, h⟩ := latchFrame_eq (modToll (fun t => { t with frame := s.time.us / 1000, resvs := t.resvs.filter (fun x => decide (s.time.us / 1000 < x.first + x.frames)) }) s)
    rw [h]
    rfl
  · rfl

/-- A span that recovery ends leaves every other bay. -/
theorem spanAbort_other {b b' : Nat} (hb : b < 64) (h : b' ≠ b) (st : Status) : getSpan (spanAbort b st s) b' = getSpan s b' := by
  unfold spanAbort
  dsimp only
  split
  · obtain ⟨⟨hother, -⟩, -⟩ := spanEnd_eq hb 11 st 0 (if 6 ≤ (getSpan s b).state then oweStop b (getSpan s b).counter s else s)
    rw [hother b' h]
    split <;> rfl
  · rfl

/-- A live span that recovery ends is ABORTED with its status. -/
theorem spanAbort_live {b : Nat} (hb : b < 64) (h : (getSpan s b).live = true) (st : Status) :
    (getSpan (spanAbort b st s) b).state = 11 ∧ (getSpan (spanAbort b st s) b).status = st := by
  unfold spanAbort
  dsimp only
  rw [if_pos h]
  obtain ⟨-, -, hstate, hstatus, -⟩ := spanEnd_eq hb 11 st 0 (if 6 ≤ (getSpan s b).state then oweStop b (getSpan s b).counter s else s)
  exact ⟨hstate, hstatus⟩

theorem foldl_spanAbort_other (st : Status) {l : List Nat} (hl : ∀ x ∈ l, x < 64) {b : Nat} (hb : b ∉ l) (s : State) :
    getSpan (l.foldl (fun s x => spanAbort x st s) s) b = getSpan s b := by
  induction l generalizing s with
  | nil => rfl
  | cons x l ih =>
    obtain ⟨hx, hrest⟩ := List.ne_and_not_mem_of_not_mem_cons hb
    rw [List.foldl_cons, ih (fun y hy => hl y (List.mem_cons_of_mem _ hy)) hrest,
      spanAbort_other s (hl x List.mem_cons_self) hx]

/-- Of the spans that recovery ends one after another, each live one is ABORTED. -/
theorem foldl_spanAbort_live (st : Status) {l : List Nat} (hl : ∀ x ∈ l, x < 64) (hnd : l.Nodup) {b : Nat} (hb : b ∈ l) (s : State)
    (h : (getSpan s b).live = true) :
    (getSpan (l.foldl (fun s x => spanAbort x st s) s) b).state = 11 ∧ (getSpan (l.foldl (fun s x => spanAbort x st s) s) b).status = st := by
  induction l generalizing s with
  | nil => exact absurd hb List.not_mem_nil
  | cons x l ih =>
    obtain ⟨hx, hnd'⟩ := List.nodup_cons.mp hnd
    have hl' : ∀ y ∈ l, y < 64 := fun y hy => hl y (List.mem_cons_of_mem _ hy)
    rw [List.foldl_cons]
    by_cases hbx : b = x
    · subst hbx
      rw [foldl_spanAbort_other st hl' hx]
      exact spanAbort_live s (hl b List.mem_cons_self) h st
    · have hrest : b ∈ l := (List.mem_cons.mp hb).resolve_left hbx
      refine ih hl' hnd' hrest _ ?_
      rwa [spanAbort_other s (hl x List.mem_cons_self) hbx]

/-! ## The stocktaking (R441) -/

/-- The FREEZE record's body begins with the times at which the freeze began and ended. -/
theorem freezeBody_take (x y n : Nat) : (leBytes 8 x ++ leBytes 8 y ++ leBytes 1 n).take 16 = leBytes 8 x ++ leBytes 8 y :=
  List.take_left' (by simp)

/-- The deck's stocktaking: up to the spans lost the FREEZE record is in the queue and every span stands; then those are
aborted, and the present frame opens. -/
theorem deckThaws_parts (start : Nat) : ∃ u, Thaws s u ∧ SpansStand s u ∧
    (∃ r ∈ u.store.queue, r.typ = 0x09 ∧ r.body.take 16 = leBytes 8 start ++ leBytes 8 s.time.us) ∧
    Thaws u (deckThaws start s) ∧
    (deckThaws start s).span = (((List.range 64).filter (spanLost s start)).foldl (fun s b => spanAbort b 0x16 s) u).span := by
  unfold deckThaws
  extract_lets lost hs s₁ js s₂ s₃ s₄
  obtain ⟨q, c, o, m, p, hrec, hmem, -⟩ := submitRecord_eq (deviceRecord 0x09 false s (leBytes 8 start ++ leBytes 8 s.time.us ++ leBytes 1 lost.length)) s
  have hkinds : ∀ j ∈ js, ∀ b, j.kind ≠ .entry b := by
    intro j hj b hb
    have hpick := (List.mem_filter.mp hj).2
    rw [hb] at hpick
    cases hh : j.handle <;> simp [hh] at hpick
  have h₁ : Thaws s s₁ ∧ SpansStand s s₁ := ⟨submitRecord_thaws s _, submitRecord_stand s _⟩
  have h₂ : Thaws s₁ s₂ ∧ SpansStand s₁ s₂ :=
    ⟨.foldl (fun s j => (endJobs_thaws s _).trans (jobRefused_thaws _ _ _)) _ _,
      .foldl _ (fun s j hj => (endJobs_stand s _).trans (jobRefused_stand _ (hkinds j hj) _)) _⟩
  have h₃ : Thaws s₂ s₃ ∧ SpansStand s₂ s₃ :=
    ⟨.foldl (fun s b => lateCaptures_thaws s start b) _ _,
      .foldl _ (fun s b hb => lateCaptures_stand s start (List.mem_range.mp hb)) _⟩
  have h₄ : Thaws s₃ s₄ := .foldl (fun s b => spanAbort_thaws s b 0x16) _ _
  have hq : ∃ r ∈ s₃.store.queue, r.typ = 0x09 ∧ r.body.take 16 = leBytes 8 start ++ leBytes 8 s.time.us := by
    have hin : deviceRecord 0x09 false s (leBytes 8 start ++ leBytes 8 s.time.us ++ leBytes 1 lost.length) ∈ s₁.store.queue := by
      simp only [s₁, hrec]
      exact hmem
    exact ⟨_, h₃.1.2 _ (h₂.1.2 _ hin), rfl, freezeBody_take _ _ _⟩
  refine ⟨s₃, h₁.1.trans (h₂.1.trans h₃.1), h₁.2.trans (h₂.2.trans h₃.2), hq, ?_, ?_⟩
  · exact h₄.trans (frameOpen_thaws (modToll _ s₄))
  · exact frameOpen_span _

/-- A span that the freeze cost is ABORTED with 0x16. -/
theorem deckThaws_lost (start : Nat) {b : Nat} (hb : b < 64) (hlost : spanLost s start b = true) :
    (getSpan (deckThaws start s) b).state = 11 ∧ (getSpan (deckThaws start s) b).status = 0x16 := by
  obtain ⟨u, -, hstand, -, -, hspan⟩ := deckThaws_parts s start
  have hlive : (getSpan u b).live = true := by
    have h : (getSpan s b).live = true := (Bool.and_eq_true_iff.mp hlost).1
    unfold Span.live at h ⊢
    rwa [hstand b]
  rw [getSpan_eq, hspan, ← getSpan_eq]
  exact foldl_spanAbort_live 0x16 (fun x hx => List.mem_range.mp (List.mem_of_mem_filter hx)) (List.nodup_range.filter _)
    (List.mem_filter.mpr ⟨List.mem_range.mpr hb, hlost⟩) u hlive

/-! ## What follows a freeze (R441) -/

/-- The bridges of running islands driven again, the viaduct as `v`. -/
def driven (v : ViaState) (s : State) : State :=
  { s with via := v, lf := { s.lf with released := Vector.ofFn (fun n : Fin 8 => !isRun s (6 + n.val)) } }

/-- The deck, if it acts, takes stock once the viaduct's watchdogs go on and the bridges are driven. -/
theorem freezeAftermath_eq (start : Nat) : ∃ v, freezeAftermath start s =
    if canAct s 1 = true then deckThaws start (driven v s) else driven v s := ⟨_, rfl⟩

theorem freezeAftermath_keeps (start : Nat) : (freezeAftermath start s).power = s.power ∧ (freezeAftermath start s).cores = s.cores ∧
    (freezeAftermath start s).lf.released = Vector.ofFn (fun n : Fin 8 => !isRun s (6 + n.val)) ∧
    (freezeAftermath start s).freeze = s.freeze := by
  obtain ⟨v, h⟩ := freezeAftermath_eq s start
  rw [h]
  split
  · obtain ⟨u, h₁, -, -, h₂, -⟩ := deckThaws_parts (driven v s) start
    obtain ⟨hpower, hcores, hlf, hfreeze⟩ := (h₁.trans h₂).1
    exact ⟨hpower, hcores, congrArg LfState.released hlf, hfreeze⟩
  · exact ⟨rfl, rfl, rfl, rfl⟩

/-- On a running deck the FREEZE record is journalled, and the spans that the freeze cost are ABORTED with 0x16. -/
theorem freezeAftermath_deck (start : Nat) (h1 : canAct s 1 = true) :
    (∃ r ∈ (freezeAftermath start s).store.queue, r.typ = 0x09 ∧ r.body.take 16 = leBytes 8 start ++ leBytes 8 s.time.us) ∧
    ∀ b : Bay, spanLost s start b = true →
      (getSpan (freezeAftermath start s) b).state = 11 ∧ (getSpan (freezeAftermath start s) b).status = 0x16 := by
  obtain ⟨v, h⟩ := freezeAftermath_eq s start
  rw [if_pos h1] at h
  rw [h]
  obtain ⟨u, -, -, ⟨r, hr, hfreeze⟩, ht, -⟩ := deckThaws_parts (driven v s) start
  exact ⟨⟨r, ht.2 r hr, hfreeze⟩, fun b hlost => deckThaws_lost _ start b.2 hlost⟩

/-- A deadline that passed during the freeze costs the span. -/
theorem spanLost_of_deadline {start b : Nat}
    (h : 2 ≤ (getSpan s b).state ∧ (getSpan s b).state ≤ 4 ∧ (∃ x, (getSpan s b).authLeft = some x ∧ start < x ∧ x ≤ s.time.us) ∨
      (getSpan s b).state = 5 ∧ ∃ x, (getSpan s b).relLeft = some x ∧ start < x ∧ x ≤ s.time.us) : spanLost s start b = true := by
  have hpassed : ∀ d : Option Nat, (∃ x, d = some x ∧ start < x ∧ x ≤ s.time.us) → passedIn start s.time.us d = true := by
    rintro _ ⟨x, rfl, hlo, hhi⟩
    simp [passedIn, hlo, hhi]
  unfold spanLost Span.live
  rcases h with ⟨h2, h4, hauth⟩ | ⟨h5, hrel⟩
  · have h1 : 1 ≤ (getSpan s b).state := by omega
    have h8 : (getSpan s b).state ≤ 8 := by omega
    simp [h1, h8, h2, h4, hpassed _ hauth]
  · simp [h5, hpassed _ hrel]

/-- FREEZE_RELEASE of a freeze that the monitor does not hold. -/
theorem execFreezeRelease_eq (hf : s.freeze.frozen = true) (hm : s.freeze.mon = false) : ∃ v p, execFreezeRelease s =
      .next (freezeAftermath s.freeze.start { s with freeze := { s.freeze with pin := false, frozen := false }, cores := v, perf := p }) ∧
    ∀ i : Island, vget Core.reset v i = (getCore s i).overtaken s.time.us := by
  obtain ⟨v, p, h, hv⟩ := markLate_eq { s with freeze := { s.freeze with pin := false, frozen := false } }
  refine ⟨v, p, ?_, hv⟩
  rw [← h]
  unfold execFreezeRelease tryRelease
  rw [if_pos ⟨hf, rfl, hm⟩]

/-- FREEZE_RELEASE while the monitor holds the freeze, or with no freeze. -/
theorem execFreezeRelease_held (h : s.freeze.frozen = false ∨ s.freeze.mon = true) :
    execFreezeRelease s = .next { s with freeze := { s.freeze with pin := false } } := by
  refine congrArg _ (if_neg fun hrel => ?_)
  obtain ⟨hf, -, hm⟩ := hrel
  change s.freeze.frozen = true at hf
  change s.freeze.mon = false at hm
  rcases h with h | h
  · exact Bool.false_ne_true (h.symm.trans hf)
  · exact Bool.false_ne_true (hm.symm.trans h)

end Sys2Proof.Machine
end

section
/-! The statement about counters and the freeze (17_observability_and_freeze.md). -/

namespace Sys2Proof.Proofs

open Sys2Proof Sys2Proof.Machine

/-- COUNTER_HI_WRITE of CYC_HI. -/
theorem cycHi_written (s : State) {ini i : Island} (hr : canReach s ini i = true) (ha : canAct s i = true) (d : Word) :
    ∃ t, exec (.counterHiWrite ini (BitVec.ofNat 32 (regAddr i .cycHi 0)) d) s = .next t ∧
      (answerOf t ini = ⟨[], 0x00⟩ ∧ { t with via := s.via, perf := s.perf, wshadow := s.wshadow } = s) ∧
      (getPerf t i).cyc = SMap.get 0 (shadowKey ini (regAddr i .cycLo 0)) s.wshadow + 2 ^ 32 * d.toNat := by
  obtain ⟨p, hp, -⟩ := counterHi_access s ini i
  have hexec := execCounterHiWrite_eq s hr ha (mem_counterHiRegs.mpr (.inl ⟨rfl, rfl⟩)) d
  rw [hp] at hexec
  obtain ⟨w, q, hw⟩ := counterHi_eq { s with perf := p } ini i .cycHi 0 d.toNat
  have hcyc := congrArg PerfState.cyc (getPerf_counterHi_cyc { s with perf := p } i.2 ini 0 d.toNat)
  rw [hw] at hexec hcyc
  exact ⟨_, hexec, ⟨vget_vset_self _ _ _ ini.2, rfl⟩, hcyc⟩

/-- COUNTER_HI_WRITE of PMC_HI k. -/
theorem pmcHi_written (s : State) {ini i : Island} (hr : canReach s ini i = true) (ha : canAct s i = true) (d : Word) (k : Fin 8) :
    ∃ t, exec (.counterHiWrite ini (BitVec.ofNat 32 (regAddr i .pmcHi k)) d) s = .next t ∧
      (answerOf t ini = ⟨[], 0x00⟩ ∧ { t with via := s.via, perf := s.perf, wshadow := s.wshadow } = s) ∧
      (getPerf t i).cyc = (getPerf s i).cyc ∧
      vget 0 (getPerf t i).pmc k = SMap.get 0 (shadowKey ini (regAddr i .pmcLo k)) s.wshadow + 2 ^ 32 * (d.toNat % 2 ^ 16) := by
  obtain ⟨p, hp, hcounted⟩ := counterHi_access s ini i
  have hexec := execCounterHiWrite_eq s hr ha (mem_counterHiRegs.mpr (.inr ⟨rfl, k.2⟩)) d
  rw [hp] at hexec
  obtain ⟨w, q, hw⟩ := counterHi_eq { s with perf := p } ini i .pmcHi k d.toNat
  have hset := getPerf_counterHi_pmc { s with perf := p } i.2 ini k d.toNat
  have hcyc := (congrArg PerfState.cyc hset).trans hcounted.cyc_eq
  have hpmc := (congrArg (fun q => vget 0 q.pmc k.val) hset).trans (vget_vset_self _ _ _ k.2)
  rw [hw] at hexec hcyc hpmc
  exact ⟨_, hexec, ⟨vget_vset_self _ _ _ ini.2, rfl⟩, hcyc, hpmc⟩

/-- PMC_OVERFLOW of a counter that counts. -/
theorem pmcOverflow_counts (s : State) (i : Island) (k : Fin 8) (n : Nat)
    (h : bitOf (regValue s i .perfCtrl 0) (1 + k) = true ∧ pstate s i = .run ∧ s.freeze.frozen = false)
    (hwrap : 2 ^ 48 ≤ vget 0 (getPerf s i).pmc k + n) : exec (.pmcOverflow i k n) s = .next { s with perf := vset s.perf i { getPerf s i with
      pmc := vset (getPerf s i).pmc k ((vget 0 (getPerf s i).pmc k + n) % 2 ^ 48)
      ovf := (getPerf s i).ovf ||| 2 ^ k.val } } := by
  obtain ⟨hbit, hrun, hfrozen⟩ := h
  have hcounts : pmcCounts s i k = true := by simp [pmcCounts, hbit, (isRun_iff s i).mpr hrun, hfrozen]
  exact congrArg _ (if_pos ⟨hcounts, hwrap⟩)

/-- PMC_OVERFLOW of a counter that does not count now. -/
theorem pmcOverflow_stopped (s : State) (i : Island) (k : Fin 8) (n : Nat)
    (h : ¬ (bitOf (regValue s i .perfCtrl 0) (1 + k) = true ∧ pstate s i = .run ∧ s.freeze.frozen = false)) :
    exec (.pmcOverflow i k n) s = .next s := by
  refine congrArg _ (if_neg fun hc => h ?_)
  obtain ⟨hcounts, -⟩ := hc
  simpa [pmcCounts, isRun_iff, and_assoc] using hcounts

/-- DUMP_ENABLE of a running deck. -/
theorem dumpEnable_on (s : State) {ini : Island} (hr : canReach s ini 1 = true) (ha : canAct s 1 = true) :
    ∃ p, exec (.dumpEnable ini) s = .next (setResp ini [] 0x00
      { putReg s 1 .dumpCfg 0 (regValue s 1 .dumpCfg 0 - regValue s 1 .dumpCfg 0 % 2 + 1) with
        perf := p, dump := { s.dump with seq := 0, wptr := 0, rptr := 0 } }) := by
  have hplace : placeOf (regAddr 1 .dumpCfg 0 / 4 * 4) = .reg 1 := by decide
  have hdec : decodeReg (regAddr 1 .dumpCfg 0 / 4 * 4) = some (1, rowFor 1 .dumpCfg, 0) := by decide
  have hreach : canReachAddr s ini (regAddr 1 .dumpCfg 0) = true := by
    have hisland : placeOf (regAddr 1 .dumpCfg 0) = .reg 1 := by decide
    rw [canReachAddr, hisland]
    exact hr
  obtain ⟨p, h⟩ := viaRegWrite_reg s hreach hplace ha hdec (t := { putReg s 1 .dumpCfg 0 (regValue s 1 .dumpCfg 0 - regValue s 1 .dumpCfg 0 % 2 + 1) with
      dump := { s.dump with seq := 0, wptr := 0, rptr := 0 } }) (fun p => by
    have hwrite := regWrite_dumpEnable { s with perf := p } ini (regAddr 1 .dumpCfg 0 / 4 * 4)
    rw [regValue_perf] at hwrite
    exact ⟨p, hwrite⟩)
  exact ⟨p, congrArg _ h⟩

/-- SNAPSHOT_STROBE off a multiple of PERIOD, with PERIOD 0, or frozen. -/
theorem snapshotStrobe_idle (s : State) (h : regValue s 0 .dumpPeriod 0 % 2 ^ 24 = 0 ∨ s.time.us % (regValue s 0 .dumpPeriod 0 % 2 ^ 24) ≠ 0 ∨
    s.freeze.frozen = true) : exec .snapshotStrobe s = .next s := by
  have hperiod : bitsOf (regValue s 0 .dumpPeriod 0) 0 24 = regValue s 0 .dumpPeriod 0 % 2 ^ 24 := by simp [bitsOf]
  refine congrArg _ (if_neg fun hgo => ?_)
  rw [hperiod] at hgo
  obtain ⟨hne, hmul, hfrozen⟩ := hgo
  rcases h with h | h | h
  · exact hne h
  · exact h hmul
  · exact Bool.false_ne_true (hfrozen.symm.trans h)

/-- SNAPSHOT_STROBE at a multiple of PERIOD: the counters are captured, then the dump engine acts and PERIOD is latched. -/
theorem snapshotStrobe_taken (s : State) (hne : regValue s 0 .dumpPeriod 0 % 2 ^ 24 ≠ 0)
    (hmul : s.time.us % (regValue s 0 .dumpPeriod 0 % 2 ^ 24) = 0) (hfrozen : s.freeze.frozen = false) :
    ∃ p, exec .snapshotStrobe s = .next { s with
        perf := p
        latched := (latchReg s 0 .dumpPeriod 0).latched
        dump := (dumpStep (captureAll s)).dump
        mem := (dumpStep (captureAll s)).mem
        mon := (dumpStep (captureAll s)).mon } ∧
      ∀ i : Island, ((vget PerfState.reset p i).snapCyc, (vget PerfState.reset p i).snapPmc, (vget PerfState.reset p i).snapOvf) =
        if pstate s i = .run then ((getPerf s i).cyc, (getPerf s i).pmc, (getPerf s i).ovf)
        else ((getPerf s i).snapCyc, (getPerf s i).snapPmc, (getPerf s i).snapOvf) := by
  have hperiod : bitsOf (regValue s 0 .dumpPeriod 0) 0 24 = regValue s 0 .dumpPeriod 0 % 2 ^ 24 := by simp [bitsOf]
  obtain ⟨p, hp, hcounted⟩ := strobe_eq (captureAll s) 0 .dumpPeriod 0 0x045
  refine ⟨p, ?_, fun i => ?_⟩
  · unfold exec execSnapshotStrobe
    simp only [hperiod]
    rw [if_pos ⟨hne, hmul, hfrozen⟩, hp]
    rfl
  · rw [(hcounted i).snaps_eq, getPerf_captureAll s i.2]
    split <;> rfl

/-- FREEZE_REQUEST, by the lifecycle, the freeze and PARK. -/
theorem freezeRequested (s : State) (src : FreezeSource) :
    let woken := { s.park with wakePend := s.park.wakePend ||| 0x80 }
    let asked := s.freeze.asked src
    (lifecycle s ≠ 1 → exec (.freezeRequest src) s = .next { s with park := woken }) ∧
    (lifecycle s = 1 → s.freeze.frozen = true ∨ s.park.phase = .querying → exec (.freezeRequest src) s = .next { s with park := woken, freeze := asked }) ∧
    (lifecycle s = 1 → s.freeze.frozen = false → s.park.phase ≠ .idle → s.park.phase ≠ .querying →
      exec (.freezeRequest src) s = .next { s with park := { woken with freezeAtResume := true }, freeze := asked }) ∧
    (lifecycle s = 1 → s.freeze.frozen = false → s.park.phase = .idle →
      exec (.freezeRequest src) s = .next (freezeNow { s with park := woken, freeze := asked })) := by
  have hexec : exec (.freezeRequest src) s = .next (freezeRequest src s) := rfl
  rw [hexec, freezeRequest_eq]
  refine ⟨fun hl => by rw [if_pos hl], fun hl hf => by rw [if_neg (not_not.mpr hl), if_pos hf], fun hl hf hi hq => ?_, fun hl hf hi => ?_⟩
  · rw [if_neg (not_not.mpr hl), if_neg (by simp [hf, hq]), if_neg hi]
  · rw [if_neg (not_not.mpr hl), if_neg (by simp [hf, hi]), if_pos hi]

/-- FREEZE_RELEASE of a freeze that the monitor does not hold: what stands, and what the deck journals and ends. -/
theorem freezeReleased (s : State) (hf : s.freeze.frozen = true) (hm : s.freeze.mon = false) : ∃ t, exec .freezeRelease s = .next t ∧
    t.freeze = { s.freeze with pin := false, frozen := false } ∧ t.power = s.power ∧
    (∀ i : Island, getCore t i = (getCore s i).overtaken s.time.us) ∧
    t.lf.released = Vector.ofFn (fun n : Fin 8 => !isRun s (6 + n.val)) ∧
    (pstate s 1 = .run →
      (∃ r ∈ t.store.queue, r.typ = 0x09 ∧ r.body.take 16 = leBytes 8 s.freeze.start ++ leBytes 8 s.time.us) ∧
      ∀ b : Bay, spanLost s s.freeze.start b = true → (getSpan t b).state = 11 ∧ (getSpan t b).status = 0x16) := by
  obtain ⟨v, p, hexec, hv⟩ := execFreezeRelease_eq s hf hm
  have hkeeps := freezeAftermath_keeps { s with freeze := { s.freeze with pin := false, frozen := false }, cores := v, perf := p } s.freeze.start
  have hdeck := freezeAftermath_deck { s with freeze := { s.freeze with pin := false, frozen := false }, cores := v, perf := p } s.freeze.start
  obtain ⟨hpower, hcores, hlf, hfreeze⟩ := hkeeps
  refine ⟨_, hexec, hfreeze, hpower, fun i => ?_, hlf, fun hrun => ?_⟩
  · rw [getCore, hcores]
    exact hv i
  · exact hdeck (by simp [canAct, isRun, pstate] at hrun ⊢; exact hrun)

/-- Settles O52: each row by what its operation is from its state. A counter's HI register is reached through the viaduct, the
strobe captures before the dump engine acts, a freeze request by the lifecycle and PARK, and a release by what the deck's
stocktaking keeps. -/
theorem countersAndFreeze : Obligations.CountersAndFreeze := by
  unfold Obligations.CountersAndFreeze
  intro s
  refine ⟨fun ini i d hr ha => ⟨cycHi_written s hr ha d, pmcHi_written s hr ha d⟩,
    fun i k n => ⟨pmcOverflow_counts s i k n, pmcOverflow_stopped s i k n⟩,
    ⟨snapshotStrobe_idle s, fun hne hmul hfrozen => ?_⟩, fun ini hr ha => dumpEnable_on s hr ha, fun src => ?_,
    execFreezeRelease_held s, fun hf hm => ?_⟩
  · obtain ⟨p, hexec, hsnaps⟩ := snapshotStrobe_taken s hne hmul hfrozen
    refine ⟨_, hexec, rfl, rfl, hsnaps, fun hoff => ?_, fun hon hrun hfull => ?_, fun hon hrun hfull => ?_⟩
    · exact strobe_off s hoff
    · exact strobe_full s hon hrun hfull
    · exact strobe_writes s hon hrun hfull
  · intro woken asked
    obtain ⟨hlocked, hheld, hpark, hnow⟩ := freezeRequested s src
    refine ⟨hlocked, hheld, hpark, fun hl hf hi => ?_⟩
    obtain ⟨v, p, h, hport⟩ := freezeNow_eq { s with park := { s.park with wakePend := s.park.wakePend ||| 0x80 }, freeze := s.freeze.asked src }
    refine ⟨_, (hnow hl hf hi).trans (congrArg _ h), rfl, rfl, rfl, rfl, fun i hi => ⟨?_, hport i hi⟩, rfl⟩
    simp [canAct, hi]
  · obtain ⟨t, hexec, hfreeze, hpower, hcores, hlf, hdeck⟩ := freezeReleased s hf hm
    have hstate : ∀ i, pstate t i = pstate s i := fun i => by rw [pstate, hpower, ← pstate]
    refine ⟨t, hexec, hfreeze, fun i => ⟨hstate i, fun at_ tgt hw => ?_⟩, fun n => ?_, fun hrun => ?_⟩
    · rw [hcores i, Core.overtaken_late hw]
    · rw [hlf]
      simp [vget, isRun]
    · obtain ⟨hrec, hlost⟩ := hdeck hrun
      exact ⟨hrec, fun b hb => hlost b (spanLost_of_deadline s hb)⟩

end Sys2Proof.Proofs
end
